-- ==== Sys2Proof/Word.lean ====
section
/-! DEFINITION. The word types of the part. -/

namespace Sys2Proof

/-- One byte (R6: data is little-endian, bit 0 is least significant). -/
abbrev Byte := BitVec 8
/-- A 32-bit word: a register, a cell, a lane of a bus. -/
abbrev Word := BitVec 32
/-- A 64-bit word. -/
abbrev DWord := BitVec 64

end Sys2Proof
end

