-- ==== Sys2Proof/Syntax.lean ====
section
/-! DEFINITION. The commands of the block: one constructor per row of spec/opcode_table.json, with the operands the
row's rule gives it, and the plain types those operands are made of. -/

namespace Sys2Proof

/-- The kinds of register page (R24 to R28, Table: Cluster register pages and Table: System register pages), with the
queue control blocks, the doorbell pages and the vendor DVSEC, which are register blocks without the common header. -/
inductive PageKind where
  | dtb | rst | pwr | eg | sec | fls | sramSys | ird | ac | mmu | pairSys | sdma | cxl | cmd | str | strCommon
  | frm | pwg0 | pwg1 | adc | sdm | smp | cmp | qdec | cap | sep | liu | cdma | pairC | sramC | ce
  | qcb | db | dvsec | msix
  deriving DecidableEq, Repr

/-- A register page: its kind and its instance (a cluster, an engine, 8c + j for ADC core j of cluster c, a queue). -/
structure PageId where
  kind : PageKind
  inst : Nat
  deriving DecidableEq, Repr

/-- A voltage in nV that a pin reaches, and whether it leaves again before a PWM clock edge (R150, R152). -/
structure PinLevel where
  nV    : Int
  brief : Bool
  deriving DecidableEq, Repr

/-- A level that a pin takes, and for how many PWM clock cycles it holds (R167). -/
structure HeldLevel where
  level : Bool
  held  : Nat
  deriving DecidableEq, Repr

/-- A core: a control engine or an application core. -/
inductive CoreId where
  | ce (e : Fin 64)
  | ac (a : Fin 8)
  deriving DecidableEq, Repr

/-- Who makes a bus access. -/
inductive Initiator where
  /-- A core's own access. -/
  | core (c : CoreId)
  /-- The host through BAR0 or BAR2. -/
  | host
  /-- A system DMA channel. -/
  | sdma (n : Fin 32)
  /-- A cluster DMA channel. -/
  | cdma (c : Fin 8) (i : Fin 8)
  /-- A fabric frame from another device. -/
  | fabric
  /-- The debug port. -/
  | debug
  deriving DecidableEq, Repr

/-- A link of the fabric between port `pa` of device `a` and port `pb` of device `b` (R555, R567). -/
structure FabLink where
  a  : Nat
  pa : Nat
  b  : Nat
  pb : Nat
  deriving DecidableEq, Repr

/-- What a fabric frame carries beside its header (R551, R555, R558, R559, R562, R564, R567, R570). The spec gives the
SYNC payload byte by byte; of the other types it says what they carry. -/
inductive FrameBody where
  | stop
  /-- Origin time and fraction, correction in 2^-16 ns, MFN, its start, the period, hops from the root. -/
  | sync (ns : DWord) (frac : Word) (corr : DWord) (mfn : BitVec 48) (mft : DWord) (mfp : Word) (hops : Word)
  /-- A request, or a reply with the responder's turnaround in 2^-4 ns. -/
  | delay (reply : Option Nat)
  | linkdown (l : FabLink)
  | cyclic (ch : Nat) (mfn : BitVec 48) (data : List Byte)
  | write (off : Nat) (data : List Byte)
  | read (off : Nat) (size : Nat)
  /-- Read data, an acknowledgement (no bytes), or a refusal. -/
  | resp (ok : Bool) (data : List Byte)
  /-- A probe on a port of the receiver, or (port 9) a question for `CARRUN` alone. -/
  | disc (port : Nat)
  /-- Serial, the answering port, the up state of the ports, `CARRUN`, the ROOT strap, the address already held. -/
  | discr (serial : BitVec 128) (port : Nat) (ups : BitVec 4) (carrun strap : Bool) (addr : Nat)
  /-- The receiver's address, hops, port to its parent, ports to its children, the links, and its routing table as
  (destination, primary, alternate, hops). -/
  | topo (addr hops pport : Nat) (kids : BitVec 4) (links : List FabLink) (routes : List (Nat × Nat × Nat × Nat))
  deriving DecidableEq, Repr

/-- A fabric frame: its header flit (R550) and what it carries; `good` says that its CRC held and it closed with
EOF_GOOD. -/
structure Frame where
  tc   : Nat
  dst  : Nat
  src  : Nat
  hops : Nat
  seq  : Nat
  body : FrameBody
  good : Bool
  deriving DecidableEq, Repr

/-- What the debug port does to a halted core or to the system physical map (R225): a bank is 0 FG, 1 TL (or U), 2 S,
3 M; a write carries its value. -/
inductive DebugOp where
  | cell (bank : Fin 4) (i : Nat) (w : Option Word)
  | ret (bank : Fin 4) (i : Nat) (w : Option Word)
  | csr (bank : Fin 4) (n : BitVec 8) (w : Option Word)
  | mem (a n : Nat) (w : Option (List Byte))
  deriving DecidableEq, Repr

/-- Who makes a register access, and whether it is an M-level access (R312). -/
structure Access where
  by_ : Initiator
  m   : Bool
  deriving DecidableEq, Repr

/-- A frame's header flit alone, with the verdict of its CRC (R550). DEDUCED (log 54). -/
structure FrameHead where
  tc   : Nat
  dst  : Nat
  src  : Nat
  hops : Nat
  seq  : Nat
  good : Bool
  deriving DecidableEq, Repr

/-- The frame of a header and what it carries. -/
def FrameHead.frame (h : FrameHead) (b : FrameBody) : Frame := ⟨h.tc, h.dst, h.src, h.hops, h.seq, b, h.good⟩

/-- The commands, in the order of spec/opcode_table.json; each names its row and the row's rule. -/
inductive Instr where
  /-- REGISTER_WRITE (R14). -/
  | registerWrite (x : Access) (p : PageId) (off : Nat) (v mask : Word)
  /-- PAGE_LOCK_WRITE (R13). -/
  | pageLockWrite (x : Access) (p : PageId)
  /-- SOFT_RESET (R13). -/
  | softReset (x : Access) (p : PageId) (v : Word)
  /-- DTB_SOFT_RESET (R591). -/
  | dtbSoftReset (x : Access) (v : Word)
  /-- FRM_SOFT_RESET (R596). -/
  | frmSoftReset (x : Access) (c : Fin 8) (v : Word)
  /-- PWG_PAGE0_SOFT_RESET (R592). -/
  | pwgPage0SoftReset (x : Access) (c : Fin 8) (v : Word)
  /-- PWG_PAGE1_SOFT_RESET (R593). -/
  | pwgPage1SoftReset (x : Access) (c : Fin 8) (v : Word)
  /-- SMP_SOFT_RESET (R595). -/
  | smpSoftReset (x : Access) (c : Fin 8) (v : Word)
  /-- CMP_SOFT_RESET (R594). -/
  | cmpSoftReset (x : Access) (c : Fin 8) (v : Word)
  /-- BRIDGE_CRC_FAIL (R19). -/
  | bridgeCrcFail
  /-- BRIDGE_REPLAY_DONE (R19). -/
  | bridgeReplayDone (ok : Bool)
  /-- BRIDGE_RETRAIN_DONE (R19). -/
  | bridgeRetrainDone (ok : Bool)
  /-- BRIDGE_HOLD_EXPIRY (R20). -/
  | bridgeHoldExpiry
  /-- BRIDGE_LANE_SLEEP (R18). -/
  | bridgeLaneSleep
  /-- BRIDGE_LANE_WAKE (R18). -/
  | bridgeLaneWake
  /-- DTB_INC_WRITE (R35). -/
  | dtbIncWrite (x : Access) (v mask : Word)
  /-- DTB_CMD_LOAD (R40). -/
  | dtbCmdLoad (x : Access)
  /-- DTB_CMD_STEP (R40). -/
  | dtbCmdStep (x : Access)
  /-- DTB_CMD_MFLOAD (R51). -/
  | dtbCmdMfload (x : Access)
  /-- DTB_CMD_TLCLR (R65). -/
  | dtbCmdTlclr (x : Access)
  /-- DTB_CMD_PTMREQ (R67). -/
  | dtbCmdPtmreq (x : Access)
  /-- DTB_CTL_WRITE (R64). -/
  | dtbCtlWrite (x : Access) (v mask : Word)
  /-- DTB_MFP_WRITE (R51). -/
  | dtbMfpWrite (x : Access) (v mask : Word)
  /-- DTB_WRAP (R37). -/
  | dtbWrap
  /-- DTB_NS_LO_READ (R38). -/
  | dtbNsLoRead (x : Access)
  /-- FRM_DTB_LO_READ (R39). -/
  | frmDtbLoRead (x : Access) (c : Fin 8)
  /-- FRM_TICK_DTB_LO_READ (R53). -/
  | frmTickDtbLoRead (x : Access) (c : Fin 8)
  /-- DTB_MFN_LO_READ (R51). -/
  | dtbMfnLoRead (x : Access)
  /-- DTB_PTM_OFS_LO_READ (R67). -/
  | dtbPtmOfsLoRead (x : Access)
  /-- MACHINE_FRAME_BOUNDARY (R51). -/
  | machineFrameBoundary
  /-- TIME_HOLDOVER (R65). -/
  | timeHoldover
  /-- FABRIC_TIME_LOST (R65). -/
  | fabricTimeLost
  /-- PTM_DIALOG_DUE (R67). -/
  | ptmDialogDue
  /-- PTM_RESPONSE (R67). -/
  | ptmResponse (host : Option DWord)
  /-- FRM_RUN_START (R47). -/
  | frmRunStart (x : Access) (c : Fin 8) (v : Word)
  /-- FRM_RUN_STOP (R48). -/
  | frmRunStop (x : Access) (c : Fin 8) (v : Word)
  /-- FRM_LEAD_WRITE (R54). -/
  | frmLeadWrite (x : Access) (c : Fin 8) (v mask : Word)
  /-- FRM_FCNT_WRITE (R50). -/
  | frmFcntWrite (x : Access) (c : Fin 8) (v mask : Word)
  /-- CARRIER_FIRST_VALLEY (R47). -/
  | carrierFirstValley (c : Fin 8)
  /-- CARRIER_VALLEY (R41). -/
  | carrierValley (c : Fin 8)
  /-- CARRIER_APEX (R41). -/
  | carrierApex (c : Fin 8)
  /-- LEAD_WINDOW_OPEN (R54). -/
  | leadWindowOpen (c : Fin 8)
  /-- FRAME_DEADLINE (R61). -/
  | frameDeadline (c : Fin 8)
  /-- PWG_CH_CTL_WRITE (R72). -/
  | pwgChCtlWrite (x : Access) (c : Fin 8) (k : Fin 18) (v mask : Word)
  /-- PWG_PER_WRITE (R84). -/
  | pwgPerWrite (x : Access) (c : Fin 8) (v mask : Word)
  /-- PWG_CMP_WRITE (R84). -/
  | pwgCmpWrite (x : Access) (c : Fin 8) (k : Fin 18) (isU : Bool) (v mask : Word)
  /-- PWG_TOKEN_WRITE (R86). -/
  | pwgTokenWrite (x : Access) (c : Fin 8) (v : Word)
  /-- DUTY_WORD_ARRIVAL (R83). -/
  | dutyWordArrival (c i : Fin 8)
  /-- COMPARE_MATCH (R75). -/
  | compareMatch (c : Fin 8) (k : Fin 18) (isU : Bool)
  /-- DEAD_TIME_EXPIRY (R78). -/
  | deadTimeExpiry (c : Fin 8) (k : Fin 18)
  /-- PWG_SAFE_SET_WRITE (R98). -/
  | pwgSafeSetWrite (x : Access) (c : Fin 8) (v : Word)
  /-- PWG_SAFE_REL_WRITE (R100). -/
  | pwgSafeRelWrite (x : Access) (c : Fin 8) (v : Word)
  /-- PWG_SAFE_CAUSE_WRITE (R101). -/
  | pwgSafeCauseWrite (x : Access) (c : Fin 8) (v mask : Word)
  /-- PWG_TRIP_SW_WRITE (R102). -/
  | pwgTripSwWrite (x : Access) (c : Fin 8) (v mask : Word)
  /-- PWG_TRIP_CLR_WRITE (R105). -/
  | pwgTripClrWrite (x : Access) (c : Fin 8) (v : Word)
  /-- TRIP_SOURCE_ACTIVE (R103). -/
  | tripSourceActive (c : Fin 8) (i : Fin 16)
  /-- PWG_BLK_CTL_WRITE (R109). -/
  | pwgBlkCtlWrite (x : Access) (c : Fin 8) (u : Fin 4) (src : Bool) (v mask : Word)
  /-- BLANKING_WINDOW_CLOSE (R110). -/
  | blankingWindowClose (c : Fin 8) (u : Fin 4)
  /-- STOP_N_FALL (R98). -/
  | stopNFall
  /-- SAMPLE_ENTRY_ACT (R121). -/
  | sampleEntryAct (c : Fin 8) (x : Fin 64) (level : Int)
  /-- ADC_CONVERSION_END (R116). -/
  | adcConversionEnd (c j : Fin 8)
  /-- SAMPLE_PORT_ARRIVAL (R21). -/
  | samplePortArrival (c i : Fin 8)
  /-- SMP_FIFO_LO_READ (R131). -/
  | smpFifoLoRead (x : Access) (c : Fin 8) (wide : Bool)
  /-- SMP_CMD_SWAP (R125). -/
  | smpCmdSwap (x : Access) (c : Fin 8)
  /-- SMP_CMD_SWAPM (R126). -/
  | smpCmdSwapm (x : Access) (c : Fin 8)
  /-- SMP_CMD_CHECK (R125). -/
  | smpCmdCheck (x : Access) (c : Fin 8)
  /-- SMP_CMD_FCLR (R131). -/
  | smpCmdFclr (x : Access) (c : Fin 8)
  /-- SMP_CMD_DISARM (R126). -/
  | smpCmdDisarm (x : Access) (c : Fin 8)
  /-- TABLE_CHECK_DONE (R125). -/
  | tableCheckDone (c : Fin 8)
  /-- SAMPLE_TABLE_SWAP (R126). -/
  | sampleTableSwap (c : Fin 8)
  /-- SMP_CTL_WRITE (R142). -/
  | smpCtlWrite (x : Access) (c : Fin 8) (v mask : Word)
  /-- ADC_CAL_CMD_CAL (R138). -/
  | adcCalCmdCal (x : Access) (c j : Fin 8)
  /-- ADC_CAL_CMD_TEST (R139). -/
  | adcCalCmdTest (x : Access) (c j : Fin 8)
  /-- ADC_CAL_CMD_ABORT (R140). -/
  | adcCalCmdAbort (x : Access) (c j : Fin 8)
  /-- CAL_RUN_START (R138). -/
  | calRunStart (c j : Fin 8)
  /-- CAL_RUN_DONE (R138). -/
  | calRunDone (c j : Fin 8)
  /-- SELF_TEST_STEP_DONE (R139). -/
  | selfTestStepDone (c j : Fin 8)
  /-- CAL_STARVED (R141). -/
  | calStarved (c j : Fin 8)
  /-- SUBST_START (R143). -/
  | substStart (c : Fin 8)
  /-- SUBST_END (R143). -/
  | substEnd (c : Fin 8)
  /-- BACKGROUND_CONVERSION (R144). -/
  | backgroundConversion (c : Fin 8)
  /-- SDM_RESULT (R134). -/
  | sdmResult (c : Fin 8) (n : Fin 12) (edges : List (Bool × BitVec 16))
  /-- SDM_CLOCK_LOST (R133). -/
  | sdmClockLost (c : Fin 8) (n : Fin 12)
  /-- SDM_CLOCK_RETURN (R133). -/
  | sdmClockReturn (c : Fin 8) (n : Fin 12)
  /-- FAST_ACT (R135). -/
  | fastAct (c : Fin 8) (n : Fin 12) (edges : List (Bool × BitVec 16))
  /-- SDM_RES_READ (R134). -/
  | sdmResRead (x : Access) (c : Fin 8) (n : Fin 12)
  /-- CMP_STATE_CHANGE (R150). -/
  | cmpStateChange (c : Fin 8) (m : Fin 12) (l : PinLevel) (hiErr loErr hystErr : Int)
  /-- CMP_CTL_WRITE (R154). -/
  | cmpCtlWrite (x : Access) (c : Fin 8) (m : Fin 12) (v mask : Word)
  /-- CMP_READY (R153). -/
  | cmpReady (c : Fin 8) (m : Fin 12) (level hiErr loErr hystErr : Int)
  /-- CMP_THR_WRITE (R155). -/
  | cmpThrWrite (x : Access) (c : Fin 8) (m : Fin 12) (v mask : Word)
  /-- DAC_SETTLED (R155). -/
  | dacSettled (c : Fin 8) (m : Fin 12)
  /-- CMP_RB_CMD_REQ (R158). -/
  | cmpRbCmdReq (x : Access) (c : Fin 8) (d : Fin 24)
  /-- RB_DONE (R158). -/
  | rbDone (c : Fin 8)
  /-- RB_WALK_STEP (R159). -/
  | rbWalkStep (c : Fin 8)
  /-- RB_STARVED (R160). -/
  | rbStarved (c : Fin 8)
  /-- QDEC_PINSEL_WRITE (R165). -/
  | qdecPinselWrite (x : Access) (c : Fin 8) (v mask : Word)
  /-- QDEC_COUNT_STEP (R168). -/
  | qdecCountStep (c : Fin 8) (n : Fin 6) (ab : Bool × Bool) (held : Nat)
  /-- QDEC_INDEX (R169). -/
  | qdecIndex (c : Fin 8) (l : Fin 6 × HeldLevel)
  /-- QDEC_POS_WRITE (R170). -/
  | qdecPosWrite (x : Access) (c : Fin 8) (n : Fin 6) (v mask : Word)
  /-- CAPTURE_EDGE (R173). -/
  | captureEdge (c : Fin 8) (u : Fin 6) (l : HeldLevel)
  /-- CAP_TS_LO_READ (R174). -/
  | capTsLoRead (x : Access) (c : Fin 8) (u : Fin 6)
  /-- SEP_TRANSFER_END (R177). -/
  | sepTransferEnd (c : Fin 8) (n : Fin 6) (first : Nat) (data : DWord) (crc : BitVec 16)
  /-- SEP_RECOVERY_END (R175). -/
  | sepRecoveryEnd (c : Fin 8) (n : Fin 6)
  /-- SEP_CMD_REQ (R179). -/
  | sepCmdReq (x : Access) (c : Fin 8) (n : Fin 6)
  /-- SEP_DATA_LO_READ (R177). -/
  | sepDataLoRead (x : Access) (c : Fin 8) (n : Fin 6)
  /-- PENDING_CELL_FILL (R252). -/
  | pendingCellFill (c : CoreId) (id : Nat)
  /-- STORE_BUFFER_DRAIN (R259). -/
  | storeBufferDrain (c : CoreId) (j : Nat) (lost : Bool)
  /-- NOP (R230). -/
  | nop (c : CoreId)
  /-- DUP (R235). -/
  | dup (c : CoreId)
  /-- DROP (R235). -/
  | drop (c : CoreId)
  /-- SWAP (R235). -/
  | swap (c : CoreId)
  /-- OVER (R235). -/
  | over (c : CoreId)
  /-- ROT (R235). -/
  | rot (c : CoreId)
  /-- NIP (R235). -/
  | nip (c : CoreId)
  /-- PICK (R237). -/
  | pick (c : CoreId) (n : BitVec 8)
  /-- ROLL (R237). -/
  | roll (c : CoreId) (n : BitVec 8)
  /-- LIT8 (R236). -/
  | lit8 (c : CoreId) (i : BitVec 8)
  /-- LIT16_SX (R236). -/
  | lit16Sx (c : CoreId) (i : BitVec 16)
  /-- LIT16_ZX (R236). -/
  | lit16Zx (c : CoreId) (i : BitVec 16)
  /-- LIT16_H (R236). -/
  | lit16H (c : CoreId) (i : BitVec 16)
  /-- LIT16_OR (R236). -/
  | lit16Or (c : CoreId) (i : BitVec 16)
  /-- LIT32 (R238). -/
  | lit32 (c : CoreId) (d : BitVec 24)
  /-- ADD (R202). -/
  | add (c : CoreId)
  /-- SUB (R202). -/
  | sub (c : CoreId)
  /-- MUL (R202). -/
  | mul (c : CoreId)
  /-- MULH (R202). -/
  | mulh (c : CoreId)
  /-- MULHU (R202). -/
  | mulhu (c : CoreId)
  /-- DIV (R202). -/
  | div (c : CoreId)
  /-- DIVU (R202). -/
  | divu (c : CoreId)
  /-- REM (R202). -/
  | rem (c : CoreId)
  /-- REMU (R202). -/
  | remu (c : CoreId)
  /-- NEG (R202). -/
  | neg (c : CoreId)
  /-- MIN (R202). -/
  | min (c : CoreId)
  /-- MAX (R202). -/
  | max (c : CoreId)
  /-- MINU (R202). -/
  | minu (c : CoreId)
  /-- MAXU (R202). -/
  | maxu (c : CoreId)
  /-- SLT (R202). -/
  | slt (c : CoreId)
  /-- SLTU (R202). -/
  | sltu (c : CoreId)
  /-- AND (R202). -/
  | and (c : CoreId)
  /-- OR (R202). -/
  | or (c : CoreId)
  /-- XOR (R202). -/
  | xor (c : CoreId)
  /-- NOT (R202). -/
  | not (c : CoreId)
  /-- SHL (R202). -/
  | shl (c : CoreId)
  /-- SHR (R202). -/
  | shr (c : CoreId)
  /-- SAR (R202). -/
  | sar (c : CoreId)
  /-- ROR (R202). -/
  | ror (c : CoreId)
  /-- CLZ (R202). -/
  | clz (c : CoreId)
  /-- ADDI (R236). -/
  | addi (c : CoreId) (i : BitVec 8)
  /-- ANDI (R236). -/
  | andi (c : CoreId) (i : BitVec 8)
  /-- SHLI (R236). -/
  | shli (c : CoreId) (n : BitVec 8)
  /-- SHRI (R236). -/
  | shri (c : CoreId) (n : BitVec 8)
  /-- SARI (R236). -/
  | sari (c : CoreId) (n : BitVec 8)
  /-- RORI (R236). -/
  | rori (c : CoreId) (n : BitVec 8)
  /-- BPERM (R236). -/
  | bperm (c : CoreId) (sel : BitVec 8)
  /-- BFX (R239). -/
  | bfx (c : CoreId) (ext : BitVec 8) (imm : BitVec 16)
  /-- BFI (R239). -/
  | bfi (c : CoreId) (ext : BitVec 8) (imm : BitVec 16)
  /-- QADD (R203). -/
  | qadd (c : CoreId)
  /-- QSUB (R203). -/
  | qsub (c : CoreId)
  /-- QMUL (R203). -/
  | qmul (c : CoreId)
  /-- QMAC (R200). -/
  | qmac (c : CoreId)
  /-- MAC (R200). -/
  | mac (c : CoreId)
  /-- MACU (R200). -/
  | macu (c : CoreId)
  /-- ACCQ (R240). -/
  | accq (c : CoreId)
  /-- FADD (R204). -/
  | fadd (c : CoreId)
  /-- FSUB (R204). -/
  | fsub (c : CoreId)
  /-- FMUL (R204). -/
  | fmul (c : CoreId)
  /-- FMA (R204). -/
  | fma (c : CoreId)
  /-- FDIV (R204). -/
  | fdiv (c : CoreId)
  /-- FSQRT (R204). -/
  | fsqrt (c : CoreId)
  /-- FCLAMP (R241). -/
  | fclamp (c : CoreId)
  /-- FNEG (R204). -/
  | fneg (c : CoreId)
  /-- FABS (R204). -/
  | fabs (c : CoreId)
  /-- FMIN (R241). -/
  | fmin (c : CoreId)
  /-- FMAX (R241). -/
  | fmax (c : CoreId)
  /-- FEQ (R241). -/
  | feq (c : CoreId)
  /-- FLT (R241). -/
  | flt (c : CoreId)
  /-- FLE (R241). -/
  | fle (c : CoreId)
  /-- F2I (R204). -/
  | f2i (c : CoreId)
  /-- I2F (R204). -/
  | i2f (c : CoreId)
  /-- F2Q (R204). -/
  | f2q (c : CoreId)
  /-- Q2F (R204). -/
  | q2f (c : CoreId)
  /-- LDB (R206). -/
  | ldb (c : CoreId)
  /-- LDBS (R206). -/
  | ldbs (c : CoreId)
  /-- LDH (R206). -/
  | ldh (c : CoreId)
  /-- LDHS (R206). -/
  | ldhs (c : CoreId)
  /-- LDW (R206). -/
  | ldw (c : CoreId)
  /-- STB (R206). -/
  | stb (c : CoreId)
  /-- STH (R206). -/
  | sth (c : CoreId)
  /-- STW (R206). -/
  | stw (c : CoreId)
  /-- LDB_PI (R206). -/
  | ldbPi (c : CoreId)
  /-- LDBS_PI (R206). -/
  | ldbsPi (c : CoreId)
  /-- LDH_PI (R206). -/
  | ldhPi (c : CoreId)
  /-- LDHS_PI (R206). -/
  | ldhsPi (c : CoreId)
  /-- LDW_PI (R206). -/
  | ldwPi (c : CoreId)
  /-- STB_PI (R206). -/
  | stbPi (c : CoreId)
  /-- STH_PI (R206). -/
  | sthPi (c : CoreId)
  /-- STW_PI (R206). -/
  | stwPi (c : CoreId)
  /-- STB_PD (R206). -/
  | stbPd (c : CoreId)
  /-- STH_PD (R206). -/
  | sthPd (c : CoreId)
  /-- STW_PD (R206). -/
  | stwPd (c : CoreId)
  /-- LDB_X (R206). -/
  | ldbX (c : CoreId) (sc : Fin 4)
  /-- LDBS_X (R206). -/
  | ldbsX (c : CoreId) (sc : Fin 4)
  /-- LDH_X (R206). -/
  | ldhX (c : CoreId) (sc : Fin 4)
  /-- LDHS_X (R206). -/
  | ldhsX (c : CoreId) (sc : Fin 4)
  /-- LDW_X (R206). -/
  | ldwX (c : CoreId) (sc : Fin 4)
  /-- STB_X (R206). -/
  | stbX (c : CoreId) (sc : Fin 4)
  /-- STH_X (R206). -/
  | sthX (c : CoreId) (sc : Fin 4)
  /-- STW_X (R206). -/
  | stwX (c : CoreId) (sc : Fin 4)
  /-- CAS (R243). -/
  | cas (c : CoreId)
  /-- SWAPM (R243). -/
  | swapm (c : CoreId)
  /-- BCC (R210). -/
  | bcc (c : CoreId) (annul : Bool) (cc : Fin 8) (d : BitVec 20) (slotLen : Nat)
  /-- CALL (R210). -/
  | call (c : CoreId) (d : BitVec 20) (slotLen : Nat)
  /-- CALLI (R211). -/
  | calli (c : CoreId) (slotLen : Nat)
  /-- JMPI (R211). -/
  | jmpi (c : CoreId)
  /-- RET (R211). -/
  | ret (c : CoreId)
  /-- RETT (R295); the second operand carries nothing. -/
  | rett (c : CoreId) (u : Unit)
  /-- FENCE (R247). -/
  | fence (c : CoreId)
  /-- WFI (R247). -/
  | wfi (c : CoreId)
  /-- WFI_WAKE (R247). -/
  | wfiWake (c : CoreId)
  /-- IFLUSH (R247). -/
  | iflush (c : CoreId)
  /-- PFLUSH (R274). -/
  | pflush (c : CoreId)
  /-- PBAR (R247). -/
  | pbar (c : CoreId)
  /-- BREAK (R245). -/
  | break_ (c : CoreId)
  /-- SAVE (R246). -/
  | save (c : CoreId)
  /-- RESTORE (R246). -/
  | restore (c : CoreId)
  /-- CSRR (R201). -/
  | csrr (c : CoreId) (n : BitVec 8)
  /-- CSRW (R201). -/
  | csrw (c : CoreId) (n : BitVec 8)
  /-- PAIR_CTL_REQLOCK (R336). -/
  | pairCtlReqlock (c : CoreId)
  /-- PAIR_CTL_REQSPLIT (R336). -/
  | pairCtlReqsplit (c : CoreId)
  /-- TRAP (R245). -/
  | trap (c : CoreId) (i : BitVec 8)
  /-- TLBI_VA (R248). -/
  | tlbiVa (c : CoreId)
  /-- TLBI_VA_WALK (R248). -/
  | tlbiVaWalk (c : CoreId)
  /-- TLBI_ASID (R248). -/
  | tlbiAsid (c : CoreId)
  /-- TLBI_ASID_WALK (R248). -/
  | tlbiAsidWalk (c : CoreId)
  /-- TLBI_ALL (R248). -/
  | tlbiAll (c : CoreId)
  /-- TLBI_ALL_WALK (R248). -/
  | tlbiAllWalk (c : CoreId)
  /-- WAITS (R213). -/
  | waits (c : CoreId)
  /-- PUTD (R214). -/
  | putd (c : CoreId)
  /-- FRAMEEND (R215). -/
  | frameend (c : CoreId)
  /-- CKPT (R216). -/
  | ckpt (c : CoreId)
  /-- TAILGO (R217). -/
  | tailgo (c : CoreId)
  /-- INTERRUPT_ENTRY (R286); the second operand carries nothing. -/
  | interruptEntry (c : CoreId) (u : Unit)
  /-- CE_RUN_START (R218). -/
  | ceRunStart (x : Access) (e : Fin 64) (v : Word)
  /-- CE_RUN_STOP (R218). -/
  | ceRunStop (x : Access) (e : Fin 64) (v : Word)
  /-- AC_RUN_START (R229). -/
  | acRunStart (x : Access) (a : Fin 8) (v : Word)
  /-- AC_RUN_STOP (R229). -/
  | acRunStop (x : Access) (a : Fin 8) (v : Word)
  /-- AC_PCSAMP_LO_READ (R229). -/
  | acPcsampLoRead (x : Access) (a : Fin 8)
  /-- DEBUG_HALT (R226). -/
  | debugHalt (c : CoreId)
  /-- DEBUG_RESUME (R226). -/
  | debugResume (c : CoreId)
  /-- DEBUG_STEP (R226). -/
  | debugStep (c : CoreId)
  /-- DEBUG_ACCESS (R225). -/
  | debugAccess (c : CoreId) (op : DebugOp)
  /-- SOURCE_EDGE (R322). -/
  | sourceEdge (i : Fin 9) (n : Fin 1024)
  /-- SOURCE_LEVEL_CHANGE (R321). -/
  | sourceLevelChange (i : Fin 9) (n : Fin 1024)
  /-- EDGE_LATCH_PASS (R324). -/
  | edgeLatchPass (i : Fin 9) (n : Fin 1024)
  /-- CTX_CLAIM_READ (R316). -/
  | ctxClaimRead (x : Access) (i : Fin 9) (k : Fin 16)
  /-- CTX_CMPL_WRITE (R319). -/
  | ctxCmplWrite (x : Access) (i : Fin 9) (k : Fin 16) (v : Word)
  /-- COMPLETION_RESAMPLE (R321). -/
  | completionResample (i : Fin 9) (n : Fin 1024)
  /-- SWSET_WRITE (R323). -/
  | swsetWrite (x : Access) (i : Fin 9) (v : Word)
  /-- CTX_CTL_WRITE (R315). -/
  | ctxCtlWrite (x : Access) (i : Fin 9) (k : Fin 16) (v mask : Word)
  /-- SRC_CFG_WRITE (R312). -/
  | srcCfgWrite (x : Access) (i : Fin 9) (n : Fin 1024) (tgt : Bool) (v mask : Word)
  /-- PAIR_CMD_LOCK (R336). -/
  | pairCmdLock (x : Access) (k : Fin 36)
  /-- PAIR_CMD_SPLIT (R336). -/
  | pairCmdSplit (x : Access) (k : Fin 36)
  /-- PAIR_CMD_RELEASE (R343). -/
  | pairCmdRelease (x : Access) (k : Fin 36)
  /-- PAIR_CMD_CANCEL (R336). -/
  | pairCmdCancel (x : Access) (k : Fin 36)
  /-- PAIR_LOCK_BOUNDARY (R338). -/
  | pairLockBoundary (k : Fin 36)
  /-- LOCK_DONE (R338). -/
  | lockDone (k : Fin 36)
  /-- PAIR_SPLIT_BOUNDARY (R339). -/
  | pairSplitBoundary (k : Fin 36)
  /-- PAIR_MISMATCH_DETECT (R340). -/
  | pairMismatchDetect (k : Fin 36) (kind : BitVec 3) (drop : Nat)
  /-- PAIR_HALT (R340). -/
  | pairHalt (k : Fin 36)
  /-- TAKEOVER_COMPLETE (R346). -/
  | takeoverComplete (sb : Fin 36)
  /-- CATCHUP_DEADLINE (R348). -/
  | catchupDeadline (k : Fin 36)
  /-- ECC_WRITEBACK (R358). -/
  | eccWriteback (key : Nat)
  /-- BG_TEST_REGION (R364). -/
  | bgTestRegion (p : PageId) (u : Fin 32)
  /-- BG_TEST_DONE (R364). -/
  | bgTestDone (p : PageId) (u : Fin 32) (fail : Bool)
  /-- SRAM_U_REMAP_GO (R367). -/
  | sramURemapGo (x : Access) (p : PageId) (u : Fin 32) (r : BitVec 16)
  /-- REMAP_DONE (R367). -/
  | remapDone (p : PageId) (u : Fin 32)
  /-- SRAM_INIT_DONE (R369). -/
  | sramInitDone (p : PageId) (u : Fin 32)
  /-- VAULT_WIPE (R370). -/
  | vaultWipe (cause : Fin 4)
  /-- VAULT_WIPE_DONE (R370). -/
  | vaultWipeDone
  /-- MMU_CONTEXT_WRITE (R390). -/
  | mmuContextWrite (x : Access) (a : Fin 8) (r : Fin 4) (v mask : Word)
  /-- MMU_DOMCTL_CLOSE (R392). -/
  | mmuDomctlClose (x : Access) (a : Fin 8)
  /-- MMU_DOMCTL_OPEN (R392). -/
  | mmuDomctlOpen (x : Access) (a : Fin 8)
  /-- MMU_DOMMEM_WRITE (R392). -/
  | mmuDommemWrite (x : Access) (a : Fin 8) (v mask : Word)
  /-- TLBI_BROADCAST_APPLY (R393). -/
  | tlbiBroadcastApply (a : Fin 8)
  /-- TLBI_BROADCAST_DONE (R393). -/
  | tlbiBroadcastDone (a : Fin 8)
  /-- DMA_START (R416). -/
  | dmaStart (x : Access) (k : Fin 96)
  /-- DMA_ABORT (R414). -/
  | dmaAbort (x : Access) (k : Fin 96)
  /-- DMA_SWREQ (R410). -/
  | dmaSwreq (x : Access) (k : Fin 96)
  /-- DMA_REQUEST (R410). -/
  | dmaRequest (k : Fin 96)
  /-- DMA_DESCRIPTOR_READ (R404). -/
  | dmaDescriptorRead (k : Fin 96)
  /-- DMA_BURST_GRANT (R403). -/
  | dmaBurstGrant (g : Fin 9)
  /-- DMA_BURST_DONE (R409). -/
  | dmaBurstDone (k : Fin 96) (lost before : Nat)
  /-- DMA_CONFIRM_DONE (R413). -/
  | dmaConfirmDone (k : Fin 96)
  /-- FLS_CMD_PROG (R431). -/
  | flsCmdProg (x : Access) (b : Fin 5) (words : BitVec 3)
  /-- FLS_CMD_ERASE (R431). -/
  | flsCmdErase (x : Access) (b : Fin 5)
  /-- FLS_CMD_SUSPEND (R433). -/
  | flsCmdSuspend (x : Access) (b : Fin 5)
  /-- FLS_CMD_RESUME (R433). -/
  | flsCmdResume (x : Access) (b : Fin 5)
  /-- FLASH_OP_END (R430). -/
  | flashOpEnd (b : Fin 5) (vf : Option Nat)
  /-- FLASH_SUSPENDED (R433). -/
  | flashSuspended (b : Fin 5)
  /-- FLASH_FALLBACK_DONE (R428). -/
  | flashFallbackDone
  /-- POWER_DOMAIN_REQUEST (R445). -/
  | powerDomainRequest (x : Access) (d : Fin 148) (r : BitVec 2)
  /-- POWER_TRANSITION_DONE (R445). -/
  | powerTransitionDone
  /-- RAIL_MONITOR_EVENT (R450). -/
  | railMonitorEvent (r : Fin 7) (lost : Bool)
  /-- REFERENCE_CLOCK_FAIL (R450). -/
  | referenceClockFail
  /-- PLL_LOCK_LOST (R450). -/
  | pllLockLost
  /-- TEMP_WARN (R450). -/
  | tempWarn (tcd tsd : BitVec 8)
  /-- OVER_TEMPERATURE (R450). -/
  | overTemperature
  /-- POWER_ON_RESET (R443). -/
  | powerOnReset (lost : Bool)
  /-- RESET_N_PIN (R452). -/
  | resetNPin
  /-- RST_CMD_WRITE (R453). -/
  | rstCmdWrite (x : Access) (v : Word)
  /-- CXL_HOT_RESET (R452). -/
  | cxlHotReset
  /-- RESET_RELEASE (R451). -/
  | resetRelease (scope : Fin 6) (num : Fin 64) (ac : Bool)
  /-- WD_KICK (R454). -/
  | wdKick (x : Access) (w : Fin 4) (v : Word)
  /-- WATCHDOG_EXPIRY (R454). -/
  | watchdogExpiry (w : Fin 4)
  /-- BOOT_STAGE_DONE (R456). -/
  | bootStageDone
  /-- EG_SAMPLE (R461). -/
  | egSample (n : Fin 8) (i v : BitVec 12)
  /-- EG_CMD_ON (R463). -/
  | egCmdOn (x : Access) (n : Fin 8)
  /-- EG_CMD_OFF (R463). -/
  | egCmdOff (x : Access) (n : Fin 8)
  /-- EG_CMD_CLR (R463). -/
  | egCmdClr (x : Access) (n : Fin 8)
  /-- EG_CMD_CHECK (R465). -/
  | egCmdCheck (x : Access) (n : Fin 8)
  /-- EG_CHECK_DONE (R465). -/
  | egCheckDone (n : Fin 8) (live : Bool) (dv tns : Nat)
  /-- EG_E_LO_READ (R468). -/
  | egELoRead (x : Access) (n : Fin 8)
  /-- FIO_SEL_WRITE (R576). -/
  | fioSelWrite (x : Access) (c : Fin 8) (v mask : Word)
  /-- SEC_SIGN_CMD_GO (R477). -/
  | secSignCmdGo (x : Access)
  /-- SIGN_DONE (R477). -/
  | signDone
  /-- SEC_MEAS_EXT_GO (R478). -/
  | secMeasExtGo (x : Access) (slot : Fin 8)
  /-- MEAS_EXT_DONE (R478). -/
  | measExtDone
  /-- SEC_MEAS_LOCK_L02 (R479). -/
  | secMeasLockL02 (x : Access)
  /-- TAMPER_INPUT (R484). -/
  | tamperInput (k : Fin 4)
  /-- LC_FUSES_BLOWN (R483). -/
  | lcFusesBlown
  /-- CXL_LINK_UP (R489). -/
  | cxlLinkUp (speed : Fin 5) (width : BitVec 5)
  /-- CXL_LINK_DOWN (R491). -/
  | cxlLinkDown
  /-- LINK_DOWN_TIMEOUT (R491). -/
  | linkDownTimeout
  /-- HOST_BAR0_WRITE (R493). -/
  | hostBar0Write (off : Nat) (wide : Bool) (v : DWord) (full : Bool)
  /-- HOST_BAR0_READ (R492). -/
  | hostBar0Read (off : Nat) (wide : Bool)
  /-- HDM_COMMIT (R496). -/
  | hdmCommit (d : Fin 2) (commit : Bool) (base size skip ways : Nat)
  /-- CXL_MEM_READ (R498). -/
  | cxlMemRead (h n : Nat)
  /-- CXL_MEM_WRITE (R498). -/
  | cxlMemWrite (h : Nat) (bs : List Byte)
  /-- HOST_SNOOP (R499). -/
  | hostSnoop (h : Nat) (bs : List Byte)
  /-- VIRAL_IN (R504). -/
  | viralIn
  /-- CXL_VIRAL_CMD_RAISE (R505). -/
  | cxlViralCmdRaise (x : Access)
  /-- CXL_MSIX_SEND (R502). -/
  | cxlMsixSend (x : Access) (v : Fin 64)
  /-- MSIX_UNMASK (R502). -/
  | msixUnmask (v : Option (Fin 64))
  /-- MBOX_GET_EVENT_RECORDS (R500). -/
  | mboxGetEventRecords (log : Fin 4)
  /-- MBOX_CLEAR_EVENT_RECORDS (R500). -/
  | mboxClearEventRecords (log : Fin 4) (all : Bool) (handles : List Nat)
  /-- MBOX_GET_FW_INFO (R500). -/
  | mboxGetFwInfo
  /-- MBOX_TRANSFER_FW (R500). -/
  | mboxTransferFw (slot ofs : Nat) (first : Bool) (bs : List Byte) (bad : Option Nat)
  /-- MBOX_ACTIVATE_FW (R501). -/
  | mboxActivateFw (slot : Nat) (online : Bool) (bad : Option Nat)
  /-- MBOX_GET_SUPPORTED_LOGS (R500). -/
  | mboxGetSupportedLogs
  /-- MBOX_GET_LOG (R500). -/
  | mboxGetLog
  /-- URG_STOP_ALL (R507). -/
  | urgStopAll
  /-- URG_RELEASE (R507). -/
  | urgRelease
  /-- URGENT_DONE (R507). -/
  | urgentDone
  /-- QC_CTL_WRITE (R512). -/
  | qcCtlWrite (x : Access) (q : Fin 64) (v mask : Word)
  /-- DB_SQT_WRITE (R513). -/
  | dbSqtWrite (x : Access) (q : Fin 64) (v : Word)
  /-- DB_CQH_WRITE (R514). -/
  | dbCqhWrite (x : Access) (q : Fin 64) (v : Word)
  /-- DESCRIPTOR_FETCH (R514). -/
  | descriptorFetch
  /-- IDENTIFY (R523). -/
  | identify (q : Fin 64)
  /-- GET_STATUS (R523). -/
  | getStatus (q : Fin 64)
  /-- RESET_DOMAIN (R523). -/
  | resetDomain (q : Fin 64)
  /-- GET_TEMP (R523). -/
  | getTemp (q : Fin 64)
  /-- AXIS_ENABLE (R525). -/
  | axisEnable (q : Fin 64)
  /-- AXIS_DISABLE (R525). -/
  | axisDisable (q : Fin 64)
  /-- SAFE_STATE (R525). -/
  | safeState (q : Fin 64)
  /-- LOAD_RECIPE (R527). -/
  | loadRecipe (q : Fin 64)
  /-- VERIFY_RECIPE (R528). -/
  | verifyRecipe (q : Fin 64)
  /-- ACTIVATE_RECIPE (R531). -/
  | activateRecipe (q : Fin 64)
  /-- LIST_RECIPES (R526). -/
  | listRecipes (q : Fin 64)
  /-- ACTIVATION_TAKES_EFFECT (R533). -/
  | activationTakesEffect (c : Fin 8)
  /-- ACTIVATION_FINISH (R533). -/
  | activationFinish
  /-- TRACE_ARM (R535). -/
  | traceArm (q : Fin 64)
  /-- TRACE_TRIGGER (R535). -/
  | traceTrigger (q : Fin 64)
  /-- TRACE_STOP (R535). -/
  | traceStop (q : Fin 64)
  /-- TRACE_READ_INDEX (R535). -/
  | traceReadIndex (q : Fin 64)
  /-- TRACE_EVENT_TRIGGER (R535). -/
  | traceEventTrigger
  /-- FLASH_WRITE (R537). -/
  | flashWrite (q : Fin 64) (bad : Option Nat)
  /-- FLASH_ERASE (R537). -/
  | flashErase (q : Fin 64) (bad : Option Nat)
  /-- FLASH_VERIFY (R537). -/
  | flashVerify (q : Fin 64)
  /-- UPDATE_IMAGE_WRITE (R538). -/
  | updateImageWrite (q : Fin 64) (bad : Option Nat)
  /-- UPDATE_IMAGE_COMMIT (R539). -/
  | updateImageCommit (q : Fin 64)
  /-- GET_CERT_CHAIN (R474). -/
  | getCertChain (q : Fin 64)
  /-- ATTEST (R540). -/
  | attest (q : Fin 64)
  /-- SET_LIFECYCLE (R542). -/
  | setLifecycle (q : Fin 64)
  /-- ENUMERATE (R555). -/
  | enumerate (q : Fin 64)
  /-- SET_ROUTE (R557). -/
  | setRoute (q : Fin 64)
  /-- GET_TOPOLOGY (R543). -/
  | getTopology (q : Fin 64)
  /-- SET_DOMAINS (R544). -/
  | setDomains (q : Fin 64)
  /-- GET_POWER (R543). -/
  | getPower (q : Fin 64)
  /-- STRING_LINK_UP (R549). -/
  | stringLinkUp (p : Fin 4) (nbr : BitVec 8) (nbrPort : Fin 4)
  /-- STRING_LINK_LOST (R566). -/
  | stringLinkLost (p : Fin 4)
  /-- STOP_FRAME (R564). -/
  | stopFrame (p : Fin 4) (h : FrameHead)
  /-- SYNC_FRAME (R559). -/
  | syncFrame (p : Fin 4) (h : FrameHead) (ns : DWord) (frac : Word) (corr : DWord) (mfn : BitVec 48) (mft : DWord) (mfp hops : Word)
  /-- DELAY_FRAME (R558). -/
  | delayFrame (p : Fin 4) (h : FrameHead) (reply : Option Nat)
  /-- LINKDOWN_FRAME (R568). -/
  | linkdownFrame (p : Fin 4) (h : FrameHead) (l : FabLink)
  /-- CYCLIC_FRAME (R563). -/
  | cyclicFrame (p : Fin 4) (h : FrameHead) (ch : BitVec 16) (mfn : BitVec 48) (data : List Byte)
  /-- WRITE_FRAME (R570). -/
  | writeFrame (p : Fin 4) (h : FrameHead) (off : BitVec 20) (bs : List Byte)
  /-- READ_FRAME (R570). -/
  | readFrame (p : Fin 4) (h : FrameHead) (off : BitVec 20) (n : Nat)
  /-- RESP_FRAME (R569). -/
  | respFrame (p : Fin 4) (h : FrameHead) (ok : Bool) (data : List Byte)
  /-- DISC_FRAME (R555). -/
  | discFrame (p : Fin 4) (h : FrameHead) (port : Nat)
  /-- DISCR_FRAME (R555). -/
  | discrFrame (p : Fin 4) (h : FrameHead) (serial : BitVec 128) (port : Fin 4) (ups : BitVec 4) (carrun strap : Bool) (addr : BitVec 8)
  /-- TOPO_FRAME (R555). -/
  | topoFrame (p : Fin 4) (h : FrameHead) (addr hops pport : Nat) (kids : BitVec 4) (links : List FabLink) (routes : List (Nat × Nat × Nat × Nat))
  /-- DISC_TIMEOUT (R555). -/
  | discTimeout
  /-- DELAY_EXCHANGE_DUE (R558). -/
  | delayExchangeDue (p : Fin 4)
  /-- SYNC_INTERVAL (R559). -/
  | syncInterval
  /-- CYCLIC_TX (R562). -/
  | cyclicTx (k : Fin 16)
  /-- TX_LATE (R562). -/
  | txLate (k : Fin 16)
  /-- STR_STOP_CMD_GO (R564). -/
  | strStopCmdGo (x : Access) (v : Word)
  /-- STOP_RESEND (R564). -/
  | stopResend
  /-- TC2_RETRY_TIMEOUT (R569). -/
  | tc2RetryTimeout (i : Nat)
  /-- STR_EXP_WRITE (R570). -/
  | strExpWrite (x : Access) (hi : Bool) (v mask : Word)
  /-- STOP_N_RISE (R101). -/
  | stopNRise
  /-- TRIP_PIN_INACTIVE (R102). -/
  | tripPinInactive (c : Fin 8) (i : Fin 4)
  /-- FAST_WINDOW_INACTIVE (R135). -/
  | fastWindowInactive (c : Fin 8) (n : Fin 12) (edges : List (Bool × BitVec 16))
  /-- TAMPER_INPUT_INACTIVE (R484). -/
  | tamperInputInactive (k : Fin 4)
  /-- RESERVED_OPCODE (R234). -/
  | reservedOpcode (c : CoreId) (bytes : Word)
  /-- MEMORY_BIT_ERROR (R358). -/
  | memoryBitError (a : Nat) (bit : Nat) (many inL2 dirty : Bool)
  /-- FLASH_BIT_ERROR (R424). -/
  | flashBitError (o n : Nat)
  /-- PTM_ENABLE_WRITE (R503). -/
  | ptmEnableWrite (b : Bool)
  /-- CACHE_ENABLE_WRITE (R499). -/
  | cacheEnableWrite (b : Bool)
  deriving DecidableEq, Repr

end Sys2Proof
end

