-- ==== Sys2Proof/Decode.lean ====
section
/-! DEFINITION. Reading commands from words. The opcode table gives its rows no bits, so no word spells a row (`decodeTableWord`). The bytes
of the cores' own instructions are read by `decodeDsx` (R209, R210, R234, R236; Tables: DSX opcode map, Immediate fields, Load and store
opcodes). -/

namespace Sys2Proof

/-- The command that a word spells by the table's bits: none, since no row has bits. -/
def decodeTableWord (_nbits _w : Nat) : Option Instr := none

/-- Opcodes of stack and system instructions. -/
def decodeRow0 (c : CoreId) (op : Nat) : Option Instr :=
  match op with
  | 0x01 => some (.nop c) | 0x02 => some (.dup c) | 0x03 => some (.drop c) | 0x04 => some (.swap c)
  | 0x05 => some (.over c) | 0x06 => some (.rot c) | 0x07 => some (.nip c) | 0x08 => some (.rett c ())
  | 0x09 => some (.fence c) | 0x0A => some (.wfi c) | 0x0B => some (.iflush c) | 0x0C => some (.pflush c)
  | 0x0D => some (.pbar c) | 0x0E => some (.break_ c) | 0x0F => some (.save c)
  | _ => none

/-- Opcodes of integer instructions. -/
def decodeRow1 (c : CoreId) (op : Nat) : Option Instr :=
  match op with
  | 0x10 => some (.add c) | 0x11 => some (.sub c) | 0x12 => some (.mul c) | 0x13 => some (.mulh c)
  | 0x14 => some (.mulhu c) | 0x15 => some (.div c) | 0x16 => some (.divu c) | 0x17 => some (.rem c)
  | 0x18 => some (.remu c) | 0x19 => some (.neg c) | 0x1A => some (.min c) | 0x1B => some (.max c)
  | 0x1C => some (.minu c) | 0x1D => some (.maxu c) | 0x1E => some (.slt c) | 0x1F => some (.sltu c)
  | _ => none

/-- Opcodes of logic and Q31 instructions. -/
def decodeRow2 (c : CoreId) (op : Nat) : Option Instr :=
  match op with
  | 0x20 => some (.and c) | 0x21 => some (.or c) | 0x22 => some (.xor c) | 0x23 => some (.not c)
  | 0x24 => some (.shl c) | 0x25 => some (.shr c) | 0x26 => some (.sar c) | 0x27 => some (.ror c)
  | 0x28 => some (.clz c) | 0x29 => some (.qadd c) | 0x2A => some (.qsub c) | 0x2B => some (.qmul c)
  | 0x2C => some (.qmac c) | 0x2D => some (.mac c) | 0x2E => some (.macu c) | 0x2F => some (.accq c)
  | _ => none

/-- Opcodes of floating-point instructions. -/
def decodeRow3 (c : CoreId) (op : Nat) : Option Instr :=
  match op with
  | 0x30 => some (.fadd c) | 0x31 => some (.fsub c) | 0x32 => some (.fmul c) | 0x33 => some (.fma c)
  | 0x34 => some (.fdiv c) | 0x35 => some (.fsqrt c) | 0x36 => some (.fclamp c) | 0x37 => some (.fneg c)
  | 0x38 => some (.fabs c) | 0x39 => some (.fmin c) | 0x3A => some (.fmax c) | 0x3B => some (.feq c)
  | 0x3C => some (.flt c) | 0x3D => some (.fle c) | 0x3E => some (.f2i c) | 0x3F => some (.i2f c)
  | _ => none

/-- Opcodes of conversions, pre-decrement stores, atomics, indirect branches and control instructions. -/
def decodeRow4 (c : CoreId) (slotLen op : Nat) : Option Instr :=
  match op with
  | 0x40 => some (.f2q c) | 0x41 => some (.q2f c) | 0x42 => some (.stbPd c) | 0x43 => some (.sthPd c)
  | 0x44 => some (.stwPd c) | 0x45 => some (.cas c) | 0x46 => some (.swapm c) | 0x47 => some (.calli c slotLen)
  | 0x48 => some (.jmpi c) | 0x49 => some (.ret c) | 0x4A => some (.waits c) | 0x4B => some (.putd c)
  | 0x4C => some (.frameend c) | 0x4D => some (.ckpt c) | 0x4E => some (.tailgo c) | 0x4F => some (.restore c)
  | _ => none

/-- Opcodes of plain and post-increment loads and stores. -/
def decodeRow5 (c : CoreId) (op : Nat) : Option Instr :=
  match op with
  | 0x50 => some (.ldb c) | 0x51 => some (.ldbs c) | 0x52 => some (.ldh c) | 0x53 => some (.ldhs c)
  | 0x54 => some (.ldw c) | 0x55 => some (.stb c) | 0x56 => some (.sth c) | 0x57 => some (.stw c)
  | 0x58 => some (.ldbPi c) | 0x59 => some (.ldbsPi c) | 0x5A => some (.ldhPi c) | 0x5B => some (.ldhsPi c)
  | 0x5C => some (.ldwPi c) | 0x5D => some (.stbPi c) | 0x5E => some (.sthPi c) | 0x5F => some (.stwPi c)
  | _ => none

/-- Opcodes of scaled-index loads and stores, the scale in opcode [1:0]. -/
def decodeRow67 (c : CoreId) (op : Nat) : Option Instr :=
  let sc : Fin 4 := ⟨op % 4, Nat.mod_lt _ (by decide)⟩
  match op / 4 with
  | 0x18 => some (.ldbX c sc) | 0x19 => some (.ldbsX c sc) | 0x1A => some (.ldhX c sc) | 0x1B => some (.ldhsX c sc)
  | 0x1C => some (.ldwX c sc) | 0x1D => some (.stbX c sc) | 0x1E => some (.sthX c sc) | 0x1F => some (.stwX c sc)
  | _ => none

/-- The six forms of TLBI by its imm8 (R248). -/
def decodeTlbi (c : CoreId) (i : BitVec 8) : Option Instr :=
  match i with
  | 0x00 => some (.tlbiVa c) | 0x04 => some (.tlbiVaWalk c) | 0x01 => some (.tlbiAsid c)
  | 0x05 => some (.tlbiAsidWalk c) | 0x02 => some (.tlbiAll c) | 0x06 => some (.tlbiAllWalk c)
  | _ => none

/-- 16-bit instructions: an opcode and an imm8. -/
def decodeRow8 (c : CoreId) (op : Nat) (i : BitVec 8) : Option Instr :=
  let shift (x : Instr) : Option Instr := if i.toNat < 32 then some x else none
  match op with
  | 0x80 => some (.lit8 c i) | 0x81 => some (.addi c i) | 0x82 => some (.andi c i)
  | 0x83 => shift (.shli c i) | 0x84 => shift (.shri c i) | 0x85 => shift (.sari c i) | 0x86 => shift (.rori c i)
  | 0x87 => if i.toNat < 16 then some (.pick c i) else none
  | 0x88 => if i.toNat < 16 then some (.roll c i) else none
  | 0x89 => some (.bperm c i) | 0x8A => some (.csrr c i) | 0x8B => some (.csrw c i) | 0x8C => some (.trap c i)
  | 0x8D => decodeTlbi c i
  | _ => none

/-- The four forms of LIT16 by their extension byte. -/
def decodeLit16 (c : CoreId) (ext : BitVec 8) (imm : BitVec 16) : Option Instr :=
  match ext with
  | 0 => some (.lit16Sx c imm) | 1 => some (.lit16Zx c imm) | 2 => some (.lit16H c imm) | 3 => some (.lit16Or c imm)
  | _ => none

/-- The bit field of a BFX or BFI lies in the word, and no reserved bit of `imm` is set (R236, R239). -/
def bitFieldOk (ext : BitVec 8) (imm : BitVec 16) : Bool :=
  decide (1 ≤ imm.toNat ∧ imm.toNat ≤ 32 ∧ ext.toNat % 32 + imm.toNat ≤ 32)

/-- 32-bit instructions, read as a little-endian word. -/
def decodeRowC (c : CoreId) (slotLen op : Nat) (w : BitVec 32) : Option Instr :=
  let ext : BitVec 8 := w.extractLsb' 8 8
  let imm : BitVec 16 := w.extractLsb' 16 16
  let d : BitVec 20 := w.extractLsb' 12 20
  match op with
  | 0xC0 => some (.bcc c (w.getLsbD 8) ⟨(w.extractLsb' 9 3).toNat, (w.extractLsb' 9 3).isLt⟩ d slotLen)
  | 0xC1 => some (.call c d slotLen)
  | 0xC2 => decodeLit16 c ext imm
  | 0xC3 => some (.lit32 c (w.extractLsb' 8 24))
  | 0xC4 => if ext.toNat / 32 % 4 = 0 && bitFieldOk ext imm then some (.bfx c ext imm) else none
  | 0xC5 => if ext.toNat / 32 = 0 && bitFieldOk ext imm then some (.bfi c ext imm) else none
  | _ => none

/-- The instruction of core `c` whose bytes, little-endian, begin the word `w`; `slotLen` is the length of the instruction in its delay slot,
where it has one. None: the encoding is reserved (R234). -/
def decodeDsx (c : CoreId) (slotLen : Nat) (w : BitVec 32) : Option Instr :=
  let op := w.toNat % 256
  match op / 16 with
  | 0x0 => decodeRow0 c op
  | 0x1 => decodeRow1 c op
  | 0x2 => decodeRow2 c op
  | 0x3 => decodeRow3 c op
  | 0x4 => decodeRow4 c slotLen op
  | 0x5 => decodeRow5 c op
  | 0x6 => decodeRow67 c op
  | 0x7 => decodeRow67 c op
  | 0x8 => decodeRow8 c op (w.extractLsb' 8 8)
  | 0xC => decodeRowC c slotLen op w
  | _ => none

end Sys2Proof
end

