-- ==== Sys2Proof/Config.lean ====
section
/-! DEFINITION. What the spec fixes as constants, and the free values: opaque constants without a body, which stand
for the values the spec leaves open (R588, R590 and the rules named at each). -/

namespace Sys2Proof.Config

/-- Delay-line steps (39.0625 ps) in one DTB clock period of 0.625 ns. -/
def stepsPerClk : Nat := 16
/-- Delay-line steps in one 5 ns PWM clock cycle (R73). -/
def stepsPerPwm : Nat := 128
/-- One delay-line step in units of 2^-32 ns. -/
def stepFrac : Nat := 167772160
/-- The nominal increment of the DTB, 0.625 ns in units of 2^-32 ns (R35). -/
def incNominal : Nat := 0xA0000000
/-- The limits of the increment, 0.625 ns ± 500 ppm (R35). -/
def incMin : Nat := 0x9FEB851F
/-- See `incMin`. -/
def incMax : Nat := 0xA0147AE1
/-- 1 µs in delay-line steps. -/
def usSteps : Nat := 25600
/-- 1 ns in delay-line steps, times five (25.6 × 5). -/
def nsSteps5 : Nat := 128

/-- FREE VALUE (R590): the raw code a converter core gives for a nominal code; the argument after it counts draws.
DESIGN CHOICE (log 5). -/
opaque adcRaw : BitVec 16 → Nat → BitVec 16
/-- FREE VALUE (R590): the deviation, in codes, that the cores of a cluster share for a nominal code at an instant; the model limits
it under R145. DESIGN CHOICE (log 5). -/
opaque adcShared : Nat → BitVec 16 → Nat → Int
/-- FREE VALUE (R590): what one core adds to the shared deviation; the model limits it to the matching of R145. DESIGN CHOICE (log 5). -/
opaque adcOwn : Nat → BitVec 16 → Nat → Int
/-- FREE VALUE (R145): by how many 1/16 °C the temperature input misses; the model limits it to ±3 °C. DESIGN CHOICE (log 5). -/
opaque tempErr : Nat → Int
/-- FREE VALUE (R150, R155, R161): by how many nV a threshold DAC's output, as a converter sees it, differs from its setting; the model
limits it. DESIGN CHOICE (log 5). -/
opaque dacErr : Nat → Int
/-- FREE VALUE (R138): the offset, in quarter LSB, that a calibration run finds. DESIGN CHOICE (log 5). -/
opaque calOfs : Nat → Int
/-- FREE VALUE (R138): the gain, in units of 2^-16, that a calibration run finds. DESIGN CHOICE (log 5). -/
opaque calGain : Nat → Nat
/-- FREE VALUE (R139): the deviation that a self-test step finds, and the level index where it occurred. DESIGN CHOICE (log 5). -/
opaque testDev : Nat → BitVec 16
/-- See `testDev`. DESIGN CHOICE (log 5). -/
opaque testLevel : Nat → BitVec 3
/-- FREE VALUE (R115): the level of the calibration DAC, as a nominal code, in a step of a run. DESIGN CHOICE (log 5). -/
opaque calLevel : Nat → BitVec 16
/-- FREE VALUE (R173): by how many ns a pin edge's time stamp deviates; the model limits it to ±1 ns. DESIGN CHOICE (log 6). -/
opaque capDev : Nat → Int
/-- FREE VALUE (R64, R66, R67): the increment a discipline servo sets after an update, from the offset in 2^-4 ns and
the increment in use; the model clamps it under R35. DESIGN CHOICE (log 6). -/
opaque servoInc : Int → Nat → Nat → Nat
/-- FREE VALUE (R433, R434, table of the status word): code words a running PROG has not finished. DESIGN CHOICE (log 8). -/
opaque progLeft : Nat → Nat
/-- FREE VALUE (R432 reason 6, R438): what a word left undefined reads as: 0 erased, 1 programmed, else damaged. DESIGN CHOICE (log 8). -/
opaque flashLeft : Nat → Nat
/-- FREE VALUE (R426): five or more bit errors in one word escape detection; the wrong data they then give; how many
bits the read reports as corrected. DESIGN CHOICE (log 8). -/
opaque flashEscape : Nat → Bool
/-- See `flashEscape`. DESIGN CHOICE (log 8). -/
opaque flashWrong : Nat → Nat → Nat
/-- See `flashEscape`. DESIGN CHOICE (log 8). -/
opaque flashWrongCorr : Nat → Nat

/-- FREE VALUE (R24, R373, R584: the spec does not say how addresses spread over the two DDR channels): the channel of a
64-byte block of DRAM is the second one. DESIGN CHOICE (log 10). -/
opaque dramCh : Nat → Bool
/-- FREE VALUE: SHA-384 (R469, R471, R478, R480, R540), a published function that no proof here computes. DESIGN CHOICE (log 7). -/
opaque sha384 : List Byte → BitVec 384
/-- FREE VALUE: ECDSA over brainpoolP384r1 (R471, R480, R542): whether `SIG` over the digest verifies under a key.
DESIGN CHOICE (log 7). -/
opaque ecdsaOk : (key : List Byte) → (sig : List Byte) → (digest : BitVec 384) → Bool
/-- FREE VALUE (R477): the signature, r then s, of a digest; the argument after it counts draws (a fresh nonce). DESIGN CHOICE (log 7). -/
opaque signature : BitVec 384 → Nat → BitVec 768
/-- FREE VALUE (R469): the ROM's firmware key slots. DESIGN CHOICE (log 7). -/
opaque romKey : Nat → BitVec 384
/-- FREE VALUE: the firmware's version in its image, by image digest (R523). DESIGN CHOICE (log 9). -/
opaque fwVersion : Nat → BitVec 32
/-- FREE VALUE (R526): where the recipe library lies in device DRAM, above its base. DESIGN CHOICE (log 9). -/
opaque libOfs : Nat
/-- FREE VALUE (R529): the bytes of the activation stub. DESIGN CHOICE (log 9). -/
opaque stubByte : Nat → BitVec 8
/-- FREE VALUE (R456, R459): a DDR channel passes training, by channel and rate. DESIGN CHOICE (log 10). -/
opaque trains : Nat → Nat → Bool
/-- FREE VALUE (R577, Table: EG page general I/O registers): the level at an input pin that the model does not follow.
DESIGN CHOICE (log 10). -/
opaque pinIn : Nat → Nat → BitVec 32
/-- FREE VALUE (R577, PWR_RAIL_MW, MON_TEMP): measured powers and temperatures. DESIGN CHOICE (log 10). -/
opaque measured : Nat → Nat → BitVec 32

/-- FREE VALUE (R553, R559): the residence time of a SYNC, in 2^-16 ns; the model limits it to 150 to 180 ns. DESIGN CHOICE (log 6). -/
opaque residence : Nat → Nat
/-- FREE VALUE (R558): the turnaround of a DELAY reply, in 2^-4 ns. DESIGN CHOICE (log 6). -/
opaque turnaround : Nat → Nat

/-- FREE VALUE (R500): the effects of a mailbox command in the Command Effects Log. DESIGN CHOICE (log 9). -/
opaque celEffect : Nat → BitVec 16

/-- FREE VALUE (R387, R388): a translation cache still holds the entry that a lookup finds; the argument counts draws.
DESIGN CHOICE (log 11). -/
opaque keeps : Nat → Bool

/-- FREE VALUE (R276, R277, R386): a wrong-path or prefetch access takes place, by draw; whether it is a fetch; its address.
DESIGN CHOICE (log 21). -/
opaque speculates : Nat → Bool
/-- See `speculates`. DESIGN CHOICE (log 21). -/
opaque specFetch : Nat → Bool
/-- See `speculates`. DESIGN CHOICE (log 21). -/
opaque specVa : Nat → BitVec 48
/-- FREE VALUE (R199): the bases that the Saluo ROM gives the M bank of AC0 and AC1 at boot: of the operand stack, of the return stack.
DESIGN CHOICE (log 64). -/
opaque romBase : Bool → BitVec 32
/-- FREE VALUE (R225): what the debug port reads of a cell whose sample has not arrived. DESIGN CHOICE (log 70). -/
opaque unfilled : Nat → BitVec 32

/-- FREE VALUE (R9): a clearing access that the model gives at the clock edge of an event takes part, after its crossing into the
owner's clock, only in a later cycle. DESIGN CHOICE (log 70). -/
opaque crossesLater : Nat → Bool

/-- FREE VALUE (R488: the spec gives no number): Hurovane's PCI-SIG vendor ID. DESIGN CHOICE (log 12). -/
opaque vendorId : BitVec 16

/-- FREE VALUE (R561): how many DTB clocks before a SYNC with a new machine frame period the root wrote it, at most 100 µs.
DESIGN CHOICE (log 6). -/
opaque mfpAge : Nat → Nat

/-- FREE VALUE (R204: IEEE 754 leaves it open): tininess is detected after rounding. DESIGN CHOICE (log 11). -/
opaque tinyAfter : Bool
/-- FREE VALUE (R270): how the history is combined with a branch address into an index. DESIGN CHOICE (log 11). -/
opaque predIndex : Nat → List Bool → Nat
/-- FREE VALUE (R270): the counter a branch's first outcome leaves. DESIGN CHOICE (log 11). -/
opaque predFirst : Bool → BitVec 2

end Sys2Proof.Config
end

