-- ==== Sys2Proof/Machine/Bits.lean ====
section
/-! DEFINITION. Bit fields, sign extension and byte order: the small helpers every register and instruction uses (R6). -/

namespace Sys2Proof.Machine

/-- Bits `[hi:lo]` of a word, as a number. -/
def bitsOf {n : Nat} (w : BitVec n) (hi lo : Nat) : Nat := (w.toNat >>> lo) % 2 ^ (hi - lo + 1)

/-- Bit `i` of a word. -/
def bitOf {n : Nat} (w : BitVec n) (i : Nat) : Bool := w.getLsbD i

/-- The 32-bit mask of bits `[hi:lo]`. -/
def maskOf (hi lo : Nat) : Word := BitVec.ofNat 32 ((2 ^ (hi - lo + 1) - 1) * 2 ^ lo)

/-- A word with bits `[hi:lo]` replaced by the number `v`. -/
def putBits (w : Word) (hi lo v : Nat) : Word :=
  (w &&& ~~~ maskOf hi lo) ||| (BitVec.ofNat 32 (v * 2 ^ lo) &&& maskOf hi lo)

/-- One bit as a number. -/
def b2n (b : Bool) : Nat := if b then 1 else 0

/-- A number as a word. -/
def w32 (n : Nat) : Word := BitVec.ofNat 32 n

/-- A signed word as an integer. -/
def sint {n : Nat} (w : BitVec n) : Int := w.toInt

/-- A bit field of width `n` read as a two's-complement number. -/
def signedNat (n v : Nat) : Int := if v % 2 ^ n < 2 ^ (n - 1) then (v % 2 ^ n : Nat) else (v % 2 ^ n : Nat) - (2 ^ n : Nat)

/-- The two's-complement number of width `n` of an integer. -/
def wrapInt (n : Nat) (i : Int) : Nat := (i % (2 ^ n : Nat)).toNat

/-- `i` limited to `[lo, hi]`. -/
def clampInt (lo hi i : Int) : Int := if i < lo then lo else if hi < i then hi else i

/-- `v` limited to `[lo, hi]`. -/
def clampNat (lo hi v : Nat) : Nat := if v < lo then lo else if hi < v then hi else v

/-- The nearest integer of `n / d` (`d` positive), a tie going to the smaller magnitude (R43). -/
def roundDiv (n : Int) (d : Nat) : Int :=
  let a := n.natAbs
  let q := (2 * a + d - 1) / (2 * d)
  if n < 0 then -(q : Int) else q

/-- Byte `i` of a word, little-endian (R6). -/
def byteOf {n : Nat} (w : BitVec n) (i : Nat) : Byte := BitVec.ofNat 8 (w.toNat >>> (8 * i))

/-- The number that bytes spell, little-endian. -/
def leNat : List Byte → Nat
  | [] => 0
  | b :: t => b.toNat + 256 * leNat t

/-- The `n` low bytes of a number, little-endian. -/
def leBytes : Nat → Nat → List Byte
  | 0, _ => []
  | n + 1, v => BitVec.ofNat 8 v :: leBytes n (v / 256)

/-- The index that offset `off` has in an array of `n` registers `stride` bytes apart from `base`. -/
def arrIdx (base stride n off : Nat) : Option (Fin n) :=
  if base ≤ off ∧ (off - base) % stride = 0 then
    if h : (off - base) / stride < n then some ⟨(off - base) / stride, h⟩ else none
  else none

end Sys2Proof.Machine
end

