-- ==== Sys2Proof/Machine/Flags.lean ====
section
/-! DEFINITION. The numbers of the instructions and the flags they set: Q31 and accumulator saturation, integer division,
and IEEE 754 binary32 with the rounding modes of `FCSR` (R200 to R205, R239 to R241). -/

namespace Sys2Proof.Machine

/-! ## Flags of `FCSR` (R205) -/

def fNX : Word := 1
def fUF : Word := 2
def fOF : Word := 4
def fDZ : Word := 8
def fNV : Word := 16
def fQS : Word := 32

/-- A value and the flags that computing it sets. -/
abbrev Flagged := Word × Word

/-! ## Integers (R202, R239) -/

/-- Signed division, truncated towards zero (R202). -/
def sdiv (a b : Word) : Word :=
  if b = 0 then 0xFFFFFFFF else BitVec.ofInt 32 (a.toInt.tdiv b.toInt)

/-- Signed remainder (R202). -/
def srem (a b : Word) : Word := if b = 0 then a else BitVec.ofInt 32 (a.toInt.tmod b.toInt)

/-- Unsigned division (R202). -/
def udiv (a b : Word) : Word := if b = 0 then 0xFFFFFFFF else BitVec.ofNat 32 (a.toNat / b.toNat)

/-- Unsigned remainder (R202). -/
def urem (a b : Word) : Word := if b = 0 then a else BitVec.ofNat 32 (a.toNat % b.toNat)

/-- The count of a shift: T0 [4:0] (R202). -/
def shCount (b : Word) : Nat := b.toNat % 32

/-- Leading zero bits; 32 for 0. -/
def clz (a : Word) : Word := BitVec.ofNat 32 (if a = 0 then 32 else 31 - Nat.log2 a.toNat)

/-- One or zero. -/
def flagWord (b : Bool) : Word := if b then 1 else 0

/-- BPERM: byte `k` of the result is byte `s[2k+1:2k]` of `a`. -/
def bperm (sel : BitVec 8) (a : Word) : Word :=
  BitVec.ofNat 32 (leNat ((List.range 4).map (fun k => byteOf a (bitsOf sel (2 * k + 1) (2 * k)))))

/-- BFX (R239): `len` bits from `pos`, sign- or zero-extended. -/
def bfx (pos len : Nat) (signed : Bool) (a : Word) : Word :=
  let v := bitsOf a (pos + len - 1) pos
  if signed then BitVec.ofInt 32 (signedNat len v) else BitVec.ofNat 32 v

/-- BFI (R239): bits `[pos+len-1:pos]` of `a` replaced by `b`'s low bits. -/
def bfi (pos len : Nat) (a b : Word) : Word := putBits a (pos + len - 1) pos (b.toNat % 2 ^ len)

/-! ## Q31 and the accumulator (R200, R203, R240) -/

/-- Saturate to Q31 (R203). -/
def sat31 (i : Int) : Flagged :=
  if i < -2147483648 then (0x80000000, fQS) else if 2147483647 < i then (0x7FFFFFFF, fQS) else (BitVec.ofInt 32 i, 0)

/-- Saturate to the accumulator (R200). -/
def sat64 (i : Int) : DWord × Word :=
  if i < -9223372036854775808 then (0x8000000000000000, fQS)
  else if 9223372036854775807 < i then (0x7FFFFFFFFFFFFFFF, fQS) else (BitVec.ofInt 64 i, 0)

/-- Shift right arithmetically by 31. -/
def asr31 (i : Int) : Int := i / 2147483648

/-- QADD, QSUB, QMUL (R203). -/
def qadd (a b : Word) : Flagged := sat31 (a.toInt + b.toInt)
def qsub (a b : Word) : Flagged := sat31 (a.toInt - b.toInt)
def qmul (a b : Word) : Flagged := sat31 (asr31 (a.toInt * b.toInt + 1073741824))

/-- ACCQ: the accumulator rounded to Q31; a saturation at either stage sets `QS` (R240). -/
def accq (acc : DWord) : Flagged :=
  let x := sat64 (acc.toInt + 1073741824)
  let y := sat31 (asr31 x.1.toInt)
  (y.1, x.2 ||| y.2)

/-! ## Binary32 (R204, R241) -/

/-- The canonical quiet NaN. -/
def qNaN : Word := 0x7FC00000

/-- Sign, exponent field and fraction. -/
def fSign (a : Word) : Bool := bitOf a 31
def fExp (a : Word) : Nat := bitsOf a 30 23
def fFrac (a : Word) : Nat := bitsOf a 22 0

/-- A NaN; a signalling NaN; an infinity; a zero; a subnormal. -/
def isNaN (a : Word) : Bool := fExp a == 255 && fFrac a != 0
def isSNaN (a : Word) : Bool := isNaN a && !bitOf a 22
def isInf (a : Word) : Bool := fExp a == 255 && fFrac a == 0
def isZero (a : Word) : Bool := fExp a == 0 && fFrac a == 0
def isSub (a : Word) : Bool := fExp a == 0 && fFrac a != 0

/-- A zero and an infinity of a sign. -/
def fZero (neg : Bool) : Word := if neg then 0x80000000 else 0
def fInf (neg : Bool) : Word := if neg then 0xFF800000 else 0x7F800000

/-- `RM` and `FTZ` of `FCSR`. -/
def rmOf (fcsr : Word) : Nat := bitsOf fcsr 9 8
def ftzOf (fcsr : Word) : Bool := bitOf fcsr 10

/-- An operand as it is read: a subnormal is a zero of its sign under `FTZ` (R204). DEDUCED (log 30). -/
def fRead (fcsr a : Word) : Word := if ftzOf fcsr && isSub a then fZero (fSign a) else a

/-- Significand and exponent of a finite number: its magnitude is `m × 2^e`. -/
def fMant (a : Word) : Nat := if fExp a = 0 then fFrac a else fFrac a + 8388608
def fScale (a : Word) : Int := (if fExp a = 0 then 1 else fExp a : Nat) - 150

/-- `m / 2^d` rounds up under a mode: `sticky` says that the value lies a little above. -/
def roundsUp (rm : Nat) (neg : Bool) (m d : Nat) (sticky : Bool) : Bool :=
  let q := m / 2 ^ d
  let r := m % 2 ^ d
  let inexact := decide (r ≠ 0) || sticky
  if rm = 0 then
    if d = 0 then false
    else if 2 * r > 2 ^ d ∨ (2 * r = 2 ^ d ∧ sticky) then true
    else decide (2 * r = 2 ^ d ∧ q % 2 = 1)
  else if rm = 2 then inexact && neg
  else if rm = 3 then inexact && !neg
  else false

/-- Round `± m × 2^e` (and a little more where `sticky`) to binary32, `m` not zero (R204). -/
def fRound (fcsr : Word) (neg : Bool) (m : Nat) (e : Int) (sticky : Bool) : Flagged :=
  let rm := rmOf fcsr
  let top : Int := e + Nat.log2 m
  let quantum (q : Int) : Nat × Bool :=
    if q ≤ e then (m * 2 ^ (e - q).toNat, sticky)
    else
      let d := (q - e).toNat
      (m / 2 ^ d + b2n (roundsUp rm neg m d sticky), decide (m % 2 ^ d ≠ 0) || sticky)
  let q : Int := max (top - 23) (-149)
  let x := quantum q
  let mag := ((q + 149) * 8388608 + x.1).toNat
  let sgn : Nat := if neg then 2147483648 else 0
  if 0x7F800000 ≤ mag then
    let toInf := rm = 0 ∨ (rm = 2 ∧ neg) ∨ (rm = 3 ∧ !neg)
    (BitVec.ofNat 32 (sgn + (if toInf then 0x7F800000 else 0x7F7FFFFF)), fOF ||| fNX)
  else if ftzOf fcsr && decide (mag < 8388608) then (fZero neg, fUF ||| fNX)
  else
    let tiny := decide (top < -126) && !(Config.tinyAfter && decide (top = -127) && decide ((quantum (top - 23)).1 = 16777216))
    (BitVec.ofNat 32 (sgn + mag), (if x.2 then fNX else 0) ||| (if tiny && x.2 then fUF else 0))

/-- `NV` where an operand is a signalling NaN. -/
def nvOf (l : List Word) : Word := if l.any isSNaN then fNV else 0

/-- The sum of two finite magnitudes with signs (R204): an exact zero is −0 only downwards, or where both are −0. -/
def fSum (fcsr : Word) (n1 : Bool) (m1 : Nat) (e1 : Int) (n2 : Bool) (m2 : Nat) (e2 : Int) : Flagged :=
  let e := min e1 e2
  let v (n : Bool) (m : Nat) (x : Int) : Int := (if n then -1 else 1) * (m * 2 ^ (x - e).toNat : Nat)
  let s := v n1 m1 e1 + v n2 m2 e2
  if s = 0 then (if m1 = 0 ∧ m2 = 0 ∧ n1 = n2 then fZero n1 else fZero (rmOf fcsr == 2), 0)
  else fRound fcsr (decide (s < 0)) s.natAbs e false

/-- FADD. -/
def fadd (fcsr a0 b0 : Word) : Flagged :=
  let a := fRead fcsr a0
  let b := fRead fcsr b0
  if isNaN a || isNaN b then (qNaN, nvOf [a, b])
  else if isInf a && isInf b && fSign a != fSign b then (qNaN, fNV)
  else if isInf a then (a, 0)
  else if isInf b then (b, 0)
  else fSum fcsr (fSign a) (fMant a) (fScale a) (fSign b) (fMant b) (fScale b)

/-- FNEG: the sign bit inverted, whatever the value. -/
def fneg (a : Word) : Word := a ^^^ 0x80000000

/-- FABS. -/
def fabs (a : Word) : Word := a &&& 0x7FFFFFFF

/-- FSUB: a NaN keeps signalling through the change of sign. -/
def fsub (fcsr a b : Word) : Flagged := fadd fcsr a (fneg b)

/-- FMUL. -/
def fmul (fcsr a0 b0 : Word) : Flagged :=
  let a := fRead fcsr a0
  let b := fRead fcsr b0
  let n := fSign a != fSign b
  if isNaN a || isNaN b then (qNaN, nvOf [a, b])
  else if (isInf a && isZero b) || (isZero a && isInf b) then (qNaN, fNV)
  else if isInf a || isInf b then (fInf n, 0)
  else if isZero a || isZero b then (fZero n, 0)
  else fRound fcsr n (fMant a * fMant b) (fScale a + fScale b) false

/-- FMA: `a × b + c`, rounded once. DEDUCED (log 30). -/
def fma (fcsr a0 b0 c0 : Word) : Flagged :=
  let a := fRead fcsr a0
  let b := fRead fcsr b0
  let c := fRead fcsr c0
  let n := fSign a != fSign b
  let bad := (isInf a && isZero b) || (isZero a && isInf b)
  if isNaN a || isNaN b || isNaN c then (qNaN, nvOf [a, b, c] ||| (if bad then fNV else 0))
  else if bad then (qNaN, fNV)
  else if isInf a || isInf b then (if isInf c && fSign c != n then (qNaN, fNV) else (fInf n, 0))
  else if isInf c then (c, 0)
  else fSum fcsr n (fMant a * fMant b) (fScale a + fScale b) (fSign c) (fMant c) (fScale c)

/-- FDIV. -/
def fdiv (fcsr a0 b0 : Word) : Flagged :=
  let a := fRead fcsr a0
  let b := fRead fcsr b0
  let n := fSign a != fSign b
  if isNaN a || isNaN b then (qNaN, nvOf [a, b])
  else if (isInf a && isInf b) || (isZero a && isZero b) then (qNaN, fNV)
  else if isInf a then (fInf n, 0)
  else if isZero b then (fInf n, fDZ)
  else if isInf b || isZero a then (fZero n, 0)
  else
    let m := fMant a * 2 ^ 60
    fRound fcsr n (m / fMant b) (fScale a - fScale b - 60) (decide (m % fMant b ≠ 0))

/-- The integer square root of a number below 2^90. -/
def isqrt (n : Nat) : Nat := (List.range 46).foldl (fun r i => if (r + 2 ^ (45 - i)) ^ 2 ≤ n then r + 2 ^ (45 - i) else r) 0

/-- FSQRT. -/
def fsqrt (fcsr a0 : Word) : Flagged :=
  let a := fRead fcsr a0
  if isNaN a then (qNaN, nvOf [a])
  else if isZero a then (a, 0)
  else if fSign a then (qNaN, fNV)
  else if isInf a then (a, 0)
  else
    let odd := fScale a % 2 = 1
    let m := (if odd then 2 * fMant a else fMant a) * 2 ^ 60
    let e := (if odd then fScale a - 1 else fScale a) / 2 - 30
    let r := isqrt m
    fRound fcsr false r e (decide (r * r ≠ m))

/-- A number's place in the order of binary32, −0 below +0. -/
def fOrd (a : Word) : Int := if fSign a then -1 - (a.toNat % 2147483648 : Nat) else (a.toNat : Nat)

/-- `a < b` for numbers, the zeros equal. -/
def fLess (a b : Word) : Bool := !isNaN a && !isNaN b && !(isZero a && isZero b) && decide (fOrd a < fOrd b)

/-- FCLAMP (R241). -/
def fclamp (fcsr x0 lo0 hi0 : Word) : Flagged :=
  let x := fRead fcsr x0
  let lo := fRead fcsr lo0
  let hi := fRead fcsr hi0
  (if isNaN x then qNaN else if fLess hi x then hi else if fLess x lo then lo else x, nvOf [x, lo, hi])

/-- FMIN and FMAX (R241). -/
def fminmax (max : Bool) (fcsr a0 b0 : Word) : Flagged :=
  let a := fRead fcsr a0
  let b := fRead fcsr b0
  (if isNaN a && isNaN b then qNaN else if isNaN a then b else if isNaN b then a
   else if max then (if fOrd a < fOrd b then b else a) else (if fOrd b < fOrd a then b else a), nvOf [a, b])

/-- FEQ (R241). -/
def feq (fcsr a0 b0 : Word) : Flagged :=
  let a := fRead fcsr a0
  let b := fRead fcsr b0
  (flagWord (!isNaN a && !isNaN b && (a == b || (isZero a && isZero b))), nvOf [a, b])

/-- FLT (R241). -/
def flt (fcsr a0 b0 : Word) : Flagged :=
  let a := fRead fcsr a0
  let b := fRead fcsr b0
  (flagWord (fLess a b), if isNaN a || isNaN b then fNV else 0)

/-- FLE (R241). -/
def fle (fcsr a0 b0 : Word) : Flagged :=
  let a := fRead fcsr a0
  let b := fRead fcsr b0
  (flagWord (!isNaN a && !isNaN b && !fLess b a), if isNaN a || isNaN b then fNV else 0)

/-- A finite number times `2^k`, rounded to an integer by `RM`; whether it was inexact. DEDUCED (log 30). -/
def fToInt (fcsr a : Word) (k : Int) : Int × Bool :=
  let e := fScale a + k
  let n := fSign a
  let x : Nat × Bool :=
    if 0 ≤ e then (fMant a * 2 ^ e.toNat, false)
    else
      let d := (-e).toNat
      (fMant a / 2 ^ d + b2n (roundsUp (rmOf fcsr) n (fMant a) d false), decide (fMant a % 2 ^ d ≠ 0))
  (if n then -(x.1 : Int) else x.1, x.2)

/-- F2I (k = 0) and F2Q (k = 31): saturated, a NaN gives 0 (R204). -/
def f2int (k : Int) (fcsr a0 : Word) : Flagged :=
  let a := fRead fcsr a0
  if isNaN a then (0, fNV)
  else if isInf a then (if fSign a then 0x80000000 else 0x7FFFFFFF, fNV)
  else
    let x := fToInt fcsr a k
    if x.1 < -2147483648 then (0x80000000, fNV)
    else if 2147483647 < x.1 then (0x7FFFFFFF, fNV)
    else (BitVec.ofInt 32 x.1, if x.2 then fNX else 0)

/-- I2F (k = 0) and Q2F (k = −31). -/
def int2f (k : Int) (fcsr a : Word) : Flagged :=
  if a = 0 then (0, 0) else fRound fcsr (decide (a.toInt < 0)) a.toInt.natAbs k false

end Sys2Proof.Machine
end

