-- ==== Sys2Proof/Machine/RegTable.lean ====
section
/-! DEFINITION. The register tables of the spec, written out: every register of every page kind with its offset
(and the stride and count where it is an array), its reset value and its fields with their access type (R7, R8, R11). -/

namespace Sys2Proof.Machine

/-- A field's access type (R8), `ovf` being the W1C sticky overflow bit of an event counter, whose clearing also
clears the count (R10). -/
inductive FieldTy where
  | ro | rw | rwl | wo | w1c | w1s | rc | ovf
  deriving DecidableEq, Repr

/-- One field `[hi:lo]` of a register. -/
structure Field where
  hi : Nat
  lo : Nat
  ty : FieldTy
  deriving DecidableEq, Repr

/-- One register, or an array of `count` registers `stride` bytes apart. Bits outside every field are reserved (R7). -/
structure RegDesc where
  off    : Nat
  stride : Nat
  count  : Nat
  reset  : Nat
  fields : List Field
  deriving DecidableEq, Repr

/-- Offset of `PAGE_ID` in every page (R11). -/
def Reg.PAGE_ID : Nat := 0x0
/-- Offset of `PAGE_CAP` in every page (R11). -/
def Reg.PAGE_CAP : Nat := 0x4
/-- Offset of `PAGE_CTL` in every page (R11). -/
def Reg.PAGE_CTL : Nat := 0x8
/-- Offset of `PAGE_STAT` in every page (R11). -/
def Reg.PAGE_STAT : Nat := 0xC
/-- Offset of `PAGE_IRQ_STAT` in every page (R11). -/
def Reg.PAGE_IRQ_STAT : Nat := 0x10
/-- Offset of `PAGE_IRQ_EN` in every page (R11). -/
def Reg.PAGE_IRQ_EN : Nat := 0x14
/-- Offset of `PAGE_IRQ_SET` in every page (R11). -/
def Reg.PAGE_IRQ_SET : Nat := 0x18
/-- Offset of `PAGE_LOCK` in every page (R11). -/
def Reg.PAGE_LOCK : Nat := 0x1C
/-- Offset of `DTB_CTL`. -/
def Reg.DTB_CTL : Nat := 0x40
/-- Offset of `DTB_STAT`. -/
def Reg.DTB_STAT : Nat := 0x44
/-- Offset of `DTB_NS_LO`. -/
def Reg.DTB_NS_LO : Nat := 0x48
/-- Offset of `DTB_NS_HI`. -/
def Reg.DTB_NS_HI : Nat := 0x4C
/-- Offset of `DTB_FRAC`. -/
def Reg.DTB_FRAC : Nat := 0x50
/-- Offset of `DTB_INC`. -/
def Reg.DTB_INC : Nat := 0x54
/-- Offset of `DTB_SET_LO`. -/
def Reg.DTB_SET_LO : Nat := 0x58
/-- Offset of `DTB_SET_HI`. -/
def Reg.DTB_SET_HI : Nat := 0x5C
/-- Offset of `DTB_STEP`. -/
def Reg.DTB_STEP : Nat := 0x60
/-- Offset of `DTB_CMD`. -/
def Reg.DTB_CMD : Nat := 0x64
/-- Offset of `DTB_MFP`. -/
def Reg.DTB_MFP : Nat := 0x70
/-- Offset of `DTB_MFN_LO`. -/
def Reg.DTB_MFN_LO : Nat := 0x74
/-- Offset of `DTB_MFN_HI`. -/
def Reg.DTB_MFN_HI : Nat := 0x78
/-- Offset of `DTB_MFT_LO`. -/
def Reg.DTB_MFT_LO : Nat := 0x7C
/-- Offset of `DTB_MFT_HI`. -/
def Reg.DTB_MFT_HI : Nat := 0x80
/-- Offset of `DTB_MFNSET_LO`. -/
def Reg.DTB_MFNSET_LO : Nat := 0x84
/-- Offset of `DTB_MFNSET_HI`. -/
def Reg.DTB_MFNSET_HI : Nat := 0x88
/-- Offset of `DTB_PTM_CTL`. -/
def Reg.DTB_PTM_CTL : Nat := 0x8C
/-- Offset of `DTB_PTM_OFS_LO`. -/
def Reg.DTB_PTM_OFS_LO : Nat := 0x90
/-- Offset of `DTB_PTM_OFS_HI`. -/
def Reg.DTB_PTM_OFS_HI : Nat := 0x94
/-- Offset of `DTB_PTM_CNT`. -/
def Reg.DTB_PTM_CNT : Nat := 0x98
/-- Offset of `DTB_TLOST_CNT`. -/
def Reg.DTB_TLOST_CNT : Nat := 0x9C
/-- Offset of `FRM_CTL`. -/
def Reg.FRM_CTL : Nat := 0x40
/-- Offset of `FRM_STAT`. -/
def Reg.FRM_STAT : Nat := 0x44
/-- Offset of `FRM_PHASE`. -/
def Reg.FRM_PHASE : Nat := 0x48
/-- Offset of `FRM_LEAD`. -/
def Reg.FRM_LEAD : Nat := 0x4C
/-- Offset of `FRM_FCNT`. -/
def Reg.FRM_FCNT : Nat := 0x50
/-- Offset of `FRM_TICK_DTB_LO`. -/
def Reg.FRM_TICK_DTB_LO : Nat := 0x54
/-- Offset of `FRM_TICK_DTB_HI`. -/
def Reg.FRM_TICK_DTB_HI : Nat := 0x58
/-- Offset of `FRM_TICK_FCNT`. -/
def Reg.FRM_TICK_FCNT : Nat := 0x5C
/-- Offset of `FRM_TICK_MFN_LO`. -/
def Reg.FRM_TICK_MFN_LO : Nat := 0x60
/-- Offset of `FRM_TICK_MFN_HI`. -/
def Reg.FRM_TICK_MFN_HI : Nat := 0x64
/-- Offset of `FRM_DTB_LO`. -/
def Reg.FRM_DTB_LO : Nat := 0x68
/-- Offset of `FRM_DTB_HI`. -/
def Reg.FRM_DTB_HI : Nat := 0x6C
/-- Offset of `FRM_DTB_FRAC`. -/
def Reg.FRM_DTB_FRAC : Nat := 0x70
/-- Offset of `FRM_NEXT_TICK`. -/
def Reg.FRM_NEXT_TICK : Nat := 0x74
/-- Offset of `FRM_DEADLINE`. -/
def Reg.FRM_DEADLINE : Nat := 0x78
/-- Offset of `FRM_CORR`. -/
def Reg.FRM_CORR : Nat := 0x7C
/-- Offset of `FRM_CEMASK`. -/
def Reg.FRM_CEMASK : Nat := 0x80
/-- Offset of `FRM_FOVR_CNT`. -/
def Reg.FRM_FOVR_CNT : Nat := 0x84
/-- Offset of `FRM_FOVR_CE`. -/
def Reg.FRM_FOVR_CE : Nat := 0x88
/-- Offset of `FRM_CE_FGVEC` number `k`. -/
def Reg.FRM_CE_FGVEC (k : Nat) : Nat := 0xC0 + 0x8 * k
/-- Offset of `FRM_CE_STAT` number `k`. -/
def Reg.FRM_CE_STAT (k : Nat) : Nat := 0xC4 + 0x8 * k
/-- Offset of `FRM_CE_FGMAX` number `k`. -/
def Reg.FRM_CE_FGMAX (k : Nat) : Nat := 0x100 + 0x4 * k
/-- Offset of `PWG_CTL`. -/
def Reg.PWG_CTL : Nat := 0x40
/-- Offset of `PWG_STAT`. -/
def Reg.PWG_STAT : Nat := 0x44
/-- Offset of `PWG_PER`. -/
def Reg.PWG_PER : Nat := 0x48
/-- Offset of `PWG_PER_ACT`. -/
def Reg.PWG_PER_ACT : Nat := 0x4C
/-- Offset of `PWG_TOKEN`. -/
def Reg.PWG_TOKEN : Nat := 0x50
/-- Offset of `PWG_TOKEN_PEND`. -/
def Reg.PWG_TOKEN_PEND : Nat := 0x54
/-- Offset of `PWG_CNT`. -/
def Reg.PWG_CNT : Nat := 0x58
/-- Offset of `PWG_DPREJ_CNT`. -/
def Reg.PWG_DPREJ_CNT : Nat := 0x60
/-- Offset of `PWG_STALE_CH`. -/
def Reg.PWG_STALE_CH : Nat := 0x64
/-- Offset of `PWG_CLAMP_CH`. -/
def Reg.PWG_CLAMP_CH : Nat := 0x68
/-- Offset of `PWG_SAFE_STAT`. -/
def Reg.PWG_SAFE_STAT : Nat := 0x6C
/-- Offset of `PWG_SAFE_SET`. -/
def Reg.PWG_SAFE_SET : Nat := 0x70
/-- Offset of `PWG_SAFE_REL`. -/
def Reg.PWG_SAFE_REL : Nat := 0x74
/-- Offset of `PWG_SAFE_CAUSE`. -/
def Reg.PWG_SAFE_CAUSE : Nat := 0x78
/-- Offset of `PWG_CH_CTL` number `k`. -/
def Reg.PWG_CH_CTL (k : Nat) : Nat := 0x100 + 0x20 * k
/-- Offset of `PWG_CH_CMPU` number `k`. -/
def Reg.PWG_CH_CMPU (k : Nat) : Nat := 0x104 + 0x20 * k
/-- Offset of `PWG_CH_CMPD` number `k`. -/
def Reg.PWG_CH_CMPD (k : Nat) : Nat := 0x108 + 0x20 * k
/-- Offset of `PWG_CH_CMPU_ACT` number `k`. -/
def Reg.PWG_CH_CMPU_ACT (k : Nat) : Nat := 0x10C + 0x20 * k
/-- Offset of `PWG_CH_CMPD_ACT` number `k`. -/
def Reg.PWG_CH_CMPD_ACT (k : Nat) : Nat := 0x110 + 0x20 * k
/-- Offset of `PWG_CH_DT` number `k`. -/
def Reg.PWG_CH_DT (k : Nat) : Nat := 0x114 + 0x20 * k
/-- Offset of `PWG_CH_STAT` number `k`. -/
def Reg.PWG_CH_STAT (k : Nat) : Nat := 0x118 + 0x20 * k
/-- Offset of `PWG_TRIP_PINCFG`. -/
def Reg.PWG_TRIP_PINCFG : Nat := 0x40
/-- Offset of `PWG_TRIP_EGGRP`. -/
def Reg.PWG_TRIP_EGGRP : Nat := 0x44
/-- Offset of `PWG_TRIP_SW`. -/
def Reg.PWG_TRIP_SW : Nat := 0x48
/-- Offset of `PWG_TRIP_SRC`. -/
def Reg.PWG_TRIP_SRC : Nat := 0x4C
/-- Offset of `PWG_TRIP_CLR`. -/
def Reg.PWG_TRIP_CLR : Nat := 0x50
/-- Offset of `PWG_TRIP_EVT`. -/
def Reg.PWG_TRIP_EVT : Nat := 0x54
/-- Offset of `PWG_CLR_REF_CH`. -/
def Reg.PWG_CLR_REF_CH : Nat := 0x58
/-- Offset of `PWG_TRIP_CMPGRP` number `k`. -/
def Reg.PWG_TRIP_CMPGRP (k : Nat) : Nat := 0x80 + 0x4 * k
/-- Offset of `PWG_BLK_CTL` number `k`. -/
def Reg.PWG_BLK_CTL (k : Nat) : Nat := 0xC0 + 0x10 * k
/-- Offset of `PWG_BLK_SRC` number `k`. -/
def Reg.PWG_BLK_SRC (k : Nat) : Nat := 0xC4 + 0x10 * k
/-- Offset of `PWG_BLK_CNT` number `k`. -/
def Reg.PWG_BLK_CNT (k : Nat) : Nat := 0xC8 + 0x10 * k
/-- Offset of `PWG_CH_TRIPMODE` number `k`. -/
def Reg.PWG_CH_TRIPMODE (k : Nat) : Nat := 0x100 + 0x4 * k
/-- Offset of `PWG_CH_TLSRC` number `k`. -/
def Reg.PWG_CH_TLSRC (k : Nat) : Nat := 0x160 + 0x4 * k
/-- Offset of `ADC_CTL`. -/
def Reg.ADC_CTL : Nat := 0x40
/-- Offset of `ADC_STAT`. -/
def Reg.ADC_STAT : Nat := 0x44
/-- Offset of `ADC_OFS`. -/
def Reg.ADC_OFS : Nat := 0x48
/-- Offset of `ADC_GAIN`. -/
def Reg.ADC_GAIN : Nat := 0x4C
/-- Offset of `ADC_CAL_CMD`. -/
def Reg.ADC_CAL_CMD : Nat := 0x50
/-- Offset of `ADC_CAL_STAT`. -/
def Reg.ADC_CAL_STAT : Nat := 0x54
/-- Offset of `ADC_TEST_RES`. -/
def Reg.ADC_TEST_RES : Nat := 0x58
/-- Offset of `ADC_TEST_LIM`. -/
def Reg.ADC_TEST_LIM : Nat := 0x5C
/-- Offset of `ADC_LAST`. -/
def Reg.ADC_LAST : Nat := 0x60
/-- Offset of `ADC_DROP_CNT`. -/
def Reg.ADC_DROP_CNT : Nat := 0x64
/-- Offset of `ADC_TSENS`. -/
def Reg.ADC_TSENS : Nat := 0x68
/-- Offset of `SDM_CKO`. -/
def Reg.SDM_CKO : Nat := 0x40
/-- Offset of `SDM_CKSTAT`. -/
def Reg.SDM_CKSTAT : Nat := 0x44
/-- Offset of `SDM_CKLOST`. -/
def Reg.SDM_CKLOST : Nat := 0x48
/-- Offset of `SDM_FASTSEEN`. -/
def Reg.SDM_FASTSEEN : Nat := 0x4C
/-- Offset of `SDM_SATSEEN`. -/
def Reg.SDM_SATSEEN : Nat := 0x50
/-- Offset of `SDM_CKLOST_CNT`. -/
def Reg.SDM_CKLOST_CNT : Nat := 0x54
/-- Offset of `SDM_CTL` number `k`. -/
def Reg.SDM_CTL (k : Nat) : Nat := 0x100 + 0x20 * k
/-- Offset of `SDM_RES` number `k`. -/
def Reg.SDM_RES (k : Nat) : Nat := 0x104 + 0x20 * k
/-- Offset of `SDM_FAST_CTL` number `k`. -/
def Reg.SDM_FAST_CTL (k : Nat) : Nat := 0x108 + 0x20 * k
/-- Offset of `SDM_FLIM` number `k`. -/
def Reg.SDM_FLIM (k : Nat) : Nat := 0x10C + 0x20 * k
/-- Offset of `SDM_FVAL` number `k`. -/
def Reg.SDM_FVAL (k : Nat) : Nat := 0x110 + 0x20 * k
/-- Offset of `SMP_CTL`. -/
def Reg.SMP_CTL : Nat := 0x40
/-- Offset of `SMP_STAT`. -/
def Reg.SMP_STAT : Nat := 0x44
/-- Offset of `SMP_CMD`. -/
def Reg.SMP_CMD : Nat := 0x48
/-- Offset of `SMP_TBL_ERR`. -/
def Reg.SMP_TBL_ERR : Nat := 0x4C
/-- Offset of `SMP_SKIPVAL`. -/
def Reg.SMP_SKIPVAL : Nat := 0x50
/-- Offset of `SMP_SKIP_CNT`. -/
def Reg.SMP_SKIP_CNT : Nat := 0x54
/-- Offset of `SMP_SPOVF_CNT`. -/
def Reg.SMP_SPOVF_CNT : Nat := 0x58
/-- Offset of `SMP_SPOVF_CE`. -/
def Reg.SMP_SPOVF_CE : Nat := 0x5C
/-- Offset of `SMP_FIFO_LO`. -/
def Reg.SMP_FIFO_LO : Nat := 0x60
/-- Offset of `SMP_FIFO_HI`. -/
def Reg.SMP_FIFO_HI : Nat := 0x64
/-- Offset of `SMP_FIFO_DROP`. -/
def Reg.SMP_FIFO_DROP : Nat := 0x68
/-- Offset of `SMP_SWMFN_LO`. -/
def Reg.SMP_SWMFN_LO : Nat := 0x70
/-- Offset of `SMP_SWMFN_HI`. -/
def Reg.SMP_SWMFN_HI : Nat := 0x74
/-- Offset of `SMP_SPLVL` number `k`. -/
def Reg.SMP_SPLVL (k : Nat) : Nat := 0x80 + 0x4 * k
/-- Offset of `SMP_ENT_W0` number `k`. -/
def Reg.SMP_ENT_W0 (k : Nat) : Nat := 0x400 + 0x8 * k
/-- Offset of `SMP_ENT_W1` number `k`. -/
def Reg.SMP_ENT_W1 (k : Nat) : Nat := 0x404 + 0x8 * k
/-- Offset of `SMP_ACT_W0` number `k`. -/
def Reg.SMP_ACT_W0 (k : Nat) : Nat := 0x600 + 0x8 * k
/-- Offset of `SMP_ACT_W1` number `k`. -/
def Reg.SMP_ACT_W1 (k : Nat) : Nat := 0x604 + 0x8 * k
/-- Offset of `CMP_OUT`. -/
def Reg.CMP_OUT : Nat := 0x40
/-- Offset of `CMP_LATH`. -/
def Reg.CMP_LATH : Nat := 0x44
/-- Offset of `CMP_LATL`. -/
def Reg.CMP_LATL : Nat := 0x48
/-- Offset of `CMP_STARTMID`. -/
def Reg.CMP_STARTMID : Nat := 0x4C
/-- Offset of `CMP_IEDGE`. -/
def Reg.CMP_IEDGE : Nat := 0x50
/-- Offset of `CMP_WAKE`. -/
def Reg.CMP_WAKE : Nat := 0x54
/-- Offset of `CMP_RB_CMD`. -/
def Reg.CMP_RB_CMD : Nat := 0x60
/-- Offset of `CMP_RB_CTL`. -/
def Reg.CMP_RB_CTL : Nat := 0x64
/-- Offset of `CMP_RB_RES`. -/
def Reg.CMP_RB_RES : Nat := 0x68
/-- Offset of `CMP_RB_FAILSEEN`. -/
def Reg.CMP_RB_FAILSEEN : Nat := 0x6C
/-- Offset of `CMP_RB_STARV_CNT`. -/
def Reg.CMP_RB_STARV_CNT : Nat := 0x70
/-- Offset of `CMP_CTL` number `k`. -/
def Reg.CMP_CTL (k : Nat) : Nat := 0x100 + 0x20 * k
/-- Offset of `CMP_THR` number `k`. -/
def Reg.CMP_THR (k : Nat) : Nat := 0x104 + 0x20 * k
/-- Offset of `CMP_THR_ACT` number `k`. -/
def Reg.CMP_THR_ACT (k : Nat) : Nat := 0x108 + 0x20 * k
/-- Offset of `CMP_ST` number `k`. -/
def Reg.CMP_ST (k : Nat) : Nat := 0x10C + 0x20 * k
/-- Offset of `CMP_XCNT` number `k`. -/
def Reg.CMP_XCNT (k : Nat) : Nat := 0x110 + 0x20 * k
/-- Offset of `QDEC_PINSEL`. -/
def Reg.QDEC_PINSEL : Nat := 0x40
/-- Offset of `QDEC_CTL` number `k`. -/
def Reg.QDEC_CTL (k : Nat) : Nat := 0x100 + 0x20 * k
/-- Offset of `QDEC_POS` number `k`. -/
def Reg.QDEC_POS (k : Nat) : Nat := 0x104 + 0x20 * k
/-- Offset of `QDEC_IDXPOS` number `k`. -/
def Reg.QDEC_IDXPOS (k : Nat) : Nat := 0x108 + 0x20 * k
/-- Offset of `QDEC_IDXLOAD` number `k`. -/
def Reg.QDEC_IDXLOAD (k : Nat) : Nat := 0x10C + 0x20 * k
/-- Offset of `QDEC_STAT` number `k`. -/
def Reg.QDEC_STAT (k : Nat) : Nat := 0x110 + 0x20 * k
/-- Offset of `QDEC_QERR_CNT` number `k`. -/
def Reg.QDEC_QERR_CNT (k : Nat) : Nat := 0x114 + 0x20 * k
/-- Offset of `CAP_CTL` number `k`. -/
def Reg.CAP_CTL (k : Nat) : Nat := 0x100 + 0x20 * k
/-- Offset of `CAP_TS_LO` number `k`. -/
def Reg.CAP_TS_LO (k : Nat) : Nat := 0x104 + 0x20 * k
/-- Offset of `CAP_TS_HI` number `k`. -/
def Reg.CAP_TS_HI (k : Nat) : Nat := 0x108 + 0x20 * k
/-- Offset of `CAP_POS` number `k`. -/
def Reg.CAP_POS (k : Nat) : Nat := 0x10C + 0x20 * k
/-- Offset of `CAP_STAT` number `k`. -/
def Reg.CAP_STAT (k : Nat) : Nat := 0x110 + 0x20 * k
/-- Offset of `CAP_LOST_CNT` number `k`. -/
def Reg.CAP_LOST_CNT (k : Nat) : Nat := 0x114 + 0x20 * k
/-- Offset of `SEP_CMD`. -/
def Reg.SEP_CMD : Nat := 0x44
/-- Offset of `SEP_CTL` number `k`. -/
def Reg.SEP_CTL (k : Nat) : Nat := 0x100 + 0x20 * k
/-- Offset of `SEP_FRM` number `k`. -/
def Reg.SEP_FRM (k : Nat) : Nat := 0x104 + 0x20 * k
/-- Offset of `SEP_CRC` number `k`. -/
def Reg.SEP_CRC (k : Nat) : Nat := 0x108 + 0x20 * k
/-- Offset of `SEP_TIM` number `k`. -/
def Reg.SEP_TIM (k : Nat) : Nat := 0x10C + 0x20 * k
/-- Offset of `SEP_DATA_LO` number `k`. -/
def Reg.SEP_DATA_LO (k : Nat) : Nat := 0x110 + 0x20 * k
/-- Offset of `SEP_DATA_HI` number `k`. -/
def Reg.SEP_DATA_HI (k : Nat) : Nat := 0x114 + 0x20 * k
/-- Offset of `SEP_STAT` number `k`. -/
def Reg.SEP_STAT (k : Nat) : Nat := 0x118 + 0x20 * k
/-- Offset of `SEP_ERR_CNT` number `k`. -/
def Reg.SEP_ERR_CNT (k : Nat) : Nat := 0x11C + 0x20 * k
/-- Offset of `CE_CTL`. -/
def Reg.CE_CTL : Nat := 0x40
/-- Offset of `CE_STAT`. -/
def Reg.CE_STAT : Nat := 0x44
/-- Offset of `CE_BOOTVEC`. -/
def Reg.CE_BOOTVEC : Nat := 0x48
/-- Offset of `CE_CKPT_SRC`. -/
def Reg.CE_CKPT_SRC : Nat := 0x4C
/-- Offset of `CE_CKPT_LEN`. -/
def Reg.CE_CKPT_LEN : Nat := 0x50
/-- Offset of `CE_RFAULT`. -/
def Reg.CE_RFAULT : Nat := 0x54
/-- Offset of `CE_RFAULT_INFO`. -/
def Reg.CE_RFAULT_INFO : Nat := 0x58
/-- Offset of `CE_RFAULT_CNT`. -/
def Reg.CE_RFAULT_CNT : Nat := 0x5C
/-- Offset of `CE_RGN_BASE` number `k`. -/
def Reg.CE_RGN_BASE (k : Nat) : Nat := 0x100 + 0x10 * k
/-- Offset of `CE_RGN_CFG` number `k`. -/
def Reg.CE_RGN_CFG (k : Nat) : Nat := 0x104 + 0x10 * k
/-- Offset of `CE_RGN_PA_LO` number `k`. -/
def Reg.CE_RGN_PA_LO (k : Nat) : Nat := 0x108 + 0x10 * k
/-- Offset of `CE_RGN_PA_HI` number `k`. -/
def Reg.CE_RGN_PA_HI (k : Nat) : Nat := 0x10C + 0x10 * k
/-- Offset of `AC_CTL`. -/
def Reg.AC_CTL : Nat := 0x40
/-- Offset of `AC_STAT`. -/
def Reg.AC_STAT : Nat := 0x44
/-- Offset of `AC_BOOTVEC_LO`. -/
def Reg.AC_BOOTVEC_LO : Nat := 0x48
/-- Offset of `AC_BOOTVEC_HI`. -/
def Reg.AC_BOOTVEC_HI : Nat := 0x4C
/-- Offset of `AC_PCSAMP_LO`. -/
def Reg.AC_PCSAMP_LO : Nat := 0x50
/-- Offset of `AC_PCSAMP_HI`. -/
def Reg.AC_PCSAMP_HI : Nat := 0x54
/-- Offset of `SWSET`. -/
def Reg.SWSET : Nat := 0x44
/-- Offset of `CMPL_STRAY`. -/
def Reg.CMPL_STRAY : Nat := 0x48
/-- Offset of `CLAIM_SPUR`. -/
def Reg.CLAIM_SPUR : Nat := 0x4C
/-- Offset of `STRAY_LAST`. -/
def Reg.STRAY_LAST : Nat := 0x50
/-- Offset of `CTX_CTL` number `k`. -/
def Reg.CTX_CTL (k : Nat) : Nat := 0x100 + 0x20 * k
/-- Offset of `CTX_CLAIM` number `k`. -/
def Reg.CTX_CLAIM (k : Nat) : Nat := 0x104 + 0x20 * k
/-- Offset of `CTX_CMPL` number `k`. -/
def Reg.CTX_CMPL (k : Nat) : Nat := 0x108 + 0x20 * k
/-- Offset of `CTX_TOP` number `k`. -/
def Reg.CTX_TOP (k : Nat) : Nat := 0x10C + 0x20 * k
/-- Offset of `SRC_CFG` number `k`. -/
def Reg.SRC_CFG (k : Nat) : Nat := 0x400 + 0x8 * k
/-- Offset of `SRC_TGT` number `k`. -/
def Reg.SRC_TGT (k : Nat) : Nat := 0x404 + 0x8 * k
/-- Offset of `PAIR_STAT`. -/
def Reg.PAIR_STAT : Nat := 0x40
/-- Offset of `PAIR_CMD`. -/
def Reg.PAIR_CMD : Nat := 0x44
/-- Offset of `PAIR_MIS_INFO`. -/
def Reg.PAIR_MIS_INFO : Nat := 0x48
/-- Offset of `PAIR_MIS_PC`. -/
def Reg.PAIR_MIS_PC : Nat := 0x4C
/-- Offset of `PAIR_MIS_FCNT`. -/
def Reg.PAIR_MIS_FCNT : Nat := 0x50
/-- Offset of `PAIR_MIS_DTB`. -/
def Reg.PAIR_MIS_DTB : Nat := 0x54
/-- Offset of `PAIR_MIS_CNT`. -/
def Reg.PAIR_MIS_CNT : Nat := 0x58
/-- Offset of `PAIR_TKO_CNT`. -/
def Reg.PAIR_TKO_CNT : Nat := 0x5C
/-- Offset of `PAIR_TKO_LIM`. -/
def Reg.PAIR_TKO_LIM : Nat := 0x60
/-- Offset of `PAIR_PCFG` number `k`. -/
def Reg.PAIR_PCFG (k : Nat) : Nat := 0x80 + 0x10 * k
/-- Offset of `PAIR_CKPT_STAT` number `k`. -/
def Reg.PAIR_CKPT_STAT (k : Nat) : Nat := 0x84 + 0x10 * k
/-- Offset of `PAIR_CKPT_FCNT` number `k`. -/
def Reg.PAIR_CKPT_FCNT (k : Nat) : Nat := 0x88 + 0x10 * k
/-- Offset of `PAIR_SB_TVEC` number `k`. -/
def Reg.PAIR_SB_TVEC (k : Nat) : Nat := 0x8C + 0x10 * k
/-- Offset of `SRAM_WLOST` number `k`. -/
def Reg.SRAM_WLOST (k : Nat) : Nat := 0x80 + 0x4 * k
/-- Offset of `SRAM_DRAM_CNT` number `k`. -/
def Reg.SRAM_DRAM_CNT (k : Nat) : Nat := 0x80 + 0x10 * k
/-- Offset of `SRAM_DRAM_UCNT` number `k`. -/
def Reg.SRAM_DRAM_UCNT (k : Nat) : Nat := 0x84 + 0x10 * k
/-- Offset of `SRAM_DRAM_ADDR_LO` number `k`. -/
def Reg.SRAM_DRAM_ADDR_LO (k : Nat) : Nat := 0x88 + 0x10 * k
/-- Offset of `SRAM_DRAM_ADDR_HI` number `k`. -/
def Reg.SRAM_DRAM_ADDR_HI (k : Nat) : Nat := 0x8C + 0x10 * k
/-- Offset of `SRAM_VLT_STAT`. -/
def Reg.SRAM_VLT_STAT : Nat := 0xC0
/-- Offset of `SRAM_U_CTL` number `k`. -/
def Reg.SRAM_U_CTL (k : Nat) : Nat := 0x100 + 0x40 * k
/-- Offset of `SRAM_U_STAT` number `k`. -/
def Reg.SRAM_U_STAT (k : Nat) : Nat := 0x104 + 0x40 * k
/-- Offset of `SRAM_U_CECNT` number `k`. -/
def Reg.SRAM_U_CECNT (k : Nat) : Nat := 0x108 + 0x40 * k
/-- Offset of `SRAM_U_UECNT` number `k`. -/
def Reg.SRAM_U_UECNT (k : Nat) : Nat := 0x10C + 0x40 * k
/-- Offset of `SRAM_U_ERRADDR` number `k`. -/
def Reg.SRAM_U_ERRADDR (k : Nat) : Nat := 0x110 + 0x40 * k
/-- Offset of `SRAM_U_ERRINFO` number `k`. -/
def Reg.SRAM_U_ERRINFO (k : Nat) : Nat := 0x114 + 0x40 * k
/-- Offset of `SRAM_U_BTFAIL` number `k`. -/
def Reg.SRAM_U_BTFAIL (k : Nat) : Nat := 0x118 + 0x40 * k
/-- Offset of `SRAM_U_REMAP` number `k`. -/
def Reg.SRAM_U_REMAP (k : Nat) : Nat := 0x11C + 0x40 * k
/-- Offset of `SRAM_U_THR` number `k`. -/
def Reg.SRAM_U_THR (k : Nat) : Nat := 0x120 + 0x40 * k
/-- Offset of `SRAM_U_INJ` number `k`. -/
def Reg.SRAM_U_INJ (k : Nat) : Nat := 0x124 + 0x40 * k
/-- Offset of `SRAM_U_WLOST` number `k`. -/
def Reg.SRAM_U_WLOST (k : Nat) : Nat := 0x128 + 0x40 * k
/-- Offset of `MMU_CTL`. -/
def Reg.MMU_CTL : Nat := 0x40
/-- Offset of `MMU_STAT`. -/
def Reg.MMU_STAT : Nat := 0x44
/-- Offset of `MMU_ROOT_LO`. -/
def Reg.MMU_ROOT_LO : Nat := 0x48
/-- Offset of `MMU_ROOT_HI`. -/
def Reg.MMU_ROOT_HI : Nat := 0x4C
/-- Offset of `MMU_ASID`. -/
def Reg.MMU_ASID : Nat := 0x50
/-- Offset of `MMU_FVA_LO`. -/
def Reg.MMU_FVA_LO : Nat := 0x54
/-- Offset of `MMU_FVA_HI`. -/
def Reg.MMU_FVA_HI : Nat := 0x58
/-- Offset of `MMU_FPTE_LO`. -/
def Reg.MMU_FPTE_LO : Nat := 0x5C
/-- Offset of `MMU_FPTE_HI`. -/
def Reg.MMU_FPTE_HI : Nat := 0x60
/-- Offset of `MMU_WALK_CNT`. -/
def Reg.MMU_WALK_CNT : Nat := 0x64
/-- Offset of `MMU_RESTART_CNT`. -/
def Reg.MMU_RESTART_CNT : Nat := 0x68
/-- Offset of `MMU_DOMCTL`. -/
def Reg.MMU_DOMCTL : Nat := 0x80
/-- Offset of `MMU_DOMSTAT`. -/
def Reg.MMU_DOMSTAT : Nat := 0x84
/-- Offset of `MMU_DOMMEM`. -/
def Reg.MMU_DOMMEM : Nat := 0x88
/-- Offset of `DMA_STAT`. -/
def Reg.DMA_STAT : Nat := 0x40
/-- Offset of `DMA_CH_CFG` number `k`. -/
def Reg.DMA_CH_CFG (k : Nat) : Nat := 0x100 + 0x40 * k
/-- Offset of `DMA_CH_CMD` number `k`. -/
def Reg.DMA_CH_CMD (k : Nat) : Nat := 0x104 + 0x40 * k
/-- Offset of `DMA_CH_DESC_LO` number `k`. -/
def Reg.DMA_CH_DESC_LO (k : Nat) : Nat := 0x108 + 0x40 * k
/-- Offset of `DMA_CH_DESC_HI` number `k`. -/
def Reg.DMA_CH_DESC_HI (k : Nat) : Nat := 0x10C + 0x40 * k
/-- Offset of `DMA_CH_STAT` number `k`. -/
def Reg.DMA_CH_STAT (k : Nat) : Nat := 0x110 + 0x40 * k
/-- Offset of `DMA_CH_RESID` number `k`. -/
def Reg.DMA_CH_RESID (k : Nat) : Nat := 0x114 + 0x40 * k
/-- Offset of `DMA_CH_SADDR_LO` number `k`. -/
def Reg.DMA_CH_SADDR_LO (k : Nat) : Nat := 0x118 + 0x40 * k
/-- Offset of `DMA_CH_SADDR_HI` number `k`. -/
def Reg.DMA_CH_SADDR_HI (k : Nat) : Nat := 0x11C + 0x40 * k
/-- Offset of `DMA_CH_DADDR_LO` number `k`. -/
def Reg.DMA_CH_DADDR_LO (k : Nat) : Nat := 0x120 + 0x40 * k
/-- Offset of `DMA_CH_DADDR_HI` number `k`. -/
def Reg.DMA_CH_DADDR_HI (k : Nat) : Nat := 0x124 + 0x40 * k
/-- Offset of `DMA_CH_CDESC_LO` number `k`. -/
def Reg.DMA_CH_CDESC_LO (k : Nat) : Nat := 0x128 + 0x40 * k
/-- Offset of `DMA_CH_CDESC_HI` number `k`. -/
def Reg.DMA_CH_CDESC_HI (k : Nat) : Nat := 0x12C + 0x40 * k
/-- Offset of `DMA_CH_SREC_LO` number `k`. -/
def Reg.DMA_CH_SREC_LO (k : Nat) : Nat := 0x130 + 0x40 * k
/-- Offset of `DMA_CH_SREC_HI` number `k`. -/
def Reg.DMA_CH_SREC_HI (k : Nat) : Nat := 0x134 + 0x40 * k
/-- Offset of `DMA_CH_EVT` number `k`. -/
def Reg.DMA_CH_EVT (k : Nat) : Nat := 0x138 + 0x40 * k
/-- Offset of `DMA_CH_IEN` number `k`. -/
def Reg.DMA_CH_IEN (k : Nat) : Nat := 0x13C + 0x40 * k
/-- Offset of `DMA_CH_WLOST_CNT` number `k`. -/
def Reg.DMA_CH_WLOST_CNT (k : Nat) : Nat := 0x300 + 0x4 * k
/-- Offset of `FLS_STAT`. -/
def Reg.FLS_STAT : Nat := 0x40
/-- Offset of `FLS_EWTHR`. -/
def Reg.FLS_EWTHR : Nat := 0x44
/-- Offset of `FLS_EWADDR`. -/
def Reg.FLS_EWADDR : Nat := 0x48
/-- Offset of `FLS_EWCNT`. -/
def Reg.FLS_EWCNT : Nat := 0x4C
/-- Offset of `FLS_UEADDR`. -/
def Reg.FLS_UEADDR : Nat := 0x50
/-- Offset of `FLS_UECNT`. -/
def Reg.FLS_UECNT : Nat := 0x54
/-- Offset of `FLS_B_CMD` number `k`. -/
def Reg.FLS_B_CMD (k : Nat) : Nat := 0x100 + 0x40 * k
/-- Offset of `FLS_B_ADDR` number `k`. -/
def Reg.FLS_B_ADDR (k : Nat) : Nat := 0x104 + 0x40 * k
/-- Offset of `FLS_B_STAT` number `k`. -/
def Reg.FLS_B_STAT (k : Nat) : Nat := 0x108 + 0x40 * k
/-- Offset of `FLS_B_ERRADDR` number `k`. -/
def Reg.FLS_B_ERRADDR (k : Nat) : Nat := 0x10C + 0x40 * k
/-- Offset of `FLS_B_PROT` number `k`. -/
def Reg.FLS_B_PROT (k : Nat) : Nat := 0x110 + 0x40 * k
/-- Offset of `FLS_B_FB` number `k`. -/
def Reg.FLS_B_FB (k : Nat) : Nat := 0x114 + 0x40 * k
/-- Offset of `FLS_B_BUSYRD` number `k`. -/
def Reg.FLS_B_BUSYRD (k : Nat) : Nat := 0x118 + 0x40 * k
/-- Offset of `FLS_B_CORR1` number `k`. -/
def Reg.FLS_B_CORR1 (k : Nat) : Nat := 0x11C + 0x40 * k
/-- Offset of `FLS_B_CORR2` number `k`. -/
def Reg.FLS_B_CORR2 (k : Nat) : Nat := 0x120 + 0x40 * k
/-- Offset of `FLS_B_CORR3` number `k`. -/
def Reg.FLS_B_CORR3 (k : Nat) : Nat := 0x124 + 0x40 * k
/-- Offset of `FLS_B_PBUF` word `k`, counted through the whole array. -/
def Reg.FLS_B_PBUF (k : Nat) : Nat := 0x400 + 0x4 * k
/-- Offset of `RST_CAUSE`. -/
def Reg.RST_CAUSE : Nat := 0x40
/-- Offset of `RST_CMD`. -/
def Reg.RST_CMD : Nat := 0x44
/-- Offset of `RST_BOOT`. -/
def Reg.RST_BOOT : Nat := 0x48
/-- Offset of `RST_CFG`. -/
def Reg.RST_CFG : Nat := 0x4C
/-- Offset of `RST_BRG_HOLD`. -/
def Reg.RST_BRG_HOLD : Nat := 0x50
/-- Offset of `RST_BRG_STAT`. -/
def Reg.RST_BRG_STAT : Nat := 0x54
/-- Offset of `RST_BRG_REPLAY`. -/
def Reg.RST_BRG_REPLAY : Nat := 0x58
/-- Offset of `RST_BRG_RETRAIN`. -/
def Reg.RST_BRG_RETRAIN : Nat := 0x5C
/-- Offset of `RST_MON`. -/
def Reg.RST_MON : Nat := 0x60
/-- Offset of `RST_LOCKUP_AC`. -/
def Reg.RST_LOCKUP_AC : Nat := 0x64
/-- Offset of `RST_LOCKUP_CE_LO`. -/
def Reg.RST_LOCKUP_CE_LO : Nat := 0x68
/-- Offset of `RST_LOCKUP_CE_HI`. -/
def Reg.RST_LOCKUP_CE_HI : Nat := 0x6C
/-- Offset of `WD_CTL` number `k`. -/
def Reg.WD_CTL (k : Nat) : Nat := 0x100 + 0x10 * k
/-- Offset of `WD_KICK` number `k`. -/
def Reg.WD_KICK (k : Nat) : Nat := 0x104 + 0x10 * k
/-- Offset of `WD_CNT` number `k`. -/
def Reg.WD_CNT (k : Nat) : Nat := 0x108 + 0x10 * k
/-- Offset of `PWR_STAT`. -/
def Reg.PWR_STAT : Nat := 0x40
/-- Offset of `PWR_REFCNT`. -/
def Reg.PWR_REFCNT : Nat := 0x44
/-- Offset of `PWR_LASTREF`. -/
def Reg.PWR_LASTREF : Nat := 0x48
/-- Offset of `PWR_DOM` number `k`. -/
def Reg.PWR_DOM (k : Nat) : Nat := 0x400 + 0x4 * k
/-- Offset of `MON_TEMP`. -/
def Reg.MON_TEMP : Nat := 0x40
/-- Offset of `MON_TWARN`. -/
def Reg.MON_TWARN : Nat := 0x44
/-- Offset of `PWR_RAIL_MW` number `k`. -/
def Reg.PWR_RAIL_MW (k : Nat) : Nat := 0x40 + 0x4 * k
/-- Offset of `EG_STAT`. -/
def Reg.EG_STAT : Nat := 0x40
/-- Offset of `EG_FLD`. -/
def Reg.EG_FLD : Nat := 0x44
/-- Offset of `EG_CTL` number `k`. -/
def Reg.EG_CTL (k : Nat) : Nat := 0x100 + 0x40 * k
/-- Offset of `EG_WIN` number `k`. -/
def Reg.EG_WIN (k : Nat) : Nat := 0x104 + 0x40 * k
/-- Offset of `EG_ELIM_LO` number `k`. -/
def Reg.EG_ELIM_LO (k : Nat) : Nat := 0x108 + 0x40 * k
/-- Offset of `EG_ELIM_HI` number `k`. -/
def Reg.EG_ELIM_HI (k : Nat) : Nat := 0x10C + 0x40 * k
/-- Offset of `EG_ILIM` number `k`. -/
def Reg.EG_ILIM (k : Nat) : Nat := 0x110 + 0x40 * k
/-- Offset of `EG_CMD` number `k`. -/
def Reg.EG_CMD (k : Nat) : Nat := 0x114 + 0x40 * k
/-- Offset of `EG_ST` number `k`. -/
def Reg.EG_ST (k : Nat) : Nat := 0x118 + 0x40 * k
/-- Offset of `EG_MEAS` number `k`. -/
def Reg.EG_MEAS (k : Nat) : Nat := 0x11C + 0x40 * k
/-- Offset of `EG_E_LO` number `k`. -/
def Reg.EG_E_LO (k : Nat) : Nat := 0x120 + 0x40 * k
/-- Offset of `EG_E_HI` number `k`. -/
def Reg.EG_E_HI (k : Nat) : Nat := 0x124 + 0x40 * k
/-- Offset of `EG_CCFG` number `k`. -/
def Reg.EG_CCFG (k : Nat) : Nat := 0x128 + 0x40 * k
/-- Offset of `EG_CBUDGET` number `k`. -/
def Reg.EG_CBUDGET (k : Nat) : Nat := 0x12C + 0x40 * k
/-- Offset of `EG_CAP` number `k`. -/
def Reg.EG_CAP (k : Nat) : Nat := 0x130 + 0x40 * k
/-- Offset of `EG_ESTORE` number `k`. -/
def Reg.EG_ESTORE (k : Nat) : Nat := 0x134 + 0x40 * k
/-- Offset of `EG_CUT_CNT` number `k`. -/
def Reg.EG_CUT_CNT (k : Nat) : Nat := 0x138 + 0x40 * k
/-- Offset of `FIO_SEL` number `k`. -/
def Reg.FIO_SEL (k : Nat) : Nat := 0x300 + 0x10 * k
/-- Offset of `FIO_OE` number `k`. -/
def Reg.FIO_OE (k : Nat) : Nat := 0x304 + 0x10 * k
/-- Offset of `FIO_OUT` number `k`. -/
def Reg.FIO_OUT (k : Nat) : Nat := 0x308 + 0x10 * k
/-- Offset of `FIO_IN` number `k`. -/
def Reg.FIO_IN (k : Nat) : Nat := 0x30C + 0x10 * k
/-- Offset of `SEC_LC`. -/
def Reg.SEC_LC : Nat := 0x40
/-- Offset of `SEC_SERIAL` number `k`. -/
def Reg.SEC_SERIAL (k : Nat) : Nat := 0x44 + 0x4 * k
/-- Offset of `SEC_SVN_FW`. -/
def Reg.SEC_SVN_FW : Nat := 0x54
/-- Offset of `SEC_KREV`. -/
def Reg.SEC_KREV : Nat := 0x58
/-- Offset of `SEC_TMP_CTL`. -/
def Reg.SEC_TMP_CTL : Nat := 0x5C
/-- Offset of `SEC_TMP_STAT`. -/
def Reg.SEC_TMP_STAT : Nat := 0x60
/-- Offset of `SEC_TMP_CNT`. -/
def Reg.SEC_TMP_CNT : Nat := 0x64
/-- Offset of `SEC_SIGN_CMD`. -/
def Reg.SEC_SIGN_CMD : Nat := 0x80
/-- Offset of `SEC_SIGN_STAT`. -/
def Reg.SEC_SIGN_STAT : Nat := 0x84
/-- Offset of `SEC_MEAS_EXT`. -/
def Reg.SEC_MEAS_EXT : Nat := 0x88
/-- Offset of `SEC_MEAS_LOCK`. -/
def Reg.SEC_MEAS_LOCK : Nat := 0x8C
/-- Offset of `SEC_SIGN_DIG` number `k`. -/
def Reg.SEC_SIGN_DIG (k : Nat) : Nat := 0xC0 + 0x4 * k
/-- Offset of `SEC_SIGN_SR` number `k`. -/
def Reg.SEC_SIGN_SR (k : Nat) : Nat := 0x100 + 0x4 * k
/-- Offset of `SEC_EXT_DIG` number `k`. -/
def Reg.SEC_EXT_DIG (k : Nat) : Nat := 0x180 + 0x4 * k
/-- Offset of `SEC_MEAS` word `k`, counted through the whole array. -/
def Reg.SEC_MEAS (k : Nat) : Nat := 0x200 + 0x4 * k
/-- Offset of `CXL_CTL`. -/
def Reg.CXL_CTL : Nat := 0x40
/-- Offset of `CXL_STAT`. -/
def Reg.CXL_STAT : Nat := 0x44
/-- Offset of `CXL_HDM_AVAIL`. -/
def Reg.CXL_HDM_AVAIL : Nat := 0x48
/-- Offset of `CXL_MSIX_SEND`. -/
def Reg.CXL_MSIX_SEND : Nat := 0x4C
/-- Offset of `CXL_VIRAL_CMD`. -/
def Reg.CXL_VIRAL_CMD : Nat := 0x50
/-- Offset of `CXL_B0DROP`. -/
def Reg.CXL_B0DROP : Nat := 0x54
/-- Offset of `CXL_LINKDN_CNT`. -/
def Reg.CXL_LINKDN_CNT : Nat := 0x58
/-- Offset of `CXL_D2HDROP`. -/
def Reg.CXL_D2HDROP : Nat := 0x5C
/-- Offset of `QC_CTL`. -/
def Reg.QC_CTL : Nat := 0x0
/-- Offset of `QC_STAT`. -/
def Reg.QC_STAT : Nat := 0x4
/-- Offset of `QC_SQB_LO`. -/
def Reg.QC_SQB_LO : Nat := 0x8
/-- Offset of `QC_SQB_HI`. -/
def Reg.QC_SQB_HI : Nat := 0xC
/-- Offset of `QC_CQB_LO`. -/
def Reg.QC_CQB_LO : Nat := 0x10
/-- Offset of `QC_CQB_HI`. -/
def Reg.QC_CQB_HI : Nat := 0x14
/-- Offset of `QC_CNT`. -/
def Reg.QC_CNT : Nat := 0x18
/-- Offset of `CMD_QERR_LO`. -/
def Reg.CMD_QERR_LO : Nat := 0x40
/-- Offset of `CMD_QERR_HI`. -/
def Reg.CMD_QERR_HI : Nat := 0x44
/-- Offset of `CMD_ACT`. -/
def Reg.CMD_ACT : Nat := 0x48
/-- Offset of `CMD_TRDROP`. -/
def Reg.CMD_TRDROP : Nat := 0x4C
/-- Offset of `STR_CTL`. -/
def Reg.STR_CTL : Nat := 0x40
/-- Offset of `STR_STAT`. -/
def Reg.STR_STAT : Nat := 0x44
/-- Offset of `STR_STOP_CMD`. -/
def Reg.STR_STOP_CMD : Nat := 0x48
/-- Offset of `STR_STOP_LAST`. -/
def Reg.STR_STOP_LAST : Nat := 0x4C
/-- Offset of `STR_STOP_CNT`. -/
def Reg.STR_STOP_CNT : Nat := 0x50
/-- Offset of `STR_REROUTE_CNT`. -/
def Reg.STR_REROUTE_CNT : Nat := 0x54
/-- Offset of `STR_RDROP_CNT`. -/
def Reg.STR_RDROP_CNT : Nat := 0x58
/-- Offset of `STR_WLOST_CNT`. -/
def Reg.STR_WLOST_CNT : Nat := 0x5C
/-- Offset of `STR_TOFS`. -/
def Reg.STR_TOFS : Nat := 0x60
/-- Offset of `STR_EXP_LO`. -/
def Reg.STR_EXP_LO : Nat := 0x64
/-- Offset of `STR_EXP_HI`. -/
def Reg.STR_EXP_HI : Nat := 0x68
/-- Offset of `STR_RT` number `k`. -/
def Reg.STR_RT (k : Nat) : Nat := 0x100 + 0x4 * k
/-- Offset of `STR_TX_CFG` number `k`. -/
def Reg.STR_TX_CFG (k : Nat) : Nat := 0x500 + 0x10 * k
/-- Offset of `STR_TX_SRC_LO` number `k`. -/
def Reg.STR_TX_SRC_LO (k : Nat) : Nat := 0x504 + 0x10 * k
/-- Offset of `STR_TX_SRC_HI` number `k`. -/
def Reg.STR_TX_SRC_HI (k : Nat) : Nat := 0x508 + 0x10 * k
/-- Offset of `STR_TX_OFS` number `k`. -/
def Reg.STR_TX_OFS (k : Nat) : Nat := 0x50C + 0x10 * k
/-- Offset of `STR_RX_CFG` number `k`. -/
def Reg.STR_RX_CFG (k : Nat) : Nat := 0x600 + 0x10 * k
/-- Offset of `STR_RX_DST_LO` number `k`. -/
def Reg.STR_RX_DST_LO (k : Nat) : Nat := 0x604 + 0x10 * k
/-- Offset of `STR_RX_DST_HI` number `k`. -/
def Reg.STR_RX_DST_HI (k : Nat) : Nat := 0x608 + 0x10 * k
/-- Offset of `STR_RX_STAT` number `k`. -/
def Reg.STR_RX_STAT (k : Nat) : Nat := 0x60C + 0x10 * k
/-- Offset of `STR_P_STAT`. -/
def Reg.STR_P_STAT : Nat := 0x40
/-- Offset of `STR_P_DELAY`. -/
def Reg.STR_P_DELAY : Nat := 0x44
/-- Offset of `STR_P_CRC_CNT`. -/
def Reg.STR_P_CRC_CNT : Nat := 0x48
/-- Offset of `STR_P_DOWN_CNT`. -/
def Reg.STR_P_DOWN_CNT : Nat := 0x4C
/-- Offset of `DB_SQT` in a doorbell page. -/
def Reg.DB_SQT : Nat := 0x000
/-- Offset of `DB_CQH` in a doorbell page. -/
def Reg.DB_CQH : Nat := 0x004
/-- Offset of `URG_CMD` in the vendor DVSEC. -/
def Reg.URG_CMD : Nat := 0x00C
/-- Offset of `URG_STAT` in the vendor DVSEC. -/
def Reg.URG_STAT : Nat := 0x010
/-- Offset of `URG_LAST_LO` in the vendor DVSEC. -/
def Reg.URG_LAST_LO : Nat := 0x014
/-- Offset of `URG_LAST_HI` in the vendor DVSEC. -/
def Reg.URG_LAST_HI : Nat := 0x018
/-- Vendor and Device ID, configuration offset 0x000 (R488). -/
def Reg.CFG_ID : Nat := 0xA00
/-- Revision ID and class code, configuration offset 0x008 (R488). -/
def Reg.CFG_CLASS : Nat := 0xA08
/-- Offset of `URG_CNT` in the vendor DVSEC. -/
def Reg.URG_CNT : Nat := 0x01C

/-- Registers of the dtb table (02_frames_and_time.md). -/
def regsDtb : List RegDesc := [
  ⟨Reg.DTB_CTL, 0, 1, 0x0, [⟨1, 0, .rwl⟩, ⟨2, 2, .rwl⟩]⟩,
  ⟨Reg.DTB_STAT, 0, 1, 0x0, [⟨0, 0, .ro⟩, ⟨1, 1, .ro⟩, ⟨2, 2, .ro⟩, ⟨3, 3, .ro⟩]⟩,
  ⟨Reg.DTB_NS_LO, 0, 1, 0x0, [⟨31, 0, .ro⟩]⟩,
  ⟨Reg.DTB_NS_HI, 0, 1, 0x0, [⟨31, 0, .ro⟩]⟩,
  ⟨Reg.DTB_FRAC, 0, 1, 0x0, [⟨31, 0, .ro⟩]⟩,
  ⟨Reg.DTB_INC, 0, 1, 0xA0000000, [⟨31, 0, .rw⟩]⟩,
  ⟨Reg.DTB_SET_LO, 0, 1, 0x0, [⟨31, 0, .rw⟩]⟩,
  ⟨Reg.DTB_SET_HI, 0, 1, 0x0, [⟨31, 0, .rw⟩]⟩,
  ⟨Reg.DTB_STEP, 0, 1, 0x0, [⟨31, 0, .rw⟩]⟩,
  ⟨Reg.DTB_CMD, 0, 1, 0x0, [⟨0, 0, .wo⟩, ⟨1, 1, .wo⟩, ⟨2, 2, .wo⟩, ⟨3, 3, .wo⟩, ⟨4, 4, .wo⟩]⟩,
  ⟨Reg.DTB_MFP, 0, 1, 0xF4240, [⟨23, 0, .rwl⟩]⟩,
  ⟨Reg.DTB_MFN_LO, 0, 1, 0x0, [⟨31, 0, .ro⟩]⟩,
  ⟨Reg.DTB_MFN_HI, 0, 1, 0x0, [⟨15, 0, .ro⟩]⟩,
  ⟨Reg.DTB_MFT_LO, 0, 1, 0x0, [⟨31, 0, .ro⟩]⟩,
  ⟨Reg.DTB_MFT_HI, 0, 1, 0x0, [⟨31, 0, .ro⟩]⟩,
  ⟨Reg.DTB_MFNSET_LO, 0, 1, 0x0, [⟨31, 0, .rw⟩]⟩,
  ⟨Reg.DTB_MFNSET_HI, 0, 1, 0x0, [⟨15, 0, .rw⟩]⟩,
  ⟨Reg.DTB_PTM_CTL, 0, 1, 0xA, [⟨9, 0, .rw⟩]⟩,
  ⟨Reg.DTB_PTM_OFS_LO, 0, 1, 0x0, [⟨31, 0, .ro⟩]⟩,
  ⟨Reg.DTB_PTM_OFS_HI, 0, 1, 0x0, [⟨31, 0, .ro⟩]⟩,
  ⟨Reg.DTB_PTM_CNT, 0, 1, 0x0, [⟨15, 0, .ro⟩, ⟨16, 16, .ovf⟩]⟩,
  ⟨Reg.DTB_TLOST_CNT, 0, 1, 0x0, [⟨7, 0, .ro⟩, ⟨8, 8, .ovf⟩]⟩]
/-- Registers of the frm table (02_frames_and_time.md). -/
def regsFrm : List RegDesc := [
  ⟨Reg.FRM_CTL, 0, 1, 0x0, [⟨0, 0, .rw⟩, ⟨2, 1, .rwl⟩, ⟨5, 3, .rwl⟩, ⟨6, 6, .rwl⟩]⟩,
  ⟨Reg.FRM_STAT, 0, 1, 0x0, [⟨0, 0, .ro⟩, ⟨1, 1, .ro⟩, ⟨2, 2, .ro⟩, ⟨3, 3, .ro⟩]⟩,
  ⟨Reg.FRM_PHASE, 0, 1, 0x0, [⟨15, 0, .rwl⟩]⟩,
  ⟨Reg.FRM_LEAD, 0, 1, 0x0, [⟨9, 0, .rwl⟩]⟩,
  ⟨Reg.FRM_FCNT, 0, 1, 0x0, [⟨31, 0, .rw⟩]⟩,
  ⟨Reg.FRM_TICK_DTB_LO, 0, 1, 0x0, [⟨31, 0, .ro⟩]⟩,
  ⟨Reg.FRM_TICK_DTB_HI, 0, 1, 0x0, [⟨31, 0, .ro⟩]⟩,
  ⟨Reg.FRM_TICK_FCNT, 0, 1, 0x0, [⟨31, 0, .ro⟩]⟩,
  ⟨Reg.FRM_TICK_MFN_LO, 0, 1, 0x0, [⟨31, 0, .ro⟩]⟩,
  ⟨Reg.FRM_TICK_MFN_HI, 0, 1, 0x0, [⟨15, 0, .ro⟩]⟩,
  ⟨Reg.FRM_DTB_LO, 0, 1, 0x0, [⟨31, 0, .ro⟩]⟩,
  ⟨Reg.FRM_DTB_HI, 0, 1, 0x0, [⟨31, 0, .ro⟩]⟩,
  ⟨Reg.FRM_DTB_FRAC, 0, 1, 0x0, [⟨31, 0, .ro⟩]⟩,
  ⟨Reg.FRM_NEXT_TICK, 0, 1, 0x0, [⟨31, 0, .ro⟩]⟩,
  ⟨Reg.FRM_DEADLINE, 0, 1, 0x0, [⟨31, 0, .ro⟩]⟩,
  ⟨Reg.FRM_CORR, 0, 1, 0x0, [⟨15, 0, .ro⟩]⟩,
  ⟨Reg.FRM_CEMASK, 0, 1, 0x0, [⟨7, 0, .rwl⟩, ⟨15, 8, .rwl⟩]⟩,
  ⟨Reg.FRM_FOVR_CNT, 0, 1, 0x0, [⟨15, 0, .ro⟩, ⟨16, 16, .ovf⟩]⟩,
  ⟨Reg.FRM_FOVR_CE, 0, 1, 0x0, [⟨7, 0, .w1c⟩]⟩,
  ⟨Reg.FRM_CE_FGVEC 0, 8, 8, 0x0, [⟨31, 0, .rwl⟩]⟩,
  ⟨Reg.FRM_CE_STAT 0, 8, 8, 0x4, [⟨0, 0, .ro⟩, ⟨1, 1, .ro⟩, ⟨2, 2, .ro⟩, ⟨15, 8, .ro⟩, ⟨16, 16, .ovf⟩]⟩,
  ⟨Reg.FRM_CE_FGMAX 0, 4, 8, 0x0, [⟨15, 0, .rw⟩]⟩]
/-- Registers of the pwg0 table (03_pwm.md). -/
def regsPwg0 : List RegDesc := [
  ⟨Reg.PWG_CTL, 0, 1, 0x2, [⟨0, 0, .rwl⟩, ⟨1, 1, .rwl⟩, ⟨10, 8, .rwl⟩, ⟨11, 11, .rwl⟩]⟩,
  ⟨Reg.PWG_STAT, 0, 1, 0x0, [⟨0, 0, .ro⟩, ⟨1, 1, .ro⟩, ⟨2, 2, .ro⟩, ⟨3, 3, .ro⟩]⟩,
  ⟨Reg.PWG_PER, 0, 1, 0xFA00, [⟨22, 0, .rw⟩]⟩,
  ⟨Reg.PWG_PER_ACT, 0, 1, 0xFA00, [⟨22, 0, .ro⟩]⟩,
  ⟨Reg.PWG_TOKEN, 0, 1, 0x0, [⟨17, 0, .w1s⟩, ⟨18, 18, .w1s⟩]⟩,
  ⟨Reg.PWG_TOKEN_PEND, 0, 1, 0x0, [⟨18, 0, .ro⟩]⟩,
  ⟨Reg.PWG_CNT, 0, 1, 0x0, [⟨15, 0, .ro⟩, ⟨16, 16, .ro⟩]⟩,
  ⟨Reg.PWG_DPREJ_CNT, 0, 1, 0x0, [⟨15, 0, .ro⟩, ⟨16, 16, .ovf⟩]⟩,
  ⟨Reg.PWG_STALE_CH, 0, 1, 0x0, [⟨18, 0, .w1c⟩]⟩,
  ⟨Reg.PWG_CLAMP_CH, 0, 1, 0x0, [⟨17, 0, .w1c⟩]⟩,
  ⟨Reg.PWG_SAFE_STAT, 0, 1, 0x0, [⟨17, 0, .ro⟩]⟩,
  ⟨Reg.PWG_SAFE_SET, 0, 1, 0x0, [⟨17, 0, .w1s⟩]⟩,
  ⟨Reg.PWG_SAFE_REL, 0, 1, 0x0, [⟨17, 0, .wo⟩]⟩,
  ⟨Reg.PWG_SAFE_CAUSE, 0, 1, 0x0, [⟨0, 0, .w1c⟩, ⟨1, 1, .ro⟩, ⟨2, 2, .w1c⟩]⟩,
  ⟨Reg.PWG_CH_CTL 0, 32, 18, 0x0, [⟨0, 0, .rwl⟩, ⟨1, 1, .rwl⟩, ⟨4, 2, .rwl⟩, ⟨5, 5, .rwl⟩, ⟨6, 6, .rwl⟩, ⟨8, 7, .rwl⟩, ⟨10, 9, .rwl⟩, ⟨12, 11, .rwl⟩]⟩,
  ⟨Reg.PWG_CH_CMPU 0, 32, 18, 0x7FFFFF, [⟨22, 0, .rw⟩]⟩,
  ⟨Reg.PWG_CH_CMPD 0, 32, 18, 0x7FFFFF, [⟨22, 0, .rw⟩]⟩,
  ⟨Reg.PWG_CH_CMPU_ACT 0, 32, 18, 0x7FFFFF, [⟨22, 0, .ro⟩]⟩,
  ⟨Reg.PWG_CH_CMPD_ACT 0, 32, 18, 0x7FFFFF, [⟨22, 0, .ro⟩]⟩,
  ⟨Reg.PWG_CH_DT 0, 32, 18, 0xA000A00, [⟨15, 0, .rwl⟩, ⟨31, 16, .rwl⟩]⟩,
  ⟨Reg.PWG_CH_STAT 0, 32, 18, 0x0, [⟨0, 0, .ro⟩, ⟨1, 1, .ro⟩, ⟨2, 2, .ro⟩, ⟨3, 3, .ro⟩, ⟨4, 4, .ro⟩, ⟨5, 5, .ro⟩, ⟨6, 6, .ro⟩, ⟨7, 7, .ro⟩]⟩]
/-- Registers of the pwg1 table (03_pwm.md). -/
def regsPwg1 : List RegDesc := [
  ⟨Reg.PWG_TRIP_PINCFG, 0, 1, 0x0, [⟨3, 0, .rwl⟩]⟩,
  ⟨Reg.PWG_TRIP_EGGRP, 0, 1, 0x0, [⟨7, 0, .rwl⟩, ⟨15, 8, .rwl⟩]⟩,
  ⟨Reg.PWG_TRIP_SW, 0, 1, 0x0, [⟨1, 0, .rw⟩]⟩,
  ⟨Reg.PWG_TRIP_SRC, 0, 1, 0x0, [⟨15, 0, .ro⟩]⟩,
  ⟨Reg.PWG_TRIP_CLR, 0, 1, 0x0, [⟨17, 0, .wo⟩]⟩,
  ⟨Reg.PWG_TRIP_EVT, 0, 1, 0x0, [⟨15, 0, .w1c⟩]⟩,
  ⟨Reg.PWG_CLR_REF_CH, 0, 1, 0x0, [⟨17, 0, .w1c⟩]⟩,
  ⟨Reg.PWG_TRIP_CMPGRP 0, 4, 8, 0x0, [⟨11, 0, .rwl⟩]⟩,
  ⟨Reg.PWG_BLK_CTL 0, 16, 4, 0x0, [⟨4, 0, .rwl⟩, ⟨6, 5, .rwl⟩, ⟨31, 16, .rwl⟩]⟩,
  ⟨Reg.PWG_BLK_SRC 0, 16, 4, 0x0, [⟨15, 0, .rwl⟩]⟩,
  ⟨Reg.PWG_BLK_CNT 0, 16, 4, 0x0, [⟨15, 0, .ro⟩, ⟨16, 16, .ovf⟩]⟩,
  ⟨Reg.PWG_CH_TRIPMODE 0, 4, 18, 0x0, [⟨1, 0, .rwl⟩, ⟨3, 2, .rwl⟩, ⟨5, 4, .rwl⟩, ⟨7, 6, .rwl⟩, ⟨9, 8, .rwl⟩, ⟨11, 10, .rwl⟩, ⟨13, 12, .rwl⟩, ⟨15, 14, .rwl⟩, ⟨17, 16, .rwl⟩, ⟨19, 18, .rwl⟩, ⟨21, 20, .rwl⟩, ⟨23, 22, .rwl⟩, ⟨25, 24, .rwl⟩, ⟨27, 26, .rwl⟩, ⟨29, 28, .rwl⟩, ⟨31, 30, .rwl⟩]⟩,
  ⟨Reg.PWG_CH_TLSRC 0, 4, 18, 0x0, [⟨15, 0, .ro⟩]⟩]
/-- Registers of the adc table (04_converters.md). DESIGN CHOICE (log 12). -/
def regsAdc : List RegDesc := [
  ⟨Reg.ADC_CTL, 0, 1, 0x3, [⟨0, 0, .rwl⟩, ⟨1, 1, .rwl⟩]⟩,
  ⟨Reg.ADC_STAT, 0, 1, 0x0, [⟨0, 0, .ro⟩, ⟨1, 1, .ro⟩, ⟨2, 2, .ro⟩, ⟨3, 3, .ro⟩, ⟨4, 4, .ro⟩]⟩,
  ⟨Reg.ADC_OFS, 0, 1, 0x0, [⟨17, 0, .rwl⟩]⟩,
  ⟨Reg.ADC_GAIN, 0, 1, 0x10000, [⟨17, 0, .rwl⟩]⟩,
  ⟨Reg.ADC_CAL_CMD, 0, 1, 0x0, [⟨0, 0, .wo⟩, ⟨1, 1, .wo⟩, ⟨2, 2, .wo⟩]⟩,
  ⟨Reg.ADC_CAL_STAT, 0, 1, 0xC, [⟨0, 0, .ro⟩, ⟨1, 1, .ro⟩, ⟨2, 2, .ro⟩, ⟨3, 3, .ro⟩, ⟨4, 4, .ro⟩, ⟨5, 5, .ro⟩]⟩,
  ⟨Reg.ADC_TEST_RES, 0, 1, 0x0, [⟨15, 0, .ro⟩, ⟨18, 16, .ro⟩]⟩,
  ⟨Reg.ADC_TEST_LIM, 0, 1, 0x40, [⟨15, 0, .rwl⟩]⟩,
  ⟨Reg.ADC_LAST, 0, 1, 0x0, [⟨15, 0, .ro⟩, ⟨21, 16, .ro⟩, ⟨22, 22, .ro⟩, ⟨23, 23, .ro⟩]⟩,
  ⟨Reg.ADC_DROP_CNT, 0, 1, 0x0, [⟨15, 0, .ro⟩, ⟨16, 16, .ovf⟩]⟩,
  ⟨Reg.ADC_TSENS, 0, 1, 0x0, [⟨15, 0, .ro⟩, ⟨31, 16, .ro⟩]⟩]
/-- Registers of the sdm table (04_converters.md). -/
def regsSdm : List RegDesc := [
  ⟨Reg.SDM_CKO, 0, 1, 0x10, [⟨0, 0, .rwl⟩, ⟨6, 1, .rwl⟩]⟩,
  ⟨Reg.SDM_CKSTAT, 0, 1, 0x0, [⟨11, 0, .ro⟩]⟩,
  ⟨Reg.SDM_CKLOST, 0, 1, 0x0, [⟨11, 0, .w1c⟩]⟩,
  ⟨Reg.SDM_FASTSEEN, 0, 1, 0x0, [⟨11, 0, .w1c⟩]⟩,
  ⟨Reg.SDM_SATSEEN, 0, 1, 0x0, [⟨11, 0, .w1c⟩]⟩,
  ⟨Reg.SDM_CKLOST_CNT, 0, 1, 0x0, [⟨15, 0, .ro⟩, ⟨16, 16, .ovf⟩]⟩,
  ⟨Reg.SDM_CTL 0, 32, 12, 0xC8180, [⟨0, 0, .rwl⟩, ⟨1, 1, .rwl⟩, ⟨2, 2, .rwl⟩, ⟨6, 3, .rwl⟩, ⟨8, 7, .rwl⟩, ⟨17, 9, .rwl⟩, ⟨22, 18, .rwl⟩]⟩,
  ⟨Reg.SDM_RES 0, 32, 12, 0x0, [⟨15, 0, .ro⟩, ⟨16, 16, .ro⟩, ⟨17, 17, .rc⟩, ⟨18, 18, .ro⟩]⟩,
  ⟨Reg.SDM_FAST_CTL 0, 32, 12, 0x220, [⟨0, 0, .rwl⟩, ⟨1, 1, .rwl⟩, ⟨7, 2, .rwl⟩, ⟨8, 8, .rwl⟩, ⟨9, 9, .rwl⟩]⟩,
  ⟨Reg.SDM_FLIM 0, 32, 12, 0xFFFF0000, [⟨15, 0, .rwl⟩, ⟨31, 16, .rwl⟩]⟩,
  ⟨Reg.SDM_FVAL 0, 32, 12, 0x0, [⟨15, 0, .ro⟩, ⟨16, 16, .ro⟩]⟩]
/-- Registers of the smp table (04_converters.md). -/
def regsSmp : List RegDesc := [
  ⟨Reg.SMP_CTL, 0, 1, 0x8000, [⟨0, 0, .rwl⟩, ⟨15, 8, .rw⟩]⟩,
  ⟨Reg.SMP_STAT, 0, 1, 0x0, [⟨0, 0, .ro⟩, ⟨1, 1, .ro⟩, ⟨2, 2, .ro⟩, ⟨3, 3, .ro⟩, ⟨6, 4, .ro⟩, ⟨7, 7, .w1c⟩, ⟨16, 8, .ro⟩]⟩,
  ⟨Reg.SMP_CMD, 0, 1, 0x0, [⟨0, 0, .wo⟩, ⟨1, 1, .wo⟩, ⟨2, 2, .wo⟩, ⟨3, 3, .wo⟩, ⟨4, 4, .wo⟩]⟩,
  ⟨Reg.SMP_TBL_ERR, 0, 1, 0x0, [⟨5, 0, .ro⟩, ⟨11, 6, .ro⟩, ⟨15, 12, .ro⟩, ⟨16, 16, .ro⟩]⟩,
  ⟨Reg.SMP_SKIPVAL, 0, 1, 0x7FC00000, [⟨31, 0, .rw⟩]⟩,
  ⟨Reg.SMP_SKIP_CNT, 0, 1, 0x0, [⟨15, 0, .ro⟩, ⟨16, 16, .ovf⟩]⟩,
  ⟨Reg.SMP_SPOVF_CNT, 0, 1, 0x0, [⟨15, 0, .ro⟩, ⟨16, 16, .ovf⟩]⟩,
  ⟨Reg.SMP_SPOVF_CE, 0, 1, 0x0, [⟨7, 0, .w1c⟩]⟩,
  ⟨Reg.SMP_FIFO_LO, 0, 1, 0xFFFFFFFF, [⟨31, 0, .ro⟩]⟩,
  ⟨Reg.SMP_FIFO_HI, 0, 1, 0x0, [⟨31, 0, .ro⟩]⟩,
  ⟨Reg.SMP_FIFO_DROP, 0, 1, 0x0, [⟨15, 0, .ro⟩, ⟨16, 16, .ovf⟩]⟩,
  ⟨Reg.SMP_SWMFN_LO, 0, 1, 0x0, [⟨31, 0, .rw⟩]⟩,
  ⟨Reg.SMP_SWMFN_HI, 0, 1, 0x0, [⟨15, 0, .rw⟩]⟩,
  ⟨Reg.SMP_SPLVL 0, 4, 8, 0x0, [⟨4, 0, .ro⟩]⟩,
  ⟨Reg.SMP_ENT_W0 0, 8, 64, 0x0, [⟨31, 0, .rw⟩]⟩,
  ⟨Reg.SMP_ENT_W1 0, 8, 64, 0x0, [⟨31, 0, .rw⟩]⟩,
  ⟨Reg.SMP_ACT_W0 0, 8, 64, 0x0, [⟨31, 0, .ro⟩]⟩,
  ⟨Reg.SMP_ACT_W1 0, 8, 64, 0x0, [⟨31, 0, .ro⟩]⟩]
/-- Registers of the cmp table (05_comparators.md). -/
def regsCmp : List RegDesc := [
  ⟨Reg.CMP_OUT, 0, 1, 0x0, [⟨11, 0, .ro⟩, ⟨27, 16, .ro⟩]⟩,
  ⟨Reg.CMP_LATH, 0, 1, 0x0, [⟨11, 0, .w1c⟩]⟩,
  ⟨Reg.CMP_LATL, 0, 1, 0x0, [⟨11, 0, .w1c⟩]⟩,
  ⟨Reg.CMP_STARTMID, 0, 1, 0x0, [⟨11, 0, .ro⟩, ⟨27, 16, .ro⟩]⟩,
  ⟨Reg.CMP_IEDGE, 0, 1, 0x0, [⟨11, 0, .rwl⟩]⟩,
  ⟨Reg.CMP_WAKE, 0, 1, 0x0, [⟨11, 0, .rwl⟩]⟩,
  ⟨Reg.CMP_RB_CMD, 0, 1, 0x0, [⟨4, 0, .wo⟩, ⟨8, 8, .wo⟩]⟩,
  ⟨Reg.CMP_RB_CTL, 0, 1, 0x3E80800, [⟨0, 0, .rwl⟩, ⟨15, 4, .rwl⟩, ⟨31, 16, .rwl⟩]⟩,
  ⟨Reg.CMP_RB_RES, 0, 1, 0x0, [⟨15, 0, .ro⟩, ⟨20, 16, .ro⟩, ⟨21, 21, .ro⟩, ⟨22, 22, .ro⟩, ⟨23, 23, .ro⟩]⟩,
  ⟨Reg.CMP_RB_FAILSEEN, 0, 1, 0x0, [⟨23, 0, .w1c⟩]⟩,
  ⟨Reg.CMP_RB_STARV_CNT, 0, 1, 0x0, [⟨15, 0, .ro⟩, ⟨16, 16, .ovf⟩]⟩,
  ⟨Reg.CMP_CTL 0, 32, 12, 0x0, [⟨0, 0, .rwl⟩, ⟨5, 1, .rwl⟩, ⟨7, 6, .rwl⟩, ⟨9, 8, .rwl⟩, ⟨10, 10, .rwl⟩, ⟨11, 11, .rwl⟩]⟩,
  ⟨Reg.CMP_THR 0, 32, 12, 0xFFF, [⟨11, 0, .rwl⟩, ⟨27, 16, .rwl⟩]⟩,
  ⟨Reg.CMP_THR_ACT 0, 32, 12, 0xFFF, [⟨11, 0, .ro⟩, ⟨27, 16, .ro⟩]⟩,
  ⟨Reg.CMP_ST 0, 32, 12, 0x0, [⟨0, 0, .ro⟩, ⟨1, 1, .ro⟩, ⟨2, 2, .ro⟩, ⟨3, 3, .ro⟩, ⟨4, 4, .ro⟩, ⟨5, 5, .ro⟩, ⟨6, 6, .ro⟩, ⟨7, 7, .ro⟩]⟩,
  ⟨Reg.CMP_XCNT 0, 32, 12, 0x0, [⟨15, 0, .ro⟩, ⟨16, 16, .ovf⟩]⟩]
/-- Registers of the qdec table (06_position_feedback.md). -/
def regsQdec : List RegDesc := [
  ⟨Reg.QDEC_PINSEL, 0, 1, 0x0, [⟨5, 0, .rwl⟩]⟩,
  ⟨Reg.QDEC_CTL 0, 32, 6, 0x1800, [⟨0, 0, .rwl⟩, ⟨2, 1, .rwl⟩, ⟨3, 3, .rwl⟩, ⟨7, 4, .rwl⟩, ⟨9, 8, .rwl⟩, ⟨10, 10, .rwl⟩, ⟨12, 11, .rwl⟩]⟩,
  ⟨Reg.QDEC_POS 0, 32, 6, 0x0, [⟨31, 0, .rw⟩]⟩,
  ⟨Reg.QDEC_IDXPOS 0, 32, 6, 0x0, [⟨31, 0, .ro⟩]⟩,
  ⟨Reg.QDEC_IDXLOAD 0, 32, 6, 0x0, [⟨31, 0, .rwl⟩]⟩,
  ⟨Reg.QDEC_STAT 0, 32, 6, 0x0, [⟨2, 0, .ro⟩, ⟨3, 3, .w1c⟩, ⟨4, 4, .ro⟩]⟩,
  ⟨Reg.QDEC_QERR_CNT 0, 32, 6, 0x0, [⟨15, 0, .ro⟩, ⟨16, 16, .ovf⟩]⟩]
/-- Registers of the cap table (06_position_feedback.md). -/
def regsCap : List RegDesc := [
  ⟨Reg.CAP_CTL 0, 32, 6, 0x0, [⟨0, 0, .rwl⟩, ⟨5, 1, .rwl⟩, ⟨7, 6, .rwl⟩, ⟨8, 8, .rwl⟩]⟩,
  ⟨Reg.CAP_TS_LO 0, 32, 6, 0xFFFFFFFF, [⟨31, 0, .ro⟩]⟩,
  ⟨Reg.CAP_TS_HI 0, 32, 6, 0x0, [⟨31, 0, .ro⟩]⟩,
  ⟨Reg.CAP_POS 0, 32, 6, 0x0, [⟨31, 0, .ro⟩]⟩,
  ⟨Reg.CAP_STAT 0, 32, 6, 0x0, [⟨2, 0, .ro⟩, ⟨3, 3, .ro⟩]⟩,
  ⟨Reg.CAP_LOST_CNT 0, 32, 6, 0x0, [⟨15, 0, .ro⟩, ⟨16, 16, .ovf⟩]⟩]
/-- Registers of the sep table (06_position_feedback.md). -/
def regsSep : List RegDesc := [
  ⟨Reg.SEP_CMD, 0, 1, 0x0, [⟨5, 0, .wo⟩]⟩,
  ⟨Reg.SEP_CTL 0, 32, 6, 0x4000640, [⟨0, 0, .rwl⟩, ⟨12, 1, .rwl⟩, ⟨14, 14, .rwl⟩, ⟨15, 15, .rwl⟩, ⟨20, 16, .rwl⟩, ⟨27, 21, .rwl⟩]⟩,
  ⟨Reg.SEP_FRM 0, 32, 6, 0x0, [⟨5, 0, .rwl⟩, ⟨11, 6, .rwl⟩, ⟨19, 12, .rwl⟩]⟩,
  ⟨Reg.SEP_CRC 0, 32, 6, 0x0, [⟨15, 0, .rwl⟩, ⟨31, 16, .rwl⟩]⟩,
  ⟨Reg.SEP_TIM 0, 32, 6, 0x800, [⟨7, 0, .rwl⟩, ⟨15, 8, .rwl⟩]⟩,
  ⟨Reg.SEP_DATA_LO 0, 32, 6, 0x0, [⟨31, 0, .ro⟩]⟩,
  ⟨Reg.SEP_DATA_HI 0, 32, 6, 0x0, [⟨31, 0, .ro⟩]⟩,
  ⟨Reg.SEP_STAT 0, 32, 6, 0x0, [⟨0, 0, .ro⟩, ⟨1, 1, .ro⟩, ⟨3, 2, .ro⟩]⟩,
  ⟨Reg.SEP_ERR_CNT 0, 32, 6, 0x0, [⟨15, 0, .ro⟩, ⟨16, 16, .ovf⟩]⟩]
/-- Registers of the ce table (08_engine_programming_model.md). -/
def regsCe : List RegDesc := [
  ⟨Reg.CE_CTL, 0, 1, 0x0, [⟨0, 0, .rw⟩, ⟨1, 1, .rwl⟩, ⟨2, 2, .rwl⟩, ⟨3, 3, .rw⟩]⟩,
  ⟨Reg.CE_STAT, 0, 1, 0x5, [⟨1, 0, .ro⟩, ⟨3, 2, .ro⟩, ⟨4, 4, .ro⟩, ⟨5, 5, .ro⟩, ⟨6, 6, .ro⟩]⟩,
  ⟨Reg.CE_BOOTVEC, 0, 1, 0x0, [⟨31, 0, .rwl⟩]⟩,
  ⟨Reg.CE_CKPT_SRC, 0, 1, 0x0, [⟨14, 6, .rwl⟩]⟩,
  ⟨Reg.CE_CKPT_LEN, 0, 1, 0x0, [⟨4, 0, .rwl⟩]⟩,
  ⟨Reg.CE_RFAULT, 0, 1, 0x0, [⟨31, 0, .ro⟩]⟩,
  ⟨Reg.CE_RFAULT_INFO, 0, 1, 0x0, [⟨3, 0, .ro⟩, ⟨4, 4, .ro⟩, ⟨6, 5, .ro⟩, ⟨8, 7, .ro⟩, ⟨9, 9, .w1c⟩]⟩,
  ⟨Reg.CE_RFAULT_CNT, 0, 1, 0x0, [⟨15, 0, .ro⟩, ⟨16, 16, .ovf⟩]⟩,
  ⟨Reg.CE_RGN_BASE 0, 16, 16, 0x0, [⟨0, 0, .rwl⟩, ⟨31, 8, .rwl⟩]⟩,
  ⟨Reg.CE_RGN_CFG 0, 16, 16, 0x8, [⟨4, 0, .rwl⟩, ⟨8, 8, .rwl⟩, ⟨9, 9, .rwl⟩, ⟨10, 10, .rwl⟩, ⟨11, 11, .rwl⟩, ⟨12, 12, .rwl⟩, ⟨13, 13, .rwl⟩]⟩,
  ⟨Reg.CE_RGN_PA_LO 0, 16, 16, 0x0, [⟨31, 8, .rwl⟩]⟩,
  ⟨Reg.CE_RGN_PA_HI 0, 16, 16, 0x0, [⟨13, 0, .rwl⟩]⟩]
/-- Registers of the ac table (08_engine_programming_model.md). -/
def regsAc : List RegDesc := [
  ⟨Reg.AC_CTL, 0, 1, 0x0, [⟨0, 0, .rw⟩, ⟨1, 1, .rw⟩]⟩,
  ⟨Reg.AC_STAT, 0, 1, 0x3, [⟨1, 0, .ro⟩, ⟨2, 2, .ro⟩, ⟨3, 3, .ro⟩, ⟨4, 4, .ro⟩, ⟨5, 5, .ro⟩]⟩,
  ⟨Reg.AC_BOOTVEC_LO, 0, 1, 0x0, [⟨31, 0, .rwl⟩]⟩,
  ⟨Reg.AC_BOOTVEC_HI, 0, 1, 0x0, [⟨15, 0, .rwl⟩]⟩,
  ⟨Reg.AC_PCSAMP_LO, 0, 1, 0x0, [⟨31, 0, .ro⟩]⟩,
  ⟨Reg.AC_PCSAMP_HI, 0, 1, 0x0, [⟨15, 0, .ro⟩]⟩]
/-- Registers of the irqg table (12_interrupt_controller.md). -/
def regsIrqCtx : List RegDesc := [
  ⟨Reg.SWSET, 0, 1, 0x0, [⟨9, 0, .wo⟩]⟩,
  ⟨Reg.CMPL_STRAY, 0, 1, 0x0, [⟨15, 0, .ro⟩, ⟨16, 16, .ovf⟩]⟩,
  ⟨Reg.CLAIM_SPUR, 0, 1, 0x0, [⟨15, 0, .ro⟩, ⟨16, 16, .ovf⟩]⟩,
  ⟨Reg.STRAY_LAST, 0, 1, 0x0, [⟨9, 0, .ro⟩, ⟨19, 16, .ro⟩]⟩,
  ⟨Reg.CTX_CTL 0, 32, 16, 0x0, [⟨0, 0, .rw⟩, ⟨7, 4, .rw⟩]⟩,
  ⟨Reg.CTX_CLAIM 0, 32, 16, 0x3FF, [⟨9, 0, .ro⟩, ⟨19, 16, .ro⟩]⟩,
  ⟨Reg.CTX_CMPL 0, 32, 16, 0x0, [⟨9, 0, .wo⟩]⟩,
  ⟨Reg.CTX_TOP 0, 32, 16, 0x3FF, [⟨9, 0, .ro⟩, ⟨19, 16, .ro⟩, ⟨31, 31, .ro⟩]⟩]
/-- Registers of the irqs table (12_interrupt_controller.md). -/
def regsIrqSrc : List RegDesc := [
  ⟨Reg.SRC_CFG 0, 8, 128, 0x0, [⟨3, 0, .rwl⟩, ⟨4, 4, .rwl⟩, ⟨5, 5, .rwl⟩, ⟨6, 6, .ro⟩, ⟨8, 8, .rwl⟩, ⟨16, 16, .ro⟩, ⟨17, 17, .ro⟩, ⟨18, 18, .ro⟩, ⟨23, 20, .ro⟩]⟩,
  ⟨Reg.SRC_TGT 0, 8, 128, 0x0, [⟨7, 0, .rwl⟩]⟩]
/-- Registers of the pair table (13_paired_execution.md). -/
def regsPair : List RegDesc := [
  ⟨Reg.PAIR_STAT, 0, 1, 0x0, [⟨3, 0, .ro⟩, ⟨7, 4, .ro⟩, ⟨11, 8, .ro⟩, ⟨15, 12, .ro⟩, ⟨19, 16, .ro⟩]⟩,
  ⟨Reg.PAIR_CMD, 0, 1, 0x0, [⟨3, 0, .wo⟩, ⟨7, 4, .wo⟩, ⟨11, 8, .wo⟩, ⟨15, 12, .wo⟩]⟩,
  ⟨Reg.PAIR_MIS_INFO, 0, 1, 0x0, [⟨0, 0, .w1c⟩, ⟨2, 1, .ro⟩, ⟨5, 3, .ro⟩, ⟨6, 6, .ro⟩, ⟨7, 7, .ro⟩, ⟨9, 8, .ro⟩]⟩,
  ⟨Reg.PAIR_MIS_PC, 0, 1, 0x0, [⟨31, 0, .ro⟩]⟩,
  ⟨Reg.PAIR_MIS_FCNT, 0, 1, 0x0, [⟨31, 0, .ro⟩]⟩,
  ⟨Reg.PAIR_MIS_DTB, 0, 1, 0x0, [⟨31, 0, .ro⟩]⟩,
  ⟨Reg.PAIR_MIS_CNT, 0, 1, 0x0, [⟨15, 0, .ro⟩, ⟨16, 16, .ovf⟩]⟩,
  ⟨Reg.PAIR_TKO_CNT, 0, 1, 0x0, [⟨15, 0, .ro⟩, ⟨16, 16, .ovf⟩]⟩,
  ⟨Reg.PAIR_TKO_LIM, 0, 1, 0xF, [⟨4, 0, .rwl⟩]⟩,
  ⟨Reg.PAIR_PCFG 0, 16, 4, 0x0, [⟨0, 0, .rwl⟩, ⟨2, 1, .rwl⟩, ⟨3, 3, .rwl⟩]⟩,
  ⟨Reg.PAIR_CKPT_STAT 0, 16, 4, 0x0, [⟨0, 0, .ro⟩, ⟨1, 1, .ro⟩, ⟨6, 2, .ro⟩, ⟨24, 16, .ro⟩]⟩,
  ⟨Reg.PAIR_CKPT_FCNT 0, 16, 4, 0x0, [⟨31, 0, .ro⟩]⟩,
  ⟨Reg.PAIR_SB_TVEC 0, 16, 4, 0x0, [⟨31, 0, .rwl⟩]⟩]
/-- Registers of a cluster SRAM page, ten units (14_onchip_memory.md). -/
def regsSramC : List RegDesc := [
  ⟨Reg.SRAM_WLOST 0, 4, 10, 0x0, [⟨15, 0, .ro⟩, ⟨16, 16, .ovf⟩]⟩,
  ⟨Reg.SRAM_U_CTL 0, 64, 10, 0x640002, [⟨0, 0, .rwl⟩, ⟨1, 1, .rwl⟩, ⟨31, 16, .rwl⟩]⟩,
  ⟨Reg.SRAM_U_STAT 0, 64, 10, 0x0, [⟨0, 0, .ro⟩, ⟨1, 1, .ro⟩, ⟨12, 8, .ro⟩, ⟨31, 16, .ro⟩]⟩,
  ⟨Reg.SRAM_U_CECNT 0, 64, 10, 0x0, [⟨15, 0, .ro⟩, ⟨16, 16, .ovf⟩]⟩,
  ⟨Reg.SRAM_U_UECNT 0, 64, 10, 0x0, [⟨15, 0, .ro⟩, ⟨16, 16, .ovf⟩]⟩,
  ⟨Reg.SRAM_U_ERRADDR 0, 64, 10, 0x0, [⟨31, 0, .ro⟩]⟩,
  ⟨Reg.SRAM_U_ERRINFO 0, 64, 10, 0x0, [⟨0, 0, .w1c⟩, ⟨1, 1, .ro⟩, ⟨3, 2, .ro⟩, ⟨10, 4, .ro⟩, ⟨15, 12, .ro⟩]⟩,
  ⟨Reg.SRAM_U_BTFAIL 0, 64, 10, 0x0, [⟨15, 0, .ro⟩, ⟨16, 16, .w1c⟩, ⟨17, 17, .ro⟩]⟩,
  ⟨Reg.SRAM_U_REMAP 0, 64, 10, 0x0, [⟨15, 0, .wo⟩, ⟨16, 16, .wo⟩]⟩,
  ⟨Reg.SRAM_U_THR 0, 64, 10, 0x10, [⟨15, 0, .rw⟩]⟩,
  ⟨Reg.SRAM_U_INJ 0, 64, 10, 0x0, [⟨1, 0, .rw⟩]⟩,
  ⟨Reg.SRAM_U_WLOST 0, 64, 10, 0x0, [⟨15, 0, .ro⟩, ⟨16, 16, .ovf⟩]⟩]
/-- Registers of the system SRAM page, seventeen units (14_onchip_memory.md). -/
def regsSramSys : List RegDesc := [
  ⟨Reg.SRAM_DRAM_CNT 0, 16, 2, 0x0, [⟨15, 0, .ro⟩, ⟨16, 16, .ovf⟩]⟩,
  ⟨Reg.SRAM_DRAM_UCNT 0, 16, 2, 0x0, [⟨15, 0, .ro⟩, ⟨16, 16, .ovf⟩]⟩,
  ⟨Reg.SRAM_DRAM_ADDR_LO 0, 16, 2, 0x0, [⟨31, 0, .ro⟩]⟩,
  ⟨Reg.SRAM_DRAM_ADDR_HI 0, 16, 2, 0x0, [⟨13, 0, .ro⟩, ⟨14, 14, .ro⟩, ⟨15, 15, .w1c⟩]⟩,
  ⟨Reg.SRAM_VLT_STAT, 0, 1, 0x0, [⟨0, 0, .ro⟩, ⟨1, 1, .w1c⟩, ⟨6, 4, .ro⟩]⟩,
  ⟨Reg.SRAM_U_CTL 0, 64, 17, 0x640002, [⟨0, 0, .rwl⟩, ⟨1, 1, .rwl⟩, ⟨31, 16, .rwl⟩]⟩,
  ⟨Reg.SRAM_U_STAT 0, 64, 17, 0x0, [⟨0, 0, .ro⟩, ⟨1, 1, .ro⟩, ⟨12, 8, .ro⟩, ⟨31, 16, .ro⟩]⟩,
  ⟨Reg.SRAM_U_CECNT 0, 64, 17, 0x0, [⟨15, 0, .ro⟩, ⟨16, 16, .ovf⟩]⟩,
  ⟨Reg.SRAM_U_UECNT 0, 64, 17, 0x0, [⟨15, 0, .ro⟩, ⟨16, 16, .ovf⟩]⟩,
  ⟨Reg.SRAM_U_ERRADDR 0, 64, 17, 0x0, [⟨31, 0, .ro⟩]⟩,
  ⟨Reg.SRAM_U_ERRINFO 0, 64, 17, 0x0, [⟨0, 0, .w1c⟩, ⟨1, 1, .ro⟩, ⟨3, 2, .ro⟩, ⟨10, 4, .ro⟩, ⟨15, 12, .ro⟩]⟩,
  ⟨Reg.SRAM_U_BTFAIL 0, 64, 17, 0x0, [⟨15, 0, .ro⟩, ⟨16, 16, .w1c⟩, ⟨17, 17, .ro⟩]⟩,
  ⟨Reg.SRAM_U_REMAP 0, 64, 17, 0x0, [⟨15, 0, .wo⟩, ⟨16, 16, .wo⟩]⟩,
  ⟨Reg.SRAM_U_THR 0, 64, 17, 0x10, [⟨15, 0, .rw⟩]⟩,
  ⟨Reg.SRAM_U_INJ 0, 64, 17, 0x0, [⟨1, 0, .rw⟩]⟩,
  ⟨Reg.SRAM_U_WLOST 0, 64, 17, 0x0, [⟨15, 0, .ro⟩, ⟨16, 16, .ovf⟩]⟩]
/-- Registers of the mmu table (15_address_translation.md). -/
def regsMmu : List RegDesc := [
  ⟨Reg.MMU_CTL, 0, 1, 0x0, [⟨0, 0, .rwl⟩, ⟨1, 1, .rwl⟩]⟩,
  ⟨Reg.MMU_STAT, 0, 1, 0x0, [⟨0, 0, .ro⟩, ⟨1, 1, .ro⟩, ⟨2, 2, .w1c⟩]⟩,
  ⟨Reg.MMU_ROOT_LO, 0, 1, 0x0, [⟨31, 12, .rw⟩]⟩,
  ⟨Reg.MMU_ROOT_HI, 0, 1, 0x0, [⟨13, 0, .rw⟩]⟩,
  ⟨Reg.MMU_ASID, 0, 1, 0x0, [⟨15, 0, .rw⟩]⟩,
  ⟨Reg.MMU_FVA_LO, 0, 1, 0x0, [⟨31, 0, .ro⟩]⟩,
  ⟨Reg.MMU_FVA_HI, 0, 1, 0x0, [⟨15, 0, .ro⟩, ⟨16, 16, .w1c⟩, ⟨18, 17, .ro⟩, ⟨20, 19, .ro⟩, ⟨21, 21, .ro⟩, ⟨23, 22, .ro⟩]⟩,
  ⟨Reg.MMU_FPTE_LO, 0, 1, 0x0, [⟨31, 0, .ro⟩]⟩,
  ⟨Reg.MMU_FPTE_HI, 0, 1, 0x0, [⟨13, 0, .ro⟩]⟩,
  ⟨Reg.MMU_WALK_CNT, 0, 1, 0x0, [⟨15, 0, .ro⟩, ⟨16, 16, .ovf⟩]⟩,
  ⟨Reg.MMU_RESTART_CNT, 0, 1, 0x0, [⟨15, 0, .ro⟩, ⟨16, 16, .ovf⟩]⟩,
  ⟨Reg.MMU_DOMCTL, 0, 1, 0x0, [⟨0, 0, .wo⟩, ⟨1, 1, .wo⟩]⟩,
  ⟨Reg.MMU_DOMSTAT, 0, 1, 0x0, [⟨0, 0, .ro⟩, ⟨3, 1, .ro⟩]⟩,
  ⟨Reg.MMU_DOMMEM, 0, 1, 0xFF, [⟨7, 0, .rw⟩]⟩]
/-- Registers of the dma table (16_dma.md). -/
def regsDma : List RegDesc := [
  ⟨Reg.DMA_STAT, 0, 1, 0x0, [⟨7, 0, .ro⟩, ⟨15, 8, .ro⟩]⟩,
  ⟨Reg.DMA_CH_CFG 0, 64, 8, 0x0, [⟨1, 0, .rwl⟩, ⟨7, 2, .rwl⟩, ⟨8, 8, .rwl⟩]⟩,
  ⟨Reg.DMA_CH_CMD 0, 64, 8, 0x0, [⟨0, 0, .wo⟩, ⟨1, 1, .wo⟩, ⟨2, 2, .wo⟩]⟩,
  ⟨Reg.DMA_CH_DESC_LO 0, 64, 8, 0x0, [⟨31, 5, .rw⟩]⟩,
  ⟨Reg.DMA_CH_DESC_HI 0, 64, 8, 0x0, [⟨13, 0, .rw⟩]⟩,
  ⟨Reg.DMA_CH_STAT 0, 64, 8, 0x0, [⟨0, 0, .ro⟩, ⟨1, 1, .ro⟩, ⟨3, 2, .ro⟩, ⟨7, 4, .ro⟩, ⟨8, 8, .ro⟩, ⟨9, 9, .w1c⟩]⟩,
  ⟨Reg.DMA_CH_RESID 0, 64, 8, 0x0, [⟨31, 0, .ro⟩]⟩,
  ⟨Reg.DMA_CH_SADDR_LO 0, 64, 8, 0x0, [⟨31, 0, .ro⟩]⟩,
  ⟨Reg.DMA_CH_SADDR_HI 0, 64, 8, 0x0, [⟨13, 0, .ro⟩]⟩,
  ⟨Reg.DMA_CH_DADDR_LO 0, 64, 8, 0x0, [⟨31, 0, .ro⟩]⟩,
  ⟨Reg.DMA_CH_DADDR_HI 0, 64, 8, 0x0, [⟨13, 0, .ro⟩]⟩,
  ⟨Reg.DMA_CH_CDESC_LO 0, 64, 8, 0x0, [⟨31, 0, .ro⟩]⟩,
  ⟨Reg.DMA_CH_CDESC_HI 0, 64, 8, 0x0, [⟨13, 0, .ro⟩]⟩,
  ⟨Reg.DMA_CH_SREC_LO 0, 64, 8, 0x0, [⟨31, 5, .rwl⟩]⟩,
  ⟨Reg.DMA_CH_SREC_HI 0, 64, 8, 0x0, [⟨13, 0, .rwl⟩]⟩,
  ⟨Reg.DMA_CH_EVT 0, 64, 8, 0x0, [⟨5, 0, .w1c⟩]⟩,
  ⟨Reg.DMA_CH_IEN 0, 64, 8, 0x0, [⟨5, 0, .rw⟩]⟩,
  ⟨Reg.DMA_CH_WLOST_CNT 0, 4, 8, 0x0, [⟨15, 0, .ro⟩, ⟨16, 16, .ovf⟩]⟩]
/-- Registers of the fls table (17_flash.md). -/
def regsFls : List RegDesc := [
  ⟨Reg.FLS_STAT, 0, 1, 0x0, [⟨4, 0, .ro⟩, ⟨9, 5, .ro⟩]⟩,
  ⟨Reg.FLS_EWTHR, 0, 1, 0x2, [⟨1, 0, .rw⟩]⟩,
  ⟨Reg.FLS_EWADDR, 0, 1, 0x0, [⟨24, 0, .ro⟩, ⟨26, 25, .ro⟩, ⟨27, 27, .w1c⟩]⟩,
  ⟨Reg.FLS_EWCNT, 0, 1, 0x0, [⟨15, 0, .ro⟩, ⟨16, 16, .ovf⟩]⟩,
  ⟨Reg.FLS_UEADDR, 0, 1, 0x0, [⟨24, 0, .ro⟩, ⟨25, 25, .ro⟩, ⟨26, 26, .w1c⟩]⟩,
  ⟨Reg.FLS_UECNT, 0, 1, 0x0, [⟨15, 0, .ro⟩, ⟨16, 16, .ovf⟩]⟩,
  ⟨Reg.FLS_B_CMD 0, 64, 5, 0x0, [⟨2, 0, .wo⟩, ⟨5, 3, .wo⟩, ⟨15, 8, .wo⟩]⟩,
  ⟨Reg.FLS_B_ADDR 0, 64, 5, 0x0, [⟨22, 0, .rw⟩]⟩,
  ⟨Reg.FLS_B_STAT 0, 64, 5, 0x0, [⟨0, 0, .ro⟩, ⟨1, 1, .ro⟩, ⟨3, 2, .ro⟩, ⟨15, 4, .ro⟩, ⟨18, 16, .ro⟩, ⟨19, 19, .w1c⟩]⟩,
  ⟨Reg.FLS_B_ERRADDR 0, 64, 5, 0x0, [⟨22, 0, .ro⟩]⟩,
  ⟨Reg.FLS_B_PROT 0, 64, 5, 0x0, [⟨10, 0, .rwl⟩, ⟨26, 16, .rwl⟩, ⟨31, 31, .rwl⟩]⟩,
  ⟨Reg.FLS_B_FB 0, 64, 5, 0x0, [⟨0, 0, .rwl⟩, ⟨3, 1, .rwl⟩]⟩,
  ⟨Reg.FLS_B_BUSYRD 0, 64, 5, 0x0, [⟨15, 0, .ro⟩, ⟨16, 16, .ovf⟩]⟩,
  ⟨Reg.FLS_B_CORR1 0, 64, 5, 0x0, [⟨15, 0, .ro⟩, ⟨16, 16, .ovf⟩]⟩,
  ⟨Reg.FLS_B_CORR2 0, 64, 5, 0x0, [⟨15, 0, .ro⟩, ⟨16, 16, .ovf⟩]⟩,
  ⟨Reg.FLS_B_CORR3 0, 64, 5, 0x0, [⟨15, 0, .ro⟩, ⟨16, 16, .ovf⟩]⟩,
  ⟨Reg.FLS_B_PBUF 0, 4, 160, 0xFFFFFFFF, [⟨31, 0, .rw⟩]⟩]
/-- Registers of the rst table (18_power_reset_energy.md). -/
def regsRst : List RegDesc := [
  ⟨Reg.RST_CAUSE, 0, 1, 0x501, [⟨7, 0, .w1c⟩, ⟨10, 8, .ro⟩]⟩,
  ⟨Reg.RST_CMD, 0, 1, 0x0, [⟨2, 0, .wo⟩, ⟨8, 3, .wo⟩, ⟨9, 9, .wo⟩, ⟨23, 16, .wo⟩]⟩,
  ⟨Reg.RST_BOOT, 0, 1, 0x0, [⟨3, 0, .ro⟩, ⟨4, 4, .ro⟩, ⟨5, 5, .ro⟩, ⟨6, 6, .ro⟩, ⟨8, 7, .ro⟩]⟩,
  ⟨Reg.RST_CFG, 0, 1, 0x0, [⟨1, 0, .rwl⟩]⟩,
  ⟨Reg.RST_BRG_HOLD, 0, 1, 0x3E8, [⟨9, 0, .rwl⟩]⟩,
  ⟨Reg.RST_BRG_STAT, 0, 1, 0x0, [⟨0, 0, .ro⟩, ⟨1, 1, .ro⟩]⟩,
  ⟨Reg.RST_BRG_REPLAY, 0, 1, 0x0, [⟨15, 0, .ro⟩, ⟨16, 16, .ovf⟩]⟩,
  ⟨Reg.RST_BRG_RETRAIN, 0, 1, 0x0, [⟨15, 0, .ro⟩, ⟨16, 16, .ovf⟩]⟩,
  ⟨Reg.RST_MON, 0, 1, 0x0, [⟨6, 0, .w1c⟩, ⟨7, 7, .w1c⟩, ⟨8, 8, .w1c⟩]⟩,
  ⟨Reg.RST_LOCKUP_AC, 0, 1, 0x0, [⟨7, 0, .w1c⟩]⟩,
  ⟨Reg.RST_LOCKUP_CE_LO, 0, 1, 0x0, [⟨31, 0, .w1c⟩]⟩,
  ⟨Reg.RST_LOCKUP_CE_HI, 0, 1, 0x0, [⟨31, 0, .w1c⟩]⟩,
  ⟨Reg.WD_CTL 0, 16, 4, 0x3E80000, [⟨0, 0, .w1s⟩, ⟨2, 1, .rwl⟩, ⟨31, 16, .rwl⟩]⟩,
  ⟨Reg.WD_KICK 0, 16, 4, 0x0, [⟨15, 0, .wo⟩]⟩,
  ⟨Reg.WD_CNT 0, 16, 4, 0x0, [⟨15, 0, .ro⟩, ⟨16, 16, .ro⟩]⟩]
/-- Registers of PWR page 0 (18_power_reset_energy.md). -/
def regsPwr0 : List RegDesc := [
  ⟨Reg.PWR_STAT, 0, 1, 0x0, [⟨0, 0, .ro⟩]⟩,
  ⟨Reg.PWR_REFCNT, 0, 1, 0x0, [⟨15, 0, .ro⟩, ⟨16, 16, .ovf⟩]⟩,
  ⟨Reg.PWR_LASTREF, 0, 1, 0x0, [⟨7, 0, .ro⟩, ⟨10, 8, .ro⟩]⟩,
  ⟨Reg.PWR_DOM 0, 4, 148, 0xF, [⟨1, 0, .ro⟩, ⟨3, 2, .rw⟩, ⟨4, 4, .rw⟩, ⟨5, 5, .w1c⟩, ⟨8, 6, .ro⟩]⟩]
/-- Registers of PWR page 1 (18_power_reset_energy.md). -/
def regsPwr1 : List RegDesc := [
  ⟨Reg.MON_TEMP, 0, 1, 0x0, [⟨7, 0, .ro⟩, ⟨15, 8, .ro⟩]⟩,
  ⟨Reg.MON_TWARN, 0, 1, 0xB3, [⟨7, 0, .rw⟩]⟩]
/-- Registers of PWR page 2 (18_power_reset_energy.md). -/
def regsPwr2 : List RegDesc := [
  ⟨Reg.PWR_RAIL_MW 0, 4, 7, 0x0, [⟨15, 0, .ro⟩]⟩]
/-- Registers of the eg table (18_power_reset_energy.md and 23_pins_electrical.md). -/
def regsEg : List RegDesc := [
  ⟨Reg.EG_STAT, 0, 1, 0x0, [⟨7, 0, .ro⟩, ⟨15, 8, .ro⟩, ⟨23, 16, .ro⟩]⟩,
  ⟨Reg.EG_FLD, 0, 1, 0x0, [⟨7, 0, .rwl⟩]⟩,
  ⟨Reg.EG_CTL 0, 64, 8, 0x1401, [⟨0, 0, .rwl⟩, ⟨1, 1, .rwl⟩, ⟨2, 2, .rwl⟩, ⟨15, 8, .rwl⟩]⟩,
  ⟨Reg.EG_WIN 0, 64, 8, 0x2710, [⟨16, 0, .rwl⟩]⟩,
  ⟨Reg.EG_ELIM_LO 0, 64, 8, 0x0, [⟨31, 0, .rw⟩]⟩,
  ⟨Reg.EG_ELIM_HI 0, 64, 8, 0x0, [⟨15, 0, .rw⟩]⟩,
  ⟨Reg.EG_ILIM 0, 64, 8, 0xFFF, [⟨11, 0, .rw⟩]⟩,
  ⟨Reg.EG_CMD 0, 64, 8, 0x0, [⟨0, 0, .wo⟩, ⟨1, 1, .wo⟩, ⟨2, 2, .wo⟩, ⟨3, 3, .wo⟩]⟩,
  ⟨Reg.EG_ST 0, 64, 8, 0x0, [⟨0, 0, .ro⟩, ⟨1, 1, .ro⟩, ⟨2, 2, .ro⟩, ⟨4, 3, .ro⟩, ⟨6, 5, .ro⟩]⟩,
  ⟨Reg.EG_MEAS 0, 64, 8, 0x0, [⟨11, 0, .ro⟩, ⟨27, 16, .ro⟩]⟩,
  ⟨Reg.EG_E_LO 0, 64, 8, 0x0, [⟨31, 0, .ro⟩]⟩,
  ⟨Reg.EG_E_HI 0, 64, 8, 0x0, [⟨15, 0, .ro⟩]⟩,
  ⟨Reg.EG_CCFG 0, 64, 8, 0x0, [⟨15, 0, .rwl⟩]⟩,
  ⟨Reg.EG_CBUDGET 0, 64, 8, 0x0, [⟨31, 0, .rwl⟩]⟩,
  ⟨Reg.EG_CAP 0, 64, 8, 0x0, [⟨23, 0, .ro⟩]⟩,
  ⟨Reg.EG_ESTORE 0, 64, 8, 0x0, [⟨31, 0, .ro⟩]⟩,
  ⟨Reg.EG_CUT_CNT 0, 64, 8, 0x0, [⟨15, 0, .ro⟩, ⟨16, 16, .ovf⟩]⟩,
  ⟨Reg.FIO_SEL 0, 16, 8, 0x0, [⟨28, 0, .rwl⟩]⟩,
  ⟨Reg.FIO_OE 0, 16, 8, 0x0, [⟨28, 0, .rw⟩]⟩,
  ⟨Reg.FIO_OUT 0, 16, 8, 0x0, [⟨28, 0, .rw⟩]⟩,
  ⟨Reg.FIO_IN 0, 16, 8, 0x0, [⟨28, 0, .ro⟩]⟩]
/-- Registers of the sec table (19_security_lifecycle.md). -/
def regsSec : List RegDesc := [
  ⟨Reg.SEC_LC, 0, 1, 0x1, [⟨1, 0, .ro⟩, ⟨2, 2, .ro⟩]⟩,
  ⟨Reg.SEC_SERIAL 0, 4, 4, 0x0, [⟨31, 0, .ro⟩]⟩,
  ⟨Reg.SEC_SVN_FW, 0, 1, 0x0, [⟨6, 0, .ro⟩]⟩,
  ⟨Reg.SEC_KREV, 0, 1, 0x0, [⟨1, 0, .ro⟩]⟩,
  ⟨Reg.SEC_TMP_CTL, 0, 1, 0x700, [⟨3, 0, .w1s⟩, ⟨7, 4, .rwl⟩, ⟨10, 8, .rwl⟩]⟩,
  ⟨Reg.SEC_TMP_STAT, 0, 1, 0x0, [⟨3, 0, .ro⟩, ⟨11, 8, .w1c⟩]⟩,
  ⟨Reg.SEC_TMP_CNT, 0, 1, 0x0, [⟨15, 0, .ro⟩, ⟨16, 16, .ovf⟩]⟩,
  ⟨Reg.SEC_SIGN_CMD, 0, 1, 0x0, [⟨0, 0, .wo⟩]⟩,
  ⟨Reg.SEC_SIGN_STAT, 0, 1, 0x0, [⟨0, 0, .ro⟩, ⟨2, 1, .ro⟩]⟩,
  ⟨Reg.SEC_MEAS_EXT, 0, 1, 0x0, [⟨2, 0, .wo⟩, ⟨8, 8, .wo⟩]⟩,
  ⟨Reg.SEC_MEAS_LOCK, 0, 1, 0x0, [⟨0, 0, .w1s⟩]⟩,
  ⟨Reg.SEC_SIGN_DIG 0, 4, 12, 0x0, [⟨31, 0, .rw⟩]⟩,
  ⟨Reg.SEC_SIGN_SR 0, 4, 24, 0x0, [⟨31, 0, .ro⟩]⟩,
  ⟨Reg.SEC_EXT_DIG 0, 4, 12, 0x0, [⟨31, 0, .rw⟩]⟩,
  ⟨Reg.SEC_MEAS 0, 4, 96, 0x0, [⟨31, 0, .ro⟩]⟩]
/-- Registers of the cxl table (20_cxl_attachment.md). -/
def regsCxl : List RegDesc := [
  ⟨Reg.CXL_CTL, 0, 1, 0xA04, [⟨0, 0, .rwl⟩, ⟨1, 1, .rwl⟩, ⟨2, 2, .rwl⟩, ⟨15, 8, .rwl⟩]⟩,
  ⟨Reg.CXL_STAT, 0, 1, 0x0, [⟨0, 0, .ro⟩, ⟨1, 1, .ro⟩, ⟨4, 2, .ro⟩, ⟨8, 5, .ro⟩, ⟨9, 9, .ro⟩, ⟨10, 10, .ro⟩, ⟨11, 11, .ro⟩, ⟨12, 12, .ro⟩]⟩,
  ⟨Reg.CXL_HDM_AVAIL, 0, 1, 0x0, [⟨9, 0, .rwl⟩, ⟨25, 16, .rwl⟩, ⟨31, 31, .rwl⟩]⟩,
  ⟨Reg.CXL_MSIX_SEND, 0, 1, 0x0, [⟨5, 0, .wo⟩]⟩,
  ⟨Reg.CXL_VIRAL_CMD, 0, 1, 0x0, [⟨0, 0, .wo⟩]⟩,
  ⟨Reg.CXL_B0DROP, 0, 1, 0x0, [⟨15, 0, .ro⟩, ⟨16, 16, .ovf⟩]⟩,
  ⟨Reg.CXL_LINKDN_CNT, 0, 1, 0x0, [⟨15, 0, .ro⟩, ⟨16, 16, .ovf⟩]⟩,
  ⟨Reg.CXL_D2HDROP, 0, 1, 0x0, [⟨15, 0, .ro⟩, ⟨16, 16, .ovf⟩]⟩]
/-- Registers of the qc table (21_rom_command_set.md). -/
def regsQc : List RegDesc := [
  ⟨Reg.QC_CTL, 0, 1, 0x40, [⟨0, 0, .rw⟩, ⟨7, 4, .rw⟩, ⟨9, 8, .rw⟩, ⟨15, 10, .rw⟩]⟩,
  ⟨Reg.QC_STAT, 0, 1, 0x0, [⟨0, 0, .ro⟩, ⟨1, 1, .ro⟩, ⟨5, 2, .ro⟩, ⟨27, 16, .ro⟩]⟩,
  ⟨Reg.QC_SQB_LO, 0, 1, 0x0, [⟨31, 12, .rw⟩]⟩,
  ⟨Reg.QC_SQB_HI, 0, 1, 0x0, [⟨31, 0, .rw⟩]⟩,
  ⟨Reg.QC_CQB_LO, 0, 1, 0x0, [⟨31, 12, .rw⟩]⟩,
  ⟨Reg.QC_CQB_HI, 0, 1, 0x0, [⟨31, 0, .rw⟩]⟩,
  ⟨Reg.QC_CNT, 0, 1, 0x0, [⟨15, 0, .ro⟩, ⟨16, 16, .ovf⟩]⟩]
/-- Registers of the cmd table (21_rom_command_set.md). -/
def regsCmd : List RegDesc := [
  ⟨Reg.CMD_QERR_LO, 0, 1, 0x0, [⟨31, 0, .w1c⟩]⟩,
  ⟨Reg.CMD_QERR_HI, 0, 1, 0x0, [⟨31, 0, .w1c⟩]⟩,
  ⟨Reg.CMD_ACT, 0, 1, 0xFFFF, [⟨7, 0, .ro⟩, ⟨15, 8, .ro⟩]⟩,
  ⟨Reg.CMD_TRDROP, 0, 1, 0x0, [⟨15, 0, .ro⟩, ⟨16, 16, .ovf⟩]⟩]
/-- Registers of the strc table (22_string_fabric.md). -/
def regsStrC : List RegDesc := [
  ⟨Reg.STR_CTL, 0, 1, 0xA02, [⟨0, 0, .rwl⟩, ⟨1, 1, .rwl⟩, ⟨13, 8, .rwl⟩]⟩,
  ⟨Reg.STR_STAT, 0, 1, 0xF000, [⟨7, 0, .ro⟩, ⟨8, 8, .ro⟩, ⟨9, 9, .ro⟩, ⟨10, 10, .ro⟩, ⟨11, 11, .ro⟩, ⟨15, 12, .ro⟩, ⟨21, 16, .ro⟩]⟩,
  ⟨Reg.STR_STOP_CMD, 0, 1, 0x0, [⟨7, 0, .wo⟩, ⟨8, 8, .wo⟩]⟩,
  ⟨Reg.STR_STOP_LAST, 0, 1, 0x0, [⟨7, 0, .ro⟩, ⟨31, 16, .ro⟩]⟩,
  ⟨Reg.STR_STOP_CNT, 0, 1, 0x0, [⟨15, 0, .ro⟩, ⟨16, 16, .ovf⟩]⟩,
  ⟨Reg.STR_REROUTE_CNT, 0, 1, 0x0, [⟨15, 0, .ro⟩, ⟨16, 16, .ovf⟩]⟩,
  ⟨Reg.STR_RDROP_CNT, 0, 1, 0x0, [⟨15, 0, .ro⟩, ⟨16, 16, .ovf⟩]⟩,
  ⟨Reg.STR_WLOST_CNT, 0, 1, 0x0, [⟨15, 0, .ro⟩, ⟨16, 16, .ovf⟩]⟩,
  ⟨Reg.STR_TOFS, 0, 1, 0x0, [⟨31, 0, .ro⟩]⟩,
  ⟨Reg.STR_EXP_LO, 0, 1, 0x0, [⟨0, 0, .rw⟩, ⟨31, 20, .rw⟩]⟩,
  ⟨Reg.STR_EXP_HI, 0, 1, 0x0, [⟨13, 0, .rw⟩]⟩,
  ⟨Reg.STR_RT 0, 4, 256, 0xFF, [⟨3, 0, .rw⟩, ⟨7, 4, .rw⟩, ⟨8, 8, .rw⟩, ⟨9, 9, .ro⟩, ⟨15, 10, .rw⟩, ⟨16, 16, .rw⟩]⟩,
  ⟨Reg.STR_TX_CFG 0, 16, 16, 0x4000000, [⟨0, 0, .rw⟩, ⟨15, 8, .rw⟩, ⟨23, 16, .rw⟩, ⟨30, 24, .rw⟩]⟩,
  ⟨Reg.STR_TX_SRC_LO 0, 16, 16, 0x0, [⟨31, 0, .rw⟩]⟩,
  ⟨Reg.STR_TX_SRC_HI 0, 16, 16, 0x0, [⟨13, 0, .rw⟩]⟩,
  ⟨Reg.STR_TX_OFS 0, 16, 16, 0x0, [⟨23, 0, .rw⟩]⟩,
  ⟨Reg.STR_RX_CFG 0, 16, 16, 0x0, [⟨0, 0, .rw⟩, ⟨15, 8, .rw⟩, ⟨23, 16, .rw⟩]⟩,
  ⟨Reg.STR_RX_DST_LO 0, 16, 16, 0x0, [⟨31, 0, .rw⟩]⟩,
  ⟨Reg.STR_RX_DST_HI 0, 16, 16, 0x0, [⟨13, 0, .rw⟩]⟩,
  ⟨Reg.STR_RX_STAT 0, 16, 16, 0x0, [⟨15, 0, .ro⟩, ⟨16, 16, .ovf⟩]⟩]
/-- Registers of the strp table (22_string_fabric.md). -/
def regsStrP : List RegDesc := [
  ⟨Reg.STR_P_STAT, 0, 1, 0x0, [⟨0, 0, .ro⟩, ⟨1, 1, .ro⟩, ⟨2, 2, .ro⟩, ⟨3, 3, .ro⟩, ⟨4, 4, .ro⟩, ⟨15, 8, .ro⟩, ⟨17, 16, .ro⟩]⟩,
  ⟨Reg.STR_P_DELAY, 0, 1, 0x0, [⟨23, 0, .ro⟩]⟩,
  ⟨Reg.STR_P_CRC_CNT, 0, 1, 0x0, [⟨15, 0, .ro⟩, ⟨16, 16, .ovf⟩]⟩,
  ⟨Reg.STR_P_DOWN_CNT, 0, 1, 0x0, [⟨15, 0, .ro⟩, ⟨16, 16, .ovf⟩]⟩]
/-- The header every page starts with (R11). `PAGE_STAT.LOCKED` is a mirror of `PAGE_LOCK[0]`; `PAGE_IRQ_SET` and
`PAGE_LOCK` act when written and are handled by the write itself. -/
def regsHeader : List RegDesc := [
  ⟨Reg.PAGE_ID, 0, 1, 0, [⟨31, 0, .ro⟩]⟩,
  ⟨Reg.PAGE_CAP, 0, 1, 0, [⟨31, 0, .ro⟩]⟩,
  ⟨Reg.PAGE_CTL, 0, 1, 0, [⟨0, 0, .rwl⟩, ⟨2, 2, .rwl⟩]⟩,
  ⟨Reg.PAGE_STAT, 0, 1, 0, [⟨0, 0, .ro⟩, ⟨1, 1, .w1c⟩, ⟨2, 2, .ro⟩, ⟨31, 16, .ro⟩]⟩,
  ⟨Reg.PAGE_IRQ_STAT, 0, 1, 0, [⟨31, 0, .w1c⟩]⟩,
  ⟨Reg.PAGE_IRQ_EN, 0, 1, 0, [⟨31, 0, .rw⟩]⟩,
  ⟨Reg.PAGE_IRQ_SET, 0, 1, 0, [⟨31, 0, .wo⟩]⟩,
  ⟨Reg.PAGE_LOCK, 0, 1, 0, [⟨0, 0, .ro⟩]⟩]

/-- The doorbell page of a Saluo queue (21_rom_command_set.md); it has no common header. -/
def regsDb : List RegDesc := [
  ⟨Reg.DB_SQT, 0, 1, 0, [⟨11, 0, .wo⟩]⟩,
  ⟨Reg.DB_CQH, 0, 1, 0, [⟨11, 0, .wo⟩]⟩]

/-- The Device ID of R488. -/
def deviceId : Nat := 0x6480

/-- The stepping byte of R2, which is the Revision ID (R488). -/
def stepping : Nat := 0x21

/-- The configuration space of function 0 from the vendor DVSEC on, which starts at configuration offset 0x600 (R506), wrapped round to
its header: the identity registers of R488 stand at 0xA00 and 0xA08. The vendor ID joins on a read. -/
def regsDvsec : List RegDesc := [
  ⟨Reg.URG_CMD, 0, 1, 0, [⟨15, 0, .wo⟩]⟩,
  ⟨Reg.URG_STAT, 0, 1, 0, [⟨2, 0, .ro⟩, ⟨3, 3, .w1c⟩]⟩,
  ⟨Reg.URG_LAST_LO, 0, 1, 0, [⟨31, 0, .ro⟩]⟩,
  ⟨Reg.URG_LAST_HI, 0, 1, 0, [⟨31, 0, .ro⟩]⟩,
  ⟨Reg.URG_CNT, 0, 1, 0, [⟨15, 0, .ro⟩, ⟨16, 16, .ovf⟩]⟩,
  ⟨0x000, 0, 1, 0x0001_0023, [⟨31, 0, .ro⟩]⟩,
  ⟨0x004, 0, 1, 0x0201_0000, [⟨31, 0, .ro⟩]⟩,
  ⟨0x008, 0, 1, 0x0001, [⟨31, 0, .ro⟩]⟩,
  ⟨Reg.CFG_ID, 0, 1, 65536 * deviceId, [⟨31, 0, .ro⟩]⟩,
  ⟨Reg.CFG_CLASS, 0, 1, 256 * 0x120000 + stepping, [⟨31, 0, .ro⟩]⟩]

/-- The MSI-X table (R494, R502) in the layout of PCI Express, whose reset masks every vector: address, data, mask. -/
def regsMsix : List RegDesc := [
  ⟨0x0, 16, 64, 0x0, [⟨31, 2, .rw⟩]⟩,
  ⟨0x4, 16, 64, 0x0, [⟨31, 0, .rw⟩]⟩,
  ⟨0x8, 16, 64, 0x0, [⟨31, 0, .rw⟩]⟩,
  ⟨0xC, 16, 64, 0x1, [⟨0, 0, .rw⟩]⟩]
/-- The block-specific registers of a page of kind `k`, instance `i`. -/
def blockRegs (k : PageKind) (i : Nat) : List RegDesc :=
  match k with
  | .dtb => regsDtb | .rst => regsRst | .eg => regsEg | .sec => regsSec | .fls => regsFls
  | .pwr => if i = 0 then regsPwr0 else if i = 1 then regsPwr1 else if i = 2 then regsPwr2 else []
  | .ird => if i = 0 then regsIrqCtx else if i ≤ 8 then regsIrqSrc else []
  | .liu => regsIrqCtx ++ regsIrqSrc
  | .ac => regsAc | .mmu => regsMmu | .pairSys => regsPair | .pairC => regsPair
  | .sdma => regsDma | .cdma => regsDma | .cxl => regsCxl | .cmd => regsCmd
  | .str => regsStrP | .strCommon => regsStrC | .frm => regsFrm
  | .pwg0 => regsPwg0 | .pwg1 => regsPwg1 | .adc => regsAdc | .sdm => regsSdm | .smp => regsSmp
  | .cmp => regsCmp | .qdec => regsQdec | .cap => regsCap | .sep => regsSep
  | .sramC => regsSramC | .sramSys => regsSramSys | .ce => regsCe
  | .qcb => regsQc | .db => regsDb | .dvsec => regsDvsec | .msix => regsMsix

/-- Whether the page starts with the common header (R11); the queue control blocks, the doorbells and the DVSEC
are no register pages. -/
def pageHasHeader : PageKind → Bool
  | .qcb | .db | .dvsec | .msix => false
  | _ => true

/-- All registers of a page. -/
def pageRegs (k : PageKind) (i : Nat) : List RegDesc :=
  if pageHasHeader k then regsHeader ++ blockRegs k i else blockRegs k i

/-- The word at byte offset `off` belongs to this register (or register array). -/
def RegDesc.holds (d : RegDesc) (off : Nat) : Bool :=
  if d.count ≤ 1 then off == d.off
  else decide (d.off ≤ off) && (off - d.off) % d.stride == 0 && decide ((off - d.off) / d.stride < d.count)

/-- The register at an offset of a page, none where the offset is reserved (R7). -/
def regAt (k : PageKind) (i off : Nat) : Option RegDesc :=
  (pageRegs k i).find? (·.holds off)

/-- The block type that `PAGE_ID` reads (R68, R112, R147, R163, R180, R223, R228, R327, R352, R371, R399, R419,
R440, R467, R486, R510, R545, R571). -/
def pageBlockType : PageKind → Nat
  | .dtb => 0x0001 | .frm => 0x0002 | .pwg0 => 0x0010 | .pwg1 => 0x0011 | .adc => 0x0020 | .sdm => 0x0021
  | .smp => 0x0022 | .cmp => 0x0030 | .qdec => 0x0040 | .cap => 0x0041 | .sep => 0x0042 | .ce => 0x0050
  | .ac => 0x0051 | .ird => 0x0060 | .liu => 0x0061 | .pairC => 0x0070 | .pairSys => 0x0071 | .sramC => 0x0080
  | .sramSys => 0x0081 | .mmu => 0x0090 | .cdma => 0x00A0 | .sdma => 0x00A1 | .fls => 0x00B0 | .rst => 0x00C0
  | .pwr => 0x00C1 | .eg => 0x00C2 | .sec => 0x00D0 | .cxl => 0x00E0 | .cmd => 0x00E1 | .str => 0x00F0
  | .strCommon => 0x00F1 | .qcb => 0 | .db => 0 | .dvsec => 0 | .msix => 0

/-- What `PAGE_CAP` reads (the same rules as `blockType`). -/
def pageCapValue : PageKind → Nat
  | .dtb => 0x3040 | .frm => 0x0408 | .pwg0 => 0x0412 | .pwg1 => 0x0412 | .adc => 0x2010 | .sdm => 0x000C
  | .smp => 0x0001_0040 | .cmp => 0x0C0C | .qdec => 6 | .cap => 6 | .sep => 6 | .ce => 0x10
  | .ac => 0x2020 | .ird => 0x0010_0400 | .liu => 0x0010_0080 | .pairC => 4 | .pairSys => 4 | .sramC => 0x0A
  | .sramSys => 0x11 | .mmu => 0x002E_3004 | .cdma => 8 | .sdma => 8 | .fls => 5 | .rst => 4
  | .pwr => 0x94 | .eg => 8 | .sec => 0x0408 | .cxl => 0x4002 | .cmd => 0x40 | .str => 0x0210
  | .strCommon => 0x0010_10FA | .qcb => 0 | .db => 0 | .dvsec => 0 | .msix => 0

/-- Spare rows of unit `u` of an `SRAM` page (R355). -/
def unitSparesOf (k : PageKind) (u : Nat) : Nat :=
  match k with
  | .sramC => if u < 8 then 4 else if u = 8 then 16 else 2
  | _ => if u < 8 then 16 else if u < 16 then 8 else 4

/-- A source of the interrupt distributor exists (R307). -/
def irdSource (s : Nat) : Bool :=
  decide (1 ≤ s ∧ s ≤ 17) || decide (24 ≤ s ∧ s ≤ 303) || decide (960 ≤ s ∧ s ≤ 1022)

/-- A source of a local interrupt unit exists (R308). -/
def liuSource (s : Nat) : Bool := decide (1 ≤ s ∧ s ≤ 43) || decide (48 ≤ s ∧ s ≤ 111)

/-- The fixed kind of a source: true for an edge source (R307 to R309); `liu` names the controller. -/
def srcEdge (liu : Bool) (s : Nat) : Bool :=
  if liu then decide (16 ≤ s ∧ s ≤ 27) || s == 31 || decide (48 ≤ s ∧ s ≤ 111) else s == 1 || decide (960 ≤ s ∧ s ≤ 1022)

/-- Reset values that differ from one instance of an array to another, or from one instance of a page to another:
`AC_CTL.RUN` of AC0 and AC1 (R229), the read-only `KIND` of an interrupt source (R309), and the spare rows of a
memory unit (14_onchip_memory.md). -/
def instReset (k : PageKind) (i off base : Nat) : Nat :=
  match k with
  | .ac => if off = Reg.AC_CTL && i < 2 then base ||| 1 else base
  | .sramC | .sramSys =>
    if 0x104 ≤ off ∧ off < 0x544 ∧ (off - 0x104) % 0x40 = 0 then base + 256 * unitSparesOf k ((off - 0x104) / 0x40) else base
  | .liu => if 0x400 ≤ off ∧ off % 8 = 0 ∧ srcEdge true ((off - 0x400) / 8) then base ||| 64 else base
  | .ird => if 0x400 ≤ off ∧ off % 8 = 0 ∧ 0 < i ∧ srcEdge false ((i - 1) * 128 + (off - 0x400) / 8) then base ||| 64 else base
  | _ => base

/-- What the register at `off` holds after reset, before anything is written. -/
def regReset (k : PageKind) (i off : Nat) : Nat :=
  if pageHasHeader k && off = Reg.PAGE_ID then pageBlockType k * 0x1_0000 + i * 0x100
  else if pageHasHeader k && off = Reg.PAGE_CAP then pageCapValue k
  else match regAt k i off with
    | some d => instReset k i off d.reset
    | none => 0

end Sys2Proof.Machine
end

