-- ==== Sys2Proof/Machine/Sparse.lean ====
section
/-! DEFINITION. Sparse stores: a list of (key, value) pairs in one canonical form, keys strictly rising and no entry
equal to what an unlisted key reads as. Registers, snapshots and memory are such stores. -/

namespace Sys2Proof.Machine

/-- What a store holds at key `k`; an unlisted key holds `d k`. DESIGN CHOICE (log 4). -/
def sparseGet {α : Type} (d : Nat → α) : List (Nat × α) → Nat → α
  | [], k => d k
  | e :: t, k => if k = e.1 then e.2 else sparseGet d t k

/-- Store `v` at key `k`, keeping the canonical form. -/
def sparseSet {α : Type} [DecidableEq α] (d : Nat → α) : List (Nat × α) → Nat → α → List (Nat × α)
  | [], k, v => if v = d k then [] else [(k, v)]
  | e :: t, k, v =>
    if k < e.1 then (if v = d k then e :: t else (k, v) :: e :: t)
    else if k = e.1 then (if v = d k then t else (k, v) :: t)
    else e :: sparseSet d t k v

/-- Return every key of the half-open range `[a, b)` to what an unlisted key reads as. -/
def sparseClear {α : Type} (a b : Nat) (l : List (Nat × α)) : List (Nat × α) :=
  l.filter (fun e => decide (e.1 < a ∨ b ≤ e.1))

/-- The canonical form. -/
def sparseWf {α : Type} [DecidableEq α] (d : Nat → α) (l : List (Nat × α)) : Bool :=
  decide (l.Pairwise (fun x y => x.1 < y.1)) && l.all (fun e => decide (e.2 ≠ d e.1))

end Sys2Proof.Machine
end

