-- ==== Sys2Proof/Machine/State.lean ====
section
/-! DEFINITION. The state of the block: every register, queue, buffer, counter, mode and pin the spec gives it, as plain
data, and the machine right after reset. -/

namespace Sys2Proof.Machine

/-- Why the block stops with a fault. -/
inductive Fault where
  /-- No command raises it: the part has no state from which it cannot go on. Safe. -/
  | none_
  deriving DecidableEq, Repr

/-- Why a command is refused. -/
inductive Refusal where
  /-- A row of the table whose meaning is not written yet; raised by its arm of `exec`. Safe. -/
  | notModelled (mnemonic : String)
  deriving DecidableEq, Repr

/-- The answer that the last bus access gave its initiator. DESIGN CHOICE (log 2). -/
inductive Resp where
  | none
  | data (v : DWord)
  | busError
  | abort
  /-- Poisoned data (R498), and data of any length. -/
  | poison
  | bytes (l : List Byte)
  deriving DecidableEq, Repr

/-- Bits that the hardware set in a register, and at which edge of the DTB clock (R9). -/
structure Hot where
  key  : Nat
  bits : Word
  clk  : Nat
  deriving DecidableEq, Repr

/-- The time base of the part (R34, R37, R51): the edges of the 1.6 GHz DTB clock since power-on, the 64-bit integer
and 32-bit fraction of the DTB, the machine frame number, the DTB time its frame began, the period of the frame in
progress (a written `DTB_MFP` waits for the next boundary), and the discipline's own state (R64 to R67). -/
structure TimeBase where
  clk       : Nat
  ns        : DWord
  frac      : Word
  mfn       : BitVec 48
  mft       : DWord
  mfp       : Nat
  /-- The first valid message after `SRC` was selected loads the DTB (R64). -/
  loadPend  : Bool
  /-- Successive updates within ±20 ns (R64). -/
  lockRun   : Nat
  /-- The clock edge of the last valid time message (R65). -/
  lastMsg   : Nat
  /-- This holdover has already been a time loss (R65). -/
  heldLost  : Bool
  /-- The fabric's time has been away or has changed its way: the next SYNC is compared (R66). -/
  reacq     : Bool
  /-- A written `DTB_MFP` applies from the first boundary at or after this clock edge (R51, R561). -/
  mfpDue    : Nat
  /-- The last changes of the count other than by counting: the clock edge, the DTB (in units of 2^-32 ns) and the increment up to
  it, newest first (R39). -/
  past      : List (Nat × Nat × Nat)
  /-- A PTM dialog is in progress, and the clock edge of its start (R67). -/
  ptmBusy   : Bool
  /-- The clock edge of the last periodic PTM dialog. -/
  ptmLast   : Nat
  /-- The last offset, host minus DTB (R67). -/
  ptmOfs    : DWord
  /-- The offset of the first dialog, which `SRC` = 2 holds (R67). -/
  ptmFirst  : Option DWord
  deriving DecidableEq, Repr

/-- Where a cluster's carrier stands (R41, R47, R48). -/
inductive CarrierPhase where
  | stopped | waitLeader | starting | up | down
  deriving DecidableEq, Repr

/-- A cluster's carrier and frame unit. Times are exact times in delay-line steps since power-on (16 to a DTB clock
edge, R42); ideal times are DTB times in units of 2^-32 ns (R41). -/
structure Carrier where
  phase     : CarrierPhase
  /-- Ideal DTB time of the last valley, or of the first one while starting. -/
  ideal     : Nat
  /-- Exact time of the last valley. -/
  valley    : Nat
  /-- Exact time of the next turn: the first valley while starting, the apex while counting up, else the valley. -/
  turn      : Nat
  /-- Exact time of the next valley. -/
  nextValley : Nat
  /-- The first valley may lie no earlier than this exact time (R47). -/
  earliest  : Nat
  stopPend  : Bool
  /-- A start that waits for the pending stop, with the earliest exact time of its first valley (R48). -/
  restart   : Option Nat
  /-- A soft reset that waits for the carrier to stop (R596). -/
  srstPend  : Bool
  /-- A tick has taken place since `RUN` (R50). -/
  ticked    : Bool
  /-- Logic time of the last tick and of the next one. -/
  tick      : Nat
  nextTick  : Nat
  /-- t_lead in force for the coming frame, in steps (R54). -/
  lead      : Nat
  /-- The deadline of the current frame has passed or was never set. -/
  deadlined : Bool
  /-- What the last tick recorded (R53). -/
  tickDtb   : DWord
  tickFcnt  : Word
  tickMfn   : BitVec 48
  deriving DecidableEq, Repr

/-- What the output stage of a channel is doing (R95). -/
inductive OutMode where
  | stopped | tripped | safe | running
  deriving DecidableEq, Repr

/-- One PWM channel's state beside its registers. -/
structure PwmCh where
  /-- The shadow compares, and whether each is written: through the duty port since the last tick (true), or over the bus or
  earlier (R84, R90). -/
  shU       : BitVec 23
  shD       : BitVec 23
  newU      : Option Bool
  newD      : Option Bool
  /-- The channel has been reported stale (R88). -/
  stale     : Bool
  /-- The mode in force (R94). -/
  imm       : Bool
  /-- PWM clock cycle of the last duty-port write of CMPU and of CMPD (R22). -/
  portU     : Option Nat
  portD     : Option Nat
  /-- The reference level, and whether this period's CMPU and CMPD edges have been decided (R75, R91). -/
  ref       : Bool
  doneU     : Bool
  doneD     : Bool
  /-- Dead times in force (R80). -/
  dtr       : BitVec 16
  dtf       : BitVec 16
  /-- The outputs: H active, L active (R71). -/
  outH      : Bool
  outL      : Bool
  /-- A dead time that runs: its exact end and whether H (or L) then goes active (R78). -/
  dead      : Option (Nat × Bool)
  mode      : OutMode
  /-- The trip latch, and a cycle-by-cycle trip period in force (R104, R105). -/
  latched   : Bool
  cbc       : Bool
  /-- In the safe vector, and why (R98); it entered only through overruns with `OVRACT` = 1 (R100). -/
  safe      : Bool
  safeOvr   : Bool
  safeSw    : Bool
  safeBack  : Bool
  /-- An accepted release takes effect at the next valley; the owner has proved to be back (R100). -/
  relPend   : Bool
  ownerBack : Bool
  /-- Kept in always-on logic: the polarity, and that `PWG_CH_CTL` has been written since power-on (R72). -/
  polH      : Bool
  polL      : Bool
  driven    : Bool
  deriving DecidableEq, Repr

/-- A duty-port word on its way to the generator: the exact time it arrives, the word, and whether the issuing
engine was in its foreground context (R23, R59). -/
structure DutyWord where
  at_  : Nat
  word : Word
  fg   : Bool
  deriving DecidableEq, Repr

/-- A write that reached the generator on the clock edge of a turn of the carrier and belongs after it (R83, R92): a bus write of
page 0 with its time, or a duty-port word of a local engine. -/
inductive LateWrite where
  | bus (at_ off : Nat) (v mask : Word)
  | duty (i : Fin 8) (w : DutyWord)
  deriving DecidableEq, Repr

/-- The pulse-width generator of a cluster. -/
structure Pwm where
  ch        : Vector PwmCh 18
  /-- Each blanking unit's open window: its end, and the sources it covers (R109, R110). -/
  blk       : Vector (Option (Nat × Word)) 4
  /-- Pending token bits that arrived over the bus or before the current frame, and those that each engine's duty port
  brought since the last tick (R86, R90). -/
  tokBus    : BitVec 19
  tokEng    : Vector (BitVec 19) 8
  /-- The period shadow is written, through the duty port since the last tick, and reported stale. -/
  perWritten : Bool
  perByPort : Bool
  perStale  : Bool
  /-- The period token waits for the valley (R87 step 3). -/
  perWait   : Bool
  /-- Duty-port words in flight, oldest first, of each engine; writes that wait for the turn on whose edge they came. -/
  flight    : Vector (List DutyWord) 8
  late      : List LateWrite
  /-- Engines whose frame has overrun, until their next tick (R61, R82). -/
  overrun   : BitVec 8
  /-- The levels of the TRIP pins. -/
  tripPin   : BitVec 4
  deriving DecidableEq, Repr

/-- What a conversion or latch delivers: the cell, the frame tag, the exact arrival time and the sample-table entry. -/
structure Sample where
  at_   : Nat
  entry : Fin 64
  cell  : Word
  frame : Word
  deriving DecidableEq, Repr

/-- What a conversion in progress is for. -/
inductive ConvFor where
  | entry (x : Fin 64) (und : Bool)
  | readback (d : Fin 24)
  deriving DecidableEq, Repr

/-- A conversion in progress: its end, its window's close, the analogue level as a nominal code (R590), the frame, what it is for,
word 0 of its entry and the DTB nanoseconds at the close. -/
structure Conv where
  endAt   : Nat
  tS      : Nat
  nominal : BitVec 16
  frame   : Word
  why     : ConvFor
  word0   : Word
  dtbLo   : Word
  deriving DecidableEq, Repr

/-- A calibration or self-test request (R138 to R143). -/
structure CalReq where
  test    : Bool
  ticks   : Nat
  /-- Self-test steps done, and the largest deviation and its level so far. -/
  steps   : Nat
  dev     : BitVec 16
  level   : BitVec 3
  begun   : Bool
  starved : Bool
  /-- The step in progress was discarded when the self-test starved (R141). -/
  gone    : Bool
  deriving DecidableEq, Repr

/-- One ADC core. -/
structure AdcCore where
  conv  : Option Conv
  /-- Busy until this exact time (R116). -/
  busy  : Nat
  reqs  : List CalReq
  /-- A calibration run or self-test step in progress, and its end. -/
  run   : Option Nat
  /-- The coefficients in place were written over the bus, not by a calibration (R117, R138). -/
  own   : Bool
  deriving DecidableEq, Repr

/-- How an armed swap of sample tables waits (R126). -/
inductive SwapArm where
  /-- For the first frame whose lead window opens at or after this exact time. -/
  | at_ (t : Nat)
  /-- For the frame that starts at the first tick carrying this MFN or a higher one. -/
  | mfn (n : BitVec 48) (t : Nat)
  deriving DecidableEq, Repr

/-- A table check in progress: what it is for. -/
inductive TableCheck where
  | swap | swapm | check
  deriving DecidableEq, Repr

/-- The frame whose entries are being sampled: its tick's logic time, its number, the entries that have acted. -/
structure SampFrame where
  tick  : Nat
  fcnt  : Word
  apex  : Bool
  acted : BitVec 64
  deriving DecidableEq, Repr

/-- The sample table, the result FIFO and the readback unit of a cluster. -/
structure Smp where
  bank     : Bool
  bank0    : Vector (Word × Word) 64
  bank1    : Vector (Word × Word) 64
  chk      : Option TableCheck
  armed    : Option SwapArm
  frame    : Option SampFrame
  fifo     : List (Word × Word)
  /-- Records on their way into the FIFO, in order: when they are ready, their entry, the record (R21, R129). -/
  recs     : List (Nat × Fin 64 × Word × Word)
  /-- Results on their way to each engine's sample port, in order of arrival (R21). -/
  flight   : Vector (List Sample) 8
  /-- The substituted core (R143), and a write of `UND` = 0 that waits for the substitution's end. -/
  subst    : Option (Fin 7)
  undOff   : Bool
  /-- The run that the substitution serves has completed, or was cancelled before it began (R143). -/
  substRan : Bool
  /-- The value each QDEC entry latched in its previous frame (R171). -/
  qprev    : Vector (Option Word) 64
  /-- The engine that each engine's deliveries go to: itself, until a takeover moves them (R346 step 4). -/
  route    : Vector (Fin 8) 8
  deriving DecidableEq, Repr

/-- One sigma-delta input (R132 to R135). -/
structure SdmIn where
  /-- Decimated results still to discard (R133). -/
  discard : Nat
  /-- The modulator bits sampled, newest first, as many as the longest filter window needs. -/
  bits    : List Bool
  /-- Bits since the last decimated result. -/
  phase   : Nat
  /-- Exact time of the last edge of the modulator clock. -/
  edgeAt  : Nat
  deriving DecidableEq, Repr

/-- What a comparator's own parts add to its nominal figures, in nV (R150, R161): to the high threshold, to the low one, to the
hysteresis. -/
structure CmpErr where
  hi   : Int
  lo   : Int
  hyst : Int
  deriving DecidableEq, Repr

/-- One window comparator: its two threshold states, whether it is ready (R150, R153); the PWM clock cycle of a threshold write that
waits for the valley, and the settings that moving DACs may still come from (R155); its errors as last told. -/
structure CmpUnit where
  sth    : Bool
  stl    : Bool
  ready  : Bool
  thrPend : Option Nat
  from_  : List Word
  err    : CmpErr
  deriving DecidableEq, Repr

/-- The readback unit (R158 to R160). -/
structure Readback where
  pend    : Option (Fin 24)
  /-- A manual request that waits for the walk step in progress, with its ticks and whether it has starved. -/
  manual  : Option (Fin 24 × Nat × Bool)
  /-- The request in hand came from the automatic walk. -/
  byWalk  : Bool
  running : Bool
  ticks   : Nat
  starved : Bool
  /-- Ticks since the last walk step, its exact time, and the next DAC of the walk. -/
  walk    : Nat
  walkAt  : Nat
  next    : Nat
  deriving DecidableEq, Repr

/-- A capture record (R173), with the DTB clock count of its edge (R174). -/
structure CapRec where
  clk  : Nat
  ts   : DWord
  rise : Bool
  pos  : Word
  deriving DecidableEq, Repr

/-- An encoder transfer (R175): the entry that asked for it, if any, its word 0, its start, its deadline and the frame. -/
structure SepXfer where
  entry : Option (Fin 64)
  word0 : Word
  start : Nat
  dn    : Nat
  dtbLo : Word
  frame : Word
  deriving DecidableEq, Repr

/-- One feedback group: the filtered levels of its three pins (R167), the capture FIFO and the encoder port. -/
structure Feedback where
  pins    : BitVec 3
  cap     : List CapRec
  xfer    : Option SepXfer
  recover : Option Nat
  data    : DWord
  /-- PWM clock cycle of the last index load (R169, R170). -/
  idxAt   : Option Nat
  deriving DecidableEq, Repr

/-- A cluster's blocks. -/
structure Cluster where
  car  : Carrier
  pwm  : Pwm
  adc  : Vector AdcCore 8
  smp  : Smp
  sdm  : Vector SdmIn 12
  cmp  : Vector CmpUnit 12
  rb   : Readback
  fb   : Vector Feedback 6
  /-- The voltage at each analogue input pin as last told, in nV. -/
  ain  : Vector Int 32
  /-- Exact time from which the cluster drives SDM_CKO with its present rate (R132). -/
  ckoAt : Nat
  deriving DecidableEq, Repr

/-- A cell of an operand stack: its value, or the number of the value that is still on its way to it (R252). -/
structure Cell where
  val  : Word
  pend : Option Nat
  deriving DecidableEq, Repr

/-- A stack bank (R194): cached cells and return entries, top first, and the bank's own copies of ACC, FCSR and the
stack pointers; `VHI` of an application core. `accLo` and `accHi` are ACC's pending bits (R254). -/
structure Bank where
  cells : List Cell
  rets  : List Word
  acc   : DWord
  accLo : Option Nat
  accHi : Option Nat
  fcsr  : Word
  dsp   : Word
  dsb   : Word
  rsp   : Word
  rsb   : Word
  vhi   : BitVec 16
  deriving DecidableEq, Repr

/-- The banks of a core (R194); an application core's U bank is `tl`. -/
inductive BankId where
  | fg | tl | s | m
  deriving DecidableEq, Repr

/-- The frame context of an engine (R56 to R58). An application core is always in `tail`. -/
inductive FrameCtx where
  | idle | tail | fg
  deriving DecidableEq, Repr

/-- A branch whose delay slot has not retired (R211): its address, where it goes if taken, the bank as it stood. -/
structure Slot where
  branch : Word
  target : Option Word
  saved  : Bank
  deriving DecidableEq, Repr

/-- A value on its way to a pending cell: its number, and the value once known (a WAITS value is unknown until a
sample arrives, R213). -/
structure PendVal where
  id    : Nat
  val   : Option Word
  waits : Bool
  deriving DecidableEq, Repr

/-- A store-buffer entry (R259): the address the program used, the system physical address, the bytes. -/
structure SbEntry where
  va    : Nat
  pa    : Nat
  m     : Bool
  bytes : List Byte
  deriving DecidableEq, Repr

/-- The four words of the M bank's frame (R289). -/
structure MFrame where
  epc    : Word
  cause  : Word
  tval   : Word
  status : Word
  deriving DecidableEq, Repr

/-- What a foreground entry keeps of the context it pre-empts, and of the trap state (R57, R303). -/
structure TailRec where
  has    : Bool
  pc     : Word
  status : Word
  bank   : BankId
  wfi    : Bool
  slot   : Option Slot
  ssp    : Word
  lvlrec : Word
  sInUse : Bool
  sNest  : Nat
  deriving DecidableEq, Repr

/-- A translation held in a TLB (R387): its ASID, the virtual base and log2 of the page or span, the physical address of
the entry that the walk read and the entry as it found it. -/
structure TlbEntry where
  asid  : Nat
  vbase : Nat
  log2  : Nat
  pte   : Nat
  raw   : DWord
  deriving DecidableEq, Repr

/-- A partial walk held in a walk cache. -/
structure WalkEntry where
  asid  : Nat
  vbase : Nat
  level : Nat
  table : Nat
  deriving DecidableEq, Repr

/-- What a trap entry or a return changes of a core, as it stood before (R299, R300, R302). -/
structure TrapSnap where
  pc      : Word
  bootHi  : Option (BitVec 16)
  slot    : Option Slot
  wfi     : Bool
  status  : Word
  epc     : Word
  cause   : Word
  tval    : Word
  lvlrec  : Word
  mframe  : MFrame
  bTl     : Bank
  bS      : Bank
  bM      : Bank
  ssp     : Word
  bank    : BankId
  ctx     : FrameCtx
  sInUse  : Bool
  mInUse  : Bool
  sNest   : Nat
  pre     : Option TailRec
  ovrRecs : List TailRec
  tailGo  : Option Word
  idleRet : Bool
  fgRec   : Option Word
  deriving DecidableEq, Repr

/-- A trap entry, or a return (`ret`), behind which no instruction has issued yet: for an interrupt its priority and whether its
level is M, and the core as it was before (R299, R300, R302). -/
structure Entry where
  ret  : Bool
  irq  : Option (Nat × Bool)
  snap : TrapSnap
  deriving DecidableEq, Repr

/-- One half of a checkpoint slot (R344). -/
structure Ckpt where
  fcnt : Word
  ofs  : Nat
  blk  : Nat
  data : List Byte
  /-- The error that `INJ` stored in its first word (R361): 0, 1 one bit, 2 two bits. -/
  inj  : Nat
  deriving DecidableEq, Repr

/-- A core: its levels, banks, CSRs and buffers. -/
structure Core where
  running : Bool
  halted  : Bool
  /-- Halted again after the next retired instruction (R226). -/
  step1   : Bool
  wfi     : Bool
  lockup  : Bool
  /-- The first instruction after the start has not been fetched yet (R223, R228). -/
  fresh   : Bool
  pc      : Word
  /-- Address of the instruction last retired (R229). -/
  lastPc  : Nat
  status  : Word
  cause   : Word
  epc     : Word
  tval    : Word
  evecS   : Word
  evecM   : Word
  ssp     : Word
  ctxid   : BitVec 8
  dmode   : Word
  lvlrec  : Word
  predMode : Word
  pkeys   : List (Nat × DWord)
  /-- The range barred by PBAR, with the `VHI` it applies to (R247, R275). -/
  bar     : Option (Word × Word × BitVec 16)
  /-- The predictor (R270): outcomes; trained counters, indirect and direct targets, each by index with its tag (R272). -/
  hist    : List Bool
  counters : List (Nat × Nat × BitVec 2)
  targets : List (Nat × Nat × BitVec 48)
  direct  : List (Nat × Nat × BitVec 48)
  /-- Lines the instruction cache has been filled with, by physical address (R250, R264, R437). -/
  icache  : List Nat
  /-- The instruction last retired, where it may be the first of a fused pair: its address, and that it was a load from the own
  LSRAM (R256, R257). -/
  first   : Option (Word × Bool)
  /-- The trap entry or return in progress (R299, R300, R302). -/
  entry   : Option Entry
  bFg     : Bank
  bTl     : Bank
  bS      : Bank
  bM      : Bank
  bank    : BankId
  mframe  : MFrame
  sInUse  : Bool
  mInUse  : Bool
  /-- S bank records open below `SSP` (R290); where the first one saved in this foreground stands (R303). -/
  sNest   : Nat
  fgRec   : Option Word
  ctx     : FrameCtx
  /-- The context a foreground pre-empted; the contexts that open FRAME_OVERRUN handlers return to, newest first (R304). -/
  pre     : Option TailRec
  ovrRecs : List TailRec
  /-- A TAILGO that waits for the next entry of the tail context (R217). -/
  tailGo  : Option Word
  slot    : Option Slot
  sbuf    : List SbEntry
  pend    : List PendVal
  nextId  : Nat
  /-- The sample-port queue of an engine (R21). -/
  spq     : List Sample
  /-- Clock edge of the foreground entry. -/
  fgClk   : Nat
  /-- The FCNT of the frame whose foreground runs. -/
  fgFcnt  : Word
  /-- That frame's foreground has ended (R179). -/
  fgEnded : Bool
  /-- The foreground of the current frame was abandoned by a stop of the engine and overruns at its deadline (R218); a
  foreground entry waits until M returns (R56); the handler in progress was entered from idle (R301). -/
  fgGone  : Bool
  fgDue   : Bool
  idleRet : Bool
  /-- Bits [47:32] of the fetch address of an application core that has started from `AC_BOOTVEC` and not left that
  address space yet (R229). -/
  bootHi  : Option (BitVec 16)
  /-- A FRAME_OVERRUN that waits for a resume, or for M to return (R56, R226). -/
  ovrPend : Option (Word × Word)
  /-- A checkpoint was taken in this frame, into the half that is not completed (R216). -/
  ckptNow : Bool
  /-- The checkpoint slot: two halves, the one that is completed, and whether any is (R344). -/
  ckpt0   : Ckpt
  ckpt1   : Ckpt
  ckptSel : Bool
  ckptVal : Bool
  /-- The sample port's replay record of the newest frame (R347). -/
  replay  : List Sample
  tlb     : List TlbEntry
  walk    : List WalkEntry
  deriving DecidableEq, Repr

/-- A pending lock or split request of a pair, and the earliest exact time of its boundary (R336). -/
structure PairReq where
  lock : Bool
  from_ : Nat
  deriving DecidableEq, Repr

/-- A catch-up foreground (R348): its deadline, the frame it makes up for, and whether a tick has fallen in it. -/
structure CatchUp where
  limit : Nat
  fcnt  : Word
  ticked : Bool
  deriving DecidableEq, Repr

/-- A pair of cores (R329); its `LOCKED`, `HALT`, `BUSY` and `CATCHUP` bits stand in the `PAIR` page. -/
structure Pair where
  locked  : Bool
  halted  : Bool
  busy    : Bool
  req     : Option PairReq
  /-- A detected mismatch whose drain is not complete: its kind, the master address, and the FCNT and the DTB at detection (R340, R341). -/
  detect  : Option (Nat × Word × Word × Word)
  /-- The identity a halted pair presents to application-core pair 0 (R341). -/
  present : Option Word
  /-- A takeover in progress: the local pair that failed (R346). -/
  takeover : Option (Fin 4)
  catchUp : Option CatchUp
  deriving DecidableEq, Repr

/-- The interrupt controllers' state beside `SRC_CFG`: sources whose completion has not been resampled (R319),
as controller × 1024 + source, with the clock edge at which it is, and the clock edge at which a source began to pend (R326).
Controllers 0 to 7 are the local units, 8 the distributor. -/
structure Irq where
  resample : List (Nat × Nat)
  pendAt   : List (Nat × Nat)
  deriving DecidableEq, Repr

/-- What a flash bank is doing (R429 to R433): the running operation (0 none, 1 PROG, 2 ERASE), its address and words,
the suspended sector with the erase time it has run, a SUSPEND that waits, and the clock edge at which the operation or
its last resume began. -/
structure FlashBank where
  op     : Nat
  addr   : Nat
  words  : Nat
  susp   : Option Nat
  suspReq : Bool
  start  : Nat
  ran    : Nat
  deriving DecidableEq, Repr

/-- What a DMA channel is waiting for (R403, R404, R413). -/
inductive DmaPhase where
  | idle | fetch | run | burst | confirm
  deriving DecidableEq, Repr

/-- A DMA channel beside its registers: the descriptor begun, the running addresses, the bytes left, the burst in flight,
the bytes of it that have been read and how many of them are written, an edge request that waits, an abort that waits (from a
stop or not). -/
structure DmaCh where
  phase : DmaPhase
  cdesc : Nat
  w0    : Word
  len   : Nat
  src0  : Nat
  dst0  : Nat
  next  : Nat
  src   : Nat
  dst   : Nat
  left  : Nat
  burst : Nat
  got   : List Byte
  put   : Nat
  isLast : Bool
  req   : Bool
  abort : Option Bool
  deriving DecidableEq, Repr

/-- What waits for a retraining of the bridge (R19): a stop (true for one that STOP_ALL set off), a time message with its offset
in units of 2^-32 ns, a register access by page, one of `n` bytes or a write through BAR0, the status record of a DMA channel. -/
inductive BusWait where
  | stop (urgent : Bool)
  | time (ofs : Int)
  | write (i : Initiator) (m : Bool) (p : PageId) (off : Nat) (v mask : Word)
  | read (i : Initiator) (m : Bool) (p : PageId) (off : Nat)
  | hostWrite (p : PageId) (off n : Nat) (v : DWord)
  | readN (i : Initiator) (m : Bool) (p : PageId) (off n : Nat)
  | record (k : Fin 96) (a : Nat) (bs : List Byte)
  deriving DecidableEq, Repr

/-- The bridge (R17 to R20): replays of the unit in hand that failed, retrainings that failed in succession, whether the
lanes sleep, the clock edge of the last unit, the end of the hold time while the bridge is down, and what waits for the end of
a retraining, oldest first. -/
structure Bridge where
  replays  : Nat
  retrains : Nat
  asleep   : Bool
  lastUnit : Nat
  hold     : Option Nat
  waiting  : List BusWait
  deriving DecidableEq, Repr

/-- A reset in progress (R451): scope, number (engine, pair or cluster), whether a CORE reset names an
application-core pair. -/
structure ResetRun where
  scope : Nat
  num   : Nat
  ac    : Bool
  deriving DecidableEq, Repr

/-- The power controller: requests that wait (domain, target), the transition that runs (with the state it left), the domains of a wake that is
not complete (R445, R449); the clock edge at which each watchdog expires next (R454); the resets in progress; the SVN, key slot,
version and entry address of the image that runs (R470, R471); a die has been above 130 °C and not both lie below `MON_TWARN` yet (R450). -/
structure Power where
  queue  : List (Nat × Nat)
  busy   : Option (Nat × Nat × Nat)
  waking : List Nat
  wdAt   : Vector Nat 4
  resets : List ResetRun
  svn    : Nat
  kslot  : Nat
  fwver  : Word
  fwEntry : Nat
  hot    : Bool
  deriving DecidableEq, Repr

/-- An energy guard (R461 to R465): the products of the last samples, newest first, a cable check that runs (true:
it switches the guard on if it passes), and the exact time of the last sample. -/
structure Guard where
  win   : List Nat
  check : Option Bool
  samp  : Option Nat
  deriving DecidableEq, Repr

/-- A TLBI broadcast that waits for the other members (R393): its issuer, its form, ASID and address, and the members
that have not applied it yet. -/
structure Bcast where
  issuer : Fin 8
  form   : Nat
  asid   : Nat
  va     : Nat
  left   : List (Fin 8)
  deriving DecidableEq, Repr


/-- The security block beside its registers (19_security_lifecycle.md): the identity seed is drawn, the owner key slots,
the levels of the TMP pins, the digest being signed, that the last signing completed, the slot being extended with its `d` and the exact time of GO, a lifecycle
transition in progress with its owner digests, the trigger of the wipe that runs (R370). -/
structure Sec where
  seed    : Bool
  owner   : Vector (Option (BitVec 384)) 4
  pins    : BitVec 4
  signing : Option (BitVec 384)
  signed  : Bool
  ext     : Option (Fin 8 × BitVec 384 × Nat)
  lcNext  : Option (Nat × List (Option (BitVec 384)))
  wipeWhy : Nat
  deriving DecidableEq, Repr

/-- An HDM decoder (R496): host base, size and skip in bytes, interleave ways, its DPA once committed, and Error Not
Committed. -/
structure Hdm where
  base : Nat
  size : Nat
  skip : Nat
  ways : Nat
  dpa  : Option Nat
  err  : Bool
  deriving DecidableEq, Repr

/-- An event record (R498, R500): its handle, what it is (1 General Media, an uncorrectable DRAM error), the DPA, the time. -/
structure EvRec where
  handle : Nat
  kind   : Nat
  addr   : Nat
  ns     : DWord
  deriving DecidableEq, Repr

/-- An event log: its records, oldest first, and its overflow flag. -/
structure EvLog where
  recs : List EvRec
  ovf  : Bool
  deriving DecidableEq, Repr

/-- The CXL port (20_cxl_attachment.md): the MSI-X function mask and pending bits, the HDM decoders, the event logs, the
last handle, the bytes of an image transfer so far (slot, bytes), the mailbox's last answer (return code, payload, event
records), the clock edge at which the link went down, whether a stop for that loss has been set off. -/
structure Cxl where
  fnMask  : Bool
  pend    : BitVec 64
  hdm     : Vector Hdm 2
  logs    : Vector EvLog 4
  handle  : Nat
  xfer    : Option (Nat × Nat)
  code    : Nat
  out     : List Byte
  recs    : List EvRec
  downAt  : Nat
  ldDone  : Bool
  deriving DecidableEq, Repr

/-- A fetched command (R516): its queue, opcode, flags, identifier, buffer, parameters, the head index after its fetch, the
DTB time of its fetch, the byte offset of a field that is out of range (R517), whether it has started, that a step of it is
done which a later event completes, how many of its parameters it has worked off, and what it has put together for its buffer. -/
structure Cmd where
  q       : Fin 64
  opc     : Nat
  flags   : Nat
  cid     : Word
  dptr    : Nat
  dlen    : Nat
  p       : List Word
  sqh     : Nat
  ns      : DWord
  bad     : Option Nat
  started : Bool
  waits   : Bool
  prog    : Nat
  data    : List Byte
  deriving DecidableEq, Repr

/-- A command queue beside its control block (R512 to R515): the submission tail, the host's completion head, the device's
completion tail and phase, and the commands fetched and not complete, oldest first. -/
structure Queue where
  tail  : Nat
  head  : Nat
  ctail : Nat
  phase : Bool
  cmds  : List Cmd
  deriving DecidableEq, Repr

/-- A slot of the recipe library (R526): 0 empty, 1 loaded, 2 verified, 3 activation pending, 4 active; the bundle's
identifier, version, length and digest, and that it verified (R481). -/
structure LibSlot where
  state  : Nat
  rid    : Word
  rver   : Word
  len    : Nat
  digest : BitVec 384
  ok     : Bool
  deriving DecidableEq, Repr

/-- A staged activation (R531, R533): slot, MFN, the clusters it touches, those whose tick has carried it, the DTB at the
first such tick. -/
structure Staged where
  slot  : Fin 16
  mfn   : Nat
  mask  : BitVec 8
  done  : BitVec 8
  first : Option DWord
  deriving DecidableEq, Repr

/-- The trace capture unit (R535, R536): ring base and log2 of its size, sources, records after the trigger, trigger kind
and value, next record, trigger record, records left once triggered, records dropped since the last one written, the clock
edge from which the next record is not too fast (12.8 GB/s). -/
structure Trace where
  armed : Bool
  base  : Nat
  log2  : Nat
  src   : Word
  post  : Nat
  kind  : Nat
  arg   : Nat
  next  : Nat
  trig  : Option Nat
  left  : Option Nat
  lost  : Nat
  freeAt : Nat
  deriving DecidableEq, Repr

/-- The command firmware: its queues, the queue served last, the library, a staged activation. -/
structure CmdUnit where
  queues : Vector Queue 64
  last   : Nat
  lib    : Vector LibSlot 16
  staged : Option Staged
  deriving DecidableEq, Repr

/-- A device of the fabric as discovery found it (R543, R555). -/
structure FabDev where
  addr   : Nat
  hops   : Nat
  parent : Nat
  pport  : Nat
  serial : BitVec 128
  deriving DecidableEq, Repr

/-- Discovery in progress at the root (R555, R556): ports still to probe as (address, port), the probe in flight with the
clock edge it left at, the next free address. -/
structure Disc where
  todo  : List (Nat × Nat)
  probe : Option (Nat × Nat × Nat)
  next  : Nat
  fail  : Nat
  deriving DecidableEq, Repr

/-- A TC2 request (R569): who made it, its address, destination, `SEQ`, offset, the data of a write or none, tries, the clock
edge of the last, and a read's answer: none while it waits, then data, or nothing where it failed. -/
structure Tc2 where
  by_   : Initiator
  addr  : Nat
  dst   : Nat
  seq   : Nat
  off   : Nat
  size  : Nat
  data  : Option (List Byte)
  tries : Nat
  clk   : Nat
  ans   : Option (Option (List Byte))
  deriving DecidableEq, Repr

/-- The String fabric beside its registers: the `SEQ` of each frame type, broadcast frames seen (source, `SEQ`, clock edge),
devices and links in the topology, discovery, requests in flight, a stop that is resent (`SEQ`, times left, clock edge), the
DELAY exchange of each port (clock edge it began), receive slots that matched in this machine frame, transmit slots that have
sent in this machine frame, the answer of the last remote read, the ROOT strap, and the frames sent so far, newest first,
each with its port; the outcome of a discovery that ended (reason, devices). -/
structure Fabric where
  seq    : Vector Nat 16
  seen   : List (Nat × Nat × Nat)
  devs   : List FabDev
  links  : List FabLink
  disc   : Option Disc
  tc2    : List Tc2
  stop   : Option (Nat × Nat × Nat)
  delay  : Vector (Option Nat) 4
  delayAt : Vector (Option Nat) 4
  rxHit  : BitVec 16
  txDone : BitVec 16
  syncAt : Nat
  strap  : Bool
  sent   : List (Nat × Frame)
  result : Option (Nat × Nat)
  deriving DecidableEq, Repr


/-- The whole block. -/
structure State where
  /-- The commands that wait, first in, first out. -/
  pending  : List Instr
  /-- The answer to the last bus access (the model's own field). -/
  resp     : Resp
  /-- Draws of free values so far (the model's own field). -/
  free     : Nat
  time     : TimeBase
  /-- The registers of every page: key `regKey`, default the reset value. -/
  regs     : List (Nat × Word)
  /-- What the hardware set in registers in the last clock edges, for R9. -/
  hot      : List Hot
  /-- Each initiator's read snapshots (R38, R53 and the rules like them): default 0. -/
  snaps    : List (Nat × Word)
  /-- Memory: system physical addresses, default `memDflt`. -/
  mem      : List Host.Cell
  clusters : Vector Cluster 8
  /-- CE0 to CE63, then AC0 to AC7. -/
  cores    : Vector Core 72
  /-- Engine pairs 0 to 31, then application-core pairs 0 to 3. -/
  pairs    : Vector Pair 36
  irq      : Irq
  /-- ECC words of on-chip SRAM and DRAM that hold bit errors, by address: 0 none, `n + 1` a single error at bit `n`
  (200 more once a read has found it and its write-back waits), 100 uncorrectable; 1000 more per DRAM channel (R358, R359). -/
  ecc      : List (Nat × Nat)
  /-- ECC words of L2 lines that hold bit errors: the same, 300 for a clean line's uncorrectable error (R360). -/
  l2ecc    : List (Nat × Nat)
  /-- Flash code words, by offset / 16: bit 0 programmed, bits [3:1] bit errors, bit 4 damaged, bit 5 escaped detection. -/
  flsMark  : List (Nat × Nat)
  flash    : Vector FlashBank 5
  /-- Fallback reads that the controller has not recorded yet, by flash offset (R428). -/
  fbPend   : List Nat
  /-- Regions remapped, and remaps requested: key (unit × 65536 + region), how often (R367). -/
  remap    : List (Nat × Nat)
  remapPend : List (Nat × Nat)
  /-- By unit: one more than the DTB clock at which its last region test began (R364). -/
  btAt     : List (Nat × Nat)
  /-- Flash lines of 64 bytes that the data caches and the L2 hold, by number (R436). -/
  flsLines : List (Nat × List Byte)
  /-- By unit: its threshold was reached since its count was 0 (R358). -/
  thrHit   : List (Nat × Nat)
  /-- SDMA0 to SDMA31, then the channels of each cluster; the channel last granted, by engine (8 system) × 4 + priority. -/
  dma      : Vector DmaCh 96
  dmaGrant : List (Nat × Nat)
  bridge   : Bridge
  power    : Power
  guards   : Vector Guard 8
  /-- TLBI broadcasts in progress, oldest first. -/
  bcast    : List Bcast
  /-- The STOP_N pin is low. -/
  stopLow  : Bool
  sec      : Sec
  cxl      : Cxl
  cmd      : CmdUnit
  trace    : Trace
  fab      : Fabric
  /-- MSI-X vectors sent to the host so far, newest first; how often viral has been signalled (outputs of the part). -/
  msixOut  : List Nat
  viralOut : Nat
  deriving DecidableEq, Repr

/-! ## Reset -/

/-- A bank with its bases. -/
def Bank.init (dsb rsb : Word) : Bank :=
  ⟨[], [], 0, none, none, 0, dsb, dsb, rsb, rsb, 0⟩

/-- An empty checkpoint half. -/
def Ckpt.init : Ckpt := ⟨0, 0, 0, [], 0⟩

/-- A stopped engine (Table: Stack base reset values on engines; `PRED_MODE` 0x9). DESIGN CHOICE (log 13). -/
def Core.initCe : Core :=
  { running := false, halted := false, step1 := false, wfi := false, lockup := false, fresh := false, pc := 0, lastPc := 0
    status := 1, cause := 0, epc := 0, tval := 0, evecS := 0, evecM := 0, ssp := 0, ctxid := 0, dmode := 0, lvlrec := 0
    predMode := 9, pkeys := [], bar := none, hist := [], counters := [], targets := []
    direct := [], icache := [], first := none, entry := none
    bFg := Bank.init 0x8000 0x7C00, bTl := Bank.init 0x7800 0x7400, bS := Bank.init 0 0, bM := Bank.init 0 0
    bank := .tl, mframe := ⟨0, 0, 0, 0⟩, sInUse := false, mInUse := false, sNest := 0, fgRec := none, ctx := .idle, pre := none, ovrRecs := []
    tailGo := none, slot := none, sbuf := [], pend := [], nextId := 0, spq := [], fgClk := 0, fgFcnt := 0, fgEnded := false
    fgGone := false, fgDue := false, idleRet := false, bootHi := none
    ovrPend := none, ckptNow := false, ckpt0 := Ckpt.init, ckpt1 := Ckpt.init, ckptSel := false, ckptVal := false
    replay := [], tlb := [], walk := [] }

/-- A stopped application core: M with `STATUS` 0x0000_0803 (R285). DESIGN CHOICE (log 13). -/
def Core.initAc : Core :=
  { Core.initCe with
    status := 0x803, bFg := Bank.init 0 0, bTl := Bank.init 0 0, bank := .m, mInUse := true, ctx := .tail }

/-- A carrier that is stopped. -/
def Carrier.init : Carrier :=
  { phase := .stopped, ideal := 0, valley := 0, turn := 0, nextValley := 0, earliest := 0, stopPend := false, restart := none
    srstPend := false, ticked := false, tick := 0, nextTick := 0, lead := 0, deadlined := true, tickDtb := 0
    tickFcnt := 0, tickMfn := 0 }

/-- A channel after reset: every compare at 0x7F_FFFF (R77), outputs inactive, the pin not yet driven (R72). -/
def PwmCh.init : PwmCh :=
  { shU := 0x7FFFFF, shD := 0x7FFFFF, newU := none, newD := none, stale := false, imm := false, portU := none
    portD := none, ref := false, doneU := false, doneD := false, dtr := 0x0A00, dtf := 0x0A00, outH := false
    outL := false, dead := none, mode := .stopped, latched := false, cbc := false, safe := false, safeOvr := false
    safeSw := false, safeBack := false, relPend := false, ownerBack := false, polH := false, polL := false, driven := false }

/-- A generator after reset; the TRIP pins are at the level that `POL` = 0 calls inactive (high). -/
def Pwm.init : Pwm :=
  { ch := Vector.replicate 18 PwmCh.init, blk := Vector.replicate 4 none, tokBus := 0, tokEng := Vector.replicate 8 0
    perWritten := false, perByPort := false, perStale := false, perWait := false, flight := Vector.replicate 8 []
    late := [], overrun := 0, tripPin := 0xF }

/-- An idle converter core. -/
def AdcCore.init : AdcCore := ⟨none, 0, [], none, false⟩

/-- Empty sample tables. -/
def Smp.init : Smp :=
  { bank := false, bank0 := Vector.replicate 64 (0, 0), bank1 := Vector.replicate 64 (0, 0), chk := none, armed := none
    frame := none, fifo := [], recs := [], flight := Vector.replicate 8 [], subst := none, undOff := false, substRan := false
    qprev := Vector.replicate 64 none, route := ⟨⟨List.finRange 8⟩, by simp⟩ }

/-- A sigma-delta input that has sampled nothing. DESIGN CHOICE (log 13). -/
def SdmIn.init : SdmIn := ⟨0, [], 0, 0⟩

/-- A comparator that is off. DESIGN CHOICE (log 13). -/
def CmpUnit.init : CmpUnit := ⟨false, false, false, none, [], ⟨0, 0, 0⟩⟩

/-- The readback unit, idle. DESIGN CHOICE (log 13). -/
def Readback.init : Readback := ⟨none, none, false, false, 0, false, 0, 0, 0⟩

/-- A feedback group, its pins low. DESIGN CHOICE (log 13). -/
def Feedback.init : Feedback := ⟨0, [], none, none, 0, none⟩

/-- A cluster after reset, every analogue pin at 0 V. DESIGN CHOICE (log 13). -/
def Cluster.init : Cluster :=
  { car := Carrier.init, pwm := Pwm.init, adc := Vector.replicate 8 AdcCore.init, smp := Smp.init
    sdm := Vector.replicate 12 SdmIn.init, cmp := Vector.replicate 12 CmpUnit.init
    rb := Readback.init, fb := Vector.replicate 6 Feedback.init, ain := Vector.replicate 32 0, ckoAt := 0 }

/-- A split pair with nothing pending. DESIGN CHOICE (log 13). -/
def Pair.init : Pair := ⟨false, false, false, none, none, none, none, none⟩

/-- The time base at power-on: both parts 0 (R34). -/
def TimeBase.init : TimeBase :=
  { clk := 0, ns := 0, frac := 0, mfn := 0, mft := 0, mfp := 1000000, loadPend := false, lockRun := 0, lastMsg := 0, heldLost := false
    reacq := false, mfpDue := 0, past := [], ptmBusy := false, ptmLast := 0, ptmOfs := 0, ptmFirst := none }

/-- An idle DMA channel. DESIGN CHOICE (log 13). -/
def DmaCh.init : DmaCh :=
  { phase := .idle, cdesc := 0, w0 := 0, len := 0, src0 := 0, dst0 := 0, next := 0, src := 0, dst := 0, left := 0, burst := 0
    got := [], put := 0, isLast := false, req := false, abort := none }

/-- A guard that has sampled nothing. DESIGN CHOICE (log 13). -/
def Guard.init : Guard := ⟨[], none, none⟩

/-- An idle flash bank. DESIGN CHOICE (log 13). -/
def FlashBank.init : FlashBank := ⟨0, 0, 0, none, false, 0, 0⟩

/-- The seed of a part that ships PROVISIONED is drawn; no owner key (R473, R481); the TMP pins at the inactive level.
DESIGN CHOICE (log 12). -/
def Sec.init : Sec := ⟨true, Vector.replicate 4 none, 0xF, none, false, none, none, 0⟩

/-- The CXL port with no link. DESIGN CHOICE (log 13). -/
def Cxl.init : Cxl :=
  { fnMask := false, pend := 0, hdm := Vector.replicate 2 ⟨0, 0, 0, 0, none, false⟩, logs := Vector.replicate 4 ⟨[], false⟩
    handle := 1, xfer := none, code := 0, out := [], recs := [], downAt := 0, ldDone := false }

/-- A queue that is not enabled. -/
def Queue.init : Queue := ⟨0, 0, 0, true, []⟩

/-- Empty queues and an empty library. DESIGN CHOICE (log 13). -/
def CmdUnit.init : CmdUnit := ⟨Vector.replicate 64 Queue.init, 63, Vector.replicate 16 ⟨0, 0, 0, 0, 0, false⟩, none⟩

/-- The trace unit, not armed. DESIGN CHOICE (log 13). -/
def Trace.init : Trace := ⟨false, 0, 12, 0, 0, 0, 0, 0, none, none, 0, 0⟩

/-- No link, no address. DESIGN CHOICE (log 13). -/
def Fabric.init : Fabric :=
  { seq := Vector.replicate 16 0, seen := [], devs := [], links := [], disc := none, tc2 := [], stop := none
    delay := Vector.replicate 4 none, delayAt := Vector.replicate 4 none, rxHit := 0, txDone := 0, syncAt := 0, strap := false, sent := [], result := none }

/-- Right after power-on reset, before boot stage 1 (R456): application-core pair 0 is locked (R339) and not started. -/
def State.reset : State :=
  { pending := [], resp := .none, free := 0, time := TimeBase.init, regs := [], hot := [], snaps := [], mem := []
    clusters := Vector.replicate 8 Cluster.init
    cores := ⟨⟨List.replicate 64 Core.initCe ++ List.replicate 8 Core.initAc⟩, by simp⟩
    pairs := (Vector.replicate 36 Pair.init).set 32 { Pair.init with locked := true }
    irq := ⟨[], []⟩, ecc := [], l2ecc := [], flsMark := [], flash := Vector.replicate 5 FlashBank.init, fbPend := []
    remap := [], remapPend := [], btAt := [], flsLines := [], thrHit := [], dma := Vector.replicate 96 DmaCh.init, dmaGrant := []
    bridge := ⟨0, 0, false, 0, none, []⟩, power := ⟨[], none, [], Vector.replicate 4 0, [], 0, 0, 0, 0, false⟩
    guards := Vector.replicate 8 Guard.init, stopLow := false, bcast := []
    sec := Sec.init, cxl := Cxl.init, cmd := CmdUnit.init, trace := Trace.init, fab := Fabric.init, msixOut := [], viralOut := 0 }

end Sys2Proof.Machine
end

