-- ==== Sys2Proof/Machine/Ops.lean ====
section
/-! DEFINITION. The named operations over registers, time and clusters that every block uses: reading and writing a
register and its fields under their access types and the page lock (R7, R8, R13, R14), raising an event, counting
(R10), the snapshot latches (R38), and running the time base to an instant (R34). -/

namespace Sys2Proof.Machine

/-! ## Registers -/

/-- The number of a page kind. -/
def pageKindNo : PageKind → Nat
  | .dtb => 0 | .rst => 1 | .pwr => 2 | .eg => 3 | .sec => 4 | .fls => 5 | .sramSys => 6 | .ird => 7 | .ac => 8
  | .mmu => 9 | .pairSys => 10 | .sdma => 11 | .cxl => 12 | .cmd => 13 | .str => 14 | .strCommon => 15 | .frm => 16
  | .pwg0 => 17 | .pwg1 => 18 | .adc => 19 | .sdm => 20 | .smp => 21 | .cmp => 22 | .qdec => 23 | .cap => 24
  | .sep => 25 | .liu => 26 | .cdma => 27 | .pairC => 28 | .sramC => 29 | .ce => 30 | .qcb => 31 | .db => 32
  | .dvsec => 33 | .msix => 34

/-- All page kinds, in the order of their numbers. -/
def pageKinds : List PageKind :=
  [.dtb, .rst, .pwr, .eg, .sec, .fls, .sramSys, .ird, .ac, .mmu, .pairSys, .sdma, .cxl, .cmd, .str, .strCommon, .frm,
   .pwg0, .pwg1, .adc, .sdm, .smp, .cmp, .qdec, .cap, .sep, .liu, .cdma, .pairC, .sramC, .ce, .qcb, .db, .dvsec, .msix]

/-- The first key of a page in the register store. -/
def pageBase (p : PageId) : Nat := (pageKindNo p.kind * 256 + p.inst % 256) * 4096

/-- The key of a register in the register store. -/
def regKey (p : PageId) (off : Nat) : Nat := pageBase p + off % 4096

/-- What a register that is not listed in the register store holds: its reset value. -/
def regDflt (key : Nat) : Word :=
  w32 (regReset (pageKinds.getD (key / 1048576) .dtb) (key / 4096 % 256) (key % 4096))

/-- What a register holds. -/
def State.reg (s : State) (p : PageId) (off : Nat) : Word := sparseGet regDflt s.regs (regKey p off)

/-- Set a register to a value, whatever its access type: what the hardware itself does. -/
def State.setReg (s : State) (p : PageId) (off : Nat) (v : Word) : State :=
  { s with regs := sparseSet regDflt s.regs (regKey p off) v }

/-- Bits `[hi:lo]` of a register. -/
def State.fld (s : State) (p : PageId) (off hi lo : Nat) : Nat := bitsOf (s.reg p off) hi lo

/-- Bit `i` of a register. -/
def State.rbit (s : State) (p : PageId) (off i : Nat) : Bool := bitOf (s.reg p off) i

/-- Set bits `[hi:lo]` of a register. -/
def State.setFld (s : State) (p : PageId) (off hi lo v : Nat) : State :=
  s.setReg p off (putBits (s.reg p off) hi lo v)

/-- Set or clear bit `i` of a register. -/
def State.setBit (s : State) (p : PageId) (off i : Nat) (b : Bool) : State := s.setFld p off i i (b2n b)

/-- Return every register of a page's offsets `[a, b)` to its reset value. -/
def State.clearRegs (s : State) (p : PageId) (a b : Nat) : State :=
  { s with regs := sparseClear (pageBase p + a) (pageBase p + b) s.regs }

/-! Pages by name. -/

def pgDtb : PageId := ⟨.dtb, 0⟩
def pgRst : PageId := ⟨.rst, 0⟩
def pgPwr : PageId := ⟨.pwr, 0⟩
def pgMon : PageId := ⟨.pwr, 1⟩
def pgEg : PageId := ⟨.eg, 0⟩
def pgSec : PageId := ⟨.sec, 0⟩
def pgFls : PageId := ⟨.fls, 0⟩
def pgSramSys : PageId := ⟨.sramSys, 0⟩
def pgPairSys : PageId := ⟨.pairSys, 0⟩
def pgCxl : PageId := ⟨.cxl, 0⟩
def pgCmd : PageId := ⟨.cmd, 0⟩
def pgStr : PageId := ⟨.strCommon, 0⟩
def pgDvsec : PageId := ⟨.dvsec, 0⟩
def pgMsix : PageId := ⟨.msix, 0⟩
def pgFrm (c : Fin 8) : PageId := ⟨.frm, c⟩
def pgPwg0 (c : Fin 8) : PageId := ⟨.pwg0, c⟩
def pgPwg1 (c : Fin 8) : PageId := ⟨.pwg1, c⟩
def pgAdc (c : Fin 8) (j : Fin 8) : PageId := ⟨.adc, 8 * c + j⟩
def pgSdm (c : Fin 8) : PageId := ⟨.sdm, c⟩
def pgSmp (c : Fin 8) : PageId := ⟨.smp, c⟩
def pgCmp (c : Fin 8) : PageId := ⟨.cmp, c⟩
def pgQdec (c : Fin 8) : PageId := ⟨.qdec, c⟩
def pgCap (c : Fin 8) : PageId := ⟨.cap, c⟩
def pgSep (c : Fin 8) : PageId := ⟨.sep, c⟩
def pgLiu (c : Fin 8) : PageId := ⟨.liu, c⟩
def pgCdma (c : Fin 8) : PageId := ⟨.cdma, c⟩
def pgPairC (c : Fin 8) : PageId := ⟨.pairC, c⟩
def pgSramC (c : Fin 8) : PageId := ⟨.sramC, c⟩
def pgCe (e : Fin 64) : PageId := ⟨.ce, e⟩
def pgAc (a : Fin 8) : PageId := ⟨.ac, a⟩
def pgMmu (a : Fin 8) : PageId := ⟨.mmu, a⟩

/-! ## Clusters, cores, pairs -/

/-- Change one cluster. -/
def State.modC (s : State) (c : Fin 8) (f : Cluster → Cluster) : State :=
  { s with clusters := s.clusters.set c (f s.clusters[c]) }

/-- The index of a core among the 72: engines first. -/
def coreIdx : CoreId → Fin 72
  | .ce e => ⟨e, by omega⟩
  | .ac a => ⟨64 + a, by omega⟩

/-- A core's state. -/
def State.core (s : State) (c : CoreId) : Core := s.cores[coreIdx c]

/-- Change one core. -/
def State.modCore (s : State) (c : CoreId) (f : Core → Core) : State :=
  { s with cores := s.cores.set (coreIdx c) (f (s.core c)) }

/-- Engine `i` of cluster `c` (R3). -/
def engineOf (c : Fin 8) (i : Fin 8) : Fin 64 := ⟨8 * c + i, by omega⟩

/-- The cluster of an engine (R3). -/
def clusterOf (e : Fin 64) : Fin 8 := ⟨e / 8, by omega⟩

/-- The local index of an engine (R3). -/
def localOf (e : Fin 64) : Fin 8 := ⟨e % 8, by omega⟩

/-- A cluster from a page's instance number. -/
def clu (i : Nat) : Fin 8 := Fin.ofNat 8 i

/-- An engine from a page's instance number. -/
def eng (i : Nat) : Fin 64 := Fin.ofNat 64 i

/-- The pair of a core (R329): engine pairs 0 to 31, application-core pairs 32 to 35. -/
def pairOf : CoreId → Fin 36
  | .ce e => ⟨e / 2, by omega⟩
  | .ac a => ⟨32 + a / 2, by omega⟩

/-- The master of a pair. -/
def masterOf (k : Fin 36) : CoreId := if h : k.val < 32 then .ce ⟨2 * k, by omega⟩ else .ac ⟨2 * (k - 32), by omega⟩

/-- The checker of a pair. -/
def checkerOf (k : Fin 36) : CoreId :=
  if h : k.val < 32 then .ce ⟨2 * k + 1, by omega⟩ else .ac ⟨2 * (k - 32) + 1, by omega⟩

/-- Whether a core is the odd member of its pair. DEDUCED (log 32). -/
def isChecker : CoreId → Bool
  | .ce e => e.val % 2 == 1
  | .ac a => a.val % 2 == 1

/-- Change one pair. -/
def State.modPair (s : State) (k : Fin 36) (f : Pair → Pair) : State :=
  { s with pairs := s.pairs.set k (f s.pairs[k]) }

/-- The core runs as one half of a locked pair. -/
def State.locked (s : State) (c : CoreId) : Bool := s.pairs[pairOf c].locked

/-- The number of the power domain of a core (R31). -/
def coreDomain : CoreId → Nat
  | .ce e => e
  | .ac a => 104 + a

/-- Power domain `d` is on: `PWR_DOM.STATE` reads 3. -/
def State.domOn (s : State) (d : Nat) : Bool := s.fld pgPwr (Reg.PWR_DOM d) 1 0 == 3

/-! ## Events and counters -/

/-- The pages whose freeze action a halted core applies (R227): its own cluster's, or the system pages. -/
def pageCluster (p : PageId) : Option (Fin 8) :=
  match p.kind with
  | .frm | .pwg0 | .pwg1 | .sdm | .smp | .cmp | .qdec | .cap | .sep | .liu | .cdma | .pairC | .sramC => some (clu p.inst)
  | .adc | .ce => some (clu (p.inst / 8))
  | _ => none

/-- A page stands on the control die. -/
def pageControl (p : PageId) : Bool := (pageCluster p).isSome || p.kind == .dtb || p.kind == .eg || p.kind == .fls

/-- The power domain of a page, if it lies in one (R31). -/
def pageDomain (p : PageId) : Option Nat :=
  let c := p.inst % 8
  match p.kind with
  | .frm | .smp | .qdec | .cap | .sep | .liu | .cdma | .pairC | .sramC => some (64 + 5 * c)
  | .adc => some (65 + 5 * (p.inst / 8 % 8))
  | .sdm => some (65 + 5 * c)
  | .pwg0 | .pwg1 => some (66 + 5 * c)
  | .cmp => some (67 + 5 * c)
  | .ce => some (p.inst % 64)
  | .ac | .mmu => some (104 + c)
  | .str => some (120 + p.inst % 4)
  | .strCommon => some 124
  | .cxl | .qcb | .db | .dvsec | .msix => some 127
  | .sdma => some 137
  | .eg => some 145
  | .dtb | .rst | .pwr | .sec | .fls | .sramSys | .ird | .pairSys | .cmd => none

/-- The block of a page is powered. DEDUCED (log 42 and 47). -/
def State.pagePowered (s : State) (p : PageId) : Bool := match pageDomain p with | some d => s.domOn d | none => true

/-- A core whose debug scope includes the page is halted in debug. -/
def State.scopeHalted (s : State) (p : PageId) : Bool :=
  match pageCluster p with
  | some c => (List.finRange 8).any (fun (i : Fin 8) => (s.core (.ce (engineOf c i))).halted)
  | none => (List.finRange 8).any (fun (a : Fin 8) => (s.core (.ac a)).halted)

/-- The page's freeze action is in force: its event counters hold (R227). -/
def State.frozen (s : State) (p : PageId) : Bool := s.rbit p Reg.PAGE_CTL 2 && s.scopeHalted p

/-- DTB clock edges in a cycle of the clock that owns a page (R9): the 200 MHz PWM clock, the DTB clock, else 800 MHz. -/
def ownerClks (p : PageId) : Nat :=
  match p.kind with
  | .frm | .pwg0 | .pwg1 | .adc | .smp | .cmp => 8
  | .dtb => 1
  | _ => 2

/-- The hardware sets the bits of `m` in a register in this cycle of its owner's clock (R9). -/
def State.mark9 (s : State) (p : PageId) (off : Nat) (m : Word) : State :=
  { s with hot := ⟨regKey p off, m, s.time.clk⟩ :: s.hot.filter (fun h => decide (s.time.clk < h.clk + 8)) }

/-- The bits of a register that the hardware has set in the present cycle of its owner's clock (R9). -/
def State.hotBits (s : State) (p : PageId) (off : Nat) : Word :=
  s.hot.foldl (fun w h => if h.key = regKey p off ∧ h.clk / ownerClks p = s.time.clk / ownerClks p then w ||| h.bits else w) 0

/-- The hardware sets a sticky bit that software clears by writing 1. -/
def State.stick (s : State) (p : PageId) (off i : Nat) : State := (s.setBit p off i true).mark9 p off (1 <<< i)

/-- Raise the event of bit `b` of a page. -/
def State.raise (s : State) (p : PageId) (b : Nat) : State := s.stick p Reg.PAGE_IRQ_STAT b

/-- Raise an event if a condition holds. -/
def State.raiseIf (s : State) (c : Bool) (p : PageId) (b : Nat) : State := if c then s.raise p b else s

/-- Count one event in the counter `[hi:lo]` of a register: it saturates at all-ones, and an event that finds it there
sets the overflow bit just above (R10). A frozen page's counters hold (R227). -/
def State.count (s : State) (p : PageId) (off hi lo : Nat) : State :=
  if s.frozen p then s
  else (if s.fld p off hi lo = 2 ^ (hi - lo + 1) - 1 then s.setBit p off (hi + 1) true
    else s.setFld p off hi lo (s.fld p off hi lo + 1)).mark9 p off (1 <<< lo)

/-! ## Bus writes -/

/-- The lanes of a write that fall into a field. -/
def Field.lanes (f : Field) (mask : Word) : Word := mask &&& maskOf f.hi f.lo

/-- Apply a write to one field (R8, R10): `acc` is the register so far. -/
def Field.write (f : Field) (fs : List Field) (locked : Bool) (v mask acc : Word) : Word :=
  let l := f.lanes mask
  match f.ty with
  | .rw => (acc &&& ~~~ l) ||| (v &&& l)
  | .rwl => if locked then acc else (acc &&& ~~~ l) ||| (v &&& l)
  | .w1c => acc &&& ~~~ (v &&& l)
  | .w1s => acc ||| (v &&& l)
  | .ovf =>
    if v &&& l = 0 then acc
    else match fs.find? (fun g => g.hi + 1 == f.lo) with
      | some g => acc &&& ~~~ maskOf f.hi g.lo
      | none => acc &&& ~~~ l
  | .ro | .wo | .rc => acc

/-- Apply a write to every field of a register. -/
def fieldsWrite (fs : List Field) (locked : Bool) (v mask old : Word) : Word :=
  fs.foldl (fun acc f => f.write fs locked v mask acc) old

/-- What a write clears: the W1C bits written 1, and a counter with its overflow bit (R8, R10). -/
def clearMask (fs : List Field) (v mask : Word) : Word :=
  fs.foldl (fun acc f =>
    let l := v &&& f.lanes mask
    match f.ty with
    | .w1c => acc ||| l
    | .ovf => if l = 0 then acc else match fs.find? (fun g => g.hi + 1 == f.lo) with
      | some g => acc ||| maskOf f.hi g.lo
      | none => acc ||| l
    | _ => acc) 0

/-- What stays set where a clearing access meets what the hardware set in the same cycle: a W1C bit stays set, a counter ends
at 1 (R9). Whether the access, after its crossing into the owner's clock, still takes part in that cycle is a free value. -/
def State.keptBits (s : State) (p : PageId) (off : Nat) (cleared : Word) : State × Word :=
  let h := s.hotBits p off &&& cleared
  if h = 0 then (s, 0) else ({ s with free := s.free + 1 }, if Config.crossesLater s.free then 0 else h)

/-- The write would have changed an RWL field (R14). -/
def lockHit (fs : List Field) (v mask old : Word) : Bool :=
  fs.any (fun f => f.ty == .rwl && decide ((old ^^^ v) &&& f.lanes mask ≠ 0))

/-- A bus write to a register under its field types and the page lock, without what the block does on top (R8, R14). -/
def State.busReg (s : State) (p : PageId) (off : Nat) (v mask : Word) : State :=
  match regAt p.kind p.inst off with
  | none => s
  | some d =>
    let locked := s.rbit p Reg.PAGE_LOCK 0
    let old := s.reg p off
    let k := s.keptBits p off (clearMask d.fields v mask)
    let s1 := k.1.setReg p off (fieldsWrite d.fields locked v mask old ||| k.2)
    if locked && lockHit d.fields v mask old then s1.stick p Reg.PAGE_STAT 1 else s1

/-- A write of a locked page that a block turns away before its fields are written sets `LOCKWR` all the same (R14). -/
def State.lockMark (s : State) (p : PageId) (off : Nat) (v mask : Word) : State :=
  match regAt p.kind p.inst off with
  | none => s
  | some d => if s.rbit p Reg.PAGE_LOCK 0 && lockHit d.fields v mask (s.reg p off) then s.stick p Reg.PAGE_STAT 1 else s

/-- What a bus read of a stored register returns: write-only and W1S fields read 0 (R8). -/
def readMask (fs : List Field) : Word :=
  fs.foldl (fun acc f => match f.ty with
    | .wo | .w1s => acc
    | _ => acc ||| maskOf f.hi f.lo) 0

/-- A bus read of a stored register (R7, R8). -/
def State.busRead (s : State) (p : PageId) (off : Nat) : Word :=
  match regAt p.kind p.inst off with
  | none => 0
  | some d => s.reg p off &&& readMask d.fields

/-! ## Snapshots -/

/-- The number of an initiator's snapshot latch (R38): each engine, each application core, the host, the system DMA,
each cluster DMA; fabric and debug accesses have none of their own and use the last two. -/
def snapNo : Initiator → Nat
  | .core (.ce e) => e
  | .core (.ac a) => 64 + a
  | .host => 72
  | .sdma _ => 73
  | .cdma c _ => 74 + c
  | .fabric => 82
  | .debug => 83

/-- The key of a snapshot: the initiator's latch beside the register. -/
def snapKey (i : Initiator) (p : PageId) (off : Nat) : Nat := snapNo i * 268435456 + regKey p off

/-- Forget every initiator's snapshots of a page. -/
def State.clearSnaps (s : State) (p : PageId) : State :=
  { s with snaps := s.snaps.filter (fun e => decide (e.1 % 268435456 / 4096 ≠ pageBase p / 4096)) }

/-- An initiator's snapshot of a register, 0 if there has been none. -/
def State.snap (s : State) (i : Initiator) (p : PageId) (off : Nat) : Word :=
  sparseGet (fun _ => 0) s.snaps (snapKey i p off)

/-- Store an initiator's snapshot of a register. -/
def State.setSnap (s : State) (i : Initiator) (p : PageId) (off : Nat) (v : Word) : State :=
  { s with snaps := sparseSet (fun _ => 0) s.snaps (snapKey i p off) v }

/-! ## Time -/

/-- The DTB as one number, in units of 2^-32 ns (R34). -/
def State.dtb (s : State) : Nat := s.time.ns.toNat * 2 ^ 32 + s.time.frac.toNat

/-- The increment in use (R35). -/
def State.inc (s : State) : Nat := (s.reg pgDtb Reg.DTB_INC).toNat

/-- The present instant in delay-line steps since power-on. -/
def State.now (s : State) : Nat := s.time.clk * Config.stepsPerClk

/-- Set the DTB from one number in units of 2^-32 ns. -/
def TimeBase.setDtb (t : TimeBase) (v : Nat) : TimeBase :=
  { t with ns := BitVec.ofNat 64 (v / 2 ^ 32), frac := BitVec.ofNat 32 v }

/-- The count is about to change other than by counting: what it has been up to this clock edge (R39). -/
def State.dtbPast (s : State) : State :=
  { s with time := { s.time with past := (s.time.clk, s.dtb, s.inc) :: s.time.past.filter (fun e => decide (s.time.clk < e.1 + 8)) } }

/-- The DTB as it stood `n` clock edges ago (n ≤ 8), in units of 2^-32 ns (R39). -/
def State.dtbBack (s : State) (n : Nat) : Nat :=
  let t := s.time.clk - n
  let x := ((s.time.past.filter (fun e => decide (t < e.1))).getLast?).getD (s.time.clk, s.dtb, s.inc)
  (x.2.1 + 2 ^ 96 - (x.1 - t) * x.2.2) % 2 ^ 96

/-- Let `n` edges of the DTB clock pass: each adds the increment, and passing 2^64 ns raises `DTB_WRAP` (R34, R37).
DESIGN CHOICE (log 1). -/
def State.edges (s : State) (n : Nat) : State :=
  let v := s.dtb + n * s.inc
  let s1 := { s with time := { s.time.setDtb v with clk := s.time.clk + n } }
  s1.raiseIf (decide (2 ^ 96 ≤ v)) pgDtb 0

/-- Let time pass up to the exact instant `t` (in steps), if it lies ahead. DESIGN CHOICE (log 1). -/
def State.advance (s : State) (t : Nat) : State := s.edges (t / Config.stepsPerClk - s.time.clk)

/-- The DTB, in units of 2^-32 ns, at the exact instant `t` under the increment in use. -/
def State.dtbAt (s : State) (t : Nat) : Nat :=
  (((s.dtb : Int) + ((t : Int) - (s.now : Int)) * (s.inc : Int) / 16) % (2 ^ 96 : Int)).toNat

/-- The exact instant nearest to now at which the DTB reads `v` (in units of 2^-32 ns, modulo its wrap), to the nearest step. -/
def State.timeOf (s : State) (v : Nat) : Nat :=
  let d : Int := ((v : Int) - (s.dtb : Int)) % (2 ^ 96 : Int)
  let d := if (2 ^ 95 : Int) ≤ d then d - 2 ^ 96 else d
  ((s.now : Int) + roundDiv (d * 16) s.inc).toNat

/-- The PWM clock edge at or before an exact instant (R42). -/
def pwmFloor (t : Nat) : Nat := t / Config.stepsPerPwm * Config.stepsPerPwm

/-- The PWM clock edge at or after an exact instant. DEDUCED (log 38). -/
def pwmCeil (t : Nat) : Nat := (t + (Config.stepsPerPwm - 1)) / Config.stepsPerPwm * Config.stepsPerPwm

/-- `n` nanoseconds in steps, to the step below. -/
def nsSteps (n : Nat) : Nat := n * Config.nsSteps5 / 5

/-! ## The bridge (R17 to R20) -/

/-- Change the bridge. -/
def State.modBridge (s : State) (f : Bridge → Bridge) : State := { s with bridge := f s.bridge }

/-- The bridge is declared down (R20). -/
def State.bridgeIsDown (s : State) : Bool := s.rbit pgRst Reg.RST_BRG_STAT 0

/-- The bridge retrains, and traffic waits (R19). -/
def State.bridgeTrains (s : State) : Bool := s.rbit pgRst Reg.RST_BRG_STAT 1 && !s.bridgeIsDown

/-- A unit crosses the bridge: sleeping lanes wake (R18). -/
def State.cross (s : State) : State := s.modBridge (fun b => { b with asleep := false, lastUnit := s.time.clk })

/-- Something waits for the end of a retraining (R19). -/
def State.busWait (s : State) (w : BusWait) : State := s.modBridge (fun b => { b with waiting := b.waiting ++ [w] })

/-! ## Answers and free values -/

/-- What the initiator of a bus access is told where it fails (R26). DESIGN CHOICE (log 2). -/
def busFail (i : Initiator) : Resp := match i with | .host => .abort | _ => .busError

/-- Answer a bus access with data. DESIGN CHOICE (log 2). -/
def State.answer (s : State) (v : DWord) : State := { s with resp := .data v }

/-- Answer a bus access with a word. DESIGN CHOICE (log 2). -/
def State.answerW (s : State) (v : Word) : State := s.answer (v.setWidth 64)

/-- One free value has been drawn. DESIGN CHOICE (log 3). -/
def State.draw (s : State) : State := { s with free := s.free + 1 }

end Sys2Proof.Machine
end

