-- ==== Sys2Proof/Machine/Memory.lean ====
section
/-! DEFINITION. Memory bytes and the ECC of the on-chip memories and DRAM (14_onchip_memory.md, R355 to R373): the unit of
an address, checked reads and writes, error injection, the background test, spare rows, initialisation, vault wipe. -/

namespace Sys2Proof.Machine

/-! ## Bytes -/

/-- What a byte that nothing has written reads as: erased flash is all ones (R424), every other memory is zero (R369).
DESIGN CHOICE (log 4). -/
def memDflt (a : Nat) : Byte := if 0x4000000 ≤ a ∧ a ≤ 0x57FFFFF then 0xFF else 0

/-- The byte at a system physical address. -/
def State.byteAt (s : State) (a : Nat) : Byte := sparseGet memDflt s.mem a

/-- Store a byte. -/
def State.setByte (s : State) (a : Nat) (b : Byte) : State := { s with mem := sparseSet memDflt s.mem a b }

/-- `n` bytes from an address up. -/
def State.bytesAt (s : State) (a n : Nat) : List Byte := (List.range n).map (fun i => s.byteAt (a + i))

/-- Store bytes from an address up. -/
def State.setBytes (s : State) (a : Nat) : List Byte → State
  | [] => s
  | b :: t => (s.setByte a b).setBytes (a + 1) t

/-- `n` bytes read as a little-endian number (R6). -/
def State.numAt (s : State) (a n : Nat) : Nat := leNat (s.bytesAt a n)

/-- Store a number as `n` little-endian bytes (R6). -/
def State.setNum (s : State) (a n v : Nat) : State := s.setBytes a (leBytes n v)

/-- Return the bytes of `[a, b)` to zero: what an unlisted byte outside the flash reads as. -/
def State.zeroBytes (s : State) (a b : Nat) : State := { s with mem := sparseClear a b s.mem }

/-! ## Units (R355, Table: Unit numbers) -/

/-- A memory unit: its `SRAM` page, its number, the address of its array, its size, its ECC word in bytes. -/
structure MemUnit where
  page : PageId
  u    : Nat
  base : Nat
  size : Nat
  word : Nat
  deriving DecidableEq, Repr

/-- Base of a cluster window (R24). -/
def clusterBase (c : Nat) : Nat := 0x8000000 + c * 0x1000000

/-- The system physical address of engine `e`'s LSRAM. -/
def lsramBase (e : Fin 64) : Nat := clusterBase (e / 8) + 0x100000 + (e.val % 8) * 0x8000

/-- The unit that holds an address, if an on-chip memory with addresses does. -/
def unitOf (a : Nat) : Option MemUnit :=
  if 0x1000000 ≤ a ∧ a < 0x1800000 then
    let u := (a - 0x1000000) / 0x100000
    some ⟨pgSramSys, u, 0x1000000 + u * 0x100000, 0x100000, 8⟩
  else if 0x2000000 ≤ a ∧ a < 0x2040000 then some ⟨pgSramSys, 16, 0x2000000, 0x40000, 8⟩
  else if 0x8000000 ≤ a ∧ a < 0x10000000 then
    let c := (a - 0x8000000) / 0x1000000
    let o := a % 0x1000000
    if o < 0x80000 then some ⟨pgSramC (clu c), 8, clusterBase c, 0x80000, 4⟩
    else if 0x100000 ≤ o ∧ o < 0x140000 then
      let i := (o - 0x100000) / 0x8000
      some ⟨pgSramC (clu c), i, clusterBase c + 0x100000 + i * 0x8000, 0x8000, 4⟩
    else none
  else none

/-- The array of a unit of a page, by its number; units without addresses (checkpoint slots, L2 slices) have none. -/
def unitNo (p : PageId) (u : Nat) : Option MemUnit :=
  match p.kind with
  | .sramC => if u < 8 then unitOf (lsramBase (engineOf (clu p.inst) (clu u))) else if u = 8 then unitOf (clusterBase p.inst) else none
  | _ => if u < 8 then unitOf (0x1000000 + u * 0x100000) else if u = 16 then unitOf 0x2000000 else none

/-- Regions of 64 bytes of a unit (R364). -/
def unitRegions (p : PageId) (u : Nat) : Nat :=
  match p.kind with
  | .sramC => if u < 8 then 512 else if u = 8 then 8192 else 260
  | _ => if u < 8 then 16384 else if u < 16 then 8192 else 4096

/-- Spare rows of a unit (R355). -/
def unitSpares (p : PageId) (u : Nat) : Nat := unitSparesOf p.kind u

/-- A number for each unit. -/
def unitKey (p : PageId) (u : Nat) : Nat := (if p.kind == .sramC then p.inst else 8) * 32 + u

/-- The port of an access, numbered as `SRAM_WLOST` (R356, R372): an engine of the cluster, the cluster DMA in its own
scratchpad, else the system port. -/
def portOf (i : Initiator) (m : MemUnit) : Nat :=
  if m.page.kind = .sramC then
    match i with
    | .core (.ce e) => if (clusterOf e).val = m.page.inst ∧ (m.u = 8 ∨ m.u = (localOf e).val) then localOf e else 9
    | .cdma c _ => if c.val = m.page.inst ∧ m.u = 8 then 8 else 9
    | _ => 9
  else 9

/-! ## ECC (R357 to R361) -/

/-- Record and count an error of a unit (R358, R359, R361): the threshold is reported once, until `CECNT` has been cleared. -/
def State.eccRecord (s : State) (p : PageId) (u ofs : Nat) (unc : Bool) (src bit port : Nat) : State :=
  let s1 :=
    if s.rbit p (Reg.SRAM_U_ERRINFO u) 0 then s
    else ((s.setReg p (Reg.SRAM_U_ERRADDR u) (w32 ofs)).setReg p (Reg.SRAM_U_ERRINFO u)
      (w32 (1 + 2 * b2n unc + 4 * src + 16 * (if unc then 0 else bit) + 4096 * port))).mark9 p (Reg.SRAM_U_ERRINFO u) 1
  if unc && src != 3 then (s1.count p (Reg.SRAM_U_UECNT u) 15 0).raise p 1
  else
    let s2 := s1.count p (Reg.SRAM_U_CECNT u) 15 0
    let key := unitKey p u
    let hit := s.fld p (Reg.SRAM_U_CECNT u) 15 0 != 0 && sparseGet (fun _ => 0) s.thrHit key != 0
    let now := hit || (!s.frozen p && decide (max 1 (s2.fld p (Reg.SRAM_U_THR u) 15 0) ≤ s2.fld p (Reg.SRAM_U_CECNT u) 15 0))
    ({ s2 with thrHit := sparseSet (fun _ => 0) s2.thrHit key (b2n now) }).raiseIf (now && !hit) p 0

/-- The mark of an ECC word. -/
def State.mark (s : State) (k : Nat) : Nat := sparseGet (fun _ => 0) s.ecc k

/-- Set the mark of an ECC word. -/
def State.setMark (s : State) (k v : Nat) : State := { s with ecc := sparseSet (fun _ => 0) s.ecc k v }

/-- One ECC word of a unit is read or merged: the error found is counted; true where it is uncorrectable. -/
def State.eccWord (s : State) (m : MemUnit) (k : Nat) (merge : Bool) (port : Nat) : State × Bool :=
  let v := s.mark k
  if v = 0 then (s, false)
  else if v = 100 then (s.eccRecord m.page m.u (k - m.base) true (if merge then 1 else 0) 0 port, true)
  else
    let bit := (v - 1) % 200
    ((s.eccRecord m.page m.u (k - m.base) false (if merge then 1 else 0) bit port).setMark k (201 + bit), false)

/-- The DRAM error that a read of an 8-byte word finds (R373): counted by its channel. -/
def State.dramWord (s : State) (k : Nat) : State × Bool :=
  let v := s.mark k
  if v = 0 then (s, false)
  else
    let ch := v / 1000
    let unc := v % 1000 == 100
    let p := pgSramSys
    let s1 := if unc then (s.count p (Reg.SRAM_DRAM_UCNT ch) 15 0).raise p 7 else s.count p (Reg.SRAM_DRAM_CNT ch) 15 0
    let s2 := if s.rbit p (Reg.SRAM_DRAM_ADDR_HI ch) 15 then s1
      else ((s1.setReg p (Reg.SRAM_DRAM_ADDR_LO ch) (w32 k)).setReg p (Reg.SRAM_DRAM_ADDR_HI ch)
        (w32 (k / 2 ^ 32 % 2 ^ 14 + 2 ^ 14 * b2n unc + 2 ^ 15))).mark9 p (Reg.SRAM_DRAM_ADDR_HI ch) 0x8000
    (s2, unc)

/-- The ECC words that `[a, a + n)` touches, for words of `w` bytes. -/
def eccWords (a n w : Nat) : List Nat :=
  if n = 0 then [] else (List.range ((a + n - 1) / w - a / w + 1)).map (fun i => (a / w + i) * w)

/-- Check the ECC words that a read touches; true where one is uncorrectable (R357 to R359, R373). -/
def State.eccRead (s : State) (i : Initiator) (a n : Nat) : State × Bool :=
  match unitOf a with
  | some m => (eccWords a n m.word).foldl (fun (x : State × Bool) k =>
      let u := (unitOf k).getD m
      let y := x.1.eccWord u k false (portOf i u)
      (y.1, x.2 || y.2)) (s, false)
  | none =>
    if 0x1000000000 ≤ a ∧ a < 0x3000000000 then
      (eccWords a n 8).foldl (fun (x : State × Bool) k => let y := x.1.dramWord k; (y.1, x.2 || y.2)) (s, false)
    else (s, false)

/-- Store the bytes of one ECC word: whole, or merged; a merge into an uncorrectable word is lost. `INJ` puts its error
into the first word written (R357, R359, R361). -/
def State.eccStore (s : State) (m : MemUnit) (i : Initiator) (k a : Nat) (bs : List Byte) : State × Bool :=
  let whole := decide (a ≤ k ∧ k + m.word ≤ a + bs.length)
  let x := if whole then (s, false) else s.eccWord m k true (portOf i m)
  if x.2 then x
  else
    let lo := max a k
    let hi := min (a + bs.length) (k + m.word)
    let s1 := x.1.setBytes lo ((bs.drop (lo - a)).take (hi - lo))
    let inj := s.fld m.page (Reg.SRAM_U_INJ m.u) 1 0
    if inj = 1 then ((s1.setMark k (1 + 8 * m.word)).setReg m.page (Reg.SRAM_U_INJ m.u) 0, false)
    else if inj = 2 then ((s1.setMark k 100).setReg m.page (Reg.SRAM_U_INJ m.u) 0, false)
    else (s1.setMark k 0, false)

/-- Write bytes to memory; true where a part of the write was lost to an uncorrectable word (R359, R262). -/
def State.eccWrite (s : State) (i : Initiator) (a : Nat) (bs : List Byte) : State × Bool :=
  match unitOf a with
  | some m => (eccWords a bs.length m.word).foldl (fun (x : State × Bool) k =>
      let y := x.1.eccStore ((unitOf k).getD m) i k a bs
      (y.1, x.2 || y.2)) (s, false)
  | none =>
    if 0x1000000000 ≤ a ∧ a < 0x3000000000 then
      (eccWords a bs.length 8).foldl (fun (x : State × Bool) k =>
        let whole := decide (a ≤ k ∧ k + 8 ≤ a + bs.length)
        let y := if whole then (x.1, false) else x.1.dramWord k
        if y.2 then (y.1, true)
        else
          let lo := max a k
          let hi := min (a + bs.length) (k + 8)
          ((y.1.setBytes lo ((bs.drop (lo - a)).take (hi - lo))).setMark k 0, x.2)) (s, false)
    else (s.setBytes a bs, false)

/-- A write that loses a same-cycle conflict is discarded and counted (R362). DEDUCED (log 46). -/
def State.writeLost (s : State) (i : Initiator) (a : Nat) : State :=
  match unitOf a with
  | some m =>
    let p := m.page
    if p.kind = .sramC then
      (if m.u = 8 then s.count p (Reg.SRAM_WLOST (portOf i m)) 15 0 else s.count p (Reg.SRAM_U_WLOST m.u) 15 0).raise p 4
    else s
  | none => s

/-- A corrected word is written back (R358). -/
def State.eccWriteback (s : State) (k : Nat) : State :=
  let v := s.mark k
  if 201 ≤ v ∧ v < 300 then s.setMark k 0 else s

/-- Bits of a stored word flip (R358, R359): `bit` alone, or two or more. A second single error makes two. -/
def State.eccFlip (s : State) (a : Nat) (bit : Nat) (many : Bool) : State :=
  match unitOf a with
  | some m =>
    let k := a / m.word * m.word
    s.setMark k (if many || s.mark k != 0 then 100 else 1 + min bit (if m.word = 4 then 38 else 71))
  | none =>
    if 0x1000000000 ≤ a ∧ a < 0x3000000000 then
      let k := a / 8 * 8
      s.setMark k ((if many || s.mark k != 0 then 100 else 1) + 1000 * b2n (Config.dramCh (a / 64)))
    else s

/-! ## L2 lines (R360) -/

/-- The L2 slice of an address (system die, R27). DEDUCED (log 59). -/
def l2Slice (a : Nat) : Nat := a / 64 % 8

/-- Normal memory (R24): the boot ROM, system SRAM, flash, DRAM and host memory. The rest is device regions, of which the L2 holds
no line (R27). -/
def isNormal (a : Nat) : Bool :=
  decide (a < 0x40000) || decide (0x1000000 ≤ a ∧ a < 0x1800000) || decide (0x4000000 ≤ a ∧ a < 0x5800000)
    || decide (0x1000000000 ≤ a ∧ a < 0x3000000000) || decide (0x4000000000 ≤ a ∧ a < 0x400000000000)

/-- An L2 slice holds the line of an address: lines of a slice that is not ON bypass the L2 (R446). -/
def State.l2On (s : State) (a : Nat) : Bool := s.domOn (112 + l2Slice a)

/-- A slice goes off and writes its lines back (R446): a dirty line's uncorrectable word stays so in memory. DEDUCED (log 59). -/
def State.l2Drop (s : State) (k : Nat) : State :=
  (s.l2ecc.filter (fun e => l2Slice e.1 == k && e.2 == 100)).foldl (fun (t : State) e => t.eccFlip e.1 0 true)
    { s with l2ecc := s.l2ecc.filter (fun e => l2Slice e.1 != k) }

/-- Host memory is cached, by CXL.cache, while the link is in CXL mode and the host sets Cache_Enable (R490, R499). -/
def State.hostCached (s : State) : Bool := s.rbit pgCxl Reg.CXL_STAT 0 && s.rbit pgCxl Reg.CXL_STAT 1 && s.rbit pgCxl Reg.CXL_STAT 9

/-- Bits of an L2 line's word flip; no line holds an address of a device region (R27). DEDUCED (log 59). -/
def State.l2Flip (s : State) (a : Nat) (bit : Nat) (many dirty : Bool) : State :=
  if !isNormal a || !s.l2On a || (decide (0x4000000000 ≤ a) && !s.hostCached) then s else
  let k := a / 8 * 8
  let old := sparseGet (fun _ => 0) s.l2ecc k
  { s with l2ecc := sparseSet (fun _ => 0) s.l2ecc k (if many || old != 0 then (if dirty then 100 else 300) else 1 + min bit 71) }

/-- A read that the L2 serves: a clean line's uncorrectable error is refetched, a dirty one follows R359 (R360). DEDUCED (log 59). -/
def State.l2Read (s : State) (a n : Nat) : State × Bool :=
  (eccWords a n 8).foldl (fun (x : State × Bool) k =>
    let v := if x.1.l2On k then sparseGet (fun _ => 0) x.1.l2ecc k else 0
    let u := 8 + l2Slice k
    let clear := { x.1 with l2ecc := sparseSet (fun _ => 0) x.1.l2ecc k 0 }
    if v = 0 then x
    else if v = 300 then (clear.eccRecord pgSramSys u (k % 0x80000) true 3 0 9, x.2)
    else if v = 100 then (x.1.eccRecord pgSramSys u (k % 0x80000) true 0 0 9, true)
    else (clear.eccRecord pgSramSys u (k % 0x80000) false 0 (v - 1) 9, x.2)) (s, false)

/-- A write through the L2 covers whole words of its lines. DEDUCED (log 59). -/
def State.l2Write (s : State) (a n : Nat) : State :=
  { s with l2ecc := s.l2ecc.filter (fun e => !decide (a ≤ e.1 ∧ e.1 + 8 ≤ a + n)) }

/-- One ECC word of an L2 line is stored to, whole or merged (R357, R360): a merge into a dirty line's uncorrectable word is lost, a clean one is
refetched first; `INJ` of the slice puts its error into the first word written (R361). True where it is lost. DEDUCED (log 59). -/
def State.l2Store (s : State) (k : Nat) (whole : Bool) : State × Bool :=
  let v := sparseGet (fun _ => 0) s.l2ecc k
  let u := 8 + l2Slice k
  let p := pgSramSys
  if !s.l2On k then (s, false)
  else if !whole && v == 100 then (s.eccRecord p u (k % 0x80000) true 1 0 9, true)
  else
    let s1 := if whole || v == 0 then s
      else if v = 300 then s.eccRecord p u (k % 0x80000) true 3 0 9
      else s.eccRecord p u (k % 0x80000) false 1 (v - 1) 9
    let inj := s.fld p (Reg.SRAM_U_INJ u) 1 0
    let s2 := if inj = 0 then s1 else s1.setReg p (Reg.SRAM_U_INJ u) 0
    ({ s2 with l2ecc := sparseSet (fun _ => 0) s2.l2ecc k (if inj = 1 then 65 else if inj = 2 then 100 else 0) }, false)

/-! ## Background test and spare rows (R364 to R368) -/

/-- How often a region has been remapped. -/
def State.remapped (s : State) (p : PageId) (u r : Nat) : Nat := sparseGet (fun _ => 0) s.remap (unitKey p u * 65536 + r)

/-- Replace a region by a spare row, if one is free (R366, R367): true where it was. -/
def State.takeSpare (s : State) (p : PageId) (u r : Nat) : State × Bool :=
  let free := s.fld p (Reg.SRAM_U_STAT u) 12 8
  if free = 0 then (s, false)
  else ({ s with remap := sparseSet (fun _ => 0) s.remap (unitKey p u * 65536 + r) (s.remapped p u r + 1) }.setFld p
    (Reg.SRAM_U_STAT u) 12 8 (free - 1), true)

/-- A region is under test. -/
def State.testing (s : State) (p : PageId) (u r : Nat) : Bool :=
  s.rbit p (Reg.SRAM_U_STAT u) 0 && s.fld p (Reg.SRAM_U_STAT u) 31 16 == r

/-- A remap of a region is refused (R367): no spare row is free, or one already replaces the region, which has not failed since. -/
def State.remapFull (s : State) (p : PageId) (u r : Nat) : Bool :=
  let failed := s.rbit p (Reg.SRAM_U_BTFAIL u) 16 && s.fld p (Reg.SRAM_U_BTFAIL u) 15 0 == r && !s.rbit p (Reg.SRAM_U_BTFAIL u) 17
  decide (unitRegions p u ≤ r) || s.fld p (Reg.SRAM_U_STAT u) 12 8 == 0 || (decide (0 < s.remapped p u r) && !failed)

/-- A remap is requested (R367): for a region under test it waits. -/
def State.remapGo (s : State) (p : PageId) (u r : Nat) : State :=
  if !s.testing p u r && s.remapFull p u r then s.raise p 3
  else { s with remapPend := sparseSet (fun _ => 0) s.remapPend (unitKey p u * 65536 + r) 1 }

/-- The requested remaps of a unit complete, but for that of a region under test (R367). -/
def State.remapDone (s : State) (p : PageId) (u : Nat) : State :=
  (s.remapPend.filter (fun e => e.1 / 65536 == unitKey p u && !s.testing p u (e.1 % 65536))).foldl (fun (t : State) e =>
    let r := e.1 % 65536
    let t1 := { t with remapPend := sparseSet (fun _ => 0) t.remapPend e.1 0 }
    if t1.remapFull p u r then t1.raise p 3 else (t1.takeSpare p u r).1) s

/-- ECC words of a region of a unit. -/
def regionWords (m : MemUnit) (r : Nat) : List Nat := eccWords (m.base + 64 * r) 64 m.word

/-- The words of the checkpoint slots that lie in a region of their unit and hold an injected error: by engine and half (R361). DEDUCED
(log 46). -/
def State.ckptMarks (s : State) (c : Fin 8) (r : Nat) : List (Fin 8 × Bool × Nat) :=
  (List.finRange 8).flatMap (fun (i : Fin 8) => [false, true].filterMap (fun h =>
    let k := s.core (.ce (engineOf c i))
    let d := if h then k.ckpt1 else k.ckpt0
    if d.inj != 0 && (2 * i.val + b2n h) * 1040 / 64 == r then some (i, h, d.inj) else none))

/-- A checkpoint half with another injected error. -/
def State.setCkptInj (s : State) (e : Fin 64) (h : Bool) (n : Nat) : State :=
  s.modCore (.ce e) (fun k => if h then { k with ckpt1 := { k.ckpt1 with inj := n } } else { k with ckpt0 := { k.ckpt0 with inj := n } })

/-- The read of a region for its test (R364, R365): single errors are counted and corrected; true where a word is uncorrectable. -/
def State.btRead (s : State) (p : PageId) (u r : Nat) : State × Bool :=
  match unitNo p u with
  | some m => (regionWords m r).foldl (fun (x : State × Bool) k =>
      let v := x.1.mark k
      if v = 0 then x
      else if v = 100 then (x.1.eccRecord p u (k - m.base) true 2 0 15, true)
      else ((x.1.eccRecord p u (k - m.base) false 2 ((v - 1) % 200) 15).setMark k 0, x.2)) (s, false)
  | none =>
    if p.kind = .sramSys then
      (s.l2ecc.filter (fun e => l2Slice e.1 + 8 == u && e.1 % 0x80000 / 64 == r)).foldl (fun (x : State × Bool) e =>
        if 100 ≤ e.2 then (x.1.eccRecord p u (e.1 % 0x80000) true 2 0 15, true)
        else ({ x.1.eccRecord p u (e.1 % 0x80000) false 2 (e.2 - 1) 15 with l2ecc := sparseSet (fun _ => 0) x.1.l2ecc e.1 0 }, x.2)) (s, false)
    else (s.ckptMarks (clu p.inst) r).foldl (fun (x : State × Bool) e =>
      let ofs := (2 * e.1.val + b2n e.2.1) * 1040
      if e.2.2 = 1 then ((x.1.eccRecord p u ofs false 2 32 15).setCkptInj (engineOf (clu p.inst) e.1) e.2.1 0, x.2)
      else (x.1.eccRecord p u ofs true 2 0 15, true)) (s, false)

/-- The walk goes on to the next region (R364). -/
def State.btNext (s : State) (p : PageId) (u r : Nat) : State :=
  let n := if r + 1 < unitRegions p u then r + 1 else 0
  (s.setFld p (Reg.SRAM_U_STAT u) 31 16 n).raiseIf (n == 0) p 5

/-- The background test begins its next region, `IVAL` microseconds after the one before it (R364, R365); a region with an uncorrectable word
is skipped. -/
def State.btStart (s : State) (p : PageId) (u : Nat) : State :=
  if !s.rbit p (Reg.SRAM_U_CTL u) 0 || s.rbit p (Reg.SRAM_U_STAT u) 0 || s.rbit p (Reg.SRAM_U_STAT u) 1 then s
  else
    let r := s.fld p (Reg.SRAM_U_STAT u) 31 16
    let last := sparseGet (fun _ => 0) s.btAt (unitKey p u)
    let s1 := if last = 0 then s else s.advance (last - 1 + max 1 (s.fld p (Reg.SRAM_U_CTL u) 31 16) * Config.usSteps)
    let s2 := { s1 with btAt := sparseSet (fun _ => 0) s1.btAt (unitKey p u) (s1.now + 1) }
    let x := s2.btRead p u r
    if x.2 then x.1.btNext p u r else x.1.setBit p (Reg.SRAM_U_STAT u) 0 true

/-- Steps of a region's test: 162 memory cycles (R364). -/
def btSteps (p : PageId) (u : Nat) : Nat := if p.kind == .sramSys && decide (8 ≤ u ∧ u < 16) then 2592 else 5184

/-- The march test of the region under test ends, `fail` saying whether a pass read a wrong value (R364, R366). -/
def State.btDone (s : State) (p : PageId) (u : Nat) (fail : Bool) : State :=
  if !s.rbit p (Reg.SRAM_U_STAT u) 0 then s
  else
    let r := s.fld p (Reg.SRAM_U_STAT u) 31 16
    let s0 := s.advance (sparseGet (fun _ => 0) s.btAt (unitKey p u) - 1 + btSteps p u)
    let s1 := s0.setBit p (Reg.SRAM_U_STAT u) 0 false
    let s2 :=
      if fail then
        let x := if s.rbit p (Reg.SRAM_U_CTL u) 1 then s1.takeSpare p u r else (s1, false)
        ((x.1.setReg p (Reg.SRAM_U_BTFAIL u) (w32 (r + 2 ^ 16 + 2 ^ 17 * b2n x.2))).mark9 p (Reg.SRAM_U_BTFAIL u) 0x10000).raise p 2
      else s1
    s2.btNext p u r

/-! ## Initialisation and the vault (R369, R370) -/

/-- A unit begins to write zero to its whole array: its remaps clear, `INIT` reads 1. -/
def State.initStart (s : State) (p : PageId) (u : Nat) : State :=
  let s1 := match unitNo p u with
    | some m => { s.zeroBytes m.base (m.base + m.size) with ecc := s.ecc.filter (fun e => !decide (m.base ≤ e.1 ∧ e.1 < m.base + m.size)) }
    | none => s
  let k := unitKey p u * 65536
  let s2 := { s1 with remap := sparseClear k (k + 65536) s1.remap
                      remapPend := sparseClear k (k + 65536) s1.remapPend }
  let s3 := if p.kind == .sramSys && 8 ≤ u && u < 16 then
      { s2 with l2ecc := s2.l2ecc.filter (fun e => l2Slice e.1 != u - 8)
                flsLines := s2.flsLines.filter (fun e => e.1 % 8 != u - 8) } else s2
  s3.setReg p (Reg.SRAM_U_STAT u) (w32 (2 + 256 * unitSpares p u))

/-- A unit's initialisation ends. DESIGN CHOICE (log 4). -/
def State.initDone (s : State) (p : PageId) (u : Nat) : State := s.setBit p (Reg.SRAM_U_STAT u) 1 false

/-- A vault wipe starts: its content is gone, a background test of the vault is abandoned (R370). -/
def State.vaultWipe (s : State) (cause : Nat) : State :=
  let p := pgSramSys
  let s1 := { s.zeroBytes 0x2000000 0x2040000 with ecc := s.ecc.filter (fun e => !decide (0x2000000 ≤ e.1 ∧ e.1 < 0x2040000)) }
  { (s1.setBit p (Reg.SRAM_U_STAT 16) 0 false).setBit p Reg.SRAM_VLT_STAT 0 true with sec := { s1.sec with wipeWhy := cause } }

/-- The wipe in progress. -/
def State.wiping (s : State) : Bool := s.rbit pgSramSys Reg.SRAM_VLT_STAT 0

/-- A vault wipe completes: `CAUSE` records its trigger (R370). -/
def State.vaultDone (s : State) : State :=
  if s.wiping then (((s.setBit pgSramSys Reg.SRAM_VLT_STAT 0 false).setFld pgSramSys Reg.SRAM_VLT_STAT 6 4 s.sec.wipeWhy).stick pgSramSys Reg.SRAM_VLT_STAT 1).raise pgSramSys 6 else s

/-- Block effects of a write to an `SRAM` page. -/
def State.sramWrite (s : State) (p : PageId) (off : Nat) (v mask : Word) : State :=
  let n := if p.kind == .sramC then 10 else 17
  match arrIdx 0x11C 0x40 n off with
  | some u => if bitOf (v &&& mask) 16 then s.remapGo p u (bitsOf (v &&& mask) 15 0) else s
  | none =>
    let s1 := s.busReg p off v mask
    match arrIdx 0x124 0x40 n off with
    | some u => if s1.fld p (Reg.SRAM_U_INJ u) 1 0 = 3 then s1.setReg p (Reg.SRAM_U_INJ u) 0 else s1
    | none => s1

/-- A soft reset of an `SRAM` page (R13): its registers return; arrays, remaps and what `STAT` shows of them stay. -/
def State.sramSoftReset (s : State) (p : PageId) : State :=
  let n := if p.kind == .sramC then 10 else 17
  (List.range n).foldl (fun t u => t.setReg p (Reg.SRAM_U_STAT u) (s.reg p (Reg.SRAM_U_STAT u) &&& 0x1F02))
    ((s.clearRegs p 0x40 0x1000).setReg p Reg.SRAM_VLT_STAT (s.reg p Reg.SRAM_VLT_STAT))

end Sys2Proof.Machine
end

