-- ==== Sys2Proof/Machine/Trace.lean ====
section
/-! DEFINITION. Writes to host memory (R499, R504) and the trace capture unit (R535, R536). -/

namespace Sys2Proof.Machine

/-- First and last address of the host window (R24). -/
def hostBase : Nat := 0x4000000000

/-- An address of the host window. -/
def isHostMem (a : Nat) : Bool := decide (hostBase ≤ a ∧ a < 0x400000000000)

/-- The CXL link is up. -/
def State.linkUp (s : State) : Bool := s.rbit pgCxl Reg.CXL_STAT 0

/-- Viral has been received (R504). -/
def State.viral (s : State) : Bool := s.rbit pgCxl Reg.CXL_STAT 11

/-- The device writes bytes at a system physical address: under viral a write to host memory is discarded and counted
(R504), elsewhere check bits follow the bytes. -/
def State.devPut (s : State) (i : Initiator) (a : Nat) (bs : List Byte) : State :=
  if isHostMem a && s.viral then s.count pgCxl Reg.CXL_D2HDROP 15 0 else (s.eccWrite i a bs).1

/-- Change the trace unit. -/
def State.modTrace (s : State) (f : Trace → Trace) : State := { s with trace := f s.trace }

/-- The trace unit runs: armed, its domain on. -/
def State.tracing (s : State) : Bool := s.trace.armed && s.domOn 147

/-- Write one 16-byte record (Table: Trace record). DEDUCED (log 43). -/
def State.tracePut (s : State) (time : Nat) (src cl data : Nat) : State :=
  let t := s.trace
  let a := t.base + t.next % 2 ^ (t.log2 - 4) * 16
  (s.devPut (.sdma 0) a (leBytes 8 time ++ leBytes 2 src ++ leBytes 1 cl ++ leBytes 1 0 ++ leBytes 4 data)).modTrace
    (fun t => { t with next := t.next + 1 })

/-- A marker: 1 armed, 2 trigger, 3 dropped records, 4 stopped. -/
def State.traceMark (s : State) (n data : Nat) : State := s.tracePut s.time.ns.toNat (15 * 4096 + n) 0xFF data

/-- The unit stops. -/
def State.traceEnd (s : State) : State := (s.traceMark 4 0).modTrace (fun t => { t with armed := false })

/-- After a record, the records left after the trigger are counted down; at the last the unit stops (R535, R536). -/
def State.traceTick (s : State) : State :=
  match s.trace.left with
  | none => s
  | some 0 => s.traceEnd
  | some (n + 1) =>
    let s1 := s.modTrace (fun t => { t with left := some n })
    if n = 0 then s1.traceEnd else s1

/-- A traced item is recorded, preceded by marker 3 where records were dropped; an item that follows the last one faster
than 12.8 GB/s (16 bytes in two clock edges) is dropped and counted (R535). DEDUCED (log 43). -/
def State.traceItem (s : State) (bit : Nat) (time src cl data : Nat) : State :=
  if !s.tracing || !bitOf s.trace.src bit then s
  else if s.time.clk < s.trace.freeAt then
    ((s.count pgCmd Reg.CMD_TRDROP 15 0).raise pgCmd 1).modTrace (fun t => { t with lost := t.lost + 1 })
  else
    let s1 := if s.trace.lost = 0 then s else ((s.traceMark 3 (min s.trace.lost 0xFFFFFFFF)).modTrace (fun t => { t with lost := 0 })).traceTick
    let s2 := s1.modTrace (fun t => { t with freeAt := s.time.clk + 2 })
    if s2.trace.armed then (s2.tracePut time src cl data).traceTick else s2

/-- The trigger: marker 2, then `P4` records (markers count). -/
def State.traceTrigger (s : State) : State :=
  if !s.tracing || s.trace.trig.isSome then s
  else
    let s1 := (s.traceMark 2 0).modTrace (fun t => { t with trig := some s.trace.next, left := some t.post })
    if s.trace.post = 0 then s1.traceEnd else s1

/-- The full DTB nanoseconds whose low 32 bits are `lo`, the last such time. DEDUCED (log 43). -/
def State.nsOf (s : State) (lo : Nat) : Nat := s.time.ns.toNat - (s.time.ns.toNat % 2 ^ 32 + 2 ^ 32 - lo) % 2 ^ 32

end Sys2Proof.Machine
end

