-- ==== Sys2Proof/Machine/Pwm.lean ====
section
/-! DEFINITION. The pulse-width generator (03_pwm.md): compares, commits, outputs, safe vector, trips and blanking, and
what a bus write to its two pages does. -/

namespace Sys2Proof.Machine

/-! ## Access to the generator's state -/

/-- The generator of a cluster. -/
def State.pwm (s : State) (c : Fin 8) : Pwm := s.clusters[c].pwm

/-- Change the generator of a cluster. -/
def State.modPwm (s : State) (c : Fin 8) (f : Pwm → Pwm) : State := s.modC c (fun cl => { cl with pwm := f cl.pwm })

/-- A channel. -/
def State.ch (s : State) (c : Fin 8) (k : Fin 18) : PwmCh := (s.pwm c).ch[k]

/-- Change a channel. -/
def State.modCh (s : State) (c : Fin 8) (k : Fin 18) (f : PwmCh → PwmCh) : State :=
  s.modPwm c (fun p => { p with ch := p.ch.set k (f p.ch[k]) })

/-- The carrier of a cluster. -/
def State.car (s : State) (c : Fin 8) : Carrier := s.clusters[c].car

/-- Change the carrier of a cluster. -/
def State.modCar (s : State) (c : Fin 8) (f : Carrier → Carrier) : State := s.modC c (fun cl => { cl with car := f cl.car })

/-- Fold an operation over all channels of a cluster. -/
def State.forCh (s : State) (f : State → Fin 18 → State) : State := (List.finRange 18).foldl f s

/-- The active half-period, in steps (R73). -/
def State.hp (s : State) (c : Fin 8) : Nat := s.fld (pgPwg0 c) Reg.PWG_PER_ACT 22 0

/-- A field of a channel's `PWG_CH_CTL`. -/
def State.chCtl (s : State) (c : Fin 8) (k : Fin 18) (hi lo : Nat) : Nat := s.fld (pgPwg0 c) (Reg.PWG_CH_CTL k) hi lo

/-- A compare value acts as at most HP (R77). -/
def effCmp (v hp : Nat) : Nat := min v hp

/-- The active CMPU of a channel, as it acts. -/
def State.actU (s : State) (c : Fin 8) (k : Fin 18) : Nat :=
  effCmp (s.fld (pgPwg0 c) (Reg.PWG_CH_CMPU_ACT k) 22 0) (s.hp c)

/-- The active CMPD of a channel, as it acts. -/
def State.actD (s : State) (c : Fin 8) (k : Fin 18) : Nat :=
  effCmp (s.fld (pgPwg0 c) (Reg.PWG_CH_CMPD_ACT k) 22 0) (s.hp c)

/-- A compare of the channel's shadow is written and not committed (R84). -/
def PwmCh.written (x : PwmCh) : Bool := x.newU.isSome || x.newD.isSome

/-- The carrier counts (it is past its first valley and not yet stopped). -/
def State.counting (s : State) (c : Fin 8) : Bool := (s.car c).phase == .up || (s.car c).phase == .down

/-! ## Outputs, edges and blanking windows (R78, R97, R109) -/

/-- An edge of channel `k`'s output H (or L) at the exact time `t` opens or restarts every blanking window that it
selects (R109). -/
def State.blankEdge (s : State) (c : Fin 8) (k : Fin 18) (isH : Bool) (t : Nat) : State :=
  (List.finRange 4).foldl (fun s (u : Fin 4) =>
    let w := s.reg (pgPwg1 c) (Reg.PWG_BLK_CTL u)
    let e := bitsOf w 6 5
    let len := bitsOf w 31 16
    if bitsOf w 4 0 = k ∧ len ≠ 0 ∧ (e = 3 ∨ (isH ∧ e = 1) ∨ (¬ isH ∧ e = 2)) then
      s.modPwm c (fun p => { p with blk := p.blk.set u (some (t + len, s.reg (pgPwg1 c) (Reg.PWG_BLK_SRC u))) })
    else s) s

/-- Drive the two outputs at the exact time `t`. -/
def State.setOut (s : State) (c : Fin 8) (k : Fin 18) (h l : Bool) (t : Nat) : State :=
  let x := s.ch c k
  let s1 := s.modCh c k (fun x => { x with outH := h, outL := l })
  let s2 := if x.outH == h then s1 else s1.blankEdge c k true t
  if x.outL == l then s2 else s2.blankEdge c k false t

/-- After `dt` steps counted from `t`, output H (or L) goes active; at once where the dead time is 0 (R78). -/
def State.turnOn (s : State) (c : Fin 8) (k : Fin 18) (isH : Bool) (dt t : Nat) : State :=
  if dt = 0 then s.setOut c k isH (!isH) t
  else s.modCh c k (fun x => { x with dead := some (t + dt, isH) })

/-- Both outputs inactive, no turn-on pending. -/
def State.bothOff (s : State) (c : Fin 8) (k : Fin 18) (t : Nat) : State :=
  (s.modCh c k (fun x => { x with dead := none })).setOut c k false false t

/-- The reference of a running channel becomes `r` at the exact time `t` (R78, R79): the output that was on goes
inactive at once, the other goes active after its dead time, and a turn-on still pending is cancelled. -/
def State.setRef (s : State) (c : Fin 8) (k : Fin 18) (r : Bool) (t : Nat) : State :=
  let x := s.ch c k
  if x.ref == r then s
  else
    let s1 := s.modCh c k (fun x => { x with ref := r })
    if x.mode != .running then s1
    else
      let s2 := s1.bothOff c k t
      if r then s2.turnOn c k true x.dtr.toNat t else s2.turnOn c k false x.dtf.toNat t

/-- Enter a state that forces the outputs by the encoding `enc` of R97: both inactive, then the one it names. -/
def State.forceOut (s : State) (c : Fin 8) (k : Fin 18) (enc : Nat) (t : Nat) : State :=
  let x := s.ch c k
  let s1 := s.bothOff c k t
  if enc = 1 then s1.turnOn c k true x.dtr.toNat t
  else if enc = 2 then s1.turnOn c k false x.dtf.toNat t
  else s1

/-- The channel is stopped by its enables or its carrier (R95 item 1). -/
def State.chStopped (s : State) (c : Fin 8) (k : Fin 18) : Bool :=
  !(s.rbit (pgPwg0 c) Reg.PAGE_CTL 0 && s.chCtl c k 0 0 == 1 && s.counting c)

/-- The first state of R95's list that applies. -/
def State.wantMode (s : State) (c : Fin 8) (k : Fin 18) : OutMode :=
  let x := s.ch c k
  if s.chStopped c k then .stopped
  else if x.latched || x.cbc then .tripped
  else if x.safe then .safe
  else .running

/-- The order of R95: a smaller rank wins. -/
def OutMode.rank : OutMode → Nat
  | .stopped => 0 | .tripped => 1 | .safe => 2 | .running => 3

/-- Put the output stage of a channel into mode `m` at the exact time `t` (R96, R97, R99). -/
def State.enterMode (s : State) (c : Fin 8) (k : Fin 18) (m : OutMode) (t : Nat) : State :=
  let s1 := s.modCh c k (fun x => { x with mode := m })
  match m with
  | .stopped => s1.bothOff c k t
  | .tripped => s1.forceOut c k (s.chCtl c k 10 9) t
  | .safe => s1.forceOut c k (s.chCtl c k 12 11) t
  | .running =>
    let x := s.ch c k
    let s2 := s1.bothOff c k t
    if x.ref then s2.turnOn c k true x.dtr.toNat t else s2.turnOn c k false x.dtf.toNat t

/-- Between valleys a channel only moves to a state that ranks before its present one (R95, R99). A change of `TST` or `SV` acts on
the next entry: R97 forces the outputs on entering. DESIGN CHOICE (log 67). -/
def State.settle (s : State) (c : Fin 8) (k : Fin 18) (t : Nat) : State :=
  let w := s.wantMode c k
  if w.rank < (s.ch c k).mode.rank then s.enterMode c k w t else s

/-- Every channel of the cluster settles. -/
def State.settleAll (s : State) (c : Fin 8) (t : Nat) : State := s.forCh (fun s k => s.settle c k t)

/-! ## Safe vector (R98 to R101) -/

/-- A channel enters its safe vector; `SAFE_ENTER` is raised where it was not in it. An entry through an overrun with `OVRACT` = 1
alone lets it leave when its owner is back (R100). DEDUCED (log 39). -/
def State.enterSafe (s : State) (c : Fin 8) (k : Fin 18) (ovr sw : Bool) : State :=
  let x := s.ch c k
  let back := ovr && s.chCtl c k 8 7 == 1 && (!x.safe || x.safeBack)
  let s1 := s.modCh c k (fun x => { x with safe := true, safeOvr := x.safeOvr || ovr, safeSw := x.safeSw || sw, safeBack := back
                                           relPend := false, ownerBack := false })
  (s1.raiseIf (!x.safe) (pgPwg0 c) 6).settle c k s.now

/-- Every channel of a cluster enters its safe vector; `bit` of `PWG_SAFE_CAUSE` records the cause (0 STOP, 2 BRIDGE),
and a time loss shows in the `TLOST` mirror. A generator without power has no output to force (R72). -/
def State.safeCluster (s : State) (c : Fin 8) (bit : Option Nat) : State :=
  if !s.domOn (66 + 5 * c.val) then s else
  let s1 := match bit with
    | some b => s.stick (pgPwg0 c) Reg.PWG_SAFE_CAUSE b
    | none => s
  s1.forCh (fun s k => s.enterSafe c k false false)

/-- Every channel of every cluster enters its safe vector. -/
def State.safeAll (s : State) (bit : Option Nat) : State := (List.finRange 8).foldl (fun s c => s.safeCluster c bit) s

/-- Any bit of `PWG_SAFE_CAUSE` is set, the `TLOST` mirror included (R100, R101); a low STOP_N is a cause for as long as it lasts (R98). -/
def State.safeCaused (s : State) (c : Fin 8) : Bool :=
  s.stopLow || s.rbit (pgPwg0 c) Reg.PWG_SAFE_CAUSE 0 || s.rbit (pgPwg0 c) Reg.PWG_SAFE_CAUSE 2 || s.rbit pgDtb Reg.DTB_STAT 3

/-- What the channel's state at a valley makes of its safe vector (R100): a channel that entered through an overrun
with `OVRACT` = 1 leaves when its owner is back, any other when an accepted release waits. -/
def State.safeValley (s : State) (c : Fin 8) (k : Fin 18) : State :=
  let x := s.ch c k
  if x.safe && (x.relPend || (x.ownerBack && x.safeBack)) then
    s.modCh c k (fun x => { x with safe := false, safeOvr := false, safeSw := false, safeBack := false, relPend := false, ownerBack := false })
  else if s.safeCaused c && !x.safe && s.chCtl c k 0 0 == 1 then s.enterSafe c k false false
  else s

/-- A release of channel `k` (R100). DEDUCED (log 39). -/
def State.releaseCh (s : State) (c : Fin 8) (k : Fin 18) : State :=
  if s.safeCaused c then s.raise (pgPwg0 c) 7
  else s.modCh c k (fun x => { x with relPend := x.safe })

/-! ## Trips (R102 to R110) -/

/-- The live state of a trip source at its origin (R102): pins, comparator groups, energy-guard groups, software; a pin
that serves as general I/O reads inactive (R577). -/
def State.tripLive (s : State) (c : Fin 8) (i : Nat) : Bool :=
  if i < 4 then
    !s.rbit pgEg (Reg.FIO_SEL c) i && (s.pwm c).tripPin.getLsbD i == s.rbit (pgPwg1 c) Reg.PWG_TRIP_PINCFG i
  else if i < 12 then s.reg (pgCmp c) Reg.CMP_OUT &&& s.reg (pgPwg1 c) (Reg.PWG_TRIP_CMPGRP (i - 4)) &&& 0xFFF ≠ 0
  else if i < 14 then
    (List.range 8).any (fun n => s.rbit (pgPwg1 c) Reg.PWG_TRIP_EGGRP (8 * (i - 12) + n) && s.rbit pgEg (Reg.EG_ST n) 1)
  else s.rbit (pgPwg1 c) Reg.PWG_TRIP_SW (i - 14)

/-- A blanking unit whose window is open at the exact time `t` covers the source (R110). -/
def State.unitBlanks (s : State) (c : Fin 8) (u : Fin 4) (i : Nat) (t : Nat) : Bool :=
  match (s.pwm c).blk[u] with
  | some e => decide (t < e.1) && bitOf e.2 i
  | none => false

/-- Some open window covers the source. -/
def State.blanked (s : State) (c : Fin 8) (i : Nat) (t : Nat) : Bool :=
  (List.finRange 4).any (fun (u : Fin 4) => s.unitBlanks c u i t)

/-- The mode of source `i` for channel `k`: 0 ignored, 1 cycle-by-cycle, 2 or 3 latched (R103). -/
def State.tripMode (s : State) (c : Fin 8) (k : Fin 18) (i : Nat) : Nat :=
  s.fld (pgPwg1 c) (Reg.PWG_CH_TRIPMODE k) (2 * i + 1) (2 * i)

/-- An unblanked active source acts on one channel (R103 to R106). -/
def State.tripCh (s : State) (c : Fin 8) (k : Fin 18) (i : Nat) (t : Nat) : State :=
  let x := s.ch c k
  let was := x.latched || x.cbc
  match s.tripMode c k i with
  | 0 => s
  | 1 =>
    let s1 := s.modCh c k (fun x => { x with cbc := true })
    (s1.raiseIf (!was) (pgPwg1 c) 0).settle c k t
  | _ =>
    let s1 := (s.modCh c k (fun x => { x with latched := true })).setBit (pgPwg1 c) (Reg.PWG_CH_TLSRC k) i true
    ((s1.raiseIf (!was) (pgPwg1 c) 0).raiseIf (!x.latched) (pgPwg1 c) 1).settle c k t

/-- A source that is active and not blanked takes effect (R103). DEDUCED (log 39). -/
def State.tripTake (s : State) (c : Fin 8) (i : Nat) (t : Nat) : State := s.forCh (fun s k => s.tripCh c k i t)

/-- Each open window that covers the source counts its activation (R110). -/
def State.blankCount (s : State) (c : Fin 8) (i : Nat) (t : Nat) : State :=
  (List.finRange 4).foldl (fun s (u : Fin 4) =>
    if s.unitBlanks c u i t then (s.count (pgPwg1 c) (Reg.PWG_BLK_CNT u) 15 0).raise (pgPwg1 c) 3 else s) s

/-- The trip logic takes note of one source's live state: an activation takes effect or is blanked, a deactivation
lowers its bit of `PWG_TRIP_SRC`. A generator without power sees nothing. -/
def State.tripSee (s : State) (c : Fin 8) (t : Nat) (i : Nat) : State :=
  let live := s.tripLive c i
  if live == s.rbit (pgPwg1 c) Reg.PWG_TRIP_SRC i || !s.domOn (66 + 5 * c.val) then s
  else
    let s1 := s.setBit (pgPwg1 c) Reg.PWG_TRIP_SRC i live
    if !live then s1
    else if s.blanked c i t then s1.blankCount c i t
    else (s1.stick (pgPwg1 c) Reg.PWG_TRIP_EVT i).tripTake c i t

/-- The trip logic takes note of every source. -/
def State.tripSeeAll (s : State) (c : Fin 8) : State := (List.range 16).foldl (fun s i => s.tripSee c s.now i) s

/-- Sources that are active and not blanked act again on every channel: after a mode change, or at the end of a window. They became
active before, so `PWG_TRIP_EVT` is not set again. DEDUCED (log 39). -/
def State.tripAgain (s : State) (c : Fin 8) (mask : Word) (t : Nat) : State :=
  (List.range 16).foldl (fun s i =>
    if bitOf mask i && s.rbit (pgPwg1 c) Reg.PWG_TRIP_SRC i && !s.blanked c i t then s.tripTake c i t else s) s

/-- A blanking window closes at the exact time `t`: the sources it covered that are still active take effect (R110). DEDUCED (log 39). -/
def State.blankClose (s : State) (c : Fin 8) (u : Fin 4) (t : Nat) : State :=
  match (s.pwm c).blk[u] with
  | none => s
  | some e => (s.modPwm c (fun p => { p with blk := p.blk.set u none })).tripAgain c e.2 t

/-- A request to clear channel `k`'s trip latch (R105). -/
def State.tripClear (s : State) (c : Fin 8) (k : Fin 18) : State :=
  if (List.range 16).any (fun i => decide (2 ≤ s.tripMode c k i) && s.rbit (pgPwg1 c) Reg.PWG_TRIP_SRC i) then
    (s.stick (pgPwg1 c) Reg.PWG_CLR_REF_CH k).raise (pgPwg1 c) 2
  else (s.modCh c k (fun x => { x with latched := false })).setReg (pgPwg1 c) (Reg.PWG_CH_TLSRC k) 0

/-- The cycle-by-cycle decision at a valley (R104). DEDUCED (log 39). -/
def State.cbcValley (s : State) (c : Fin 8) (k : Fin 18) (t : Nat) : State :=
  if !(s.ch c k).cbc then s
  else if (List.range 16).any (fun i =>
      s.tripMode c k i == 1 && s.rbit (pgPwg1 c) Reg.PWG_TRIP_SRC i && !s.blanked c i t) then s.raise (pgPwg1 c) 4
  else s.modCh c k (fun x => { x with cbc := false })

/-! ## Compares (R75 to R77, R84, R91) -/

/-- A value becomes the active CMPU (or CMPD): above HP it is clamped, unless it is 0x7F_FFFF (R77). -/
def State.activate (s : State) (c : Fin 8) (k : Fin 18) (isU : Bool) (v : Nat) : State :=
  let hp := s.hp c
  let off := if isU then Reg.PWG_CH_CMPU_ACT k else Reg.PWG_CH_CMPD_ACT k
  if hp < v ∧ v ≠ 0x7FFFFF then
    ((s.setFld (pgPwg0 c) off 22 0 hp).stick (pgPwg0 c) Reg.PWG_CLAMP_CH k).raise (pgPwg0 c) 2
  else s.setFld (pgPwg0 c) off 22 0 v

/-- The active compares of a channel are clamped to a new HP (R77, R89, R93). -/
def State.clampCh (s : State) (c : Fin 8) (k : Fin 18) : State :=
  let u := s.fld (pgPwg0 c) (Reg.PWG_CH_CMPU_ACT k) 22 0
  let d := s.fld (pgPwg0 c) (Reg.PWG_CH_CMPD_ACT k) 22 0
  (s.activate c k true u).activate c k false d

/-- The counter's position in steps from the valley, just before the PWM clock edge that an event at `t` reaches (R83, R185). -/
def State.carPos (s : State) (c : Fin 8) (t : Nat) : Nat := pwmCeil t - (s.car c).valley

/-- The up edge takes place at the exact time `t`: the reference goes high where the pulse is not empty (R75, R76). -/
def State.edgeU (s : State) (c : Fin 8) (k : Fin 18) (t : Nat) : State :=
  let s1 := s.modCh c k (fun x => { x with doneU := true })
  if s.actU c k + s.actD c k < 2 * s.hp c then s1.setRef c k true t else s1

/-- The down edge takes place at the exact time `t`: the reference goes low (R75). -/
def State.edgeD (s : State) (c : Fin 8) (k : Fin 18) (t : Nat) : State :=
  (s.modCh c k (fun x => { x with doneD := true })).setRef c k false t

/-- A compare write of an IMMEDIATE-SAFE channel is decided against the counter (R91, R92, R185). DEDUCED (log 38). -/
def State.cmpImm (s : State) (c : Fin 8) (k : Fin 18) (isU : Bool) (v : Nat) (t : Nat) : State :=
  let hp := s.hp c
  let x := s.ch c k
  let own := s.counting c && ((isU && (s.car c).phase == .up) || (!isU && (s.car c).phase == .down))
  if !own then s.activate c k isU v
  else
    let pos := s.carPos c t
    let o := if isU then s.actU c k else s.actD c k
    let passed : Nat → Bool := fun w => if isU then decide (w < pos) else decide (2 * hp < w + pos)
    let done := if isU then x.doneU else x.doneD
    if done then s.activate c k isU v
    else if passed o then
      -- the edge at O was due: it stands
      let e := if isU then s.edgeU c k ((s.car c).valley + o) else s.edgeD c k ((s.car c).valley + 2 * hp - o)
      e.activate c k isU v
    else
      let s1 := s.activate c k isU v
      if passed (effCmp v hp) then (if isU then s1.edgeU c k (pwmCeil t) else s1.edgeD c k (pwmCeil t)) else s1

/-- A compare write, through the duty port (`port`) or the bus, of CMPU or CMPD (R84, R91). -/
def State.cmpWrite (s : State) (c : Fin 8) (k : Fin 18) (isU port : Bool) (v : Nat) (t : Nat) : State :=
  let s1 := s.setFld (pgPwg0 c) (if isU then Reg.PWG_CH_CMPU k else Reg.PWG_CH_CMPD k) 22 0 v
  let s2 := if port then s1.modCh c k (fun x =>
      if isU then { x with portU := some (pwmCeil t) } else { x with portD := some (pwmCeil t) }) else s1
  if (s.ch c k).imm then s2.cmpImm c k isU v t
  else s2.modCh c k (fun x =>
    let y := if isU then { x with shU := BitVec.ofNat 23 v } else { x with shD := BitVec.ofNat 23 v }
    if isU then { y with newU := some port } else { y with newD := some port })

/-- A duty-port word that names compare CMPU (or CMPD) of channel `k`. -/
def DutyWord.names (w : DutyWord) (k : Fin 18) (isU : Bool) : Bool :=
  let kind := bitsOf w.word 31 29
  bitsOf w.word 28 24 == k.val && !bitOf w.word 23 && w.fg && (kind == 2 || kind == (if isU then 0 else 1))

/-- The duty port writes the same compare in the PWM cycle of the time `t`: it has done so, or a word of the owner's that is on its
way reaches the generator in that cycle (R22). -/
def State.dutyWins (s : State) (c : Fin 8) (k : Fin 18) (isU : Bool) (t : Nat) : Bool :=
  let last := if isU then (s.ch c k).portU else (s.ch c k).portD
  let o : Fin 8 := Fin.ofNat 8 (s.chCtl c k 4 2)
  last == some (pwmCeil t) || (!(s.pwm c).overrun.getLsbD o
    && (s.pwm c).flight[o].any (fun w => pwmCeil w.at_ == pwmCeil t && w.names k isU))

/-- A bus write of a compare at the time `t`; in the PWM cycle in which the duty port writes the same one it is discarded (R22). -/
def State.cmpBus (s : State) (c : Fin 8) (k : Fin 18) (isU : Bool) (v t : Nat) : State :=
  if s.dutyWins c k isU t then s else s.cmpWrite c k isU false v t

/-! ## Tokens and the duty port (R81 to R87) -/

/-- The pending token (R86). -/
def Pwm.token (p : Pwm) : BitVec 19 := p.tokEng.toList.foldl (fun a b => a ||| b) p.tokBus

/-- A member of a lock group that is not its leader (R44). -/
def State.lgrp (s : State) (c : Fin 8) : Nat := s.fld (pgFrm c) Reg.FRM_CTL 5 3

/-- The leader of a cluster's lock group: its lowest-numbered member (R44). -/
def State.leaderOf (s : State) (c : Fin 8) : Fin 8 :=
  if s.lgrp c = 0 then c
  else ((List.finRange 8).find? (fun d => s.lgrp d == s.lgrp c)).getD c

/-- The cluster takes its period from a leader (R45). -/
def State.isMember (s : State) (c : Fin 8) : Bool := s.leaderOf c != c

/-- A write of the period shadow (R84), ignored in a member (R45). -/
def State.perWrite (s : State) (c : Fin 8) (port : Bool) (v : Nat) : State :=
  if s.isMember c then s
  else (s.setFld (pgPwg0 c) Reg.PWG_PER 22 0 v).modPwm c (fun p => { p with perWritten := true, perByPort := port })

/-- The engine may write the period through its duty port. -/
def State.mayPeriod (s : State) (c : Fin 8) (i : Fin 8) : Bool :=
  s.rbit (pgPwg0 c) Reg.PWG_CTL 11 && s.fld (pgPwg0 c) Reg.PWG_CTL 10 8 == i.val

/-- The token bits that engine `i` may set (R82). -/
def State.mayToken (s : State) (c : Fin 8) (i : Fin 8) : BitVec 19 :=
  (List.finRange 18).foldl (fun a (k : Fin 18) => if s.chCtl c k 4 2 = i.val then a ||| (1#19 <<< k.val) else a)
    (if s.mayPeriod c i then 1#19 <<< 18 else 0)

/-- A duty-port word is rejected (R82): counted once, `DP_REJECT` raised. -/
def State.dpReject (s : State) (c : Fin 8) : State := (s.count (pgPwg0 c) Reg.PWG_DPREJ_CNT 15 0).raise (pgPwg0 c) 4

/-- A duty-port word of local engine `i` is judged and applied (R81 to R86). -/
def State.dutyApply (s : State) (c : Fin 8) (i : Fin 8) (w : DutyWord) : State :=
  let kind := bitsOf w.word 31 29
  let ch := bitsOf w.word 28 24
  let v := bitsOf w.word 22 0
  let t := w.at_
  if !w.fg || (s.pwm c).overrun.getLsbD i || bitOf w.word 23 || decide (5 < kind) then s.dpReject c
  else if kind ≤ 2 then
    if h : ch < 18 then
      let k : Fin 18 := ⟨ch, h⟩
      if s.chCtl c k 4 2 ≠ i.val then s.dpReject c
      else
        let s1 := if kind = 1 then s else s.cmpWrite c k true true v t
        let s2 := if kind = 0 then s1 else s1.cmpWrite c k false true v t
        if (s.ch c k).imm then s2.modCh c k (fun x => { x with ownerBack := true }) else s2
    else s.dpReject c
  else if kind = 3 then
    let bits := BitVec.ofNat 19 v
    let ok := bits &&& s.mayToken c i
    let s1 := s.modPwm c (fun p => { p with tokEng := p.tokEng.set i (p.tokEng[i] ||| ok) })
    if ok = bits then s1 else s1.dpReject c
  else if kind = 4 then
    if s.mayPeriod c i then s.perWrite c true v else s.dpReject c
  else
    let sw := s.fld (pgPwg1 c) Reg.PWG_TRIP_SW 1 0
    let set := v % 4
    let clr := v / 4 % 4
    let new := (BitVec.ofNat 2 sw &&& ~~~ BitVec.ofNat 2 clr) ||| BitVec.ofNat 2 set
    (s.setFld (pgPwg1 c) Reg.PWG_TRIP_SW 1 0 new.toNat).tripSeeAll c

/-- The generator rejects a duty-port word, or a part of its tokens (R82). -/
def State.dutyRejected (s : State) (c : Fin 8) (i : Fin 8) (w : DutyWord) : Bool :=
  let kind := bitsOf w.word 31 29
  let ch := bitsOf w.word 28 24
  if !w.fg || (s.pwm c).overrun.getLsbD i || bitOf w.word 23 || decide (5 < kind) then true
  else if kind ≤ 2 then (if h : ch < 18 then s.chCtl c ⟨ch, h⟩ 4 2 != i.val else true)
  else if kind = 3 then (BitVec.ofNat 19 (bitsOf w.word 22 0)) &&& s.mayToken c i != BitVec.ofNat 19 (bitsOf w.word 22 0)
  else if kind = 4 then !s.mayPeriod c i
  else false

/-- A duty-port word of local engine `i` takes part in what the generator does; the trace unit copies it (R81 to R86, R536). -/
def State.dutyTake (s : State) (c : Fin 8) (i : Fin 8) (w : DutyWord) : State :=
  (s.dutyApply c i w).traceItem (8 + c) (s.dtbAt (pwmCeil w.at_) / 2 ^ 32) (2 * 4096 + i + 8 * b2n (s.dutyRejected c i w)) c w.word.toNat

/-- The logic time of the next turn of the carrier, its first valley among them (R42, R47). -/
def State.turnLogic (s : State) (c : Fin 8) : Option Nat :=
  match (s.car c).phase with
  | .starting | .up | .down => some (pwmFloor (s.car c).turn)
  | .stopped | .waitLeader => none

/-- A write at the time `t` reaches the generator on the clock edge of the next turn, and belongs after it (R83, R92). -/
def State.turnFirst (s : State) (c : Fin 8) (t : Nat) : Bool :=
  match s.turnLogic c with
  | some l => decide (l ≤ pwmCeil t)
  | none => false

/-- A write waits for the turn on whose edge it came. -/
def State.lateAdd (s : State) (c : Fin 8) (w : LateWrite) : State := s.modPwm c (fun p => { p with late := p.late ++ [w] })

/-- A duty-port word of local engine `i` reaches the generator (R83). -/
def State.dutyWord (s : State) (c : Fin 8) (i : Fin 8) (w : DutyWord) : State :=
  if s.turnFirst c w.at_ then s.lateAdd c (.duty i w) else s.dutyTake c i w

/-- What each engine's duty port brought belongs, from the tick on, to an earlier frame (R90). -/
def State.pwmAge (s : State) (c : Fin 8) : State :=
  let old (o : Option Bool) : Option Bool := o.map (fun _ => false)
  s.modPwm c (fun p => { p with
    tokBus := p.token, tokEng := Vector.replicate 8 0, perByPort := false
    ch := p.ch.map (fun x => { x with newU := old x.newU, newD := old x.newD }) })

/-- A compare that the duty port wrote since the last tick reloads from its active value (R90). DEDUCED (log 38). -/
def State.dropShadow (s : State) (c : Fin 8) (k : Fin 18) (isU : Bool) : State :=
  if isU then
    (if (s.ch c k).newU = some true then s.modCh c k (fun x =>
      { x with newU := none, shU := BitVec.ofNat 23 (s.fld (pgPwg0 c) (Reg.PWG_CH_CMPU_ACT k) 22 0) }) else s)
  else
    (if (s.ch c k).newD = some true then s.modCh c k (fun x =>
      { x with newD := none, shD := BitVec.ofNat 23 (s.fld (pgPwg0 c) (Reg.PWG_CH_CMPD_ACT k) 22 0) }) else s)

/-- An overrun of engine `i`, or the halt of its pair, discards what its duty port brought in this frame (R90, R342). DEDUCED (log 38). -/
def State.pwmOverrun (s : State) (c : Fin 8) (i : Fin 8) : State :=
  let s1 := s.modPwm c (fun p => { p with tokEng := p.tokEng.set i 0 })
  let s2 := s1.forCh (fun s k =>
    if s.chCtl c k 4 2 = i.val then
      ((s.dropShadow c k true).dropShadow c k false).modCh c k (fun x => { x with stale := x.stale && x.written })
    else s)
  if s.mayPeriod c i && (s.pwm c).perWritten && (s.pwm c).perByPort then
    (s2.setFld (pgPwg0 c) Reg.PWG_PER 22 0 (s.hp c)).modPwm c (fun p => { p with perWritten := false, perByPort := false, perStale := false })
  else s2

/-! ## The limits of a period (R49, R52, R54, R73) -/

/-- The tick period in steps for a half-period `hp` and tick mode `tm`; none where no ticks are scheduled (R49). -/
def tickPeriod (tm hp : Nat) : Option Nat := if tm = 1 then some (2 * hp) else if tm = 2 then some hp else none

/-- The tick rate lies from 8 kHz to 2 MHz and the tick period is longer than t_lead + 140 ns (R49, R54). -/
def rateOk (tm hp lead : Nat) : Bool :=
  match tickPeriod tm hp with
  | none => true
  | some p => decide (12800 ≤ p ∧ p ≤ 3200000 ∧ lead * 128 + 3584 < p)

/-- The tick period divides the machine frame period exactly (R52). -/
def divides (tm hp mfp : Nat) : Bool :=
  match tickPeriod tm hp with
  | none => true
  | some p => decide ((mfp * 128) % (p * 5) = 0)

/-- From the ideal DTB time `ideal` on, ticks of the given period fall on every machine frame boundary (R52). -/
def State.onBoundary (s : State) (tm hp ideal : Nat) : Bool :=
  match tickPeriod tm hp with
  | none => true
  | some p => decide ((ideal + 2 ^ 96 - s.time.mft.toNat * 2 ^ 32) % 2 ^ 96 % (p * Config.stepFrac) = 0)

/-- A lock-group member's offset from its leader's valleys, in steps (R44). -/
def State.phaseSteps (s : State) (c : Fin 8) (hp : Nat) : Nat :=
  (2 * (s.fld (pgFrm c) Reg.FRM_PHASE 15 0 * (2 * hp)) + 65536) / 131072

/-- `DTB_MFP`, which a tick period has to divide (R52). -/
def State.mfpReg (s : State) : Nat := s.fld pgDtb Reg.DTB_MFP 23 0

/-- `FRM_CTL.TMODE` as it acts (R49). -/
def State.tmode (s : State) (c : Fin 8) : Nat := let t := s.fld (pgFrm c) Reg.FRM_CTL 2 1; if t = 3 then 0 else t

/-- `FRM_CTL.MFALIGN`. -/
def State.mfalign (s : State) (c : Fin 8) : Bool := s.rbit (pgFrm c) Reg.FRM_CTL 6

/-- `FRM_LEAD` in PWM cycles. -/
def State.leadReg (s : State) (c : Fin 8) : Nat := s.fld (pgFrm c) Reg.FRM_LEAD 9 0

/-- The cluster's carrier runs, starts or waits: `FRM_STAT.RUNNING` (R47). -/
def State.running (s : State) (c : Fin 8) : Bool := (s.car c).phase != .stopped

/-- The cluster of a carrier has ticks ahead. -/
def State.ticking (s : State) (c : Fin 8) : Bool := s.running c && (s.car c).phase != .waitLeader && s.tmode c != 0

/-- The clusters that a period commit of `c` must suit: itself, and the running members that it leads (R49, R52). -/
def State.commitSet (s : State) (c : Fin 8) : List (Fin 8) :=
  c :: (List.finRange 8).filter (fun d => d != c && s.lgrp c != 0 && s.leaderOf d == c && s.running d)

/-- What is wrong with a new half-period at a commit valley whose ideal time is `ideal`: nothing, the rate (R49, R73),
or the machine-frame alignment (R52). -/
inductive PeriodFault where
  | none | short | rate | align
  deriving DecidableEq, Repr

/-- Check a new half-period (R87 step 4). DEDUCED (log 38). -/
def State.periodCheck (s : State) (c : Fin 8) (hp ideal : Nat) : PeriodFault :=
  if hp < 0x1900 then .short
  else if (s.commitSet c).any (fun d => !rateOk (s.tmode d) hp (s.leadReg d)) then .rate
  else if (s.commitSet c).any (fun d => 
      let first := if d = c then ideal else ideal + s.phaseSteps d hp * Config.stepFrac
      s.mfalign d && !(divides (s.tmode d) hp s.mfpReg && s.onBoundary (s.tmode d) hp (first % 2 ^ 96))) then .align
  else .none

/-! ## The commit point (R87, R88) -/

/-- A channel's shadow values become active (R87 step 6). -/
def State.commitCh (s : State) (c : Fin 8) (tok : BitVec 19) (k : Fin 18) : State :=
  let x := s.ch c k
  if tok.getLsbD k && !x.imm then
    ((s.activate c k true x.shU.toNat).activate c k false x.shD.toNat).modCh c k
      (fun x => { x with newU := none, newD := none, stale := false, ownerBack := true })
  else s

/-- Clear the pending token. -/
def State.clearToken (s : State) (c : Fin 8) : State :=
  s.modPwm c (fun p => { p with tokBus := 0, tokEng := Vector.replicate 8 0, perWait := false })

/-- Step 7: shadows written and not named in the pending token are stale (R88). -/
def State.staleCheck (s : State) (c : Fin 8) : State :=
  let tok := (s.pwm c).token
  let s1 := s.forCh (fun s k =>
    let x := s.ch c k
    if x.written && !tok.getLsbD k && !x.stale then
      ((s.modCh c k (fun x => { x with stale := true })).stick (pgPwg0 c) Reg.PWG_STALE_CH k).raise (pgPwg0 c) 0
    else s)
  let p := s.pwm c
  if p.perWritten && !tok.getLsbD 18 && !p.perStale then
    ((s1.modPwm c (fun p => { p with perStale := true })).stick (pgPwg0 c) Reg.PWG_STALE_CH 18).raise (pgPwg0 c) 0
  else s1

/-- Step 6: the named values become active together. DEDUCED (log 38). -/
def State.commitAll (s : State) (c : Fin 8) (tok : BitVec 19) (per : Bool) : State :=
  let s1 := if per then
      (s.setFld (pgPwg0 c) Reg.PWG_PER_ACT 22 0 (s.fld (pgPwg0 c) Reg.PWG_PER 22 0)).modPwm c
        (fun p => { p with perWritten := false, perByPort := false, perStale := false })
    else s
  let s2 := s1.forCh (fun s k => s.commitCh c tok k)
  let s3 := if per then s2.forCh (fun s k => s.clampCh c k) else s2
  (s3.raise (pgPwg0 c) 5).clearToken c

/-- Under `PAIRLOCK` a duty bit is missing for an enabled SHADOW-mode channel (R87 step 5). -/
def State.pairMissing (s : State) (c : Fin 8) (tok : BitVec 19) : Bool :=
  (List.finRange 18).any (fun (k : Fin 18) => s.chCtl c k 0 0 == 1 && !(s.ch c k).imm && !tok.getLsbD k)

/-- One commit point of a cluster (R87), at the apex or at a valley whose ideal DTB time is `ideal`. -/
def State.commitPoint (s : State) (c : Fin 8) (apex : Bool) (ideal : Nat) : State :=
  let tok0 := (s.pwm c).token
  if tok0 = 0 then s.staleCheck c
  else
    let per := tok0.getLsbD 18 && !s.isMember c
    if per && apex then (s.modPwm c (fun p => { p with perWait := true })).staleCheck c
    else
      let hp := s.fld (pgPwg0 c) Reg.PWG_PER 22 0
      let f := if per then s.periodCheck c hp ideal else .none
      if f ≠ .none then
        let s1 := (s.raise (pgPwg0 c) 3).clearToken c
        let s2 := (s1.raiseIf (f == .rate || f == .short) (pgFrm c) 3).raiseIf (f == .align) (pgFrm c) 4
        s2.staleCheck c
      else if per && s.rbit (pgPwg0 c) Reg.PWG_CTL 1 && s.pairMissing c tok0 then
        ((s.raise (pgPwg0 c) 1).clearToken c).staleCheck c
      else (s.commitAll c tok0 per).staleCheck c

/-! ## What the valley does to a channel (R80, R94, R99) -/

/-- Dead times and mode written since the last valley take effect. A shadow of a channel that turns IMMEDIATE-SAFE is
discarded; the shadows of one that turns to SHADOW load from the active values (R94). -/
def State.chLoad (s : State) (c : Fin 8) (k : Fin 18) : State :=
  let imm := s.chCtl c k 1 1 == 1
  let x := s.ch c k
  let s1 := s.modCh c k (fun x => { x with dtr := BitVec.ofNat 16 (s.fld (pgPwg0 c) (Reg.PWG_CH_DT k) 15 0)
                                           dtf := BitVec.ofNat 16 (s.fld (pgPwg0 c) (Reg.PWG_CH_DT k) 31 16)
                                           imm := imm })
  if imm && !x.imm then s1.modCh c k (fun x => { x with newU := none, newD := none, stale := false })
  else if !imm && x.imm then s1.modCh c k (fun x =>
    { x with shU := BitVec.ofNat 23 (s.fld (pgPwg0 c) (Reg.PWG_CH_CMPU_ACT k) 22 0)
             shD := BitVec.ofNat 23 (s.fld (pgPwg0 c) (Reg.PWG_CH_CMPD_ACT k) 22 0) })
  else s1

/-- A dead time that has elapsed by the exact time `t` puts its output on (R78). -/
def State.deadCatch (s : State) (c : Fin 8) (k : Fin 18) (t : Nat) : State :=
  match (s.ch c k).dead with
  | some (e, isH) => if e ≤ t then (s.modCh c k (fun x => { x with dead := none })).setOut c k isH (!isH) e else s
  | none => s

/-- What a half of the carrier that ends at the exact time `t` still has to do: its edge, and the dead times before `t` (R75, R78). -/
def State.halfCatch (s : State) (c : Fin 8) (t : Nat) (k : Fin 18) : State :=
  let x := s.ch c k
  let v := (s.car c).valley
  if (s.car c).phase == .up then
    let e := v + s.actU c k
    (if x.doneU then s else (s.deadCatch c k e).edgeU c k e).deadCatch c k t
  else
    let e := v + 2 * s.hp c - s.actD c k
    (if x.doneD || s.actD c k == 0 then s else (s.deadCatch c k e).edgeD c k e).deadCatch c k t

/-- A channel at a valley at the exact time `t`: trips and safe vector decide, the reference of the new period takes
its first level (R76), and the output stage takes the state of R95, restarting under R99. -/
def State.chValley (s : State) (c : Fin 8) (t : Nat) (k : Fin 18) : State :=
  let s1 := ((s.chLoad c k).cbcValley c k t).safeValley c k
  let r := s1.actU c k == 0 && decide (s1.actD c k < 2 * s1.hp c)
  let was := (s1.ch c k).mode
  let want := s1.wantMode c k
  let s2 := s1.modCh c k (fun x => { x with doneU := s1.actU c k == 0, doneD := false })
  if was == .running && want == .running then s2.setRef c k r t
  else if was == want then s2.modCh c k (fun x => { x with ref := r })
  else (s2.modCh c k (fun x => { x with ref := r })).enterMode c k want t

/-! ## Bus writes to the two pages -/

/-- A write of `PWG_CH_CTL` (R72, R94, R96); a channel enabled under a safe cause starts in its safe vector (R592). A write that the
page lock turns away is a write all the same: it makes the pin driven (R72). DESIGN CHOICE (log 67). -/
def State.chCtlWrite (s : State) (c : Fin 8) (k : Fin 18) (v mask : Word) : State :=
  let p := pgPwg0 c
  let off := Reg.PWG_CH_CTL k
  let old := s.reg p off
  let s1 := s.busReg p off v mask
  let pol := bitsOf (s1.reg p off) 6 5
  let refuse := bitOf old 0 && decide (pol ≠ bitsOf old 6 5)
  let s2 := if refuse then (s1.setFld p off 6 5 (bitsOf old 6 5)).raise p 8 else s1
  let s3 := s2.modCh c k (fun x => { x with driven := true, polH := s2.rbit p off 5, polL := s2.rbit p off 6 })
  let s4 := if s.running c then s3 else s3.chLoad c k
  let s5 := if !bitOf old 0 && s4.rbit p off 0 && s4.safeCaused c then s4.enterSafe c k false false else s4
  s5.settle c k s.now

/-- A write to a blanking unit's `PWG_BLK_CTL` or `PWG_BLK_SRC`; a write that turns the unit off closes its window at
once (R109). -/
def State.blkWrite (s : State) (c : Fin 8) (u : Fin 4) (off : Nat) (v mask : Word) : State :=
  let s1 := s.busReg (pgPwg1 c) off v mask
  let w := s1.reg (pgPwg1 c) (Reg.PWG_BLK_CTL u)
  if bitsOf w 6 5 = 0 ∨ bitsOf w 31 16 = 0 ∨ 18 ≤ bitsOf w 4 0 then s1.blankClose c u s.now else s1

/-- A write of `PWG_SAFE_CAUSE`: W1C, but for STOP while the STOP_N pin is low and BRIDGE while the bridge is down (R101). -/
def State.safeCauseWrite (s : State) (c : Fin 8) (stopLow bridgeDown : Bool) (v mask : Word) : State :=
  let keep : Word := (if stopLow then 1 else 0) ||| (if bridgeDown then 4 else 0)
  s.busReg (pgPwg0 c) Reg.PWG_SAFE_CAUSE (v &&& ~~~ keep) mask

/-- A compare register that a bus write of page 0 names: the channel, and whether it is CMPU. -/
def cmpAt (off : Nat) : Option (Fin 18 × Bool) :=
  match arrIdx 0x104 0x20 18 off with
  | some k => some (k, true)
  | none => (arrIdx 0x108 0x20 18 off).map (fun k => (k, false))

/-- A bus write of a period, a token or a compare at the time `t` (R83 to R86, R91). -/
def State.pwgTimed (s : State) (c : Fin 8) (off : Nat) (v mask : Word) (t : Nat) : State :=
  let val := bitsOf (fieldsWrite [⟨22, 0, .rw⟩] false v mask (s.reg (pgPwg0 c) off)) 22 0
  if off = Reg.PWG_PER then s.perWrite c false val
  else if off = Reg.PWG_TOKEN then s.modPwm c (fun q => { q with tokBus := q.tokBus ||| (v &&& mask).setWidth 19 })
  else match cmpAt off with
    | some (k, isU) => s.cmpBus c k isU val t
    | none => s

/-- A write waits no longer: the turn has taken place. -/
def State.lateDo (s : State) (c : Fin 8) : LateWrite → State
  | .bus t off v mask => s.pwgTimed c off v mask t
  | .duty i w => s.dutyTake c i w

/-- After a turn: what came on its clock edge, the duty-port words first (R22, R83, R92). -/
def State.lateAll (s : State) (c : Fin 8) : State :=
  let l := (s.pwm c).late
  let port : LateWrite → Bool := fun w => match w with | .duty .. => true | .bus .. => false
  (l.filter port ++ l.filter (fun w => !port w)).foldl (fun s w => s.lateDo c w) (s.modPwm c (fun p => { p with late := [] }))

/-- A write to page 0 of the generator. -/
def State.pwg0Write (s : State) (c : Fin 8) (stopLow bridgeDown : Bool) (off : Nat) (v mask : Word) : State :=
  let p := pgPwg0 c
  if off = Reg.PWG_PER ∨ off = Reg.PWG_TOKEN ∨ (cmpAt off).isSome then
    (if s.turnFirst c s.now then s.lateAdd c (.bus s.now off v mask) else s.pwgTimed c off v mask s.now)
  else if off = Reg.PWG_SAFE_SET then
    s.forCh (fun s k => if bitOf (v &&& mask) k then s.enterSafe c k false true else s)
  else if off = Reg.PWG_SAFE_REL then
    s.forCh (fun s k => if bitOf (v &&& mask) k then s.releaseCh c k else s)
  else if off = Reg.PWG_SAFE_CAUSE then s.safeCauseWrite c stopLow bridgeDown v mask
  else match arrIdx 0x100 0x20 18 off with
    | some k => s.chCtlWrite c k v mask
    | none =>
      let s1 := s.busReg p off v mask
      match arrIdx 0x114 0x20 18 off with
      | some k => if s.running c then s1 else s1.chLoad c k
      | none => s1

/-- A write to page 1 of the generator. -/
def State.pwg1Write (s : State) (c : Fin 8) (off : Nat) (v mask : Word) : State :=
  let p := pgPwg1 c
  if off = Reg.PWG_TRIP_CLR then s.forCh (fun s k => if bitOf (v &&& mask) k then s.tripClear c k else s)
  else match arrIdx 0x0C0 0x10 4 off with
    | some u => s.blkWrite c u off v mask
    | none => match arrIdx 0x0C4 0x10 4 off with
      | some u => s.blkWrite c u off v mask
      | none =>
        let s1 := s.busReg p off v mask
        if off = Reg.PWG_TRIP_SW ∨ off = Reg.PWG_TRIP_PINCFG ∨ off = Reg.PWG_TRIP_EGGRP ∨ (0x80 ≤ off ∧ off < 0xA0) then s1.tripSeeAll c
        else if 0x100 ≤ off ∧ off < 0x148 then s1.tripAgain c 0xFFFF s.now
        else s1

/-! ## Bus reads of the two pages -/

/-- `PWG_CH_STAT` (its fields mirror the channel's state). -/
def State.chStat (s : State) (c : Fin 8) (k : Fin 18) : Word :=
  let x := s.ch c k
  w32 (b2n (x.latched || x.cbc) + 2 * b2n x.latched + 4 * b2n x.safe + 8 * b2n x.written + 16 * b2n x.outH
    + 32 * b2n x.outL + 64 * b2n x.safeOvr + 128 * b2n x.safeSw)

/-- `PWG_CNT`: the count and the direction (R74). The counter is at 0 at the logic time of a valley, and at the whole-cycle part of HP
at that of the apex (R42). -/
def State.carCount (s : State) (c : Fin 8) : Word :=
  if !s.counting c then 0
  else
    let v := (s.car c).valley
    let hp := s.hp c / 128
    if (s.car c).phase == .up then w32 (min hp ((pwmFloor s.now - pwmFloor v) / 128))
    else w32 (hp - (pwmFloor s.now - pwmFloor (v + s.hp c)) / 128 + 0x10000)

/-- A read of page 0 of the generator. -/
def State.pwg0Read (s : State) (c : Fin 8) (off : Nat) : Word :=
  let p := pgPwg0 c
  if off = Reg.PWG_STAT then
    w32 (b2n (s.running c) + 2 * b2n (s.isMember c) + 4 * b2n ((s.pwm c).token != 0) + 8 * b2n (s.pwm c).perWait)
  else if off = Reg.PWG_PER ∧ s.isMember c then w32 (s.hp (s.leaderOf c))
  else if off = Reg.PWG_TOKEN_PEND then (s.pwm c).token.setWidth 32
  else if off = Reg.PWG_CNT then s.carCount c
  else if off = Reg.PWG_SAFE_STAT then
    w32 ((List.finRange 18).foldl (fun a (k : Fin 18) => a + b2n (s.ch c k).safe * 2 ^ k.val) 0)
  else if off = Reg.PWG_SAFE_CAUSE then putBits (s.busRead p off) 1 1 (b2n (s.rbit pgDtb Reg.DTB_STAT 3))
  else match arrIdx 0x118 0x20 18 off with
    | some k => s.chStat c k
    | none => s.busRead p off

/-! ## Soft resets (R592, R593) -/

/-- A soft reset of page 0: registers and block state return to reset, but for the polarities, the safe causes and,
while the carrier runs, the active half-period. Channels stay in their safe vectors while a cause stands. DEDUCED (log 39). -/
def State.pwg0SoftReset (s : State) (c : Fin 8) : State :=
  let p := pgPwg0 c
  let hp := s.reg p Reg.PWG_PER_ACT
  let cause := s.reg p Reg.PWG_SAFE_CAUSE
  let s1 := (s.clearRegs p 0x40 0x1000).setReg p Reg.PWG_SAFE_CAUSE cause
  let s2 := if s.running c then s1.setReg p Reg.PWG_PER_ACT hp else s1
  let s3 := s2.modPwm c (fun q => { q with tokBus := 0, tokEng := Vector.replicate 8 0, perWritten := false
                                           perByPort := false, perStale := false, perWait := false, late := [] })
  s3.forCh (fun s k =>
    let x := s.ch c k
    let s4 := s.modCh c k (fun x => { x with
      shU := 0x7FFFFF, shD := 0x7FFFFF, newU := none, newD := none, stale := false, imm := false, safeOvr := false
      safeSw := false, safe := s.safeCaused c, safeBack := false, relPend := false, ownerBack := false, dtr := 0x0A00, dtf := 0x0A00 })
    (s4.setFld p (Reg.PWG_CH_CTL k) 6 5 (b2n x.polH + 2 * b2n x.polL)).enterMode c k .stopped s.now)

/-- A soft reset of page 1: every source is ignored, latches, cycle-by-cycle periods and windows end; a channel that was
tripped leaves at the next valley, both its outputs inactive until then (R593). -/
def State.pwg1SoftReset (s : State) (c : Fin 8) : State :=
  let src := s.reg (pgPwg1 c) Reg.PWG_TRIP_SRC
  let s1 := ((s.clearRegs (pgPwg1 c) 0x40 0x1000).setReg (pgPwg1 c) Reg.PWG_TRIP_SRC src).modPwm c
    (fun q => { q with blk := Vector.replicate 4 none })
  (s1.forCh (fun s k =>
    let s2 := s.modCh c k (fun x => { x with latched := false, cbc := false })
    if (s.ch c k).mode == .tripped then s2.bothOff c k s.now else s2)).tripSeeAll c

/-! ## The level of a PWM pin (R71, R72) -/

/-- The level of output H (or L) of a channel: none while undriven, else from the polarity. -/
def State.pwmPin (s : State) (c : Fin 8) (k : Fin 18) (isH : Bool) : Option Bool :=
  let x := s.ch c k
  if !x.driven then none
  else
    let pol := if isH then x.polH else x.polL
    let act := if s.domOn (66 + 5 * c.val) then (if isH then x.outH else x.outL) else false
    some (act != pol)

end Sys2Proof.Machine
end

