-- ==== Sys2Proof/Machine/Guard.lean ====
section
/-! DEFINITION. The energy guards (R460 to R465) and the general I/O of the field pins (R575 to R577). -/

namespace Sys2Proof.Machine

/-- Change one guard. -/
def State.modGuard (s : State) (n : Fin 8) (f : Guard → Guard) : State := { s with guards := s.guards.set n (f s.guards[n]) }

/-- Every cluster sees its trip sources again. -/
def State.tripSeeClusters (s : State) : State := (List.finRange 8).foldl (fun s c => s.tripSeeAll c) s

/-- `WIN` as it acts (Table: EG page). -/
def State.egWin (s : State) (n : Fin 8) : Nat := clampNat 10 100000 (s.fld pgEg (Reg.EG_WIN n) 16 0)

/-- The window energy E (R461). -/
def State.egEnergy (s : State) (n : Fin 8) : Nat := (s.guards[n].win.take (s.egWin n)).sum

/-- `ELIM`. -/
def State.egElim (s : State) (n : Fin 8) : Nat :=
  (s.reg pgEg (Reg.EG_ELIM_LO n)).toNat + 2 ^ 32 * s.fld pgEg (Reg.EG_ELIM_HI n) 15 0

/-- The switch is on. -/
def State.egOn (s : State) (n : Fin 8) : Bool := s.rbit pgEg (Reg.EG_ST n) 0

/-- A guard cuts its switch; its trip groups see it (R462). DEDUCED (log 50). -/
def State.egCut (s : State) (n : Fin 8) (why : Nat) : State :=
  let s1 := ((s.setBit pgEg (Reg.EG_ST n) 0 false).setBit pgEg (Reg.EG_ST n) 1 true).setFld pgEg (Reg.EG_ST n) 4 3 why
  ((s1.count pgEg (Reg.EG_CUT_CNT n) 15 0).raise pgEg 0).tripSeeClusters

/-- A guard samples every 100 ns (R461): the next sample is due 100 ns after the last. -/
def State.egDue (s : State) (n : Fin 8) : State :=
  match s.guards[n].samp with
  | some t => s.advance (t + 2560)
  | none => s

/-- One sample: current code `i`, already 0 where negative, and voltage code `v` (R461, R462). DEDUCED (log 50). -/
def State.egSample (s : State) (n : Fin 8) (i v : BitVec 12) : State :=
  if !s.domOn 145 then s
  else
    let s0 := s.egDue n
    let s1 := (s0.setReg pgEg (Reg.EG_MEAS n) (w32 (i.toNat + 65536 * v.toNat))).modGuard n
      (fun g => { g with win := (v.toNat * i.toNat :: g.win).take 100000
                         samp := some (match g.samp with | some t => t + 2560 | none => s0.now) })
    if !s1.egOn n then s1
    else if s1.egElim n < s1.egEnergy n then s1.egCut n 1
    else if s1.fld pgEg (Reg.EG_ILIM n) 11 0 < i.toNat then s1.egCut n 2
    else s1

/-- A cable check begins, to switch on if it passes or not (R463, R465). -/
def State.egCheck (s : State) (n : Fin 8) (on : Bool) : State :=
  (s.modGuard n (fun g => { g with check := some (on || g.check == some true) })).setBit pgEg (Reg.EG_ST n) 2 true

/-- `EG_CMD.ON` (R463). -/
def State.egCmdOn (s : State) (n : Fin 8) : State :=
  if s.rbit pgEg (Reg.EG_ST n) 1 then s.raise pgEg 2
  else if s.egOn n then s
  else if s.rbit pgEg (Reg.EG_CTL n) 0 then s.egCheck n true
  else s.setBit pgEg (Reg.EG_ST n) 0 true

/-- `EG_CMD.OFF` (R463): the switch opens without a cut, and a check that runs no longer switches it on. -/
def State.egCmdOff (s : State) (n : Fin 8) : State :=
  (s.setBit pgEg (Reg.EG_ST n) 0 false).modGuard n (fun g => { g with check := g.check.map (fun _ => false) })

/-- `EG_CMD.CLR` (R463). -/
def State.egCmdClr (s : State) (n : Fin 8) : State :=
  if s.egElim n < s.egEnergy n then s.raise pgEg 2 else (s.setBit pgEg (Reg.EG_ST n) 1 false).tripSeeClusters

/-- `EG_CMD.CHECK` (R465): it runs with the switch open. DEDUCED (log 50). -/
def State.egCmdCheck (s : State) (n : Fin 8) : State := if s.egOn n then s else s.egCheck n false

/-- A write of `EG_CMD`: CLR, then ON, CHECK and OFF of the bits set. DEDUCED (log 50). -/
def State.egCmd (s : State) (n : Fin 8) (v : Word) : State :=
  let s1 := if bitOf v 2 then s.egCmdClr n else s
  let s2 := if bitOf v 0 then s1.egCmdOn n else s1
  let s3 := if bitOf v 3 then s2.egCmdCheck n else s2
  if bitOf v 1 then s3.egCmdOff n else s3

/-- A cable check ends (R465): EG_CT stood at 50 mV or more at its start, the rise in codes of 1.6 V / 4096, and the time in ns after
which a test that reached 1.5 V, 3840 codes, stopped; any other lasts `TCH`. DEDUCED (log 50). -/
def State.egCheckDone (s : State) (n : Fin 8) (live : Bool) (dv : Nat) (tns : Nat) : State :=
  match s.guards[n].check with
  | none => s
  | some on =>
    let s1 := (s.modGuard n (fun g => { g with check := none })).setBit pgEg (Reg.EG_ST n) 2 false
    let fail (s : State) (r : Nat) : State := (s.setFld pgEg (Reg.EG_ST n) 6 5 r).raise pgEg 1
    let tch := 1000 * max 1 (s.fld pgEg (Reg.EG_CTL n) 15 8)
    let t := if dv < 3840 then tch else min tns tch
    let dv := min dv 3840
    if live then fail s1 1
    else if dv < 16 then fail s1 2
    else
      let cur := if s.rbit pgEg (Reg.EG_CTL n) 1 then 1000 else 100
      let pf := cur * t * 2560 / (dv * 1000)
      let mv := s.fld pgEg (Reg.EG_CCFG n) 15 0
      let nj := pf * (mv * mv) / 2000000000
      let s2 := (s1.setReg pgEg (Reg.EG_CAP n) (w32 (min pf 0xFFFFFF))).setReg pgEg (Reg.EG_ESTORE n) (w32 (min nj 0xFFFFFFFF))
      if (s.reg pgEg (Reg.EG_CBUDGET n)).toNat < nj then fail s2 3
      else
        let s3 := s2.setFld pgEg (Reg.EG_ST n) 6 5 0
        if on then s3.setBit pgEg (Reg.EG_ST n) 0 true else s3

/-! ## General I/O (R576, R577) -/

/-- A `SEL` bit that may not be set (R576): an enabled SDM input, the SDM clock output in use, a TRIP pin in use. -/
def State.fioInUse (s : State) (c : Fin 8) (b : Nat) : Bool :=
  if b < 4 then (List.finRange 18).any (fun (k : Fin 18) => s.chCtl c k 0 0 == 1 && s.tripMode c k b != 0)
  else if b < 16 then s.rbit (pgSdm c) (Reg.SDM_CTL (b - 4)) 0
  else if b < 28 then s.rbit (pgSdm c) (Reg.SDM_CTL (b - 16)) 0
  else s.rbit (pgSdm c) Reg.SDM_CKO 0

/-- A write of `FIO_SEL` (R576): refused bit by bit. -/
def State.fioSelWrite (s : State) (c : Fin 8) (v mask : Word) : State :=
  let old := s.reg pgEg (Reg.FIO_SEL c)
  let bad : Word := (List.range 29).foldl (fun w b =>
    if bitOf (v &&& mask) b && !bitOf old b && s.fioInUse c b then w ||| w32 (2 ^ b) else w) 0
  let locked := s.rbit pgEg Reg.PAGE_LOCK 0
  let s1 := (s.lockMark pgEg (Reg.FIO_SEL c) v mask).busReg pgEg (Reg.FIO_SEL c) (v &&& ~~~ bad) mask
  (s1.raiseIf (bad != 0 && !locked) pgEg 3).tripSeeAll c

/-- Block effects of a write to the `EG` page. -/
def State.egWrite (s : State) (off : Nat) (v mask : Word) : State :=
  match arrIdx 0x114 0x40 8 off with
  | some n => s.egCmd n (v &&& mask)
  | none => match arrIdx 0x104 0x40 8 off with
    | some n => if s.egOn n || s.guards[n].check.isSome then (s.lockMark pgEg off v mask).raise pgEg 3 else s.busReg pgEg off v mask
    | none => match arrIdx 0x300 0x10 8 off with
      | some c => s.fioSelWrite c v mask
      | none => s.busReg pgEg off v mask

/-- The levels of a cluster's general I/O pins: driven outputs, the TRIP pins, and for the rest a free value. -/
def State.fioPins (s : State) (c : Fin 8) : Word :=
  let drive := s.reg pgEg (Reg.FIO_SEL c) &&& s.reg pgEg (Reg.FIO_OE c)
  let ext : Word := (Config.pinIn c s.free &&& 0x1FFFFFF0) ||| ((s.pwm c).tripPin.setWidth 32)
  (drive &&& s.reg pgEg (Reg.FIO_OUT c)) ||| (~~~ drive &&& ext)

/-- A read of the `EG` page: `EG_E_LO` latches `EG_E_HI` for the initiator (R468). -/
def State.egRead (s : State) (i : Initiator) (off : Nat) : State × Word :=
  if off = Reg.EG_STAT then
    (s, (List.range 8).foldl (fun w n => w ||| w32 (2 ^ n * b2n (s.rbit pgEg (Reg.EG_ST n) 0) + 2 ^ (8 + n) * b2n (s.rbit pgEg (Reg.EG_ST n) 1)
      + 2 ^ (16 + n) * b2n (s.rbit pgEg (Reg.EG_ST n) 2))) 0)
  else match arrIdx 0x120 0x40 8 off with
    | some n => (s.setSnap i pgEg (Reg.EG_E_HI n) (w32 (s.egEnergy n / 2 ^ 32)), w32 (s.egEnergy n))
    | none => match arrIdx 0x124 0x40 8 off with
      | some _ => (s, s.snap i pgEg off)
      | none => match arrIdx 0x30C 0x10 8 off with
        | some c => (s.draw, s.fioPins c)
        | none => (s, s.busRead pgEg off)

/-- The guards are cut by a reset (R453): a switch that was on records it. -/
def State.egReset (s : State) : State :=
  (List.finRange 8).foldl (fun t (n : Fin 8) =>
    let t1 := t.modGuard n (fun _ => Guard.init)
    if s.egOn n then t1.egCut n 3 else t1) (s.clearRegs pgEg 0x8 0x1000)

/-- A soft reset of the `EG` page: the guards open and the registers return (R13). -/
def State.egSoftReset (s : State) : State :=
  ({ s with guards := Vector.replicate 8 Guard.init }.clearRegs pgEg 0x40 0x1000).tripSeeClusters

end Sys2Proof.Machine
end

