-- ==== Sys2Proof/Machine/Dtb.lean ====
section
/-! DEFINITION. The device time base and the DTB page (02_frames_and_time.md, R34 to R40, R51, R64 to R69, R591). -/

namespace Sys2Proof.Machine

/-- Some cluster's `FRM_STAT.RUNNING` is 1: `DTB_STAT.CARRUN` (R40, R47). -/
def State.carRun (s : State) : Bool := (List.finRange 8).any (fun (c : Fin 8) => s.running c)

/-- `DTB_CTL.SRC` as it acts (R64). -/
def State.src (s : State) : Nat := let v := s.fld pgDtb Reg.DTB_CTL 1 0; if v = 3 then 0 else v

/-- A refused command of the time base (R40, R64, R65, R591). -/
def State.stepRefused (s : State) : State := s.raise pgDtb 2

/-- A 64-bit value from a LO and a HI register of the DTB page. -/
def State.dtb64 (s : State) (lo hi : Nat) : DWord := (s.reg pgDtb hi) ++ (s.reg pgDtb lo)

/-- LOAD: the integer part from `DTB_SET`, the fraction 0 (R40). -/
def State.dtbLoad (s : State) : State :=
  if s.carRun then s.stepRefused
  else
    let s := s.dtbPast
    { s with time := { s.time with ns := s.dtb64 Reg.DTB_SET_LO Reg.DTB_SET_HI, frac := 0 } }

/-- STEP: the signed `DTB_STEP` is added to the integer part; crossing 2^64 in either direction is a wrap (R37, R40). -/
def State.dtbStep (s : State) : State :=
  if s.carRun then s.stepRefused
  else
    let s := s.dtbPast
    let n : Int := s.time.ns.toNat + (s.reg pgDtb Reg.DTB_STEP).toInt
    let s1 := { s with time := { s.time with ns := BitVec.ofInt 64 n } }
    s1.raiseIf (decide (n < 0 ∨ 2 ^ 64 ≤ n)) pgDtb 0

/-- MFLOAD: the MFN from `DTB_MFNSET`, the start of that machine frame from `DTB_SET`; ignored with `SRC` = 1 (R51). DEDUCED (log 37). -/
def State.dtbMfload (s : State) : State :=
  if s.src = 1 then s
  else if s.carRun then s.stepRefused
  else
    let mfn := BitVec.ofNat 48 ((s.reg pgDtb Reg.DTB_MFNSET_LO).toNat + s.fld pgDtb Reg.DTB_MFNSET_HI 15 0 * 2 ^ 32)
    { s with time := { s.time with mfn := mfn, mft := s.dtb64 Reg.DTB_SET_LO Reg.DTB_SET_HI } }

/-- TLCLR: clears `TLOST`, refused while `TLOCK` is 0 (R65). -/
def State.dtbTlclr (s : State) : State :=
  if s.rbit pgDtb Reg.DTB_STAT 1 then s.setBit pgDtb Reg.DTB_STAT 3 false else s.stepRefused

/-- A PTM dialog becomes due: it starts only while the host has set PTM Enable, else `PTM_FAIL` (R67, R503). -/
def State.ptmStart (s : State) : State :=
  if s.rbit pgCxl Reg.CXL_STAT 12 then { s with time := { s.time with ptmBusy := true } } else s.raise pgDtb 6

/-- The commands named in a write of `DTB_CMD`, in the order of their bits. -/
def State.dtbCmd (s : State) (v : Word) : State :=
  let s := if bitOf v 0 then s.dtbLoad else s
  let s := if bitOf v 1 then s.dtbStep else s
  let s := if bitOf v 2 then s.dtbTlclr else s
  let s := if bitOf v 3 then s.ptmStart else s
  if bitOf v 4 then s.dtbMfload else s

/-- Discipline ends or begins afresh: `TLOCK` and `HOLD` clear; with a source selected the first message loads the DTB (R64). -/
def State.discipline (s : State) (load : Bool) : State :=
  let s1 := (s.setBit pgDtb Reg.DTB_STAT 1 false).setBit pgDtb Reg.DTB_STAT 2 false
  { s1 with time := { s1.time with loadPend := load, lockRun := 0, lastMsg := s.time.clk, heldLost := false, ptmFirst := none } }

/-- A write of `DTB_CTL` (R64). -/
def State.dtbCtlWrite (s : State) (v mask : Word) : State :=
  let old := s.fld pgDtb Reg.DTB_CTL 1 0
  let s1 := s.busReg pgDtb Reg.DTB_CTL v mask
  let new := s1.fld pgDtb Reg.DTB_CTL 1 0
  if old = new then s1
  else if s.carRun then (s1.setFld pgDtb Reg.DTB_CTL 1 0 old).stepRefused
  else s1.discipline (decide (s1.src ≠ 0))

/-- A write of `DTB_INC`: clamped to ±500 ppm, ignored while discipline owns it (R35, R36). -/
def State.dtbIncWrite (s : State) (v mask : Word) : State :=
  if s.src ≠ 0 then s
  else
    let w := (fieldsWrite [⟨31, 0, .rw⟩] false v mask (s.reg pgDtb Reg.DTB_INC)).toNat
    let n := clampNat Config.incMin Config.incMax w
    (s.dtbPast.setReg pgDtb Reg.DTB_INC (w32 n)).raiseIf (decide (n ≠ w)) pgDtb 1

/-- A write of `DTB_MFP`: clamped; it applies from the next boundary; on the root of a fabric from the first one at least 100 µs
after the write (R561); read-only with `SRC` = 1 (R51). -/
def State.dtbMfpWrite (s : State) (v mask : Word) : State :=
  if s.src = 1 then s
  else
    let s1 := s.busReg pgDtb Reg.DTB_MFP v mask
    let s2 := s1.setFld pgDtb Reg.DTB_MFP 23 0 (clampNat 10000 10000000 (s1.fld pgDtb Reg.DTB_MFP 23 0))
    { s2 with time := { s2.time with mfpDue := if s.rbit pgStr Reg.STR_STAT 8 then s.time.clk + 160000 else 0 } }

/-- A soft reset of the DTB page (R591): refused while a carrier runs; its registers, the PTM offset and every initiator's
snapshots among them, return to 0; it never touches the time base itself. -/
def State.dtbSoftReset (s : State) : State :=
  if s.carRun then s.stepRefused
  else
    let lost := s.rbit pgDtb Reg.DTB_STAT 3
    let s1 := ((s.dtbPast.clearRegs pgDtb 0x40 0x1000).setBit pgDtb Reg.DTB_STAT 3 lost).clearSnaps pgDtb
    { s1 with time := { s1.time with ptmOfs := 0 } }.discipline false

/-- Block effects of a write to the DTB page. -/
def State.dtbWrite (s : State) (off : Nat) (v mask : Word) : State :=
  if off = Reg.DTB_CTL then s.dtbCtlWrite v mask
  else if off = Reg.DTB_INC then s.dtbIncWrite v mask
  else if off = Reg.DTB_CMD then s.dtbCmd (v &&& mask)
  else if off = Reg.DTB_MFP then s.dtbMfpWrite v mask
  else if off = Reg.DTB_PTM_CTL then
    let s1 := s.busReg pgDtb off v mask
    s1.setFld pgDtb off 9 0 (clampNat 1 1000 (s1.fld pgDtb off 9 0))
  else s.busReg pgDtb off v mask

/-- The low half of a DTB value in units of 2^-32 ns, read with its high half and fraction latched (R38). -/
def State.latchDtb (s : State) (i : Initiator) (p : PageId) (hi frac v : Nat) : State × Word :=
  let ns := BitVec.ofNat 64 (v / 2 ^ 32)
  ((s.setSnap i p hi (BitVec.ofNat 32 (ns.toNat / 2 ^ 32))).setSnap i p frac (BitVec.ofNat 32 v), ns.setWidth 32)

/-- A read of the DTB page (R38, R51, R67). -/
def State.dtbRead (s : State) (i : Initiator) (off : Nat) : State × Word :=
  if off = Reg.DTB_NS_LO then s.latchDtb i pgDtb Reg.DTB_NS_HI Reg.DTB_FRAC s.dtb
  else if off = Reg.DTB_NS_HI ∨ off = Reg.DTB_FRAC ∨ off = Reg.DTB_MFN_HI ∨ off = Reg.DTB_MFT_LO ∨ off = Reg.DTB_MFT_HI
      ∨ off = Reg.DTB_PTM_OFS_HI then (s, s.snap i pgDtb off)
  else if off = Reg.DTB_MFN_LO then
    (((s.setSnap i pgDtb Reg.DTB_MFN_HI (BitVec.ofNat 32 (s.time.mfn.toNat / 2 ^ 32))).setSnap i pgDtb Reg.DTB_MFT_LO
        (s.time.mft.setWidth 32)).setSnap i pgDtb Reg.DTB_MFT_HI (BitVec.ofNat 32 (s.time.mft.toNat / 2 ^ 32)),
      s.time.mfn.setWidth 32)
  else if off = Reg.DTB_PTM_OFS_LO then
    (s.setSnap i pgDtb Reg.DTB_PTM_OFS_HI (BitVec.ofNat 32 (s.time.ptmOfs.toNat / 2 ^ 32)), s.time.ptmOfs.setWidth 32)
  else if off = Reg.DTB_STAT then (s, putBits (s.busRead pgDtb off) 0 0 (b2n s.carRun))
  else (s, s.busRead pgDtb off)

/-- Time loss (R65): every output to its safe vector, `TLOST`, the event and the count. -/
def State.timeLoss (s : State) : State :=
  let s1 := (s.setBit pgDtb Reg.DTB_STAT 3 true).raise pgDtb 3
  ((s1.count pgDtb Reg.DTB_TLOST_CNT 7 0).safeAll none)

/-- The discipline takes one update whose offset is `ofs`, in units of 2^-4 ns (R64): the increment is the servo's, within
the clamp of R35, and sixteen successive offsets within ±20 ns lock it. DEDUCED (log 37). DESIGN CHOICE (log 6). -/
def State.servo (s : State) (ofs : Int) : State :=
  let inc := clampNat Config.incMin Config.incMax (Config.servoInc ofs s.inc s.free)
  let s1 := (s.dtbPast.draw).setReg pgDtb Reg.DTB_INC (w32 inc)
  let run := if ofs.natAbs ≤ 320 then s.time.lockRun + 1 else 0
  let was := s.rbit pgDtb Reg.DTB_STAT 1
  let lock := if run = 0 then false else was || decide (16 ≤ run)
  let s2 := { s1 with time := { s1.time with lockRun := run } }
  (s2.setBit pgDtb Reg.DTB_STAT 1 lock).raiseIf (lock && !was) pgDtb 4

/-- A valid reference time `ref` (in units of 2^-32 ns) arrives: the first one after `SRC` was selected loads the DTB
while no carrier runs, every other one disciplines the increment (R64, R65). -/
def State.timeMessage (s : State) (ref : Nat) : State :=
  let s0 := (s.setBit pgDtb Reg.DTB_STAT 2 false)
  let s1 := { s0 with time := { s0.time with lastMsg := s.time.clk, heldLost := false } }
  if s.time.loadPend && !s.carRun then { s1.dtbPast with time := { s1.dtbPast.time.setDtb ref with loadPend := false } }
  else
    let d : Int := ((ref : Int) - (s.dtb : Int)) / 2 ^ 28
    { s1 with time := { s1.time with loadPend := false } }.servo d

end Sys2Proof.Machine
end

