-- ==== Sys2Proof/Machine/Frame.lean ====
section
/-! DEFINITION. The carriers' schedule and the FRM pages (02_frames_and_time.md, R41 to R62, R596): starting and
stopping, lock groups, the refusals, and what the pages read. The ticks themselves are in FrameEvents. -/

namespace Sys2Proof.Machine

/-- Ideal DTB time of the first point of the schedule `base + k × period` (in units of 2^-32 ns, modulo the wrap, R37) whose instant
lies at or after `from_`. -/
def State.firstOn (s : State) (base period from_ : Nat) : Nat :=
  let d : Int := ((s.dtbAt from_ : Int) - (base : Int)) % (2 ^ 96 : Int)
  let d := if (2 ^ 95 : Int) ≤ d then d - 2 ^ 96 else d
  let k := if d ≤ 0 then 0 else (d.toNat + period - 1) / period
  let v := (base + k * period) % 2 ^ 96
  if s.timeOf v < from_ then (v + period) % 2 ^ 96 else v

/-- Period of a schedule in units of 2^-32 ns. -/
def periodFrac (hp : Nat) : Nat := 2 * hp * Config.stepFrac

/-- The running member of the group of `c` whose schedule a restarted leader takes (R46). -/
def State.runningMember (s : State) (c : Fin 8) : Option (Fin 8) :=
  if s.lgrp c = 0 then none
  else (List.finRange 8).find? (fun d => d != c && s.lgrp d == s.lgrp c && (s.counting d || (s.car d).phase == .starting))

/-- A cluster takes a period that its lock group holds, and its compares are clamped to it (R45, R46, R89). -/
def State.takePeriod (s : State) (c : Fin 8) (hp : Nat) : State :=
  (s.setFld (pgPwg0 c) Reg.PWG_PER_ACT 22 0 hp).forCh (fun s k => s.clampCh c k)

/-- Fix the first valley of a carrier at the ideal DTB time `ideal`, no earlier than `from_` (R47). -/
def State.schedule (s : State) (c : Fin 8) (ideal t from_ : Nat) : State :=
  s.modCar c (fun x => { x with phase := .starting, ideal := ideal, turn := t, nextValley := t, earliest := from_, ticked := false
                                nextTick := pwmFloor t, lead := s.leadReg c * 128, stopPend := false, restart := none
                                deadlined := true })

/-- A start is refused: `RUN` clears and an event is raised (R49, R52). -/
def State.startRefused (s : State) (c : Fin 8) (bit : Nat) : State :=
  ((s.setBit (pgFrm c) Reg.FRM_CTL 0 false).raise (pgFrm c) bit).modCar c (fun x => { x with phase := .stopped, restart := none })

/-- A group member whose leader runs fixes its first valley at or after `from_`, checked under R52. -/
def State.startMember (s : State) (c : Fin 8) (from_ : Nat) : State :=
  let l := s.leaderOf c
  let hp := s.hp l
  let base := (s.car l).ideal + s.phaseSteps c hp * Config.stepFrac
  let ideal := s.firstOn base (periodFrac hp) from_
  if s.mfalign c && !(divides (s.tmode c) hp s.mfpReg && s.onBoundary (s.tmode c) hp ideal) then s.startRefused c 4
  else (s.takePeriod c hp).schedule c ideal (s.timeOf ideal) from_

/-- Members that wait for a leader start with it (R47, R52). -/
def State.startWaiting (s : State) (l : Fin 8) : State :=
  (List.finRange 8).foldl (fun s (d : Fin 8) =>
    if d ≠ l ∧ (s.car d).phase = .waitLeader ∧ s.leaderOf d = l then s.startMember d (s.car l).turn else s) s

/-- Start a carrier whose first valley may lie no earlier than `from_` (R47, R49, R52). -/
def State.startAt (s : State) (c : Fin 8) (from_ : Nat) : State :=
  let l := s.leaderOf c
  let hp := if s.isMember c then s.hp l else match s.runningMember c with | some m => s.hp m | none => s.hp c
  if !rateOk (s.tmode c) hp (s.leadReg c) then s.startRefused c 3
  else if s.isMember c then
    if s.running l && (s.car l).phase != .waitLeader then s.startMember c from_
    else s.modCar c (fun x => { x with phase := .waitLeader, restart := none })
  else match s.runningMember c with
    | some m =>
      let hp := s.hp m
      let base := ((s.car m).ideal + 2 ^ 96 - s.phaseSteps m hp * Config.stepFrac) % 2 ^ 96
      let ideal := s.firstOn base (periodFrac hp) from_
      if s.mfalign c && !(divides (s.tmode c) hp s.mfpReg && s.onBoundary (s.tmode c) hp ideal) then s.startRefused c 4
      else ((s.takePeriod c hp).schedule c ideal (s.timeOf ideal) from_).startWaiting c
    | none =>
      if s.mfalign c then
        if !divides (s.tmode c) hp s.mfpReg then s.startRefused c 4
        else
          let b0 := (s.time.mft.toNat + s.time.mfp) * 2 ^ 32 % 2 ^ 96
          let ideal := s.firstOn b0 (s.mfpReg * 2 ^ 32) from_
          (s.schedule c ideal (s.timeOf ideal) from_).startWaiting c
      else
        let t := pwmCeil from_
        (s.schedule c (s.dtbAt t) t from_).startWaiting c

/-- `RUN` = 1 (R47, R48): at least 1 µs ahead; while a stop is pending the start waits for it. -/
def State.carStart (s : State) (c : Fin 8) : State :=
  let x := s.car c
  if x.phase = .stopped then s.startAt c (s.now + Config.usSteps)
  else if x.stopPend then s.modCar c (fun x => { x with restart := some (s.now + Config.usSteps) })
  else s

/-- Members whose first valley a leader's start had fixed wait again when that start is cancelled. DEDUCED (log 35). -/
def State.membersWait (s : State) (l : Fin 8) : State :=
  (List.finRange 8).foldl (fun s (d : Fin 8) =>
    if d ≠ l ∧ (s.car d).phase = .starting ∧ s.leaderOf d = l then s.modCar d (fun x => { x with phase := .waitLeader }) else s) s

/-- A carrier that has not reached its first valley is stopped: modes written meanwhile and writes that waited for the valley take
effect (R83, R94). DEDUCED (log 35). -/
def State.startCancelled (s : State) (c : Fin 8) : State :=
  ((s.modCar c (fun x => { x with phase := .stopped })).forCh (fun s k => s.chLoad c k)).lateAll c

/-- `RUN` = 0 (R47, R48): a start that is pending is cancelled at once, a running carrier stops at the next valley. -/
def State.carStop (s : State) (c : Fin 8) : State :=
  match (s.car c).phase with
  | .stopped => s
  | .waitLeader => s.startCancelled c
  | .starting => (s.startCancelled c).membersWait c
  | .up | .down => s.modCar c (fun x => { x with stopPend := true, restart := none })

/-- A write of `FRM_CTL` (R46 to R48). -/
def State.frmCtlWrite (s : State) (c : Fin 8) (v mask : Word) : State :=
  let p := pgFrm c
  let old := s.reg p Reg.FRM_CTL
  let s1 := s.busReg p Reg.FRM_CTL v mask
  let s2 := if 4 < s1.fld p Reg.FRM_CTL 5 3 then s1.setFld p Reg.FRM_CTL 5 3 0 else s1
  let s3 := if s.running c && s2.fld p Reg.FRM_CTL 6 1 != bitsOf old 6 1 then
      (s2.setFld p Reg.FRM_CTL 6 1 (bitsOf old 6 1)).raise p 5 else s2
  if !bitOf mask 0 then s3
  else if bitOf v 0 then s3.carStart c else s3.carStop c

/-- A write of `FRM_PHASE`: refused where it would change it under a running carrier (R46). -/
def State.frmPhaseWrite (s : State) (c : Fin 8) (v mask : Word) : State :=
  let p := pgFrm c
  let s1 := s.busReg p Reg.FRM_PHASE v mask
  if s.running c && s1.reg p Reg.FRM_PHASE != s.reg p Reg.FRM_PHASE then
    (s1.setReg p Reg.FRM_PHASE (s.reg p Reg.FRM_PHASE)).raise p 5
  else s1

/-- A write of `FRM_LEAD`: above 800 it is 800, and it is refused where it leaves no room for a foreground (R54). DEDUCED (log 36). -/
def State.frmLeadWrite (s : State) (c : Fin 8) (v mask : Word) : State :=
  let p := pgFrm c
  let s1 := s.busReg p Reg.FRM_LEAD v mask
  let s2 := s1.setFld p Reg.FRM_LEAD 9 0 (min 800 (s1.fld p Reg.FRM_LEAD 9 0))
  match tickPeriod (s.tmode c) (s.hp c) with
  | some per =>
    if per ≤ s2.leadReg c * 128 + 3584 then (s2.setReg p Reg.FRM_LEAD (s.reg p Reg.FRM_LEAD)).raise p 3 else s2
  | none => s2

/-- Block effects of a write to an FRM page. -/
def State.frmWrite (s : State) (c : Fin 8) (off : Nat) (v mask : Word) : State :=
  let p := pgFrm c
  if off = Reg.FRM_CTL then s.frmCtlWrite c v mask
  else if off = Reg.FRM_PHASE then s.frmPhaseWrite c v mask
  else if off = Reg.FRM_LEAD then s.frmLeadWrite c v mask
  else if off = Reg.FRM_FCNT then if s.running c then s else s.busReg p off v mask
  else match arrIdx 0x100 4 8 off with
    | some _ => s.setReg p off 0
    | none => s.busReg p off v mask

/-- The deadline of the frame in progress: the next tick minus t_lead minus 40 ns (R54). -/
def State.deadline (s : State) (c : Fin 8) : Nat := (s.car c).nextTick - (s.car c).lead - 1024

/-- A read of an FRM page (R39, R53). `FRM_NEXT_TICK` and `FRM_DEADLINE` read 0 while the carrier is stopped, and the times last
fixed while no tick is scheduled. DESIGN CHOICE (log 69). -/
def State.frmRead (s : State) (i : Initiator) (c : Fin 8) (off : Nat) : State × Word :=
  let p := pgFrm c
  let x := s.car c
  if off = Reg.FRM_STAT then
    (s, w32 (b2n (s.running c) + 2 * b2n (x.phase == .waitLeader) + 4 * b2n (s.lgrp c != 0 && s.leaderOf c == c)
      + 8 * s.fld p off 3 3))
  else if off = Reg.FRM_TICK_DTB_LO then
    ((((s.setSnap i p Reg.FRM_TICK_DTB_HI (BitVec.ofNat 32 (x.tickDtb.toNat / 2 ^ 32))).setSnap i p Reg.FRM_TICK_FCNT x.tickFcnt).setSnap
        i p Reg.FRM_TICK_MFN_LO (x.tickMfn.setWidth 32)).setSnap i p Reg.FRM_TICK_MFN_HI (BitVec.ofNat 32 (x.tickMfn.toNat / 2 ^ 32)),
      x.tickDtb.setWidth 32)
  else if off = Reg.FRM_TICK_DTB_HI ∨ off = Reg.FRM_TICK_FCNT ∨ off = Reg.FRM_TICK_MFN_LO ∨ off = Reg.FRM_TICK_MFN_HI
      ∨ off = Reg.FRM_DTB_HI ∨ off = Reg.FRM_DTB_FRAC then (s, s.snap i p off)
  else if off = Reg.FRM_DTB_LO then
    let own := match i with
      | .core (.ce e) => clusterOf e == c
      | _ => false
    let v := if own then s.dtbBack 8 else s.dtb
    s.latchDtb i p Reg.FRM_DTB_HI Reg.FRM_DTB_FRAC v
  else if off = Reg.FRM_NEXT_TICK then (s, if s.running c then w32 (s.dtbAt x.nextTick / 2 ^ 32) else 0)
  else if off = Reg.FRM_DEADLINE then (s, if s.running c then w32 (s.dtbAt (s.deadline c) / 2 ^ 32) else 0)
  else match arrIdx 0x0C4 8 8 off with
    | some k =>
      let ctx := (s.core (.ce (engineOf c k))).ctx
      (s, putBits (s.busRead p off) 2 0 (b2n (ctx == .fg) + 2 * b2n (ctx == .tail) + 4 * b2n (ctx == .idle)))
    | none => (s, s.busRead p off)

/-- The registers of an FRM page return to reset (R596), the record of the last tick and its snapshots among them. -/
def State.frmClear (s : State) (c : Fin 8) : State :=
  (((s.clearRegs (pgFrm c) 0x40 0x1000).setBit (pgFrm c) Reg.PAGE_STAT 2 false).clearSnaps (pgFrm c)).modCar c
    (fun x => { x with tickDtb := 0, tickFcnt := 0, tickMfn := 0 })

/-- A soft reset of an FRM page (R596): a running carrier stops at the next valley first, `SRST_BUSY` reading 1. -/
def State.frmSoftReset (s : State) (c : Fin 8) : State :=
  let s1 := (s.setBit (pgFrm c) Reg.FRM_CTL 0 false).carStop c
  if s1.running c then
    (s1.modCar c (fun x => { x with srstPend := true })).setBit (pgFrm c) Reg.PAGE_STAT 2 true
  else s1.frmClear c

end Sys2Proof.Machine
end

