-- ==== Sys2Proof/Machine/Sample.lean ====
section
/-! DEFINITION. Sample tables, result FIFO, sample ports, ADC cores and their calibration (04_converters.md, R114 to R131,
R137 to R148, R595). -/

namespace Sys2Proof.Machine

/-- The sampling state of a cluster. -/
def State.smp (s : State) (c : Fin 8) : Smp := s.clusters[c].smp

/-- Change the sampling state of a cluster. -/
def State.modSmp (s : State) (c : Fin 8) (f : Smp → Smp) : State := s.modC c (fun cl => { cl with smp := f cl.smp })

/-- An ADC core. -/
def State.adc (s : State) (c j : Fin 8) : AdcCore := s.clusters[c].adc[j]

/-- Change an ADC core. -/
def State.modAdc (s : State) (c j : Fin 8) (f : AdcCore → AdcCore) : State :=
  s.modC c (fun cl => { cl with adc := cl.adc.set j (f cl.adc[j]) })

/-- Entry `x` of the active bank, or of the edit bank (R119). -/
def Smp.entry (m : Smp) (edit : Bool) (x : Fin 64) : Word × Word := if m.bank == edit then m.bank0[x] else m.bank1[x]

/-! ## Sample-table entries (R120 to R122) -/

/-- `EN`. -/
def entEn (w : Word) : Bool := bitOf w 31
/-- `KIND`. -/
def entKind (w : Word) : Nat := bitsOf w 30 28
/-- `UNIT`. -/
def entUnit (w : Word) : Nat := bitsOf w 27 24
/-- `FMT`. -/
def entFmt (w : Word) : Nat := bitsOf w 12 11
/-- The sample window in steps (R116). -/
def entWindow (w : Word) : Nat := 1024 + 128 * bitsOf w 17 13
/-- The signed scheduled time, in steps from the tick (R120). -/
def entOffset (w1 : Word) : Int := signedNat 16 (bitsOf w1 15 0) * 128

/-- The binary32 value of `(v − 32768) × 2^-15`, exact (R122). -/
def sampleFloat (v : Nat) : Word :=
  if v = 32768 then 0
  else
    let neg := decide (v < 32768)
    let a := if v < 32768 then 32768 - v else v - 32768
    let l := Nat.log2 a
    -- a = 1.f × 2^l, the value is a × 2^-15
    w32 (b2n neg * 2 ^ 31 + (127 + l - 15) * 2 ^ 23 + (a * 2 ^ (23 - l)) % 2 ^ 23)

/-- The sample-port cell of a value `v` in the entry's format (R122). -/
def sampleCell (fmt : Nat) (x : Fin 64) (frame : Word) (v : Nat) : Word :=
  match fmt with
  | 0 => w32 v
  | 1 => BitVec.ofInt 32 ((v : Int) - 32768)
  | 2 => sampleFloat v
  | _ => w32 (x.val * 2 ^ 26 + (frame.toNat % 4) * 2 ^ 24 + v)

/-- The corrected code of a raw code (R117). -/
def correct (raw : BitVec 16) (ofs : Int) (gain : Nat) : Nat :=
  let p : Int := (4 * (raw.toNat : Int) - ofs) * gain
  (clampInt 0 65535 ((p + 131072) / 262144)).toNat

/-! ## Delivery (R21, R123, R129, R131) -/

/-- Insert a result in order of arrival, results of one instant in ascending entry index (R21). -/
def insertSample (a : Sample) : List Sample → List Sample
  | [] => [a]
  | b :: t => if a.at_ < b.at_ ∨ (a.at_ = b.at_ ∧ a.entry < b.entry) then a :: b :: t else b :: insertSample a t

/-- Send a cell to every sample port in `DMASK`, to arrive at the exact time `t`. -/
def State.deliver (s : State) (c : Fin 8) (mask : Nat) (a : Sample) : State :=
  (List.finRange 8).foldl (fun s (i : Fin 8) =>
    if mask.testBit i then
      s.modSmp c (fun m => { m with flight := m.flight.set (m.route[i]) (insertSample a m.flight[m.route[i]]) })
    else s) s

/-- The FIFO threshold (R131). -/
def State.fthr (s : State) (c : Fin 8) : Nat := max 1 (s.fld (pgSmp c) Reg.SMP_CTL 15 8)

/-- While the FIFO's level is at or above its threshold, `FIFO_THR` is raised (R131). DEDUCED (log 41). -/
def State.fifoThr (s : State) (c : Fin 8) : State := s.raiseIf (decide (s.fthr c ≤ (s.smp c).fifo.length)) (pgSmp c) 4

/-- Append a record to the result FIFO, or drop it where the FIFO is full (R129, R131). DEDUCED (log 41). -/
def State.fifoPush (s : State) (c : Fin 8) (r : Word × Word) : State :=
  if 256 ≤ (s.smp c).fifo.length then (s.count (pgSmp c) Reg.SMP_FIFO_DROP 15 0).raise (pgSmp c) 5
  else
    let s1 := s.modSmp c (fun m => { m with fifo := m.fifo ++ [r] })
    (s1.fifoThr c).traceItem c (s.nsOf r.2.toNat)
      (4096 + bitsOf r.1 21 16 + 64 * bitsOf r.1 23 22 + 256 * bitsOf r.1 25 24) c (bitsOf r.1 15 0)

/-- Insert a record by the time at which it is ready, records of one instant in ascending entry index (R21, R129). -/
def insertRec (a : Nat × Fin 64 × Word × Word) : List (Nat × Fin 64 × Word × Word) → List (Nat × Fin 64 × Word × Word)
  | [] => [a]
  | b :: t => if a.1 < b.1 ∨ (a.1 = b.1 ∧ a.2.1 < b.2.1) then a :: b :: t else b :: insertRec a t

/-- No conversion in progress owes the FIFO a record that comes before that of entry `x` at `t` (R21). -/
def State.recFirst (s : State) (c : Fin 8) (t : Nat) (x : Fin 64) : Bool :=
  (List.finRange 8).all (fun (j : Fin 8) => match (s.adc c j).conv with
    | some v => (match v.why with
      | .entry y _ => !bitOf v.word0 10 || !decide (v.endAt < t ∨ (v.endAt = t ∧ y < x))
      | .readback _ => true)
    | none => true)

/-- The records of the list that are ready enter the FIFO in order, and the others wait. -/
def State.fifoDrain (s : State) (c : Fin 8) : List (Nat × Fin 64 × Word × Word) → State
  | [] => s.modSmp c (fun m => { m with recs := [] })
  | r :: t =>
    if r.1 / Config.stepsPerClk ≤ s.time.clk && s.recFirst c r.1 r.2.1 then (s.fifoPush c r.2.2).fifoDrain c t
    else s.modSmp c (fun m => { m with recs := r :: t })

/-- Records that have become ready enter the FIFO (R129, R130). DESIGN CHOICE (log 14). -/
def State.fifoFlush (s : State) (c : Fin 8) : State := s.fifoDrain c (s.smp c).recs

/-- Entry `x` writes a record that is ready at the exact time `t` (R129). DEDUCED (log 41). -/
def State.fifoPut (s : State) (c : Fin 8) (t : Nat) (x : Fin 64) (r : Word × Word) : State :=
  (s.modSmp c (fun m => { m with recs := insertRec (t, x, r) m.recs })).fifoFlush c

/-- A FIFO record (R129). -/
def fifoRecord (v : Nat) (x : Fin 64) (frame : Word) (sub inv : Bool) (ts : Word) : Word × Word :=
  (w32 ((if inv then 0 else v % 65536) + x.val * 2 ^ 16 + frame.toNat % 4 * 2 ^ 22 + b2n sub * 2 ^ 24 + b2n inv * 2 ^ 25), ts)

/-- DTB integer nanoseconds [31:0] at an exact instant. -/
def State.dtbLo (s : State) (t : Nat) : Word := w32 (s.dtbAt t / 2 ^ 32)

/-- An entry delivers `SMP_SKIPVAL` at `t` to every port in its `DMASK`, and an `INV` record when its result would have been ready,
25 ns before (R23, R127, R178). -/
def State.skipDeliver (s : State) (c : Fin 8) (x : Fin 64) (w : Word) (frame : Word) (t : Nat) (ts : Word) : State :=
  let s1 := s.deliver c (bitsOf w 7 0) ⟨t, x, s.reg (pgSmp c) Reg.SMP_SKIPVAL, frame⟩
  if bitOf w 10 then s1.fifoPut c (t - 640) x (fifoRecord 0 x frame false true ts) else s1

/-- A skipped entry (R127): delivered, counted, `SKIP` raised. -/
def State.skipEntry (s : State) (c : Fin 8) (x : Fin 64) (w : Word) (frame : Word) (t : Nat) (ts : Word) : State :=
  ((s.skipDeliver c x w frame t ts).count (pgSmp c) Reg.SMP_SKIP_CNT 15 0).raise (pgSmp c) 2

/-- Count one discarded entry in `FRM_CE_STAT.LEFT` (R57). DEDUCED (log 25). -/
def State.countLeft (s : State) (c i : Fin 8) : State := s.count (pgFrm c) (Reg.FRM_CE_STAT i) 15 8

/-- The value a waiting WAITS receives: the oldest one without a value. -/
def fillWaits (v : Word) : List PendVal → List PendVal
  | [] => []
  | p :: t => if p.waits && p.val.isNone then { p with val := some v } :: t else p :: fillWaits v t

/-- A WAITS of this core waits for a sample. -/
def Core.waiting (k : Core) : Bool := k.pend.any (fun p => p.waits && p.val.isNone)

/-- The replay record after one more result (R347). -/
def replayAdd (a : Sample) (l : List Sample) : List Sample :=
  match l with
  | [] => [a]
  | b :: _ => if b.frame = a.frame then (if l.length < 16 then l ++ [a] else l) else [a]

/-- A result reaches the sample port of local engine `i` (R21, R123, R128, R179, R213, R331). -/
def State.portArrive (s : State) (c i : Fin 8) (a : Sample) : State :=
  let e := CoreId.ce (engineOf c i)
  let k := s.core e
  if !s.domOn (coreDomain e) || (isChecker e && s.locked e) then s
  else if k.fgEnded && k.fgFcnt == a.frame then s.countLeft c i
  else
    let s1 := s.modCore e (fun k => { k with replay := replayAdd a k.replay })
    if k.waiting && k.ctx == .fg then s1.modCore e (fun k => { k with pend := fillWaits a.cell k.pend })
    else if 16 ≤ k.spq.length then
      ((s.stick (pgSmp c) Reg.SMP_SPOVF_CE i).count (pgSmp c) Reg.SMP_SPOVF_CNT 15 0).raise (pgSmp c) 3
    else s1.modCore e (fun k => { k with spq := k.spq ++ [a] })

/-- The next result on its way to local engine `i` arrives (R23). -/
def State.portNext (s : State) (c i : Fin 8) : State :=
  match (s.smp c).flight[i] with
  | [] => s
  | a :: t =>
    (((s.advance a.at_).modSmp c (fun m => { m with flight := m.flight.set i t })).portArrive c i a).fifoFlush c

/-! ## Table check and swap (R125, R126) -/

/-- The tick period in steps that the check and the ticks use, none without ticks (R125). -/
def State.tickPer (s : State) (c : Fin 8) : Option Nat :=
  tickPeriod (s.tmode c) (if s.isMember c then s.hp (s.leaderOf c) else s.hp c)

/-- t_s lies in the interval of R121. DEDUCED (log 40). -/
def offsetOk (w1 : Word) (per lead : Nat) : Bool :=
  decide (-(lead : Int) ≤ entOffset w1 ∧ entOffset w1 ≤ (per : Int) - lead - 1024)

/-- The busy intervals of two ADC entries of one core overlap when one lies `shift` steps later (R116). -/
def busyOverlap (a b : Word × Word) (shift : Int) : Bool :=
  let a0 := entOffset a.2 - entWindow a.1
  let a1 := entOffset a.2 + 4096
  let b0 := entOffset b.2 - entWindow b.1 + shift
  let b1 := entOffset b.2 + 4096 + shift
  decide (a0 < b1 ∧ b0 < a1)

/-- The entry fails reason 3: reserved values (R120, R125, R171, R177). DESIGN CHOICE (log 68). -/
def entReserved (e : Word × Word) : Bool :=
  let w := e.1
  let k := entKind w
  let u := entUnit w
  let inp := bitsOf w 23 18
  decide (3 < k) || decide (bitsOf w 9 8 = 3) || decide (bitsOf e.2 31 16 ≠ 0)
  || (match k with
      | 0 => decide (7 < u) || decide (61 ≤ inp)
      | 1 => decide (11 < u)
      | _ => decide (5 < u) || decide (2 ≤ entFmt w))
  || (k != 0 && (inp != 0 || bitsOf w 17 13 != 0))

/-- The tick of a frame selects the entry (R120). A reserved `TSEL` selects none. DESIGN CHOICE (log 68). -/
def tselOk (w : Word) (apex : Bool) : Bool :=
  match bitsOf w 9 8 with
  | 0 => true
  | 1 => !apex
  | 2 => apex
  | _ => false

/-- Under `TMODE` the frames start at valleys (false) or also at apexes (true) (R49). -/
def tickKinds (tm : Nat) : List Bool := if tm = 1 then [false] else [false, true]

/-- The kind of the tick after one of kind `apex`. -/
def nextKind (tm : Nat) (apex : Bool) : Bool := tm == 2 && !apex

/-- The busy intervals of `e` and `f`, entries of one core, overlap within one frame (where they are two entries) or between
consecutive frames a tick period apart (R116, R125, R127). -/
def entOverlap (tm : Nat) (per : Option Nat) (two : Bool) (e f : Word × Word) : Bool :=
  (tickKinds tm).any (fun k =>
    (two && tselOk e.1 k && tselOk f.1 k && busyOverlap e f 0) ||
    (match per with
     | some p =>
       (tselOk e.1 k && tselOk f.1 (nextKind tm k) && busyOverlap e f p) || (tselOk f.1 k && tselOk e.1 (nextKind tm k) && busyOverlap f e p)
     | none => false))

/-- The lowest-numbered entry that overlaps entry `x` on its core (reason 2). -/
def overlapWith (m : Smp) (tm : Nat) (per : Option Nat) (x : Fin 64) : Option (Fin 64) :=
  let e := m.entry true x
  if entKind e.1 ≠ 0 then none
  else (List.finRange 64).find? (fun y =>
    let f := m.entry true y
    entEn f.1 && entKind f.1 == 0 && entUnit f.1 == entUnit e.1 && entOverlap tm per (y != x) e f)

/-- t_lead in force, in steps (R54). -/
def State.leadInForce (s : State) (c : Fin 8) : Nat := if s.ticking c then (s.car c).lead else s.leadReg c * 128

/-- The lowest reason for which an enabled entry of the edit bank fails, with the other entry of reason 2 (R125). -/
def State.entryFault (s : State) (c : Fin 8) (x : Fin 64) : Option (Nat × Nat) :=
  let m := s.smp c
  let e := m.entry true x
  let per := s.tickPer c
  if !entEn e.1 then none
  else if (match per with | some p => !offsetOk e.2 p (s.leadInForce c) | none => false) then some (1, 0)
  else match overlapWith m (s.tmode c) per x with
    | some y => some (2, y)
    | none =>
      if entReserved e then some (3, 0)
      else if entKind e.1 = 0 ∧ entUnit e.1 = 7 ∧ s.rbit (pgSmp c) Reg.SMP_CTL 0 then some (4, 0)
      else none

/-- The first failing entry (R125). -/
def State.tableFault (s : State) (c : Fin 8) : Option (Fin 64 × Nat × Nat) :=
  (List.finRange 64).findSome? (fun x => (s.entryFault c x).map (fun r => (x, r.1, r.2)))

/-- A write of `SMP_CMD` performs FCLR, DISARM, and then at most one of SWAPM, SWAP and CHECK (R125, R126). One that comes while
another check runs takes its place. DESIGN CHOICE (log 68). -/
def State.smpCmd (s : State) (c : Fin 8) (v : Word) : State :=
  let s1 := if bitOf v 3 then s.modSmp c (fun m => { m with fifo := [] }) else s
  let s2 := if bitOf v 4 then s1.modSmp c (fun m => { m with armed := none, chk := m.chk.filter (fun k => k == .check) }) else s1
  if bitOf v 1 then s2.modSmp c (fun m => { m with chk := some .swapm })
  else if bitOf v 0 then s2.modSmp c (fun m => { m with chk := some .swap })
  else if bitOf v 2 then s2.modSmp c (fun m => { m with chk := some .check })
  else s2

/-- A table check completes (R125, R126). -/
def State.checkDone (s : State) (c : Fin 8) : State :=
  match (s.smp c).chk with
  | none => s
  | some k =>
    let s0 := s.modSmp c (fun m => { m with chk := none })
    match s.tableFault c with
    | some (x, r, o) =>
      ((s0.setReg (pgSmp c) Reg.SMP_TBL_ERR (w32 (x.val + o * 64 + r * 4096 + 65536))).raise (pgSmp c) 0).modSmp c
        (fun m => { m with armed := none })
    | none =>
      let s1 := s0.setBit (pgSmp c) Reg.SMP_TBL_ERR 16 false
      let t := s.now + Config.usSteps
      match k with
      | .check => s1
      | .swap => s1.modSmp c (fun m => { m with armed := some (.at_ t) })
      | .swapm =>
        let mfn := BitVec.ofNat 48 ((s.reg (pgSmp c) Reg.SMP_SWMFN_LO).toNat + s.fld (pgSmp c) Reg.SMP_SWMFN_HI 15 0 * 2 ^ 32)
        s1.modSmp c (fun m => { m with armed := some (.mfn mfn t) })

/-- The MFN that a tick at the exact time `t` carries (R53): that of the machine frame in which the time lies, a tick
within one delay-line step of a boundary carrying the new one. -/
def State.mfnAt (s : State) (t : Nat) : BitVec 48 :=
  let d := (s.dtbAt t + 2 ^ 96 - s.time.mft.toNat * 2 ^ 32) % 2 ^ 96
  if d < 2 ^ 95 ∧ s.time.mfp * 2 ^ 32 ≤ d + Config.stepFrac then s.time.mfn + 1 else s.time.mfn

/-- When the lead window of the coming frame opens (R54). -/
def State.leadOpen (s : State) (c : Fin 8) : Nat := (s.car c).nextTick - (s.car c).lead

/-- The armed swap takes effect with the coming frame (R126). DEDUCED (log 40). -/
def State.swapDue (s : State) (c : Fin 8) : Bool :=
  s.running c && (s.car c).phase != .waitLeader && s.tmode c != 0 &&
  match (s.smp c).armed with
  | none => false
  | some (.at_ t) => decide (t ≤ s.leadOpen c)
  | some (.mfn n t) => decide (t ≤ s.leadOpen c) && decide (n ≤ s.mfnAt (s.car c).nextTick)

/-- The bank exchange (R119, R126): `LATE` where an earlier tick already carried the MFN. DEDUCED (log 40). -/
def State.tableSwap (s : State) (c : Fin 8) : State :=
  if !s.swapDue c then s
  else
    let s1 := s.advance (s.leadOpen c)
    let late := match (s.smp c).armed with
      | some (.mfn n _) => (s.car c).ticked && decide (n ≤ (s.car c).tickMfn)
      | _ => false
    let s2 := s1.modSmp c (fun m => { m with bank := !m.bank, armed := none, qprev := Vector.replicate 64 none })
    (if late then s2.stick (pgSmp c) Reg.SMP_STAT 7 else s2).raise (pgSmp c) 1

/-! ## Levels (R115, R145, R590) -/

/-- The nominal code of a voltage `v` in nV: floor(v / LSB + 0.5), limited to 16 bits (R590). -/
def nominalCode (v : Int) : BitVec 16 := BitVec.ofInt 16 (clampInt 0 65535 ((v * 65536 + 800000000) / 1600000000))

/-- One step of a threshold DAC, 390.625 µV, in nV (R150). -/
def dacStep : Int := 390625

/-- A threshold setting in `CMP_THR_ACT`: the high one of comparator `m`, or its low one. -/
def thrField (low : Bool) (w : Word) : Nat := if low then bitsOf w 27 16 else bitsOf w 11 0

/-- The nominal voltages, in nV, between which a threshold DAC stands: its setting, or while it moves the settings it may come from
and its new one, each widened by one step (R155). -/
def State.dacSpan (s : State) (c : Fin 8) (m : Fin 12) (low : Bool) : Int × Int :=
  let v : Int := thrField low (s.reg (pgCmp c) (Reg.CMP_THR_ACT m)) * dacStep
  if s.rbit (pgCmp c) (Reg.CMP_ST m) 7 then
    let l := (s.clusters[c].cmp[m]).from_.map (fun w => (thrField low w : Int) * dacStep)
    (l.foldl min v - dacStep, l.foldl max v + dacStep)
  else (v, v)

/-- What a converter sees at the output of a threshold DAC, in nV: its INL and its offset and gain error are within the bounds of
R161 and its path while it settles within those of R155. DESIGN CHOICE (log 5). -/
def State.dacLevel (s : State) (c : Fin 8) (m : Fin 12) (low : Bool) : Int :=
  let b := s.dacSpan c m low
  clampInt (b.1 - 5 * dacStep) (b.2 + 5 * dacStep) (thrField low (s.reg (pgCmp c) (Reg.CMP_THR_ACT m)) * dacStep + Config.dacErr s.free)

/-- The nominal code of an input (R115). `level` is what the outside world gives: for a pin and for VDDA / 4 the voltage in nV, for
the temperature sensor the junction temperature in 1/16 °C, which the code shows within ±3 °C (R145, R590). A reserved input
reads as 0 V. DESIGN CHOICE (log 68). -/
def State.inputCode (s : State) (c j : Fin 8) (inp : Nat) (level : Int) : BitVec 16 :=
  if inp < 32 ∨ inp = 59 then nominalCode level
  else if inp < 56 then nominalCode (s.dacLevel c (Fin.ofNat 12 ((inp - 32) / 2)) (inp % 2 == 1))
  else if inp = 56 then 49152
  else if inp = 58 then
    let w := s.reg (pgAdc c j) Reg.ADC_TSENS
    let t := level - 400 + clampInt (-48) 48 (Config.tempErr s.free)
    BitVec.ofInt 16 (clampInt 0 65535 ((bitsOf w 15 0 : Int) + roundDiv (t * signedNat 16 (bitsOf w 31 16)) 256))
  else if inp = 60 then
    if (List.finRange 8).any (fun (j : Fin 8) => (s.adc c j).run.isSome) then Config.calLevel s.free else 0
  else 0

/-- By how many codes a corrected conversion of nominal code `n` may deviate before noise: offset 2, INL 6, gain 0.05 %, reference
0.1 % and its drift of 15 ppm/°C over the whole span of −40 °C to 125 °C (R145, R579). -/
def adcBound (n : Nat) : Nat := 8 + (n * 3975 + 999999) / 1000000

/-- The noise of one conversion, in codes: ten times the effective value of a SINAD of 80 dB (R145). DESIGN CHOICE (log 5). -/
def adcNoise : Int := 24

/-- The code that core `j` delivers for a nominal code whose window closed at `t` (R117, R590): after the correction with the
factory's or a calibration's own coefficients it lies within the bounds of R145, and two cores at one instant within their
matching. DESIGN CHOICE (log 5). -/
def State.adcCode (s : State) (c j : Fin 8) (nominal : BitVec 16) (t : Nat) : Nat :=
  let p := pgAdc c j
  let raw := Config.adcRaw nominal s.free
  if !s.rbit p Reg.ADC_CTL 0 then raw.toNat
  else
    let k := correct raw (signedNat 18 (s.fld p Reg.ADC_OFS 17 0)) (s.fld p Reg.ADC_GAIN 17 0)
    if (s.adc c j).own then k
    else
      let b : Int := adcBound nominal.toNat
      let dev := clampInt (-b) b (clampInt (-b) b (Config.adcShared c nominal t) + clampInt 0 3 (Config.adcOwn (8 * c + j) nominal s.free))
      (clampInt 0 65535 (clampInt (nominal.toNat + dev - adcNoise) (nominal.toNat + dev + adcNoise) k)).toNat

/-! ## The ADC cores (R116, R127, R143, R144) -/

/-- Core `j`'s entries are served by the understudy (R143). -/
def State.substOf (s : State) (c j : Fin 8) : Bool :=
  match (s.smp c).subst with
  | some k => k.val == j.val
  | none => false

/-- The core that converts an ADC entry: its own, or the understudy (R143). A reserved `UNIT` acts on core `UNIT` mod 8.
DESIGN CHOICE (log 68). -/
def State.convCore (s : State) (c : Fin 8) (u : Nat) : Fin 8 :=
  match (s.smp c).subst with
  | some k => if k.val = u then 7 else Fin.ofNat 8 u
  | none => Fin.ofNat 8 u

/-- The last tick was an apex (`FRM_STAT.APEX`). -/
def State.tickApex (s : State) (c : Fin 8) : Bool := s.rbit (pgFrm c) Reg.FRM_STAT 3

/-- Some entry of the active bank makes core `j` busy somewhere in `[a, b)` (steps), in the frame of the last tick or
the following ones (R137, R144). -/
def State.busyIn (s : State) (c j : Fin 8) (a b : Nat) : Bool :=
  decide (a < (s.adc c j).busy) ||
  (match s.tickPer c with
   | none => false
   | some per =>
     let on := (s.car c).ticked
     let base := if on then (s.car c).tick else (s.car c).nextTick
     s.running c && (List.finRange 64).any (fun x =>
       let e := (s.smp c).entry false x
       entEn e.1 && entKind e.1 == 0 && s.convCore c (entUnit e.1) == j &&
         (List.range 8).any (fun n =>
           let t : Int := base + n * per + entOffset e.2
           tselOk e.1 (s.tmode c == 2 && ((on && s.tickApex c) != (n % 2 == 1))) && decide (t - entWindow e.1 < b ∧ (a : Int) < t + 4096))))

/-- A conversion that an entry is due to make on a core: its window's opening, its t_s, its entry, whether it belongs to the frame
being sampled. -/
structure DueConv where
  opens : Int
  tS    : Int
  entry : Fin 64
  cur   : Bool
  deriving DecidableEq, Repr

/-- Insert by the opening of the window, in one PWM clock cycle by the entry index (R127). -/
def insertDue (a : DueConv) : List DueConv → List DueConv
  | [] => [a]
  | b :: t => if a.opens < b.opens ∨ (a.opens = b.opens ∧ a.entry < b.entry) then a :: b :: t else b :: insertDue a t

/-- The conversions due on core `j` from a bank in a frame, those that fail R121 left out. -/
def State.dueIn (s : State) (c j : Fin 8) (edit : Bool) (per tick : Nat) (apex cur : Bool) (acted : BitVec 64) : List DueConv :=
  (List.finRange 64).filterMap (fun x =>
    let e := (s.smp c).entry edit x
    let t : Int := tick + entOffset e.2
    if entEn e.1 && entKind e.1 == 0 && tselOk e.1 apex && !acted.getLsbD x && s.convCore c (entUnit e.1) == j && offsetOk e.2 per (s.car c).lead
    then some ⟨t - entWindow e.1, t, x, cur⟩ else none)

/-- The conversions of the frame being sampled and of the one after it that are still due on core `j`, in the order of their windows. -/
def State.dueOn (s : State) (c j : Fin 8) : List DueConv :=
  match s.tickPer c with
  | none => []
  | some per =>
    if !s.ticking c then []
    else
      let x := s.car c
      let tm := s.tmode c
      let apex := tm == 2 && x.phase == .up
      let l := match (s.smp c).frame with
        | some f =>
          let cur := s.dueIn c j false per f.tick f.apex true f.acted
          if f.tick = x.nextTick then cur ++ s.dueIn c j false per (x.nextTick + per) (nextKind tm f.apex) false 0
          else cur ++ s.dueIn c j (s.swapDue c) per x.nextTick apex false 0
        | none => s.dueIn c j (s.swapDue c) per x.nextTick apex false 0
      l.foldl (fun a d => insertDue d a) []

/-- Of conversions in the order of their windows, those whose windows open with the core idle (R127). -/
def convTaken (busy : Int) : List DueConv → List DueConv
  | [] => []
  | d :: t => if busy ≤ d.opens then d :: convTaken (d.tS + 4096) t else convTaken busy t

/-- The conversions that core `j` is still to make. -/
def State.adcPlan (s : State) (c j : Fin 8) : List DueConv := convTaken (s.adc c j).busy (s.dueOn c j)

/-- The sample window of a conversion is open on core `j` (R116). -/
def State.adcSampling (s : State) (c j : Fin 8) : Bool :=
  (s.adcPlan c j).any (fun d => decide (d.opens ≤ s.now ∧ (s.now : Int) ≤ d.tS))

/-- A conversion delivers (R117, R123, R129). -/
def State.convDeliver (s : State) (c j : Fin 8) (v : Conv) (x : Fin 64) (und : Bool) : State :=
  let code := s.adcCode c j v.nominal v.tS
  let s1 := s.draw.setReg (pgAdc c j) Reg.ADC_LAST (w32 (code + x.val * 65536 + b2n und * 2 ^ 23))
  let s2 := s1.deliver c (bitsOf v.word0 7 0) ⟨v.tS + 4736, x, sampleCell (entFmt v.word0) x v.frame code, v.frame⟩
  if bitOf v.word0 10 then s2.fifoPut c v.endAt x (fifoRecord code x v.frame und false v.dtbLo) else s2

/-- A table conversion ends (R116). DESIGN CHOICE (log 14). -/
def State.convEnd (s : State) (c j : Fin 8) : State :=
  match (s.adc c j).conv with
  | none => s
  | some v =>
    match v.why with
    | .readback _ => s
    | .entry x und =>
      ((s.advance v.endAt).modAdc c j (fun a => { a with conv := none })).convDeliver c j v x und

/-- The carrier stops before the tick of frame `fcnt`: conversions of that frame reach no sample port, only the FIFO (R124). -/
def State.convUnsent (s : State) (c : Fin 8) (fcnt : Word) : State :=
  (List.finRange 8).foldl (fun s (j : Fin 8) => s.modAdc c j (fun a => { a with conv := a.conv.map (fun v =>
    match v.why with
    | .entry _ _ => if v.frame = fcnt then { v with word0 := v.word0 &&& 0xFFFFFF00 } else v
    | .readback _ => v) })) s

/-! ## Calibration, self-test and the understudy (R137 to R143) -/

/-- Append a request to a core (R138 to R140). -/
def State.calRequest (s : State) (c j : Fin 8) (test : Bool) : State :=
  s.modAdc c j (fun a => { a with reqs := a.reqs ++ [⟨test, 0, 0, 0, 0, false, false, false⟩] })

/-- The substitution of core `j` has nothing more to wait for (R143). -/
def State.substServed (s : State) (c j : Fin 8) : State := if s.substOf c j then s.modSmp c (fun m => { m with substRan := true }) else s

/-- ABORT cancels the core's pending requests; a run that has begun completes, a self-test between two of its steps too (R140). -/
def State.calAbort (s : State) (c j : Fin 8) : State :=
  let keep := (s.adc c j).run.isSome || (match (s.adc c j).reqs with | r :: _ => r.begun | [] => false)
  let s1 := s.modAdc c j (fun a => { a with reqs := if keep then a.reqs.take 1 else [] })
  if keep then s1 else s1.substServed c j

/-- The 1.2 µs of a calibration slot, in steps (R137). -/
def slotSteps : Nat := 30720

/-- Core `j` begins no run: the understudy while it substitutes, and a core that is to take back its entries (R143). -/
def State.calHeld (s : State) (c j : Fin 8) : Bool :=
  (j == 7 && (s.smp c).subst.isSome) || (s.substOf c j && (s.smp c).substRan)

/-- The oldest request of core `j` begins its run or its next self-test step, in a slot or under substitution (R138, R139, R143). -/
def State.calStart (s : State) (c j : Fin 8) : State :=
  match (s.adc c j).reqs with
  | [] => s
  | r :: t =>
    if (s.adc c j).run.isSome || (s.adc c j).conv.isSome || s.calHeld c j || s.busyIn c j s.now (s.now + slotSteps) then s
    else s.modAdc c j (fun a => { a with run := some (s.now + 28160), reqs := { r with begun := true } :: t })

/-- A calibration run ends (R138): new coefficients, unless they are out of range. -/
def State.calDone (s : State) (c j : Fin 8) : State :=
  match (s.adc c j).run, (s.adc c j).reqs with
  | some e, r :: t =>
    if r.test then s
    else
      let p := pgAdc c j
      let ofs := Config.calOfs s.free
      let gain := Config.calGain s.free
      let s1 := (((s.advance e).draw).modAdc c j (fun a => { a with run := none, reqs := t })).substServed c j
      let s2 := s1.setBit p Reg.ADC_CAL_STAT 4 (s.substOf c j)
      if ofs.natAbs ≤ 2048 ∧ 62260 ≤ gain ∧ gain ≤ 68812 then
        ((((s2.setFld p Reg.ADC_OFS 17 0 (wrapInt 18 ofs)).setFld p Reg.ADC_GAIN 17 0 gain).setBit p Reg.ADC_CAL_STAT 2 true).raise p 0).modAdc c j
          (fun a => { a with own := false })
      else (s2.setBit p Reg.ADC_CAL_STAT 2 false).raise p 1
  | _, _ => s

/-- A self-test step ends; after the fourth the result is recorded (R139). A step in progress when the test starved is discarded (R141). -/
def State.testStep (s : State) (c j : Fin 8) : State :=
  match (s.adc c j).run, (s.adc c j).reqs with
  | some e, r :: t =>
    if !r.test then s
    else if r.gone then (s.advance e).modAdc c j (fun a => { a with run := none, reqs := { r with gone := false, begun := false } :: t })
    else
      let p := pgAdc c j
      let dev := Config.testDev s.free
      let lev := Config.testLevel s.free
      let r1 := if r.dev < dev then { r with dev := dev, level := lev, steps := r.steps + 1 } else { r with steps := r.steps + 1 }
      let s1 := (s.advance e).draw
      if r1.steps < 4 then s1.modAdc c j (fun a => { a with run := none, reqs := r1 :: t })
      else
        let s2 := ((s1.modAdc c j (fun a => { a with run := none, reqs := t })).substServed c j).setReg p Reg.ADC_TEST_RES
          (w32 (r1.dev.toNat + r1.level.toNat * 65536))
        let fail := decide (s.fld p Reg.ADC_TEST_LIM 15 0 < r1.dev.toNat)
        (((s2.setBit p Reg.ADC_CAL_STAT 3 (!fail)).setBit p Reg.ADC_CAL_STAT 4 (s.substOf c j)).raiseIf fail p 4).raise p 3
  | _, _ => s

/-- A request has waited 64 ticks since it was written: a calibration that has not begun, a self-test that has not completed (R141). -/
def CalReq.due (r : CalReq) : Bool := !r.starved && decide (64 ≤ r.ticks) && (r.test || !r.begun)

/-- A starved request (R141); `running`: a step of it is in progress. -/
def CalReq.starve (r : CalReq) (running : Bool) : CalReq :=
  if r.test then { r with starved := true, steps := 0, dev := 0, level := 0, begun := running, gone := running } else { r with starved := true }

/-- The requests of a core that have waited 64 ticks starve (R141). -/
def State.calStarved (s : State) (c j : Fin 8) : State :=
  let a := s.adc c j
  let starve : List CalReq → List CalReq
    | [] => []
    | r :: t => (if r.due then r.starve a.run.isSome else r) :: t.map (fun q => if q.due then q.starve false else q)
  let p := pgAdc c j
  ((s.modAdc c j (fun a => { a with reqs := starve a.reqs })).raiseIf (a.reqs.any (fun r => r.due && !r.test)) p 2).raiseIf
    (a.reqs.any (fun r => r.due && r.test)) p 5

/-- The coming frame's lead window is still to open, so that a change of cores can act from it on (R143). -/
def State.leadAhead (s : State) (c : Fin 8) : Bool :=
  s.ticking c && !(match (s.smp c).frame with | some f => f.tick == (s.car c).nextTick | none => false)

/-- From the coming frame's lead window on, the understudy takes over the entries of the lowest core whose request has waited for a
tick (R143). -/
def State.substStart (s : State) (c : Fin 8) : State :=
  if !s.rbit (pgSmp c) Reg.SMP_CTL 0 || (s.smp c).subst.isSome || (s.adc c 7).run.isSome || !s.leadAhead c then s
  else match (List.finRange 7).find? (fun (j : Fin 7) =>
      match (s.adc c (j.castLE (by omega))).reqs with
      | r :: _ => !r.begun && decide (1 ≤ r.ticks)
      | [] => false) with
    | none => s
    | some j => (((s.advance (s.leadOpen c)).modSmp c (fun m => { m with subst := some j, substRan := false }))).raise (pgSmp c) 7

/-- `UND` = 0 takes effect (R143). -/
def State.undEnd (s : State) (c : Fin 8) : State :=
  if (s.smp c).undOff then (s.setBit (pgSmp c) Reg.SMP_CTL 0 false).modSmp c (fun m => { m with undOff := false }) else s

/-- After the run completes, the substituted core takes back its entries from the coming frame's lead window on (R143); without
ticks, at once. -/
def State.substEnd (s : State) (c : Fin 8) : State :=
  if (s.smp c).subst.isNone || !(s.smp c).substRan || (s.ticking c && !s.leadAhead c) then s
  else
    let s1 := if s.ticking c then s.advance (s.leadOpen c) else s
    ((s1.modSmp c (fun m => { m with subst := none, substRan := false })).raise (pgSmp c) 8).undEnd c

/-- The active bank holds an enabled ADC entry on core 7 (R142). -/
def State.core7Used (s : State) (c : Fin 8) : Bool :=
  (List.finRange 64).any (fun x =>
    let e := (s.smp c).entry false x
    entEn e.1 && entKind e.1 == 0 && entUnit e.1 == 7)

/-! ## The pages -/

/-- A write of `SMP_CTL` (R142, R143). -/
def State.smpCtlWrite (s : State) (c : Fin 8) (v mask : Word) : State :=
  let p := pgSmp c
  let was := s.rbit p Reg.SMP_CTL 0
  let s1 := s.busReg p Reg.SMP_CTL v mask
  let new := s1.rbit p Reg.SMP_CTL 0
  if new && !was && s.core7Used c then (s1.setBit p Reg.SMP_CTL 0 false).raise p 6
  else if !new && was && (s.smp c).subst.isSome then
    (s1.setBit p Reg.SMP_CTL 0 true).modSmp c (fun m => { m with undOff := true })
  else s1

/-- Write an entry of the edit bank. -/
def Smp.setEdit (m : Smp) (x : Fin 64) (f : Word × Word → Word × Word) : Smp :=
  if m.bank then { m with bank0 := m.bank0.set x (f m.bank0[x]) } else { m with bank1 := m.bank1.set x (f m.bank1[x]) }

/-- Block effects of a write to an SMP page. DEDUCED (log 41). -/
def State.smpWrite (s : State) (c : Fin 8) (off : Nat) (v mask : Word) : State :=
  if off = Reg.SMP_CMD then s.smpCmd c (v &&& mask)
  else if off = Reg.SMP_CTL then (s.smpCtlWrite c v mask).fifoThr c
  else match arrIdx 0x400 8 64 off with
    | some x => s.modSmp c (fun m => m.setEdit x (fun e => ((e.1 &&& ~~~ mask) ||| (v &&& mask), e.2)))
    | none => match arrIdx 0x404 8 64 off with
      | some x => s.modSmp c (fun m => m.setEdit x (fun e => (e.1, (e.2 &&& ~~~ mask) ||| (v &&& mask))))
      | none => s.busReg (pgSmp c) off v mask

/-- A read of `SMP_FIFO_LO` (R131): both words of the oldest record, which is removed. -/
def State.fifoPop (s : State) (i : Initiator) (c : Fin 8) : State × (Word × Word) :=
  let s := s.fifoFlush c
  match (s.smp c).fifo with
  | [] => (s.setSnap i (pgSmp c) Reg.SMP_FIFO_HI 0, (0xFFFFFFFF, 0))
  | r :: t => ((s.modSmp c (fun m => { m with fifo := t })).setSnap i (pgSmp c) Reg.SMP_FIFO_HI r.2, r)

/-- A read of an SMP page. -/
def State.smpRead (s : State) (i : Initiator) (c : Fin 8) (off : Nat) : State × Word :=
  let s := s.fifoFlush c
  let m := s.smp c
  if off = Reg.SMP_FIFO_LO then let r := s.fifoPop i c; (r.1, r.2.1)
  else if off = Reg.SMP_FIFO_HI then (s, s.snap i (pgSmp c) off)
  else if off = Reg.SMP_STAT then
    (s, w32 (b2n m.bank + 2 * b2n m.armed.isSome + 4 * b2n (match m.armed with | some (.mfn _ _) => true | _ => false)
      + 8 * b2n m.subst.isSome + 16 * (match m.subst with | some j => j.val | none => 0) + 128 * s.fld (pgSmp c) off 7 7
      + 256 * m.fifo.length))
  else match arrIdx 0x080 4 8 off with
    | some k => (s, w32 (s.core (.ce (engineOf c k))).spq.length)
    | none => match arrIdx 0x400 8 64 off with
      | some x => (s, (m.entry true x).1)
      | none => match arrIdx 0x404 8 64 off with
        | some x => (s, (m.entry true x).2)
        | none => match arrIdx 0x600 8 64 off with
          | some x => (s, (m.entry false x).1)
          | none => match arrIdx 0x604 8 64 off with
            | some x => (s, (m.entry false x).2)
            | none => (s, s.busRead (pgSmp c) off)

/-- Block effects of a write to an ADC page; a write of `ADC_CAL_CMD` with several bits aborts first, then requests a
calibration and then a self-test. -/
def State.adcWrite (s : State) (c j : Fin 8) (off : Nat) (v mask : Word) : State :=
  if off = Reg.ADC_CAL_CMD then
    let w := v &&& mask
    let s := if bitOf w 2 then s.calAbort c j else s
    let s := if bitOf w 0 then s.calRequest c j false else s
    if bitOf w 1 then s.calRequest c j true else s
  else
    let s1 := s.busReg (pgAdc c j) off v mask
    if (off = Reg.ADC_OFS ∨ off = Reg.ADC_GAIN) ∧ s1.reg (pgAdc c j) off ≠ s.reg (pgAdc c j) off then
      s1.modAdc c j (fun a => { a with own := true })
    else s1

/-- A read of an ADC page. -/
def State.adcRead (s : State) (c j : Fin 8) (off : Nat) : Word :=
  let p := pgAdc c j
  let a := s.adc c j
  let test := match a.reqs with | r :: _ => r.test | [] => false
  if off = Reg.ADC_STAT then
    w32 (b2n (a.conv.isSome || decide (s.now < a.busy) || s.adcSampling c j) + 2 * b2n (a.run.isSome && !test) + 4 * b2n (a.run.isSome && test)
      + 8 * b2n (s.substOf c j) + 16 * b2n (j == 7 && (s.smp c).subst.isSome))
  else if off = Reg.ADC_CAL_STAT then
    w32 (b2n (a.reqs.any (fun r => !r.test && !r.begun)) + 2 * b2n (a.reqs.any (fun r => r.test && !r.begun))
      + 4 * s.fld p off 4 2 + 32 * b2n (match a.reqs with | r :: _ => r.starved | [] => false))
  else s.busRead p off

/-- A soft reset of an SMP page (R595): results on their way, and records that they owe, still arrive. -/
def State.smpSoftReset (s : State) (c : Fin 8) : State :=
  (((s.fifoFlush c).clearRegs (pgSmp c) 0x40 0x1000).clearSnaps (pgSmp c)).modSmp c (fun m =>
    { m with bank := false, bank0 := Vector.replicate 64 (0, 0), bank1 := Vector.replicate 64 (0, 0), chk := none
             armed := none, fifo := [], subst := none, undOff := false, substRan := false, qprev := Vector.replicate 64 none })

/-- A soft reset of an ADC page: its registers, requests and run. A conversion in progress completes. -/
def State.adcSoftReset (s : State) (c j : Fin 8) : State :=
  (s.clearRegs (pgAdc c j) 0x40 0x1000).modAdc c j (fun a => { a with reqs := [], run := none, own := false })

end Sys2Proof.Machine
end

