-- ==== Sys2Proof/Machine/Irq.lean ====
section
/-! DEFINITION. The interrupt distributor and the local interrupt units (12_interrupt_controller.md, R306 to R328, R589):
one design in two sizes. A controller is 0 to 7 (`LIU.c`) or 8 (the distributor). -/

namespace Sys2Proof.Machine

/-- A controller: local unit `c`, or the distributor (8). -/
abbrev IrqCtl := Fin 9

/-- The distributor. -/
def ird : IrqCtl := 8

/-- A controller is a local unit. -/
def isLiu (x : IrqCtl) : Bool := decide (x.val < 8)

/-- The page of a controller's global and context registers. -/
def irqPage (x : IrqCtl) : PageId := if x.val < 8 then ⟨.liu, x⟩ else ⟨.ird, 0⟩

/-- The page that holds a source's two words. -/
def srcPage (x : IrqCtl) (n : Nat) : PageId := if x.val < 8 then ⟨.liu, x⟩ else ⟨.ird, 1 + n / 128⟩

/-- The spurious number (R306). -/
def spurious (x : IrqCtl) : Nat := if x.val < 8 then 127 else 1023

/-- Sources of a controller (R306). -/
def srcCount (x : IrqCtl) : Nat := if x.val < 8 then 128 else 1024

/-- A source that exists (R307, R308). -/
def srcExists (x : IrqCtl) (n : Nat) : Bool := if x.val < 8 then liuSource n else irdSource n

/-- A source's kind: true for an edge (R309). -/
def srcIsEdge (x : IrqCtl) (n : Nat) : Bool := srcEdge (isLiu x) n

/-- A source's configuration word. -/
def State.srcCfg (s : State) (x : IrqCtl) (n : Nat) : Word := s.reg (srcPage x n) (Reg.SRC_CFG (n % 128))

/-- Set bits `[hi:lo]` of a source's configuration word. -/
def State.setSrc (s : State) (x : IrqCtl) (n hi lo v : Nat) : State := s.setFld (srcPage x n) (Reg.SRC_CFG (n % 128)) hi lo v

/-- The targets of a source. -/
def State.srcTgt (s : State) (x : IrqCtl) (n : Nat) : Nat := s.fld (srcPage x n) (Reg.SRC_TGT (n % 128)) 7 0

/-- A source was completed less than 2.5 ns ago and is not deliverable again yet (R319, R321). -/
def State.resampling (s : State) (x : IrqCtl) (n : Nat) : Bool :=
  s.irq.resample.any (fun k => k.1 == x.val * 1024 + n && decide (s.time.clk < k.2))

/-- The request of a page (R12). -/
def State.pageReq (s : State) (p : PageId) : Bool :=
  (s.reg p Reg.PAGE_IRQ_STAT) &&& (s.reg p Reg.PAGE_IRQ_EN) != 0

/-- The page behind a level source of the distributor (R307). -/
def irdLevelPage (n : Nat) : Option PageId :=
  if n = 2 then some pgRst else if n = 3 then some pgPwr else if n = 4 then some pgEg else if n = 5 then some pgSec
  else if n = 6 then some pgFls else if n = 7 then some pgSramSys else if n = 8 then some pgPairSys else if n = 9 then some pgCxl
  else if n = 10 then some pgCmd else if n = 11 then some pgStr
  else if n < 16 then some ⟨.str, n - 12⟩ else if n = 16 then some pgDtb else if n = 17 then some ⟨.ird, 0⟩
  else if n < 24 then none else if n < 32 then some ⟨.frm, n - 24⟩ else if n < 40 then some ⟨.pwg0, n - 32⟩
  else if n < 48 then some ⟨.pwg1, n - 40⟩ else if n < 56 then some ⟨.smp, n - 48⟩ else if n < 64 then some ⟨.sdm, n - 56⟩
  else if n < 128 then some ⟨.adc, n - 64⟩ else if n < 136 then some ⟨.cmp, n - 128⟩ else if n < 144 then some ⟨.qdec, n - 136⟩
  else if n < 152 then some ⟨.cap, n - 144⟩ else if n < 160 then some ⟨.sep, n - 152⟩ else if n < 224 then some ⟨.ce, n - 160⟩
  else if n < 232 then some ⟨.cdma, n - 224⟩ else if n < 240 then some ⟨.sramC, n - 232⟩ else if n < 248 then some ⟨.pairC, n - 240⟩
  else if n < 256 then some ⟨.liu, n - 248⟩ else if n < 288 then none else if n < 296 then some ⟨.ac, n - 288⟩
  else if n < 304 then some ⟨.mmu, n - 296⟩ else none

/-- The page behind a level source of a local unit (R308). -/
def liuLevelPage (c n : Nat) : Option PageId :=
  if n = 1 then some ⟨.frm, c⟩ else if n = 2 then some ⟨.pwg0, c⟩ else if n = 3 then some pgDtb else if n = 4 then some ⟨.pwg1, c⟩
  else if n = 5 then some ⟨.smp, c⟩ else if n = 6 then some ⟨.sdm, c⟩ else if n = 7 then some ⟨.cmp, c⟩
  else if 8 ≤ n ∧ n < 16 then some ⟨.adc, 8 * c + n - 8⟩ else if n = 28 then some ⟨.qdec, c⟩ else if n = 29 then some ⟨.cap, c⟩
  else if n = 30 then some ⟨.sep, c⟩ else if 32 ≤ n ∧ n < 40 then some ⟨.ce, 8 * c + n - 32⟩ else if n = 40 then some ⟨.cdma, c⟩
  else if n = 41 then some ⟨.sramC, c⟩ else if n = 42 then some ⟨.pairC, c⟩ else if n = 43 then some ⟨.liu, c⟩ else none

/-- The page whose block gives a level source its input. -/
def levelPage (x : IrqCtl) (n : Nat) : Option PageId :=
  if x.val < 8 then liuLevelPage x n else if 256 ≤ n ∧ n < 288 then some ⟨.sdma, (n - 256) / 8⟩ else irdLevelPage n

/-- The input of a level source (R12, R307, R308, R419): a block without power gives none (R324). -/
def State.srcInput (s : State) (x : IrqCtl) (n : Nat) : Bool :=
  match levelPage x n with
  | some p => s.pagePowered p && (if p.kind == .sdma then (s.reg p (Reg.DMA_CH_EVT (n % 8))) &&& (s.reg p (Reg.DMA_CH_IEN (n % 8))) != 0
      else s.pageReq p)
  | none => false

/-- The input of a source crosses the bridge: a page of the control die at the distributor (R17, R18). -/
def srcCrosses (x : IrqCtl) (n : Nat) : Bool :=
  x.val == 8 && (match irdLevelPage n with | some p => pageControl p | none => false)

/-- A change of such an input waits: no unit crosses a bridge that is down, off or retraining (R19, R20). DEDUCED (log 37). -/
def State.srcCut (s : State) (x : IrqCtl) (n : Nat) : Bool :=
  srcCrosses x n && (s.bridgeIsDown || s.bridgeTrains || !s.domOn 138)

/-! ## Pending (R311, R321, R322) -/

/-- The clock of a controller runs: a local unit's, while its cluster's digital domain is on (R306, R324). -/
def State.irqClock (s : State) (x : IrqCtl) : Bool := x.val == 8 || s.domOn (64 + 5 * x.val)

/-- A wake request of a source (R325, R449): the domains of its targets with `WAKEEN` = 1 are to turn on. DEDUCED (log 47). -/
def State.irqWake (s : State) (x : IrqCtl) (n : Nat) : State :=
  let dom (t : Nat) : Nat := if x.val < 8 then 8 * x.val + t else 104 + t
  let need := (List.range 8).filter (fun t => (s.srcTgt x n).testBit t && s.rbit pgPwr (Reg.PWR_DOM (dom t)) 4 && !s.domOn (dom t) && !s.power.waking.contains (dom t))
  let doms := need.flatMap (fun t =>
    if x.val < 8 then (if s.domOn (64 + 5 * x.val) || !s.rbit pgPwr (Reg.PWR_DOM (64 + 5 * x.val)) 4 then [dom t]
      else [64 + 5 * x.val, dom t]) else [dom t])
  let s1 := s.raise (irqPage x) 2
  { s1 with power := { s1.power with queue := s1.power.queue ++ doms.map (fun d => (d, 3)), waking := s1.power.waking ++ doms } }

/-- `WAKE` of a source; for LIU sources 16 to 27 it mirrors `CMP_WAKE` (R325). -/
def State.srcWake (s : State) (x : IrqCtl) (n : Nat) : Bool :=
  if x.val < 8 ∧ 16 ≤ n ∧ n < 28 then s.rbit ⟨.cmp, x⟩ Reg.CMP_WAKE (n - 16) else bitOf (s.srcCfg x n) 5

/-- The power domain of the block behind a source, where it has one that can be off (R324). -/
def srcDomain (x : IrqCtl) (n : Nat) : Option Nat :=
  if x.val < 8 ∧ 16 ≤ n ∧ n < 28 then some (67 + 5 * x.val) else none

/-- A source pends (R326): where it did not yet, from now. -/
def State.srcPend (s : State) (x : IrqCtl) (n : Nat) : State :=
  let key := x.val * 1024 + n
  let s1 := s.setSrc x n 16 16 1
  if bitOf (s.srcCfg x n) 16 then s1
  else { s1 with irq := { s1.irq with pendAt := (key, s.time.clk) :: s1.irq.pendAt.filter (fun k => k.1 != key) } }

/-- An edge reaches an edge source (R311, R322, R324): it pends, or sets the edge latch while the controller's clock
is stopped. -/
def State.srcPulse (s : State) (x : IrqCtl) (n : Nat) : State :=
  if !srcExists x n || !srcIsEdge x n || !bitOf (s.srcCfg x n) 8 then s
  else if (match srcDomain x n with | some d => !s.domOn d | none => false) then s
  else if s.irqClock x then s.srcPend x n
  else
    let s1 := s.setSrc x n 18 18 1
    if s.srcWake x n then s1.irqWake x n else s1

/-- On restart of the controller's clock an edge latch passes its edge (R324). -/
def State.latchPass (s : State) (x : IrqCtl) (n : Nat) : State :=
  if s.irqClock x && bitOf (s.srcCfg x n) 18 then
    let s1 := s.setSrc x n 18 18 0
    if bitOf (s.srcCfg x n) 8 then s1.srcPend x n else s1
  else s

/-- The pending bit of a level source follows its input while it is not active and no completion waits (R321). -/
def State.srcFollow (s : State) (x : IrqCtl) (n : Nat) : State :=
  let w := s.srcCfg x n
  if !srcExists x n || srcIsEdge x n || s.srcCut x n then s
  else if !s.irqClock x then
    if s.srcInput x n && bitOf w 8 && s.srcWake x n then s.irqWake x n else s
  else if bitOf w 17 || s.resampling x n then s
  else
    let new := bitOf w 8 && s.srcInput x n
    let s1 := if srcCrosses x n && new != bitOf w 16 then s.cross else s
    if new then s1.srcPend x n else s1.setSrc x n 16 16 0

/-- 2.5 ns after a completion the source is deliverable again; a level is sampled (R319, R321). -/
def State.srcResample (s : State) (x : IrqCtl) (n : Nat) : State :=
  match s.irq.resample.find? (fun k => k.1 == x.val * 1024 + n) with
  | some r =>
    let s1 := s.edges (r.2 - s.time.clk)
    { s1 with irq := { s1.irq with resample := s1.irq.resample.filter (fun k => k.1 != x.val * 1024 + n) } }.srcFollow x n
  | none => s

/-! ## Delivery (R310, R313, R315) -/

/-- Level bit of a context: 1 for M. -/
def ctxM (k : Fin 16) : Bool := k.val % 2 == 1

/-- A source qualifies for context `k` but for `DIS` (R310, R313, R316). -/
def State.srcQualifies (s : State) (x : IrqCtl) (k : Fin 16) (n : Nat) : Bool :=
  let w := s.srcCfg x n
  srcExists x n && bitOf w 8 && (s.srcTgt x n).testBit (k.val / 2) && bitOf w 4 == ctxM k && bitOf w 16 && !bitOf w 17
    && !s.resampling x n && decide (s.fld (irqPage x) (Reg.CTX_CTL k) 7 4 ≤ bitsOf w 3 0)

/-- The source of controller `x` whose configuration word stands at a key of the register store. -/
def srcOfKey (x : IrqCtl) (key : Nat) : Option Nat :=
  let off := key % 4096
  let inst := key / 4096 % 256
  if 0x400 ≤ off ∧ off < 0x800 ∧ off % 8 = 0 then
    if x.val < 8 then (if key / 1048576 = pageKindNo .liu ∧ inst = x.val then some ((off - 0x400) / 8) else none)
    else if key / 1048576 = pageKindNo .ird ∧ 1 ≤ inst ∧ inst ≤ 8 then some ((inst - 1) * 128 + (off - 0x400) / 8) else none
  else none

/-- Sources that are configured at all, in ascending order: no other can pend. -/
def State.srcListed (s : State) (x : IrqCtl) : List Nat := s.regs.filterMap (fun e => srcOfKey x e.1)

/-- The best source of a context: highest priority, then lowest number (R313, R316); `PRIO` with it. -/
def State.ctxBest (s : State) (x : IrqCtl) (k : Fin 16) : Option (Nat × Nat) :=
  (s.srcListed x).foldl (fun best n =>
    if s.srcQualifies x k n then
      let p := bitsOf (s.srcCfg x n) 3 0
      match best with
      | some (_, q) => if q < p then some (n, p) else best
      | none => some (n, p)
    else best) none

/-- What a context requests of its core: nothing while `DIS` = 1 or the controller is held off (R315, R589). -/
def State.ctxReq (s : State) (x : IrqCtl) (k : Fin 16) : Option (Nat × Nat) :=
  if s.rbit (irqPage x) (Reg.CTX_CTL k) 0 || !s.rbit (irqPage x) Reg.PAGE_CTL 0 || !s.irqClock x then none else s.ctxBest x k

/-- From a source's pending to the request of its context, in DTB clock edges: 3.75 ns at a local unit, 5 ns at the distributor (R326). -/
def reqClks (x : IrqCtl) : Nat := if x.val < 8 then 6 else 8

/-- The request that a context carries has reached its core (R326). -/
def State.reqReached (s : State) (x : IrqCtl) (n : Nat) : Bool :=
  s.irq.pendAt.any (fun k => k.1 == x.val * 1024 + n && decide (k.2 + reqClks x ≤ s.time.clk))

/-! ## Claim and completion (R312, R316 to R320) -/

/-- A claim read of context `k` (R312, R316): the word read. -/
def State.ctxClaim (s : State) (x : IrqCtl) (k : Fin 16) (m : Bool) : State × Word :=
  if ctxM k && !m then (s.raise (irqPage x) 1, w32 (spurious x))
  else match s.ctxBest x k with
    | some (n, p) =>
      (((s.setSrc x n 16 16 0).setSrc x n 17 17 1).setSrc x n 23 20 k, w32 (n + p * 65536))
    | none => (s.count (irqPage x) Reg.CLAIM_SPUR 15 0, w32 (spurious x))

/-- A completion write (R312, R319, R320). -/
def State.ctxComplete (s : State) (x : IrqCtl) (k : Fin 16) (m : Bool) (v : Nat) : State :=
  if ctxM k && !m then s.raise (irqPage x) 1
  else
    let n := v % srcCount x
    if n = 0 ∨ n = spurious x then s
    else
      let w := s.srcCfg x n
      if srcExists x n && bitOf w 17 && bitsOf w 23 20 == k.val then
        let s1 := (s.setSrc x n 17 17 0).setSrc x n 23 20 0
        { s1 with irq := { s1.irq with resample :=
            (x.val * 1024 + n, s.time.clk + 4) :: s1.irq.resample.filter (fun k => k.1 != x.val * 1024 + n) } }
      else
        let p := irqPage x
        ((s.count p Reg.CMPL_STRAY 15 0).setReg p Reg.STRAY_LAST (w32 (n + k.val * 65536))).raise p 0

/-! ## Register writes (R309, R311, R312, R315, R323) -/

/-- A write of `CTX_CTL` (R312, R315). -/
def State.ctxCtlWrite (s : State) (x : IrqCtl) (k : Fin 16) (m : Bool) (v mask : Word) : State :=
  if ctxM k && !m then s.raise (irqPage x) 1 else s.busReg (irqPage x) (Reg.CTX_CTL k) v mask

/-- A write of `SRC_CFG` (R309, R311, R312). -/
def State.srcCfgWrite (s : State) (x : IrqCtl) (n : Nat) (m : Bool) (v mask : Word) : State :=
  let p := srcPage x n
  let off := Reg.SRC_CFG (n % 128)
  let old := s.reg p off
  let mirror : Word := if x.val < 8 ∧ 16 ≤ n ∧ n < 28 then 0x20 else 0
  if !srcExists x n then s
  else if !m && bitOf old 4 then (s.lockMark p off v (mask &&& ~~~ mirror)).raise (irqPage x) 1
  else
    let hitL := !m && bitOf mask 4 && bitOf v 4 != bitOf old 4
    let mask1 := if m then mask else mask &&& ~~~ (0x10 : Word)
    let s1 := ((s.lockMark p off v (mask &&& ~~~ mirror)).busReg p off v (mask1 &&& ~~~ mirror)).raiseIf hitL (irqPage x) 1
    let on := bitOf (s1.reg p off) 8
    let s2 := if on then s1 else (s1.setSrc x n 16 16 0).setSrc x n 18 18 0
    if on && !bitOf old 8 then s2.srcFollow x n else s2

/-- A write of `SRC_TGT` (R312). -/
def State.srcTgtWrite (s : State) (x : IrqCtl) (n : Nat) (m : Bool) (v mask : Word) : State :=
  if !srcExists x n then s
  else if !m && bitOf (s.srcCfg x n) 4 then (s.lockMark (srcPage x n) (Reg.SRC_TGT (n % 128)) v mask).raise (irqPage x) 1
  else s.busReg (srcPage x n) (Reg.SRC_TGT (n % 128)) v mask

/-- A write of `SWSET` (R323). -/
def State.swSet (s : State) (x : IrqCtl) (v : Nat) : State :=
  let n := v % srcCount x
  let sw := if x.val < 8 then decide (48 ≤ n ∧ n ≤ 111) else decide (960 ≤ n ∧ n ≤ 1022)
  if sw then s.srcPulse x n else s

/-- The controller of a page. -/
def ctlOf (p : PageId) : IrqCtl := if p.kind = .liu then ⟨p.inst % 8, by omega⟩ else ird

/-- The source whose word lies at an offset of a controller page, and which word (true: `SRC_TGT`). -/
def srcAt (p : PageId) (off : Nat) : Option (Nat × Bool) :=
  if (p.kind = .liu ∨ (1 ≤ p.inst ∧ p.inst ≤ 8)) ∧ 0x400 ≤ off ∧ off < 0x800 then
    some ((if p.kind = .liu then 0 else (p.inst - 1) * 128) + (off - 0x400) / 8, decide (off % 8 = 4))
  else none

/-- Block effects of a write to a controller page. -/
def State.irqWrite (s : State) (p : PageId) (off : Nat) (m : Bool) (v mask : Word) : State :=
  let x := ctlOf p
  match srcAt p off with
  | some (n, tgt) => if tgt then s.srcTgtWrite x n m v mask else s.srcCfgWrite x n m v mask
  | none =>
    if p.kind = .ird ∧ p.inst ≠ 0 then s.busReg p off v mask
    else if off = Reg.SWSET then s.swSet x (bitsOf (v &&& mask) 9 0)
    else match arrIdx 0x100 0x20 16 off with
      | some k => s.ctxCtlWrite x k m v mask
      | none => match arrIdx 0x108 0x20 16 off with
        | some k => s.ctxComplete x k m (bitsOf (v &&& mask) 9 0)
        | none => s.busReg p off v mask

/-- 32 sources' bits of one kind (`PEND` 16, `ACT` 17). -/
def State.srcMap (s : State) (x : IrqCtl) (w bit : Nat) : Word :=
  w32 ((List.range 32).foldl (fun a i => a + b2n (bitOf (s.srcCfg x (32 * w + i)) bit) * 2 ^ i) 0)

/-- A read of a controller page. -/
def State.irqRead (s : State) (p : PageId) (off : Nat) (m : Bool) : State × Word :=
  let x := ctlOf p
  match srcAt p off with
  | some (n, tgt) =>
    if !srcExists x n then (s, 0)
    else if tgt then (s, s.busRead p off)
    else (s, putBits (s.busRead p off) 5 5 (b2n (s.srcWake x n)))
  | none =>
    if p.kind = .ird ∧ p.inst ≠ 0 then (s, s.busRead p off)
    else
      let pm := if p.kind = .liu then 0x300 else 0x400
      let am := if p.kind = .liu then 0x340 else 0x500
      let n := srcCount x / 32
      match arrIdx pm 4 n off with
      | some w => (s, s.srcMap x w 16)
      | none => match arrIdx am 4 n off with
        | some w => (s, s.srcMap x w 17)
        | none => match arrIdx 0x104 0x20 16 off with
          | some k => s.ctxClaim x k m
          | none => match arrIdx 0x10C 0x20 16 off with
            | some k =>
              (s, match s.ctxBest x k, s.ctxReq x k with
                | some (b, q), some _ => w32 (b + q * 65536 + 2 ^ 31)
                | _, _ => w32 (spurious x))
            | none => (s, s.busRead p off)

/-- A soft reset of a controller page: the sources return to their reset words, nothing is pending or active (R13). One that is not
asked for at M leaves the sources of level M and the M contexts as they are (R280, R312). DESIGN CHOICE (log 61). -/
def State.irqSoftReset (s : State) (p : PageId) (m : Bool) : State :=
  let x := ctlOf p
  let kept := if m then [] else (s.srcListed x).filter (fun n => bitOf (s.srcCfg x n) 4)
  let s1 := s.clearRegs p 0x40 0x1000
  let s2 := if p.kind = .liu then s1 else (List.range 8).foldl (fun (t : State) i => t.clearRegs ⟨.ird, i + 1⟩ 0x400 0x800) s1
  let s3 := kept.foldl (fun t n => (t.setReg (srcPage x n) (Reg.SRC_CFG (n % 128)) (s.srcCfg x n)).setReg (srcPage x n)
    (Reg.SRC_TGT (n % 128)) (s.reg (srcPage x n) (Reg.SRC_TGT (n % 128)))) s2
  let s4 := if m then s3 else (List.range 8).foldl (fun (t : State) k =>
    t.setReg (irqPage x) (Reg.CTX_CTL (2 * k + 1)) (s.reg (irqPage x) (Reg.CTX_CTL (2 * k + 1)))) s3
  { s4 with irq := { s4.irq with resample := s4.irq.resample.filter (fun k => k.1 / 1024 != x.val || kept.contains (k.1 % 1024)) } }.raiseIf
    (!kept.isEmpty) p 1

end Sys2Proof.Machine
end

