-- ==== Sys2Proof/Machine/Capture.lean ====
section
/-! DEFINITION. Capture units (06_position_feedback.md, R172 to R174), which stamp the edges of the feedback pins, of the
comparators' outputs, of the decoders' indexes and of the frame ticks. -/

namespace Sys2Proof.Machine

/-- A feedback group. -/
def State.fb (s : State) (c : Fin 8) (n : Fin 6) : Feedback := s.clusters[c].fb[n]

/-- Change a feedback group. -/
def State.modFb (s : State) (c : Fin 8) (n : Fin 6) (f : Feedback → Feedback) : State :=
  s.modC c (fun cl => { cl with fb := cl.fb.set n (f cl.fb[n]) })

/-- `EDGE` of a capture unit selects an edge of its source (R172). -/
def capEdge (src e : Nat) (rise : Bool) : Bool :=
  if 30 ≤ src then e != 0 else if rise then e == 1 || e == 3 else e == 2 || e == 3

/-- An edge of the source that unit `u` watches: captured where `EDGE` selects it (R172, R173). DESIGN CHOICE (log 6). -/
def State.capture (s : State) (c : Fin 8) (u : Fin 6) (rise : Bool) : State :=
  let p := pgCap c
  let w := s.reg p (Reg.CAP_CTL u)
  let src := bitsOf w 5 1
  if !bitOf w 0 || !capEdge src (bitsOf w 7 6) rise then s
  else if 4 ≤ (s.fb c u).cap.length then (s.count p (Reg.CAP_LOST_CNT u) 15 0).raise p 1
  else
    let dev := if src < 18 then clampInt (-1) 1 (Config.capDev s.free) else 0
    let s0 := if src < 18 then s.draw else s
    let ts := BitVec.ofInt 64 ((s.time.ns.toNat : Int) + dev)
    let r : CapRec := ⟨s.time.clk, ts, rise, if bitOf w 8 then s.reg (pgQdec c) (Reg.QDEC_POS u) else 0⟩
    (s0.modFb c u (fun f => { f with cap := f.cap ++ [r] })).raise p 0

/-- An edge of source `src` of the cluster reaches the capture units that watch it (R172). -/
def State.captureFrom (s : State) (c : Fin 8) (src : Nat) (rise : Bool) : State :=
  (List.finRange 6).foldl (fun s (u : Fin 6) => if s.fld (pgCap c) (Reg.CAP_CTL u) 5 1 = src then s.capture c u rise else s) s

/-- A read of `CAP_TS_LO` (R174). A record whose edge came in the same cycle is appended after it. -/
def State.capPop (s : State) (i : Initiator) (c : Fin 8) (u : Fin 6) : State × Word :=
  let p := pgCap c
  let snap : State → DWord → Word → Bool → State := fun s ts pos e =>
    ((s.setSnap i p (Reg.CAP_TS_HI u) (BitVec.ofNat 32 (ts.toNat / 2 ^ 32))).setSnap i p (Reg.CAP_POS u) pos).setSnap i p (Reg.CAP_STAT u)
      (w32 (8 * b2n e))
  match (s.fb c u).cap with
  | [] => (snap s 0 0 false, 0xFFFFFFFF)
  | r :: t =>
    if r.clk / ownerClks p = s.time.clk / ownerClks p then (snap s 0 0 false, 0xFFFFFFFF)
    else (snap (s.modFb c u (fun f => { f with cap := t })) r.ts r.pos r.rise, r.ts.setWidth 32)

/-- A read of a CAP page. -/
def State.capRead (s : State) (i : Initiator) (c : Fin 8) (off : Nat) : State × Word :=
  let p := pgCap c
  match arrIdx 0x104 0x20 6 off with
  | some u => s.capPop i c u
  | none => match arrIdx 0x110 0x20 6 off with
    | some u => (s, w32 ((s.fb c u).cap.length) ||| s.snap i p off)
    | none =>
      if (arrIdx 0x108 0x20 6 off).isSome || (arrIdx 0x10C 0x20 6 off).isSome then (s, s.snap i p off)
      else (s, s.busRead p off)

end Sys2Proof.Machine
end

