-- ==== Sys2Proof/Machine/Analog.lean ====
section
/-! DEFINITION. Sigma-delta inputs (R132 to R136), window comparators, threshold DACs and the readback unit
(05_comparators.md, R149 to R164, R594). -/

namespace Sys2Proof.Machine

/-- A comparator. -/
def State.cmpU (s : State) (c : Fin 8) (m : Fin 12) : CmpUnit := s.clusters[c].cmp[m]

/-- Change a comparator. -/
def State.modCmp (s : State) (c : Fin 8) (m : Fin 12) (f : CmpUnit → CmpUnit) : State :=
  s.modC c (fun cl => { cl with cmp := cl.cmp.set m (f cl.cmp[m]) })

/-- The readback unit. -/
def State.rb (s : State) (c : Fin 8) : Readback := s.clusters[c].rb

/-- Change the readback unit. -/
def State.modRb (s : State) (c : Fin 8) (f : Readback → Readback) : State := s.modC c (fun cl => { cl with rb := f cl.rb })

/-- Fold an operation over all comparators of a cluster. -/
def State.forCmp (s : State) (f : State → Fin 12 → State) : State := (List.finRange 12).foldl f s

/-! ## The live window output (R136, R151, R157) -/

/-- The analogue window (R151): inactive while the comparator is disabled, not ready or its domain is off. -/
def State.awin (s : State) (c : Fin 8) (m : Fin 12) : Bool :=
  let u := s.cmpU c m
  u.ready && s.rbit (pgCmp c) (Reg.CMP_CTL m) 0 && s.domOn (67 + 5 * c.val) &&
  match s.fld (pgCmp c) (Reg.CMP_CTL m) 9 8 with
  | 0 => u.sth || u.stl
  | 1 => u.sth
  | 2 => u.stl
  | _ => !u.sth && !u.stl

/-- The live window output: the analogue window, ORed with the fast window that R136 selects. -/
def State.liveOut (s : State) (c : Fin 8) (m : Fin 12) : Bool :=
  s.awin c m || (s.rbit (pgSdm c) (Reg.SDM_FAST_CTL m) 8 && s.rbit (pgSdm c) (Reg.SDM_FVAL m) 16 && s.domOn (65 + 5 * c.val))

/-- The output follows: a change to active counts, and every change reaches the trips, the capture units that watch it, and, where
`CMP_IEDGE` selects it, the local interrupt unit with its wake (R156). -/
def State.outSee (s : State) (c : Fin 8) (m : Fin 12) : State :=
  let new := s.liveOut c m
  if new == s.rbit (pgCmp c) Reg.CMP_OUT m then s
  else
    let s1 := s.setBit (pgCmp c) Reg.CMP_OUT m new
    let s2 := (if new && s.domOn (67 + 5 * c.val) then s1.count (pgCmp c) (Reg.CMP_XCNT m) 15 0 else s1).tripSeeAll c
    let s3 := s2.captureFrom c (18 + m.val) new
    if s.rbit (pgCmp c) Reg.CMP_IEDGE m == new then s3 else s3.srcPulse (c.castLE (by omega)) (16 + m.val)

/-- Every output of the cluster follows. -/
def State.outsSee (s : State) (c : Fin 8) : State := s.forCmp (fun s m => s.outSee c m)

/-! ## Sigma-delta inputs -/

/-- `ORD` as it acts (R134). -/
def State.sdmOrd (s : State) (c : Fin 8) (n : Fin 12) : Nat := max 1 (s.fld (pgSdm c) (Reg.SDM_CTL n) 8 7)

/-- `OSR` as it acts (R134). -/
def State.sdmOsr (s : State) (c : Fin 8) (n : Fin 12) : Nat := clampNat 8 256 (s.fld (pgSdm c) (Reg.SDM_CTL n) 17 9)

/-- The input's clock counts as present: received and not lost (R133), or driven (R132). -/
def State.sdmClock (s : State) (c : Fin 8) (n : Fin 12) : Bool :=
  if s.rbit (pgSdm c) (Reg.SDM_CTL n) 1 then s.rbit (pgSdm c) Reg.SDM_CKSTAT n else s.rbit (pgSdm c) Reg.SDM_CKO 0

/-- Change a sigma-delta input. -/
def State.modSdm (s : State) (c : Fin 8) (n : Fin 12) (f : SdmIn → SdmIn) : State :=
  s.modC c (fun cl => { cl with sdm := cl.sdm.set n (f cl.sdm[n]) })

/-- Set how many decimated results are still to discard. -/
def State.sdmDiscard (s : State) (c : Fin 8) (n : Fin 12) (k : Nat) : State :=
  (s.modSdm c n (fun d => { d with discard := k, phase := 0 })).setBit (pgSdm c) (Reg.SDM_RES n) 16 false

/-- Sums of `n` consecutive entries, `k` times over. -/
def boxSums (n : Nat) : Nat → List Nat → List Nat
  | 0, l => l
  | k + 1, l => boxSums n k ((List.range (l.length + 1 - n)).map (fun i => ((l.drop i).take n).foldl (· + ·) 0))

/-- The output of a sinc filter of order `k` over `n` modulator clocks, from the bits sampled, newest first: 0 to `n`^`k` (R134, R135).
Bits from before the first count as 0. DESIGN CHOICE (log 69). -/
def sincOut (k n : Nat) (bits : List Bool) : Nat :=
  let w := k * (n - 1) + 1
  (boxSums n k ((bits.take w).map b2n ++ List.replicate (w - bits.length) 0)).headD 0

/-- A decimated result from the filter output `count` (R134). -/
def State.sdmResult (s : State) (c : Fin 8) (n : Fin 12) (count : Nat) : State :=
  let p := pgSdm c
  let v : Int := (2 * count : Nat) - (s.sdmOsr c n ^ s.sdmOrd c n : Nat)
  let sh : Int := v / (2 ^ s.fld p (Reg.SDM_CTL n) 22 18 : Nat)
  let r := clampInt (-32768) 32767 sh
  let sat := decide (r ≠ sh)
  let d := s.clusters[c].sdm[n].discard
  let s1 := s.modSdm c n (fun x => { x with discard := d - 1 })
  let s2 := s1.setReg p (Reg.SDM_RES n) (w32 (wrapInt 16 r + b2n (d == 0) * 2 ^ 16 + 2 ^ 17 + b2n sat * 2 ^ 18))
  if sat then (s2.stick p Reg.SDM_SATSEEN n).raise p 2 else s2

/-- The fast window of an input whose fast value is `f` (R135): a clock that is lost is a received one. -/
def State.fastActive (s : State) (c : Fin 8) (n : Fin 12) (f : Nat) : Bool :=
  let p := pgSdm c
  s.rbit p (Reg.SDM_FAST_CTL n) 0 &&
    (decide (s.fld p (Reg.SDM_FLIM n) 31 16 < f) || decide (f < s.fld p (Reg.SDM_FLIM n) 15 0)
      || (s.rbit p (Reg.SDM_FAST_CTL n) 9 && s.rbit p (Reg.SDM_CTL n) 1 && !s.sdmClock c n))

/-- The fast filter's value is `f`: the window follows, an activation is recorded and raised, and the comparator's live
output follows (R135, R136). -/
def State.fastSee (s : State) (c : Fin 8) (n : Fin 12) (f : Nat) : State :=
  let p := pgSdm c
  let was := s.rbit p (Reg.SDM_FVAL n) 16
  let act := s.fastActive c n f
  let s1 := s.setReg p (Reg.SDM_FVAL n) (w32 (f % 65536 + b2n act * 65536))
  let s2 := if act && !was then (s1.stick p Reg.SDM_FASTSEEN n).raise p 1 else s1
  s2.outSee c n

/-- The fast window follows a change other than of its value. -/
def State.fastAgain (s : State) (c : Fin 8) (n : Fin 12) : State := s.fastSee c n (s.fld (pgSdm c) (Reg.SDM_FVAL n) 15 0)

/-- The value of the fast filter (R135). -/
def State.fastOut (s : State) (c : Fin 8) (n : Fin 12) (bits : List Bool) : Nat :=
  let w := s.reg (pgSdm c) (Reg.SDM_FAST_CTL n)
  sincOut (if bitOf w 1 then 2 else 1) (clampNat 4 32 (bitsOf w 7 2)) bits

/-- The modulator clock samples a bit at the exact time `t`: the fast filter has a new value, and after `OSR` clocks the main filter a
new result, 10 ns later (R134, R135, R145). -/
def State.sdmBit (s : State) (c : Fin 8) (n : Fin 12) (t : Nat) (b : Bool) : State :=
  let d := s.clusters[c].sdm[n]
  let bits := (b :: d.bits).take 766
  let s0 := (s.advance t).modSdm c n (fun d => { d with bits := bits, phase := d.phase + 1 })
  let s1 := s0.fastSee c n (s0.fastOut c n bits)
  if d.phase + 1 < s.sdmOsr c n then s1
  else ((s1.modSdm c n (fun d => { d with phase := 0 })).advance (t + 256)).sdmResult c n (sincOut (s.sdmOrd c n) (s.sdmOsr c n) bits)

/-- The divisor of SDM_CKO; with energy-limited drive below 16 it acts as 16 (R132, R460). -/
def State.ckoDiv (s : State) (c : Fin 8) : Nat :=
  let d := s.fld (pgSdm c) Reg.SDM_CKO 6 1
  if s.rbit pgEg Reg.EG_FLD c then max 16 d else d

/-- The next edge of SDM_CKO after the exact time `t`, and whether it rises: from `ckoAt` on, rising first, one every half period
(R132). DESIGN CHOICE (log 69). -/
def State.ckoNext (s : State) (c : Fin 8) (t : Nat) : Nat × Bool :=
  let half := s.ckoDiv c * 64
  let at_ := s.clusters[c].ckoAt
  let k := if t < at_ then 0 else (t - at_) / half + 1
  (at_ + k * half, k % 2 == 0)

/-- One edge of the input's modulator clock (R132, R577): `e` says whether a received clock rises, and gives the level at the data pin
from the edge on, in steps of 5 ns. An input pin that is general I/O shows no edge. -/
def State.sdmEdge (s : State) (c : Fin 8) (n : Fin 12) (e : Bool × BitVec 16) : State :=
  let p := pgSdm c
  let w := s.reg p (Reg.SDM_CTL n)
  let recv := bitOf w 1
  let gen := s.reg pgEg (Reg.FIO_SEL c)
  if !bitOf w 0 || !s.sdmClock c n || (recv && bitOf gen (16 + n)) then s
  else
    let d := s.clusters[c].sdm[n]
    let k : Nat × Bool := if recv then (max s.now d.edgeAt, e.1) else s.ckoNext c d.edgeAt
    let s1 := s.modSdm c n (fun d => { d with edgeAt := k.1 })
    let dly := if recv then 0 else bitsOf w 6 3
    if k.2 == bitOf w 2 then s1
    else s1.sdmBit c n (k.1 + dly * 128) (if bitOf gen (4 + n) then d.bits.headD false else e.2.getLsbD dly)

/-- Edges of the input's modulator clock, in their order. -/
def State.sdmEdges (s : State) (c : Fin 8) (n : Fin 12) (l : List (Bool × BitVec 16)) : State :=
  l.foldl (fun s e => s.sdmEdge c n e) s

/-- A received clock is lost: no edge for 1 µs (R133). -/
def State.sdmLost (s : State) (c : Fin 8) (n : Fin 12) : State :=
  let p := pgSdm c
  if !s.rbit p (Reg.SDM_CTL n) 1 || !s.rbit p Reg.SDM_CKSTAT n then s
  else
    let s0 := s.advance (s.clusters[c].sdm[n].edgeAt + Config.usSteps)
    let s1 := ((s0.setBit p Reg.SDM_CKSTAT n false).stick p Reg.SDM_CKLOST n).count p Reg.SDM_CKLOST_CNT 15 0
    ((s1.raise p 0).sdmDiscard c n (s.sdmOrd c n)).fastAgain c n

/-- A received clock counts as present (R133). -/
def State.sdmReturn (s : State) (c : Fin 8) (n : Fin 12) : State :=
  let p := pgSdm c
  if !s.rbit p (Reg.SDM_CTL n) 1 || s.rbit pgEg (Reg.FIO_SEL c) (16 + n) || s.rbit p Reg.SDM_CKSTAT n then s
  else
    let s1 := (s.setBit p Reg.SDM_CKSTAT n true).modSdm c n (fun d => { d with edgeAt := s.now })
    (s1.sdmDiscard c n (s.sdmOrd c n)).fastAgain c n

/-- Block effects of a write to an SDM page: limits of `DIV`, `OSR` and `FOSR`; an input that is enabled discards its first results;
the fast windows follow. -/
def State.sdmWrite (s : State) (c : Fin 8) (off : Nat) (v mask : Word) : State :=
  let p := pgSdm c
  let s1 := s.busReg p off v mask
  if off = Reg.SDM_CKO then
    let s2 := s1.setFld p off 6 1 (clampNat 8 40 (s1.fld p off 6 1))
    if s2.reg p off = s.reg p off then s2 else s2.modC c (fun cl => { cl with ckoAt := s.now })
  else match arrIdx 0x100 0x20 12 off with
    | some n =>
      let s2 := s1.setFld p off 17 9 (clampNat 8 256 (s1.fld p off 17 9))
      let s3 := if s2.rbit p off 0 && !s.rbit p off 0 then (s2.modSdm c n (fun d => { d with edgeAt := s.now })).sdmDiscard c n (s2.sdmOrd c n) else s2
      s3.fastAgain c n
    | none => match arrIdx 0x108 0x20 12 off with
      | some n => (s1.setFld p off 7 2 (clampNat 4 32 (s1.fld p off 7 2))).fastAgain c n
      | none => match arrIdx 0x10C 0x20 12 off with
        | some n => s1.fastAgain c n
        | none => s1

/-- A read of an SDM page; a read of `SDM_RES` clears `NEW` (R8, R134). `SDM_CKSTAT` of an input on the supplied clock reads 1 while
`SDM_CKO.EN` = 1, whatever the input's `EN`. DESIGN CHOICE (log 69). -/
def State.sdmRead (s : State) (c : Fin 8) (off : Nat) : State × Word :=
  let p := pgSdm c
  if off = Reg.SDM_CKSTAT then
    (s, w32 ((List.finRange 12).foldl (fun a (n : Fin 12) => a + b2n (s.sdmClock c n) * 2 ^ n.val) 0))
  else match arrIdx 0x104 0x20 12 off with
    | some _ => (s.setBit p off 17 false, s.busRead p off)
    | none => (s, s.busRead p off)

/-! ## Comparators -/

/-- One mV in nV. -/
def mvNv : Int := 1000000

/-- The nominal hysteresis, in nV (R150). -/
def hystNv (k : Nat) : Int := match k with | 0 => 0 | 1 => 10 * mvNv | 2 => 20 * mvNv | _ => 40 * mvNv

/-- The widest error of a threshold, in nV: the input offset, the DAC's INL, its offset and gain error (R150, R161). -/
def thrErr : Int := 4 * mvNv + 5 * dacStep

/-- The threshold at which a state of comparator `m` decides, in nV: the nominal one, on its way while the DAC moves (R155), plus
`err` within the bounds of R161. -/
def State.thrAt (s : State) (c : Fin 8) (m : Fin 12) (low : Bool) (err : Int) : Int :=
  let b := s.dacSpan c m low
  clampInt (b.1 - thrErr) (b.2 + thrErr) (thrField low (s.reg (pgCmp c) (Reg.CMP_THR_ACT m)) * dacStep + err)

/-- The hysteresis of comparator `m`, in nV, with `err` within ±25 % (R161). -/
def State.hystAt (s : State) (c : Fin 8) (m : Fin 12) (err : Int) : Int :=
  let h := hystNv (s.fld (pgCmp c) (Reg.CMP_CTL m) 7 6)
  h + clampInt (-(h / 4)) (h / 4) err

/-- What comparator `m` decides on: the voltage at its pin, the two thresholds and the hysteresis (R149, R150). -/
structure CmpView where
  v    : Int
  hi   : Int
  lo   : Int
  hyst : Int
  deriving DecidableEq, Repr

/-- What comparator `m` decides on. -/
def State.cmpView (s : State) (c : Fin 8) (m : Fin 12) : CmpView :=
  let e := (s.cmpU c m).err
  ⟨s.clusters[c].ain[Fin.ofNat 32 (s.fld (pgCmp c) (Reg.CMP_CTL m) 5 1)], s.thrAt c m false e.hi, s.thrAt c m true e.lo, s.hystAt c m e.hyst⟩

/-- The high state: active above HI, inactive below HI − H, else as it was (R150). -/
def CmpView.high (x : CmpView) (was : Bool) : Bool := if x.hi < x.v then true else if x.v < x.hi - x.hyst then false else was

/-- The low state: active below LO, inactive above LO + H, else as it was (R150). -/
def CmpView.low (x : CmpView) (was : Bool) : Bool := if x.v < x.lo then true else if x.lo + x.hyst < x.v then false else was

/-- The input lies inside the high state's band (R150). -/
def CmpView.inHigh (x : CmpView) : Bool := decide (x.hi - x.hyst ≤ x.v ∧ x.v ≤ x.hi)

/-- The input lies inside the low state's band (R150). -/
def CmpView.inLow (x : CmpView) : Bool := decide (x.lo ≤ x.v ∧ x.v ≤ x.lo + x.hyst)

/-- The latches are set whose states are active at the next PWM clock edge; `LATCH_SET` where one goes from clear to set (R152).
DEDUCED (log 42). -/
def State.latchSee (s : State) (c : Fin 8) (m : Fin 12) : State :=
  let p := pgCmp c
  let u := s.cmpU c m
  let h := u.sth && !s.rbit p Reg.CMP_LATH m
  let l := u.stl && !s.rbit p Reg.CMP_LATL m
  if !h && !l then s
  else
    let s0 := s.advance (pwmCeil s.now)
    let s1 := if h then s0.stick p Reg.CMP_LATH m else s0
    (if l then s1.stick p Reg.CMP_LATL m else s1).raise p 0

/-- The states of a ready comparator follow its input, a midpoint decision ending where the input leaves its band (R150, R153). -/
def State.cmpFollow (s : State) (c : Fin 8) (m : Fin 12) : State :=
  let p := pgCmp c
  if !(s.cmpU c m).ready then s
  else
    let x := s.cmpView c m
    let s1 := s.modCmp c m (fun u => { u with sth := x.high u.sth, stl := x.low u.stl })
    let s2 := if x.inHigh then s1 else s1.setBit p Reg.CMP_STARTMID m false
    (if x.inLow then s2 else s2.setBit p Reg.CMP_STARTMID (16 + m) false).outSee c m

/-- The voltage at the pin of comparator `m` is `v`; every comparator on that pin follows it (R149). A crossing that does not last to
the next PWM clock edge, or that the edge does not see, is `brief` and sets no latch (R152). DEDUCED (log 42). -/
def State.cmpLevel (s : State) (c : Fin 8) (m : Fin 12) (v : Int) (err : CmpErr) (brief : Bool) : State :=
  let pin := s.fld (pgCmp c) (Reg.CMP_CTL m) 5 1
  let s1 := (s.modC c (fun cl => { cl with ain := cl.ain.set (Fin.ofNat 32 pin) v })).modCmp c m (fun u => { u with err := err })
  let s2 := s1.forCmp (fun s k => if s.fld (pgCmp c) (Reg.CMP_CTL k) 5 1 = pin then s.cmpFollow c k else s)
  if brief then s2 else s2.forCmp (fun s k => s.latchSee c k)

/-- The comparator becomes ready with the voltage `v` at its pin, and takes its midpoint decision (R153). DEDUCED (log 42). -/
def State.cmpReady (s : State) (c : Fin 8) (m : Fin 12) (v : Int) (err : CmpErr) : State :=
  let p := pgCmp c
  if !s.rbit p (Reg.CMP_CTL m) 0 || (s.cmpU c m).ready || !s.domOn (67 + 5 * c.val) then s
  else
    let s0 := (s.modC c (fun cl => { cl with ain := cl.ain.set (Fin.ofNat 32 (s.fld p (Reg.CMP_CTL m) 5 1)) v })).modCmp c m (fun u => { u with err := err })
    let x := s0.cmpView c m
    let hyst := s.fld p (Reg.CMP_CTL m) 7 6 != 0
    let s1 := s0.modCmp c m (fun u => { u with
      ready := true, sth := decide (2 * x.hi - x.hyst < 2 * x.v), stl := decide (2 * x.v < 2 * x.lo + x.hyst) })
    let s2 := (s1.setBit p Reg.CMP_STARTMID m (x.inHigh && hyst)).setBit p Reg.CMP_STARTMID (16 + m) (x.inLow && hyst)
    ((s2.raise p 1).outSee c m).latchSee c m

/-- The comparator is disabled: states, window and STARTMID clear (R154). -/
def State.cmpOff (s : State) (c : Fin 8) (m : Fin 12) : State :=
  let p := pgCmp c
  let s1 := s.modCmp c m (fun u => { u with sth := false, stl := false, ready := false })
  ((s1.setBit p Reg.CMP_STARTMID m false).setBit p Reg.CMP_STARTMID (16 + m) false).outSee c m

/-- The DACs leave the setting `act` for another; `busy` says that they were moving already (R155). -/
def CmpUnit.leave (u : CmpUnit) (act : Word) (busy : Bool) : CmpUnit := { u with from_ := if busy then act :: u.from_ else [act] }

/-- The thresholds in `CMP_THR` move the DACs (R155). -/
def State.dacMove (s : State) (c : Fin 8) (m : Fin 12) : State :=
  let p := pgCmp c
  let act := s.reg p (Reg.CMP_THR_ACT m)
  let s0 := s.modCmp c m (fun u => { u with thrPend := none })
  if s.reg p (Reg.CMP_THR m) = act then s0
  else
    let s1 := s0.modCmp c m (fun u => u.leave act (s.rbit p (Reg.CMP_ST m) 7))
    (s1.setReg p (Reg.CMP_THR_ACT m) (s.reg p (Reg.CMP_THR m))).setBit p (Reg.CMP_ST m) 7 true

/-- A moved DAC has settled: the states compare against its setting (R155). -/
def State.dacSettled (s : State) (c : Fin 8) (m : Fin 12) : State :=
  let s1 := (s.setBit (pgCmp c) (Reg.CMP_ST m) 7 false).modCmp c m (fun u => { u with from_ := [] })
  (s1.cmpFollow c m).latchSee c m

/-- A write of `CMP_CTL` (R153, R154). -/
def State.cmpCtlWrite (s : State) (c : Fin 8) (m : Fin 12) (v mask : Word) : State :=
  let p := pgCmp c
  let off := Reg.CMP_CTL m
  let old := s.reg p off
  let s1 := s.busReg p off v mask
  let s2 := if bitOf old 0 && s1.fld p off 9 1 != bitsOf old 9 1 then (s1.setFld p off 9 1 (bitsOf old 9 1)).raise p 2 else s1
  if bitOf old 0 && !s2.rbit p off 0 then s2.cmpOff c m else s2

/-- A write of `CMP_THR` (R155). -/
def State.cmpThrWrite (s : State) (c : Fin 8) (m : Fin 12) (v mask : Word) : State :=
  let s1 := s.busReg (pgCmp c) (Reg.CMP_THR m) v mask
  if s.rbit (pgCmp c) (Reg.CMP_CTL m) 11 && s.counting c then s1.modCmp c m (fun u => { u with thrPend := some (s.time.clk / 8) })
  else s1.dacMove c m

/-- A threshold that waits passes: at a valley one that was written before its clock edge, when the carrier stops every one (R155). -/
def State.thrPass (s : State) (c : Fin 8) (m : Fin 12) (stopped : Bool) : State :=
  match (s.cmpU c m).thrPend with
  | some t => if stopped || decide (t < s.time.clk / 8) then s.dacMove c m else s
  | none => s

/-- What a valley does to a comparator: a waiting threshold passes, and with `ACLR` the latches load their states (R152, R155). -/
def State.cmpValley (s : State) (c : Fin 8) (m : Fin 12) (stopped : Bool) : State :=
  let p := pgCmp c
  let s1 := s.thrPass c m stopped
  if s.rbit p (Reg.CMP_CTL m) 10 then
    let u := s.cmpU c m
    let h := u.sth && !s.rbit p Reg.CMP_LATH m
    let l := u.stl && !s.rbit p Reg.CMP_LATL m
    ((s1.setBit p Reg.CMP_LATH m u.sth).setBit p Reg.CMP_LATL m u.stl).raiseIf (h || l) p 0
  else s1

/-- A write that clears latches: one whose state is active ends set (R9, R152). -/
def State.latchWrite (s : State) (c : Fin 8) (off : Nat) (v mask : Word) : State :=
  (s.busReg (pgCmp c) off v mask).forCmp (fun t m =>
    let act := if off = Reg.CMP_LATH then (s.cmpU c m).sth else (s.cmpU c m).stl
    if act && s.rbit (pgCmp c) off m then t.setBit (pgCmp c) off m true else t)

/-! ## Readback (R158 to R160) -/

/-- A request for a readback of DAC `d`: ignored while one is pending or running, but a manual one waits for a walk step (R158, R159). -/
def State.rbRequest (s : State) (c : Fin 8) (d : Fin 24) : State :=
  let r := s.rb c
  if r.pend.isSome || r.running then
    if r.byWalk && r.manual.isNone then s.modRb c (fun r => { r with manual := some (d, 0, false) }) else s
  else s.modRb c (fun r => { r with pend := some d, byWalk := false, ticks := 0, starved := false })

/-- A core that may take a background conversion: `BGEN`, idle, its next busy interval at least 240 ns away (R144). -/
def State.bgCore (s : State) (c : Fin 8) : Option (Fin 8) :=
  (List.finRange 8).find? (fun (j : Fin 8) => s.rbit (pgAdc c j) Reg.ADC_CTL 1 && (s.adc c j).conv.isNone && (s.adc c j).run.isNone
    && !s.busyIn c j s.now (s.now + 6144))

/-- The comparator of DAC `d`. -/
def cmpOfDac (d : Fin 24) : Fin 12 := ⟨d / 2, by omega⟩

/-- The setting of DAC `d` in `CMP_THR_ACT`. -/
def State.dacSetting (s : State) (c : Fin 8) (d : Fin 24) : Nat :=
  thrField (d.val % 2 == 1) (s.reg (pgCmp c) (Reg.CMP_THR_ACT (cmpOfDac d)))

/-- The background conversion of the pending readback begins: 40 ns of window, 160 ns of conversion (R116, R144, R158). -/
def State.bgStart (s : State) (c : Fin 8) : State :=
  match (s.rb c).pend with
  | none => s
  | some d =>
    if (s.rb c).running || s.rbit (pgCmp c) (Reg.CMP_ST (cmpOfDac d)) 7 || !s.domOn (67 + 5 * c.val) || !s.domOn (65 + 5 * c.val) then s
    else match s.bgCore c with
      | none => s
      | some j =>
        let v : Conv := ⟨s.now + 5120, s.now + 1024, nominalCode (s.dacLevel c (cmpOfDac d) (d.val % 2 == 1)), 0, .readback d, 0, 0⟩
        (s.draw.modAdc c j (fun a => { a with conv := some v, busy := s.now + 5120 })).modRb c (fun r => { r with running := true })

/-- The core that converts for the readback unit. -/
def State.rbCore (s : State) (c : Fin 8) : Option (Fin 8 × Conv × Fin 24) :=
  (List.finRange 8).findSome? (fun (j : Fin 8) =>
    match (s.adc c j).conv with
    | some v => match v.why with
      | .readback d => some (j, v, d)
      | _ => none
    | none => none)

/-- The readback completes 200 ns after it began and is checked (R158); a manual request that waited is the pending one. -/
def State.rbDone (s : State) (c : Fin 8) : State :=
  match s.rbCore c with
  | none => s
  | some (j, v, d) =>
    let p := pgCmp c
    let code := s.adcCode c j v.nominal v.tS
    let exp := 16 * s.dacSetting c d
    let fail := decide (s.fld p Reg.CMP_RB_CTL 15 4 < (if code < exp then exp - code else code - exp))
    let s1 := ((s.advance v.endAt).draw).modAdc c j (fun a => { a with conv := none })
    let s2 := (s1.setReg (pgAdc c j) Reg.ADC_LAST (w32 (code + 2 ^ 22))).setReg p Reg.CMP_RB_RES
      (w32 (code + d.val * 2 ^ 16 + b2n fail * 2 ^ 21 + 2 ^ 22))
    let s3 := s2.raise p 3
    let s4 := if fail then (s3.stick p Reg.CMP_RB_FAILSEEN d).raise p 4 else s3
    s4.modRb c (fun r => { r with
      pend := r.manual.map (fun q => q.1), manual := none, byWalk := false, running := false
      ticks := match r.manual with | some q => q.2.1 | none => 0, starved := match r.manual with | some q => q.2.2 | none => false })

/-- `IVAL` ticks, or while the cluster has no ticks `IVAL` microseconds, after the last walk step the next one falls due (R159): its
time, none before enough ticks. -/
def State.walkDue (s : State) (c : Fin 8) : Option Nat :=
  let iv := max 1 (s.fld (pgCmp c) Reg.CMP_RB_CTL 31 16)
  if s.ticking c then (if iv ≤ (s.rb c).walk then some s.now else none) else some ((s.rb c).walkAt + iv * Config.usSteps)

/-- A walk step falls due (R159): the next DAC of an enabled comparator is requested, unless the unit is busy. -/
def State.rbWalk (s : State) (c : Fin 8) : State :=
  let p := pgCmp c
  match s.walkDue c with
  | none => s
  | some t =>
    if !s.rbit p Reg.CMP_RB_CTL 0 || !s.domOn (67 + 5 * c.val) then s
    else
      let r := s.rb c
      let ok : Fin 24 → Bool := fun d => s.rbit p (Reg.CMP_CTL (cmpOfDac d)) 0
      let pick := match (List.finRange 24).find? (fun d => decide (r.next ≤ d.val) && ok d) with
        | some d => some d
        | none => (List.finRange 24).find? ok
      let s0 := s.advance t
      let s1 := s0.modRb c (fun r => { r with walk := 0, walkAt := max t s.now })
      match pick with
      | none => s1
      | some d =>
        if r.pend.isSome || r.running then s1
        else s1.modRb c (fun r => { r with pend := some d, byWalk := true, ticks := 0, starved := false, next := d.val + 1 })

/-- The readback unit counts a tick for every request that waits and for the walk (R159, R160). -/
def Readback.tick (r : Readback) : Readback :=
  { r with ticks := r.ticks + 1, walk := r.walk + 1, manual := r.manual.map (fun q => (q.1, q.2.1 + 1, q.2.2)) }

/-- Readbacks not begun within 64 ticks of their requests have starved (R160). -/
def State.rbStarved (s : State) (c : Fin 8) : State :=
  let r := s.rb c
  let one := r.pend.isSome && !r.running && decide (64 ≤ r.ticks) && !r.starved
  let two := match r.manual with | some q => decide (64 ≤ q.2.1) && !q.2.2 | none => false
  let cnt : State → Bool → State := fun s b => if b then (s.count (pgCmp c) Reg.CMP_RB_STARV_CNT 15 0).raise (pgCmp c) 5 else s
  cnt (cnt (s.modRb c (fun r => { r with starved := r.starved || one, manual := r.manual.map (fun q => (q.1, q.2.1, q.2.2 || two)) })) one) two

/-! ## The CMP page -/

/-- Block effects of a write to a CMP page; while the comparators' domain is off, writes are ignored (R157). -/
def State.cmpWriteReg (s : State) (c : Fin 8) (off : Nat) (v mask : Word) : State :=
  let p := pgCmp c
  if !s.domOn (67 + 5 * c.val) then s
  else if off = Reg.CMP_LATH ∨ off = Reg.CMP_LATL then s.latchWrite c off v mask
  else if off = Reg.CMP_RB_CMD then
    let w := v &&& mask
    if h : bitOf w 8 = true ∧ bitsOf w 4 0 < 24 then s.rbRequest c ⟨bitsOf w 4 0, h.2⟩ else s
  else match arrIdx 0x100 0x20 12 off with
    | some m => s.cmpCtlWrite c m v mask
    | none => match arrIdx 0x104 0x20 12 off with
      | some m => s.cmpThrWrite c m v mask
      | none =>
        let s1 := s.busReg p off v mask
        if off = Reg.CMP_RB_CTL ∧ s1.rbit p off 0 ∧ !s.rbit p off 0 then s1.modRb c (fun r => { r with walk := 0, walkAt := s.now }) else s1

/-- A read of a CMP page. -/
def State.cmpReadReg (s : State) (c : Fin 8) (off : Nat) : Word :=
  let p := pgCmp c
  if !s.domOn (67 + 5 * c.val) then 0
  else if off = Reg.CMP_OUT then
    putBits (s.busRead p off) 27 16 ((List.finRange 12).foldl (fun a (m : Fin 12) => a + b2n (s.cmpU c m).ready * 2 ^ m.val) 0)
  else if off = Reg.CMP_RB_RES then putBits (s.busRead p off) 23 23 (b2n ((s.rb c).pend.isSome || (s.rb c).running))
  else match arrIdx 0x10C 0x20 12 off with
    | some m =>
      let u := s.cmpU c m
      w32 (b2n u.sth + 2 * b2n u.stl + 4 * b2n (s.awin c m) + 8 * b2n (s.rbit p Reg.CMP_OUT m) + 16 * b2n u.ready
        + 32 * b2n (s.rbit p Reg.CMP_STARTMID m) + 64 * b2n (s.rbit p Reg.CMP_STARTMID (16 + m)) + 128 * b2n (s.rbit p off 7))
    | none => s.busRead p off

/-- A soft reset of the CMP page (R594): every comparator off, registers at reset, the DACs moving to the reset
thresholds, the readback abandoned. -/
def State.cmpSoftReset (s : State) (c : Fin 8) : State :=
  let p := pgCmp c
  let moved : List Nat := (List.range 12).filter (fun m =>
    s.rbit p (Reg.CMP_ST m) 7 || s.reg p (Reg.CMP_THR_ACT m) != regDflt (regKey p (Reg.CMP_THR_ACT m)))
  let s1 := s.forCmp (fun s m => (s.modCmp c m (fun u => u.leave (s.reg p (Reg.CMP_THR_ACT m)) (s.rbit p (Reg.CMP_ST m) 7))).cmpOff c m)
  let out := s1.reg p Reg.CMP_OUT
  let s2 := (s1.clearRegs p 0x40 0x1000).setReg p Reg.CMP_OUT out
  let s3 := moved.foldl (fun s m => s.setBit p (Reg.CMP_ST m) 7 true) s2
  let s4 := match s3.rbCore c with
    | some (j, _, _) => s3.modAdc c j (fun a => { a with conv := none, busy := s.now })
    | none => s3
  (s4.forCmp (fun s m => s.modCmp c m (fun u => { u with thrPend := none }))).modRb c (fun _ => Readback.init)

/-- A soft reset of the SDM page. -/
def State.sdmSoftReset (s : State) (c : Fin 8) : State :=
  ((s.clearRegs (pgSdm c) 0x40 0x1000).modC c (fun cl => { cl with sdm := Vector.replicate 12 SdmIn.init })).outsSee c

end Sys2Proof.Machine
end

