-- ==== Sys2Proof/Machine/DmaRegs.lean ====
section
/-! DEFINITION. The DMA channels as their pages and requests drive them (16_dma.md, R401 to R420): START, ABORT, SWREQ, the
request sources and the stop. Descriptors and bursts, which use the bus, are in Dma. -/

namespace Sys2Proof.Machine

/-- The page of a channel: SDMA0 to SDMA31 on the four system pages, then the clusters' (R419). -/
def dmaPage (k : Fin 96) : PageId := if k.val < 32 then ⟨.sdma, k / 8⟩ else ⟨.cdma, (k - 32) / 8⟩

/-- A channel's number within its page. -/
def dmaLocal (k : Fin 96) : Nat := k.val % 8

/-- The channel of a page's local number. -/
def dmaOf (p : PageId) (i : Nat) : Fin 96 := Fin.ofNat 96 ((if p.kind == .sdma then 0 else 32) + 8 * p.inst + i % 8)

/-- Who makes a channel's accesses. -/
def dmaInit (k : Fin 96) : Initiator :=
  if h : k.val < 32 then .sdma ⟨k, h⟩ else .cdma (clu ((k.val - 32) / 8)) (clu k.val)

/-- The engine of a channel: clusters 0 to 7, the system engine 8. -/
def dmaEngine (k : Fin 96) : Nat := if k.val < 32 then 8 else (k - 32) / 8

/-- Change a channel. -/
def State.modDma (s : State) (k : Fin 96) (f : DmaCh → DmaCh) : State := { s with dma := s.dma.set k (f s.dma[k]) }

/-- A register of a channel's block. -/
def dmaReg (r : Nat → Nat) (k : Fin 96) : Nat := r (dmaLocal k)

/-- Set event `b` of a channel; an enabled one also sets the page's bit (R420). -/
def State.dmaEvt (s : State) (k : Fin 96) (b : Nat) : State :=
  let p := dmaPage k
  let s1 := s.stick p (dmaReg Reg.DMA_CH_EVT k) b
  s1.raiseIf (s.rbit p (dmaReg Reg.DMA_CH_IEN k) b) p (dmaLocal k)

/-- Where the residue and the running addresses stand (R409): shown in the channel's registers. DEDUCED (log 45). -/
def State.dmaShow (s : State) (k : Fin 96) : State :=
  let p := dmaPage k
  let d := s.dma[k]
  let put (s : State) (r : Nat → Nat) (v : Nat) : State := s.setReg p (dmaReg r k) (w32 v)
  let s1 := put s Reg.DMA_CH_RESID (if d.len = 0 then 0xFFFFFFFF else d.left)
  let s2 := put (put s1 Reg.DMA_CH_SADDR_LO d.src) Reg.DMA_CH_SADDR_HI (d.src / 2 ^ 32)
  let s3 := put (put s2 Reg.DMA_CH_DADDR_LO d.dst) Reg.DMA_CH_DADDR_HI (d.dst / 2 ^ 32)
  put (put s3 Reg.DMA_CH_CDESC_LO d.cdesc) Reg.DMA_CH_CDESC_HI (d.cdesc / 2 ^ 32)

/-- The request source of a channel. -/
def State.dmaReq (s : State) (k : Fin 96) : Nat := s.fld (dmaPage k) (dmaReg Reg.DMA_CH_CFG k) 7 2

/-- The result FIFO of a cluster is at or above its threshold (R131, R410). -/
def State.fifoLevel (s : State) (c : Fin 8) : Bool := decide (s.fthr c ≤ (s.smp c).fifo.length)

/-- The channel is started. -/
def State.dmaBusy (s : State) (k : Fin 96) : Bool := s.dma[k].phase != .idle

/-- The FIFO request goes to this channel: the lowest-numbered started one of its cluster with `REQ` = 1 (R410). -/
def State.dmaFifoCh (s : State) (k : Fin 96) : Bool :=
  decide (32 ≤ k.val) &&
  !(List.range (dmaLocal k)).any (fun i => let j := dmaOf (dmaPage k) i; s.dmaBusy j && s.dmaReq j == 1)

/-- The channel's request is satisfied (R410). -/
def State.dmaAsked (s : State) (k : Fin 96) : Bool :=
  match s.dmaReq k with
  | 0 => true
  | 1 => s.dmaFifoCh k && s.fifoLevel (clu (dmaEngine k))
  | 2 | 3 => s.dma[k].req
  | _ => false

/-- The channel is ready (R403). -/
def State.dmaReady (s : State) (k : Fin 96) : Bool := s.dma[k].phase == .run && s.dmaAsked k

/-- Show `BUSY` and `WAITREQ`. -/
def State.dmaStat (s : State) (k : Fin 96) : State :=
  let p := dmaPage k
  let r := dmaReg Reg.DMA_CH_STAT k
  let s1 := (s.setBit p r 0 (s.dmaBusy k)).setBit p r 1 (s.dma[k].phase == .run && !s.dmaAsked k)
  s1.setBit p Reg.DMA_STAT (dmaLocal k) (s.dmaBusy k)

/-- An edge request reaches a channel; one that finds another waiting is lost (R410). DEDUCED (log 45). -/
def State.dmaEdge (s : State) (k : Fin 96) (src : Nat) : State :=
  if !s.dmaBusy k || s.dmaReq k != src then s
  else if s.dma[k].req then s.dmaEvt k 4
  else (s.modDma k (fun d => { d with req := true })).dmaStat k

/-- Start a channel (R416). -/
def State.dmaStart (s : State) (k : Fin 96) : State :=
  let p := dmaPage k
  let q := s.dmaReq k
  if s.dmaBusy k || s.stopLow || decide (3 < q) || (decide (k.val < 32) && (q == 1 || q == 2)) then s.dmaEvt k 5
  else
    let a := (s.reg p (dmaReg Reg.DMA_CH_DESC_LO k)).toNat + s.fld p (dmaReg Reg.DMA_CH_DESC_HI k) 13 0 * 2 ^ 32
    let s1 := s.modDma k (fun _ => { DmaCh.init with phase := .fetch, cdesc := a / 32 * 32, len := 1 })
    let s2 := ((s1.setFld p (dmaReg Reg.DMA_CH_STAT k) 3 2 0).setFld p (dmaReg Reg.DMA_CH_STAT k) 8 4 0).setBit p Reg.DMA_STAT (8 + dmaLocal k) false
    (s2.dmaShow k).dmaStat k

/-- A request to end a channel, by ABORT or by a stop (R414, R415): recorded; the channel ends at its next point. -/
def State.dmaAbort (s : State) (k : Fin 96) (stop : Bool) : State :=
  if !s.dmaBusy k || s.dma[k].abort.isSome then s
  else if s.dma[k].isLast && s.dma[k].phase == .burst && s.dma[k].burst == s.dma[k].left then s
  else if s.dma[k].phase == .confirm && s.dma[k].isLast then s
  else s.modDma k (fun d => { d with abort := some stop })

/-- A stop ends every channel of every engine (R414). -/
def State.dmaStopAll (s : State) : State := (List.finRange 96).foldl (fun s k => s.dmaAbort k true) s

/-- Every channel has ended. -/
def State.dmaIdle (s : State) : Bool := (List.finRange 96).all (fun (k : Fin 96) => !s.dmaBusy k)

/-- A read of a DMA page: `WAITREQ` follows the request of its channel as it stands (R410). -/
def State.dmaRead (s : State) (p : PageId) (off : Nat) : Word :=
  match arrIdx 0x110 0x40 8 off with
  | some i => let k := dmaOf p i; putBits (s.busRead p off) 1 1 (b2n (s.dma[k].phase == .run && !s.dmaAsked k))
  | none => s.busRead p off

/-- Block effects of a write to a DMA page. -/
def State.dmaWrite (s : State) (p : PageId) (off : Nat) (v mask : Word) : State :=
  match arrIdx 0x104 0x40 8 off with
  | some i =>
    let k := dmaOf p i
    let w := v &&& mask
    let s1 := if bitOf w 1 then s.dmaAbort k false else s
    let s2 := if bitOf w 0 then s1.dmaStart k else s1
    if bitOf w 2 then s2.dmaEdge k 3 else s2
  | none =>
    let s1 := s.busReg p off v mask
    match arrIdx 0x100 0x40 8 off with
    | some i => s1.dmaStat (dmaOf p i)
    | none => s1

/-- A soft reset of a DMA page: its channels are idle and its registers return (R13). -/
def State.dmaSoftReset (s : State) (p : PageId) : State :=
  (List.range 8).foldl (fun s i => s.modDma (dmaOf p i) (fun _ => DmaCh.init)) (s.clearRegs p 0x40 0x1000)

end Sys2Proof.Machine
end

