-- ==== Sys2Proof/Machine/Feedback.lean ====
section
/-! DEFINITION. Position feedback and capture (06_position_feedback.md, R165 to R181), and a sample-table entry's act at
its t_s, which may ask any of the converters or feedback units (R121, R127). -/

namespace Sys2Proof.Machine

/-- The group is given to the encoder port (R165). -/
def State.fbSep (s : State) (c : Fin 8) (n : Fin 6) : Bool := s.rbit (pgQdec c) Reg.QDEC_PINSEL n

/-! ## Quadrature decoders (R165 to R170) -/

/-- A write of `QDEC_PINSEL`: a bit whose decoder or port is enabled keeps its value (R165). -/
def State.pinselWrite (s : State) (c : Fin 8) (v mask : Word) : State :=
  let p := pgQdec c
  let s1 := s.busReg p Reg.QDEC_PINSEL v mask
  (List.finRange 6).foldl (fun t (n : Fin 6) =>
    if s1.rbit p Reg.QDEC_PINSEL n != s.rbit p Reg.QDEC_PINSEL n
        && (s.rbit p (Reg.QDEC_CTL n) 0 || s.rbit (pgSep c) (Reg.SEP_CTL n) 0) then
      (t.setBit p Reg.QDEC_PINSEL n (s.rbit p Reg.QDEC_PINSEL n)).raise p 3
    else t) s1

/-- The present PWM clock cycle. -/
def State.cycle200 (s : State) : Nat := s.time.clk / 8

/-- The signed count step of a change of A and B under `MODE` (R168): up is rising A with B low. DEDUCED (log 42). -/
def qdecDelta (mode : Nat) (a0 b0 a1 b1 : Bool) : Int :=
  match mode with
  | 0 => if a0 != a1 then (if a1 == b1 then -1 else 1) else if b0 != b1 then (if a1 == b1 then 1 else -1) else 0
  | 1 => if !a0 && a1 then (if b1 then -1 else 1) else 0
  | 2 => if !a0 && a1 then (if b1 then -1 else 1) else 0
  | _ => (if !a0 && a1 then 1 else 0) - (if !b0 && b1 then 1 else 0)

/-- The position counter moves by `d`; passing between all ones and 0 raises `POS_WRAP` (R168). -/
def State.qdecMove (s : State) (c : Fin 8) (n : Fin 6) (d : Int) : State :=
  let p := pgQdec c
  let v : Int := (s.reg p (Reg.QDEC_POS n)).toNat + d
  let s1 := (s.setReg p (Reg.QDEC_POS n) (BitVec.ofInt 32 v)).setBit p (Reg.QDEC_STAT n) 4 (decide (d < 0))
  s1.raiseIf (decide (v < 0 ∨ 2 ^ 32 ≤ v)) p 0

/-- The filtered levels that the decoder of group `n` sees: low while the encoder port holds the group (R165, R167). -/
def State.qdecPins (s : State) (c : Fin 8) (n : Fin 6) : BitVec 3 := if s.fbSep c n then 0 else (s.fb c n).pins

/-- A new level at a pin of group `n` passes the filter: it has held for `FILT` + 1 cycles (R167). -/
def State.filtered (s : State) (c : Fin 8) (n : Fin 6) (held : Nat) : Bool := decide (s.fld (pgQdec c) (Reg.QDEC_CTL n) 7 4 < held)

/-- The decoder holds its group and is enabled. -/
def State.qdecOn (s : State) (c : Fin 8) (n : Fin 6) : Bool := !s.fbSep c n && s.rbit (pgQdec c) (Reg.QDEC_CTL n) 0

/-- The decoder's inputs A and B change from `a0` and `b0` to `a` and `b` (R167, R168). -/
def State.qdecCount (s : State) (c : Fin 8) (n : Fin 6) (a0 b0 a b : Bool) : State :=
  let p := pgQdec c
  if a0 != a && b0 != b then (s.count p (Reg.QDEC_QERR_CNT n) 15 0).raise p 2
  else
    let d := qdecDelta (s.fld p (Reg.QDEC_CTL n) 2 1) a0 b0 a b
    let d := if s.rbit p (Reg.QDEC_CTL n) 3 then -d else d
    if d = 0 ∨ (s.fb c n).idxAt = some s.cycle200 then s else s.qdecMove c n d

/-- The levels `l` have been at the pins of group `n` for `held` cycles: those that pass the filter are the group's filtered levels,
whichever unit holds it, and reach the capture units (R167, R172). -/
def State.pinsPass (s : State) (c : Fin 8) (n : Fin 6) (l : BitVec 3) (held : Nat) : State :=
  if !s.filtered c n held then s
  else
    let old := (s.fb c n).pins
    let s1 := s.modFb c n (fun f => { f with pins := l })
    (List.range 3).foldl (fun s i => if old.getLsbD i != l.getLsbD i then s.captureFrom c (3 * n.val + i) (l.getLsbD i) else s) s1

/-- The pins A and B of group `n` have been at the levels `a` and `b` for `held` cycles (R167, R168). -/
def State.qdecEdge (s : State) (c : Fin 8) (n : Fin 6) (a b : Bool) (held : Nat) : State :=
  let old := (s.fb c n).pins
  let l := (old &&& 4#3) ||| (if b then 2#3 else 0#3) ||| (if a then 1#3 else 0#3)
  let s1 := if s.filtered c n held && s.qdecOn c n then s.qdecCount c n (old.getLsbD 0) (old.getLsbD 1) a b else s
  s1.pinsPass c n l held

/-- A rising edge of the filtered index I, qualified where the gate allows it (R169). -/
def State.qdecMark (s : State) (c : Fin 8) (n : Fin 6) : State :=
  let p := pgQdec c
  let st := Reg.QDEC_STAT n
  let ctl := Reg.QDEC_CTL n
  if s.rbit p ctl 10 && bitsOf ((s.fb c n).pins.setWidth 32) 1 0 != s.fld p ctl 12 11 then s
  else
    let first := !s.rbit p st 3
    let mode := s.fld p ctl 9 8
    let s1 := ((s.setReg p (Reg.QDEC_IDXPOS n) (s.reg p (Reg.QDEC_POS n))).stick p st 3).raise p 1
    let s2 := if mode = 1 ∨ (mode = 2 ∧ first) then
        (s1.setReg p (Reg.QDEC_POS n) (s.reg p (Reg.QDEC_IDXLOAD n))).modFb c n (fun f => { f with idxAt := some s.cycle200 })
      else s1
    if s2.fld (pgCap c) (Reg.CAP_CTL n) 5 1 = 30 then s2.capture c n true else s2

/-- The pin I of group `n` has been at a level for `held` cycles (R167, R169). -/
def State.qdecIndex (s : State) (c : Fin 8) (n : Fin 6) (level : Bool) (held : Nat) : State :=
  let old := (s.fb c n).pins
  let s1 := s.pinsPass c n ((old &&& 3#3) ||| (if level then 4#3 else 0#3)) held
  if s.filtered c n held && s.qdecOn c n && level && !old.getLsbD 2 then s1.qdecMark c n else s1

/-- The pin that capture unit `u` watches has been at a level for `held` cycles (R172, R173). Edges of its other sources reach the unit
where they occur. -/
def State.capPin (s : State) (c : Fin 8) (u : Fin 6) (level : Bool) (held : Nat) : State :=
  let src := s.fld (pgCap c) (Reg.CAP_CTL u) 5 1
  if 18 ≤ src then s
  else
    let n : Fin 6 := Fin.ofNat 6 (src / 3)
    let l := (s.fb c n).pins
    match src % 3 with
    | 0 => s.qdecEdge c n level (l.getLsbD 1) held
    | 1 => s.qdecEdge c n (l.getLsbD 0) level held
    | _ => s.qdecIndex c n level held

/-- Block effects of a write to a QDEC page; a write of `QDEC_POS` in the cycle of an index load is lost (R170). -/
def State.qdecWrite (s : State) (c : Fin 8) (off : Nat) (v mask : Word) : State :=
  if off = Reg.QDEC_PINSEL then s.pinselWrite c v mask
  else match arrIdx 0x104 0x20 6 off with
    | some n => if (s.fb c n).idxAt = some s.cycle200 then s else s.busReg (pgQdec c) off v mask
    | none => s.busReg (pgQdec c) off v mask

/-- A read of a QDEC page: `PINS` shows the filtered inputs that the decoder sees (R165, R181). -/
def State.qdecRead (s : State) (c : Fin 8) (off : Nat) : Word :=
  match arrIdx 0x110 0x20 6 off with
  | some n => putBits (s.busRead (pgQdec c) off) 2 0 (s.qdecPins c n).toNat
  | none => s.busRead (pgQdec c) off

/-! ## Serial encoder ports (R166, R175 to R179) -/

/-- The clock divisor in use and whether the energy limit held the clock down (R166, R175, R460). -/
def State.sepDiv (s : State) (c : Fin 8) (n : Fin 6) : Nat × Bool :=
  let w := s.reg (pgSep c) (Reg.SEP_CTL n)
  let d := clampNat 50 4000 (bitsOf w 12 1)
  let d := d + d % 2
  if (bitOf w 15 || s.rbit pgEg Reg.EG_FLD c) && decide (d < 200) then (200, true) else (d, false)

/-- `LEN` as it acts. -/
def State.sepLen (s : State) (c : Fin 8) (n : Fin 6) : Nat := clampNat 8 64 (s.fld (pgSep c) (Reg.SEP_CTL n) 27 21)

/-- `CRCLEN` as it acts. -/
def State.sepCrcLen (s : State) (c : Fin 8) (n : Fin 6) : Nat := min 16 (s.fld (pgSep c) (Reg.SEP_CTL n) 20 16)

/-- One bit of the CRC (R176). -/
def crcBit (len poly crc : Nat) (b : Bool) : Nat :=
  let top := crc.testBit (len - 1)
  let sh := crc * 2 % 2 ^ len
  if top != b then sh ^^^ (poly % 2 ^ len) else sh

/-- The CRC after `n` data bits, most significant first (R176). -/
def crcBits (len poly : Nat) : Nat → Nat → Nat → Nat
  | 0, _, crc => crc
  | n + 1, d, crc => crcBits len poly n d (crcBit len poly crc (d.testBit n))

/-- The port's driver enable, FB*n*_2: high while the port holds the group and is enabled (R165). -/
def State.sepDrive (s : State) (c : Fin 8) (n : Fin 6) : Bool := s.fbSep c n && s.rbit (pgSep c) (Reg.SEP_CTL n) 0

/-- The port's clock output, FB*n*_0: it idles high, falls at the start of a transfer and rises once every period (R175). That it is
low for the second half of each later period is a DESIGN CHOICE (log 69). -/
def State.sepClk (s : State) (c : Fin 8) (n : Fin 6) : Bool :=
  match (s.fb c n).xfer with
  | none => true
  | some x =>
    let per := (s.sepDiv c n).1 * 32
    let t := s.now - x.start
    decide (per ≤ t) && decide (t % per * 2 < per)

/-- The port is busy: a transfer or its recovery is in progress. -/
def State.sepBusy (s : State) (c : Fin 8) (n : Fin 6) : Bool := (s.fb c n).xfer.isSome || (s.fb c n).recover.isSome

/-- A request fails (R178): its reason is recorded, counted and raised, and an entry delivers `SMP_SKIPVAL` 25 ns after
the exact time `t` at which the failure is known. -/
def State.sepFail (s : State) (c : Fin 8) (n : Fin 6) (reason : Nat) (x : SepXfer) (t : Nat) : State :=
  let p := pgSep c
  let s1 := ((s.setFld p (Reg.SEP_STAT n) 3 2 reason).count p (Reg.SEP_ERR_CNT n) 15 0).raise p 1
  match x.entry with
  | some e => s1.skipDeliver c e x.word0 x.frame (t + 640) x.dtbLo
  | none => s1

/-- The deadline of the frame that a transfer belongs to: once its tick has come, as the frame unit has fixed it (R54, R178). -/
def State.sepDn (s : State) (c : Fin 8) (x : SepXfer) : Nat :=
  if (s.car c).ticked && (s.car c).tickFcnt == x.frame && s.ticking c then s.deadline c else x.dn

/-- A request of port `n` (R175, R177, R178). -/
def State.sepRequest (s : State) (c : Fin 8) (n : Fin 6) (x : SepXfer) : State :=
  if s.sepBusy c n || !s.rbit (pgSep c) (Reg.SEP_CTL n) 0 || !s.fbSep c n then s.sepFail c n 0 x x.start
  else (s.modFb c n (fun f => { f with xfer := some x })).setBit (pgSep c) (Reg.SEP_STAT n) 1 (s.sepDiv c n).2

/-- A bus request: ignored where the port is busy (R179). -/
def State.sepBus (s : State) (c : Fin 8) (n : Fin 6) : State :=
  if s.sepBusy c n then s else s.sepRequest c n ⟨none, 0, s.now, 0, 0, 0⟩

/-- The exact time of sample `k` of a transfer that began at `start` (R175). -/
def State.sepSample (s : State) (c : Fin 8) (n : Fin 6) (start k : Nat) : Nat :=
  start + k * ((s.sepDiv c n).1 * 32) + s.fld (pgSep c) (Reg.SEP_FRM n) 19 12 * 32

/-- The position field of the received data as a cell (R177). -/
def State.sepCell (s : State) (c : Fin 8) (n : Fin 6) (fmt : Nat) (data : DWord) : Word :=
  let w := s.reg (pgSep c) (Reg.SEP_FRM n)
  let len := if bitsOf w 11 6 = 0 then 32 else bitsOf w 11 6
  let v := (data.toNat >>> bitsOf w 5 0) % 2 ^ len
  if fmt = 1 then BitVec.ofInt 32 (signedNat len v) else w32 v

/-- The transfer of port `n` ends: the start bit came at sample `first` (with `START` = 1), the data bits were `data`, the
CRC bits `crc` (R175 to R178). -/
def State.sepEnd (s : State) (c : Fin 8) (n : Fin 6) (first : Nat) (data : DWord) (crc : BitVec 16) : State :=
  match (s.fb c n).xfer with
  | none => s
  | some x =>
    let p := pgSep c
    let start := s.rbit p (Reg.SEP_CTL n) 14
    let tout := max 1 (s.fld p (Reg.SEP_TIM n) 15 8)
    let late := start && decide (tout < first)
    let cl := s.sepCrcLen c n
    let len := s.sepLen c n
    let k := if late then tout else (if start then max 1 first else 0) + len + cl
    let tl := s.sepSample c n x.start k
    let dn := s.sepDn c x
    let tooLate := x.entry.isSome && decide (dn < tl)
    let te := if tooLate then dn else tl
    let s1 := (s.advance te).modFb c n (fun f => { f with xfer := none, recover := some (te + s.fld p (Reg.SEP_TIM n) 7 0 * 2560) })
    if tooLate then s1.sepFail c n 3 x te
    else if late then s1.sepFail c n 1 x te
    else
      let d := data.toNat % 2 ^ len
      let s2 := s1.modFb c n (fun f => { f with data := BitVec.ofNat 64 d })
      let w := s.reg p (Reg.SEP_CRC n)
      if cl ≠ 0 ∧ crcBits cl (bitsOf w 15 0) len d (bitsOf w 31 16 % 2 ^ cl) ≠ crc.toNat % 2 ^ cl then s2.sepFail c n 2 x te
      else
        let s3 := s2.raise p 0
        match x.entry with
        | none => s3
        | some e =>
          let cell := s.sepCell c n (entFmt x.word0) (BitVec.ofNat 64 d)
          let s4 := s3.deliver c (bitsOf x.word0 7 0) ⟨te + 640, e, cell, x.frame⟩
          if bitOf x.word0 10 then s4.fifoPut c te e (fifoRecord (cell.toNat % 65536) e x.frame false false x.dtbLo) else s4

/-- The deadline of frame `fcnt` passes at the exact time `t`: transfers of its entries that still run are abandoned (R178). -/
def State.sepDeadline (s : State) (c : Fin 8) (fcnt : Word) (t : Nat) : State :=
  (List.finRange 6).foldl (fun s (n : Fin 6) =>
    match (s.fb c n).xfer with
    | some x =>
      if x.entry.isSome && x.frame == fcnt then
        (s.modFb c n (fun f => { f with xfer := none, recover := some (t + s.fld (pgSep c) (Reg.SEP_TIM n) 7 0 * 2560) })).sepFail c n 3 x t
      else s
    | none => s) s

/-- The carrier stops before the tick of frame `fcnt`: transfers of its entries reach no sample port (R124). -/
def State.sepUnsent (s : State) (c : Fin 8) (fcnt : Word) : State :=
  (List.finRange 6).foldl (fun s (n : Fin 6) => s.modFb c n (fun f => { f with xfer := f.xfer.map (fun x =>
    if x.entry.isSome ∧ x.frame = fcnt then { x with word0 := x.word0 &&& 0xFFFFFF00 } else x) })) s

/-- The recovery time ends and the port is idle (R175). -/
def State.sepRecover (s : State) (c : Fin 8) (n : Fin 6) : State :=
  match (s.fb c n).recover with
  | none => s
  | some t => (s.advance t).modFb c n (fun f => { f with recover := none })

/-- Block effects of a write to a SEP page. -/
def State.sepWrite (s : State) (c : Fin 8) (off : Nat) (v mask : Word) : State :=
  if off = Reg.SEP_CMD then
    (List.finRange 6).foldl (fun s (n : Fin 6) => if bitOf (v &&& mask) n then s.sepBus c n else s) s
  else s.busReg (pgSep c) off v mask

/-- A read of a SEP page (R177). -/
def State.sepRead (s : State) (i : Initiator) (c : Fin 8) (off : Nat) : State × Word :=
  let p := pgSep c
  match arrIdx 0x110 0x20 6 off with
  | some n =>
    let d := (s.fb c n).data
    (s.setSnap i p (Reg.SEP_DATA_HI n) (BitVec.ofNat 32 (d.toNat / 2 ^ 32)), d.setWidth 32)
  | none => match arrIdx 0x118 0x20 6 off with
    | some n => (s, putBits (s.busRead p off) 0 0 (b2n (s.sepBusy c n)))
    | none => if (arrIdx 0x114 0x20 6 off).isSome then (s, s.snap i p off) else (s, s.busRead p off)

/-! ## A sample-table entry acts (R121, R123, R127, R171, R177) -/

/-- A conversion that has ended on core `j` by the exact time `t` delivers, a background one too. -/
def State.convFinish (s : State) (c j : Fin 8) (t : Nat) : State :=
  match (s.adc c j).conv with
  | some v => if v.endAt ≤ t then (match v.why with | .readback _ => s.rbDone c | .entry _ _ => s.convEnd c j) else s
  | none => s

/-- An entry is not converted: counted on the core that was to convert it (R127). For an entry of a substituted core that is core 7.
DESIGN CHOICE (log 68). -/
def State.convDrop (s : State) (c j : Fin 8) : State := (s.count (pgAdc c j) Reg.ADC_DROP_CNT 15 0).raise (pgAdc c j) 6

/-- An ADC entry's window closes: converted where its window opened with the core idle (R116, R127). A calibration run or self-test
step in progress makes the core no less idle; with the converters' domain off no entry converts. DESIGN CHOICE (log 68). -/
def State.actAdc (s : State) (c : Fin 8) (x : Fin 64) (w : Word) (f : SampFrame) (t : Nat) (taken : Bool) (level : Int) : State :=
  let j := s.convCore c (entUnit w)
  let s0 := s.convFinish c j (t - entWindow w)
  if !s.domOn (65 + 5 * c.val) then s0.skipEntry c x w f.fcnt (t + 4736) (s.dtbLo t)
  else if !taken then (s0.convDrop c j).skipEntry c x w f.fcnt (t + 4736) (s.dtbLo t)
  else
    let v : Conv := ⟨t + 4096, t, s0.inputCode c j (bitsOf w 23 18) level, f.fcnt, .entry x (j.val != entUnit w), w, s.dtbLo t⟩
    s0.draw.modAdc c j (fun a => { a with conv := some v, busy := t + 4096 })

/-- An SDM entry latches the newest result (R123, R127, R133). -/
def State.actSdm (s : State) (c : Fin 8) (x : Fin 64) (w : Word) (f : SampFrame) (t : Nat) : State :=
  let r := s.reg (pgSdm c) (Reg.SDM_RES (entUnit w))
  if !bitOf r 16 then s.skipEntry c x w f.fcnt (t + 640) (s.dtbLo t)
  else
    let v := ((signedNat 16 (bitsOf r 15 0)) + 32768).toNat
    let s1 := s.deliver c (bitsOf w 7 0) ⟨t + 640, x, sampleCell (entFmt w) x f.fcnt v, f.fcnt⟩
    if bitOf w 10 then s1.fifoPut c t x (fifoRecord v x f.fcnt false false (s.dtbLo t)) else s1

/-- A QDEC entry latches the position (R171). -/
def State.actQdec (s : State) (c : Fin 8) (x : Fin 64) (w : Word) (f : SampFrame) (t : Nat) : State :=
  let n : Fin 6 := Fin.ofNat 6 (entUnit w)
  if !s.qdecOn c n then s.skipEntry c x w f.fcnt (t + 640) (s.dtbLo t)
  else
    let pos := s.reg (pgQdec c) (Reg.QDEC_POS n)
    let cell := if entFmt w = 1 then (match (s.smp c).qprev[x] with | some q => pos - q | none => 0) else pos
    let s1 := s.modSmp c (fun m => { m with qprev := m.qprev.set x (some pos) })
    let s2 := s1.deliver c (bitsOf w 7 0) ⟨t + 640, x, cell, f.fcnt⟩
    if bitOf w 10 then s2.fifoPut c t x (fifoRecord (pos.toNat % 65536) x f.fcnt false false (s.dtbLo t)) else s2

/-- Another entry due at the same instant with a lower index asks for the same port (R178). -/
def State.sepBeaten (s : State) (c : Fin 8) (x : Fin 64) (f : SampFrame) : Bool :=
  let e := (s.smp c).entry false x
  (List.finRange 64).any (fun y =>
    let g := (s.smp c).entry false y
    decide (y < x) && entEn g.1 && entKind g.1 == 2 && entUnit g.1 == entUnit e.1 && tselOk g.1 f.apex && !f.acted.getLsbD y
      && entOffset g.2 == entOffset e.2)

/-- A SEP entry requests a transfer (R177, R178). -/
def State.actSep (s : State) (c : Fin 8) (x : Fin 64) (w : Word) (f : SampFrame) (t per : Nat) : State :=
  let n : Fin 6 := Fin.ofNat 6 (entUnit w)
  let q : SepXfer := ⟨some x, w, t, f.tick + per - (s.car c).lead - 1024, s.dtbLo t, f.fcnt⟩
  if s.sepBeaten c x f then s.sepFail c n 0 q t else s.sepRequest c n q

/-- Entry `x` of the active bank reaches its t_s in the frame being sampled; `level` is what stands at its analogue input.
DESIGN CHOICE (log 68). -/
def State.entryAct (s : State) (c : Fin 8) (x : Fin 64) (level : Int) : State :=
  match (s.smp c).frame, s.tickPer c with
  | some f, some per =>
    let e := (s.smp c).entry false x
    let w := e.1
    if !entEn w || !tselOk w f.apex || f.acted.getLsbD x || decide (3 < entKind w) then s
    else
      let t := ((f.tick : Int) + entOffset e.2).toNat
      let taken := (s.adcPlan c (s.convCore c (entUnit w))).any (fun d => d.cur && d.entry == x)
      let s1 := (s.advance t).modSmp c (fun m => { m with frame := some { f with acted := f.acted ||| (1#64 <<< x.val) } })
      match entKind w with
      | 0 => s1.actAdc c x w f t taken level
      | 1 => s1.actSdm c x w f t
      | 2 => s1.actSep c x w f t per
      | _ => s1.actQdec c x w f t
  | _, _ => s

/-- The entries of the frame `f` whose t_s lies outside its frame are skipped (R121, R127): `per` is the tick period and the lead that
of the frame unit, both in force since the last tick. Their results would have come 185 ns after t_s, those of entries that convert
nothing 25 ns after. -/
def State.entriesFail (s : State) (c : Fin 8) (f : SampFrame) (per : Nat) : State :=
  (List.finRange 64).foldl (fun s (x : Fin 64) =>
    let e := (s.smp c).entry false x
    let w := e.1
    if entEn w && tselOk w f.apex && decide (entKind w ≤ 3) && !offsetOk e.2 per (s.car c).lead then
      let t := ((f.tick : Int) + entOffset e.2).toNat
      let adc := entKind w == 0
      let s1 := s.modSmp c (fun m => { m with frame := m.frame.map (fun g => { g with acted := g.acted ||| (1#64 <<< x.val) }) })
      let s2 := if adc then s1.convDrop c (s.convCore c (entUnit w)) else s1
      s2.skipEntry c x w f.fcnt (if adc then t + 4736 else t + 640) (s.dtbLo t)
    else s) s

/-! ## Soft resets -/

/-- A soft reset of the QDEC, CAP or SEP page: its registers, and the unit's own state. -/
def State.fbSoftReset (s : State) (p : PageId) (c : Fin 8) (f : Feedback → Feedback) : State :=
  (List.finRange 6).foldl (fun s (n : Fin 6) => s.modFb c n f) (s.clearRegs p 0x40 0x1000)

end Sys2Proof.Machine
end

