-- ==== Sys2Proof/Machine/Flash.lean ====
section
/-! DEFINITION. The embedded flash (17_flash.md, R421 to R441): banks and sectors, code words, reads with correction,
early warning and fallback, PROG, ERASE, SUSPEND, RESUME, and what a busy bank answers. -/

namespace Sys2Proof.Machine

/-- The flash region (R24). -/
def flashBase : Nat := 0x4000000

/-- The base of a bank within the flash region (Table: Flash bank bases). -/
def bankBase (b : Nat) : Nat := if b = 0 then 0 else 0x800000 + (b - 1) * 0x400000

/-- Bytes of a bank. -/
def bankSize (b : Nat) : Nat := if b = 0 then 0x800000 else 0x400000

/-- The bank of an offset of the flash region. -/
def bankOf (o : Nat) : Fin 5 := if o < 0x800000 then 0 else Fin.ofNat 5 (1 + (o - 0x800000) / 0x400000)

/-- Bytes of the sector at an offset of a bank (Table: Sector layout). -/
def sectorSize (b o : Nat) : Nat := if b = 0 ∧ o < 0x20000 then 0x1000 else 0x10000

/-- The first byte of the sector at an offset of a bank. -/
def sectorBase (b o : Nat) : Nat := o / sectorSize b o * sectorSize b o

/-- Change a bank. -/
def State.modBank (s : State) (b : Fin 5) (f : FlashBank → FlashBank) : State := { s with flash := s.flash.set b (f s.flash[b]) }

/-- A flash bank's domain is on (R422). -/
def State.bankOn (s : State) (b : Fin 5) : Bool := s.domOn (140 + b)

/-- The mark of a code word: bit 0 programmed, bits [3:1] errors, bit 4 damaged, bit 5 an escaped error. -/
def State.flsWord (s : State) (w : Nat) : Nat := sparseGet (fun _ => 0) s.flsMark w

/-- Set the mark of a code word. -/
def State.setFlsWord (s : State) (w v : Nat) : State := { s with flsMark := sparseSet (fun _ => 0) s.flsMark w v }

/-- Clock edges the erase in hand has run. -/
def State.eraseRan (s : State) (b : Fin 5) : Nat :=
  s.flash[b].ran + (if s.flash[b].op = 2 then s.time.clk - s.flash[b].start else 0)

/-- Elapsed part of the typical erase time in 1/4096, saturating (R434): 6 ms for a 4 KB sector, 30 ms for 64 KB. -/
def State.eraseShare (s : State) (b : Fin 5) (sec : Nat) : Nat :=
  min 0xFFF (s.eraseRan b * 4096 / (if sectorSize b sec = 0x1000 then 9600000 else 48000000))

/-- Status word bits [11:0] of a bank (R434); the words that a PROG has not finished are a free value in its range. -/
def State.flsProgress (s : State) (b : Fin 5) : Nat :=
  match s.flash[b].op with
  | 0 => (match s.flash[b].susp with
    | some sec => s.eraseShare b sec
    | none => 0)
  | 1 => clampNat 1 s.flash[b].words (Config.progLeft s.free)
  | _ => s.eraseShare b s.flash[b].addr

/-- What a read of a flash bank meets. -/
inductive FlashAns where
  | off
  | data (bs : List Byte)
  /-- A busy bank or a suspended sector: the status word (R434). -/
  | busy (w : Word)
  | uncorr
  deriving DecidableEq, Repr

/-- The status word for a read at offset `o` of bank `b`, if the bank is busy or the sector suspended (R434, R435). -/
def State.flsStatus (s : State) (b : Fin 5) (o : Nat) : Option Word :=
  let f := s.flash[b]
  if f.op = 1 then some (w32 (0xB5B51000 + s.flsProgress b))
  else if f.op = 2 then some (w32 (0xB5B52000 + s.flsProgress b))
  else match f.susp with
    | some sec => if sectorBase b o = sec then some (w32 (0xB5B53000 + s.eraseShare b sec)) else none
    | none => none

/-- Count a correction of `n` bits in the code word at flash offset `o`, with the early warning (R425, R426). -/
def State.flsCorrect (s : State) (o n : Nat) : State :=
  let p := pgFls
  if n = 0 then s
  else
    let s1 := s.count p ((if n = 1 then Reg.FLS_B_CORR1 else if n = 2 then Reg.FLS_B_CORR2 else Reg.FLS_B_CORR3) (bankOf o)) 15 0
    let thr := s.fld p Reg.FLS_EWTHR 1 0
    if thr = 0 ∨ n < thr then s1
    else
      let s2 := (s1.raise p 3).count p Reg.FLS_EWCNT 15 0
      if s.rbit p Reg.FLS_EWADDR 27 then s2 else (s2.setReg p Reg.FLS_EWADDR (w32 (o / 16 * 16 + n * 2 ^ 25 + 2 ^ 27))).mark9 p Reg.FLS_EWADDR (1 <<< 27)

/-- Record an uncorrectable read at flash offset `o`, served from the fallback or not (R427, R428). -/
def State.flsUncorr (s : State) (o : Nat) (fb : Bool) : State :=
  let p := pgFls
  let s1 := (s.count p Reg.FLS_UECNT 15 0).raise p (if fb then 5 else 4)
  if s.rbit p Reg.FLS_UEADDR 26 then s1 else (s1.setReg p Reg.FLS_UEADDR (w32 (o / 16 * 16 + 2 ^ 25 * b2n fb + 2 ^ 26))).mark9 p Reg.FLS_UEADDR (1 <<< 26)

/-- Read one code word at flash offset `o`, without fallback: its 16 bytes, or none where it is damaged (R424 to R426). -/
def State.flsRaw (s : State) (o : Nat) : State × Option (List Byte) :=
  let w := o / 16
  let m := s.flsWord w
  if m.testBit 5 then
    ((s.flsCorrect o (Config.flashWrongCorr w % 4)), some (leBytes 16 (Config.flashWrong w (s.numAt (flashBase + 16 * w) 16))))
  else if m.testBit 4 then (s, none)
  else (s.flsCorrect o (m / 2 % 8), some (s.bytesAt (flashBase + 16 * w) 16))

/-- The fallback offset of flash offset `o`, where one can serve a read (R428). -/
def State.flsFallback (s : State) (o : Nat) : Option Nat :=
  let b := bankOf o
  let fbk := s.fld pgFls (Reg.FLS_B_FB b) 3 1
  let x := o - bankBase b
  if !s.rbit pgFls (Reg.FLS_B_FB b) 0 || decide (4 < fbk) || fbk == b.val || decide (bankSize fbk ≤ x) then none
  else
    let fb := Fin.ofNat 5 fbk
    if (s.flsStatus fb x).isSome || !s.bankOn fb then none else some (bankBase fbk + x)

/-- A fallback read that reaches a busy bank is counted there (R428, R435). -/
def State.flsFallbackBusy (s : State) (o : Nat) : State :=
  let b := bankOf o
  let fbk := s.fld pgFls (Reg.FLS_B_FB b) 3 1
  let fb := Fin.ofNat 5 fbk
  if s.rbit pgFls (Reg.FLS_B_FB b) 0 && decide (fbk ≤ 4) && fbk != b.val && decide (o - bankBase b < bankSize fbk) && s.bankOn fb
    && (s.flsStatus fb (o - bankBase b)).isSome then s.count pgFls (Reg.FLS_B_BUSYRD fb) 15 0
  else s

/-- Read one code word, from the fallback where it is damaged (R427, R428). -/
def State.flsCode (s : State) (o : Nat) : State × Option (List Byte) :=
  match s.flsRaw o with
  | (s1, some bs) => (s1, some bs)
  | (s0, none) =>
    let s1 := s0.flsFallbackBusy o
    match s1.flsFallback o with
    | some o2 =>
      match s1.flsRaw o2 with
      | (s2, some bs) => ({ s2 with fbPend := s2.fbPend ++ [o] }, some bs)
      | (s2, none) => (s2.flsUncorr o false, none)
    | none => (s1.flsUncorr o false, none)

/-- Read `n` bytes at flash offset `o` (R423, R425, R435). -/
def State.flsRead (s : State) (o n : Nat) : State × FlashAns :=
  let b := bankOf o
  if !s.bankOn b then (s, .off)
  else match s.flsStatus b (o - bankBase b) with
    | some w => (s.count pgFls (Reg.FLS_B_BUSYRD b) 15 0, .busy w)
    | none =>
      let x := (eccWords o n 16).foldl (fun (x : State × Option (List Byte)) k =>
        let y := x.1.flsCode k
        (y.1, match x.2, y.2 with | some a, some c => some (a ++ c) | _, _ => none)) (s, some [])
      match x.2 with
      | some bs => (x.1, .data ((bs.drop (o % 16)).take n))
      | none => (x.1, .uncorr)

/-- Cached lines that a range of the flash region meets are invalid (R436). -/
def State.flsDrop (s : State) (lo hi : Nat) : State :=
  { s with flsLines := s.flsLines.filter (fun e => decide (hi ≤ 64 * e.1 ∨ 64 * e.1 + 64 ≤ lo)) }

/-- A line fill reads its four code words (R425); it is kept where all of them are good. DESIGN CHOICE (log 21). -/
def State.flsFill (s : State) (o n : Nat) : State × FlashAns :=
  let ln := o / 64
  let x := (List.range 4).foldl (fun (x : State × List (Option (List Byte))) j =>
    let y := x.1.flsCode (64 * ln + 16 * j)
    (y.1, x.2 ++ [y.2])) (s, [])
  let line : List Byte := x.2.flatMap (fun w => w.getD (List.replicate 16 0))
  let mine := (x.2.drop (o % 64 / 16)).take ((o % 64 + n - 1) / 16 - o % 64 / 16 + 1)
  let s1 := if x.2.all (fun w => w.isSome) then { x.1 with flsLines := (ln, line) :: x.1.flsLines.filter (fun e => e.1 != ln) } else x.1
  (s1, if mine.all (fun w => w.isSome) then .data ((line.drop (o % 64)).take n) else .uncorr)

/-- A line that is still held serves a read of the flash; no bank is read (R436). DESIGN CHOICE (log 21). -/
def State.flsHit (s : State) (o n : Nat) : State × Option (List Byte) :=
  if (o + n - 1) / 64 ≠ o / 64 then (s, none)
  else match s.flsLines.lookup (o / 64) with
    | some line => (s.draw, if Config.keeps s.free then some ((line.drop (o % 64)).take n) else none)
    | none => (s, none)

/-- A read of the flash that no cache serves; for an application core (`fill`) it fills a line. -/
def State.flsMiss (s : State) (fill : Bool) (o n : Nat) : State × FlashAns :=
  let b := bankOf o
  if fill && decide ((o + n - 1) / 64 = o / 64) && s.bankOn b && (s.flsStatus b (o - bankBase b)).isNone then s.flsFill o n else s.flsRead o n

/-- The bytes that a read of `n` bytes at `o` returns from a status word: each aligned lane holds it (R434). -/
def statusBytes (w : Word) (o n : Nat) : List Byte := (List.range n).map (fun i => byteOf w ((o + i) % 4))

/-- The controller records a fallback read that answered (R428). -/
def State.flsFallbackDone (s : State) : State :=
  match s.fbPend with
  | [] => s
  | o :: t => { s with fbPend := t }.flsUncorr o true

/-- Bits of a code word flip: up to 3 are corrected, 4 are detected, 5 or more may escape (R423, R424, R426). -/
def State.flsFlip (s : State) (o n : Nat) : State :=
  let w := o / 16
  let m := s.flsWord w
  let e := m / 2 % 8 + n
  if n = 0 then s
  else if m.testBit 4 || m.testBit 5 then s
  else if e ≤ 3 then s.setFlsWord w (m % 2 + 2 * e)
  else if e = 4 then s.setFlsWord w (m % 2 + 16)
  else s.draw.setFlsWord w (m % 2 + (if Config.flashEscape s.free then 32 else 16))

/-! ## Commands (R429 to R433) -/

/-- A flash command is refused. -/
def State.flsRefuse (s : State) : State := s.raise pgFls 6

/-- Show a bank's state in `FLS_STAT` and `FLS_B_STAT`. -/
def State.flsShow (s : State) (b : Fin 5) : State :=
  let f := s.flash[b]
  let s1 := (s.setBit pgFls Reg.FLS_STAT b (f.op != 0)).setBit pgFls Reg.FLS_STAT (5 + b) f.susp.isSome
  ((s1.setBit pgFls (Reg.FLS_B_STAT b) 0 (f.op != 0)).setBit pgFls (Reg.FLS_B_STAT b) 1 f.susp.isSome).setFld pgFls (Reg.FLS_B_STAT b) 3 2 f.op

/-- Cached lines of the words or the sector of the operation of a bank are invalid: at its start and at its end (R436). -/
def State.flsTouch (s : State) (b : Fin 5) : State :=
  let f := s.flash[b]
  let a := bankBase b + f.addr
  let e := bankBase b + sectorBase b f.addr
  if f.op = 1 then s.flsDrop a (a + 16 * f.words) else if f.op = 2 then s.flsDrop e (e + sectorSize b f.addr) else s

/-- A write of `FLS_B_CMD` (R429). -/
def State.flsCmd (s : State) (b : Fin 5) (v : Word) : State :=
  let f := s.flash[b]
  let op := bitsOf v 2 0
  let addr := s.fld pgFls (Reg.FLS_B_ADDR b) 22 0
  if bitsOf v 15 8 ≠ 0xA7 ∨ !s.bankOn b then s.flsRefuse
  else if op = 1 ∧ f.op = 0 then
    (s.modBank b (fun f => { f with op := 1, addr := addr, words := bitsOf v 5 3 + 1, start := s.time.clk })).flsTouch b |>.flsShow b
  else if op = 2 ∧ f.op = 0 ∧ f.susp = none then
    (s.modBank b (fun f => { f with op := 2, addr := addr, suspReq := false, start := s.time.clk, ran := 0 })).flsTouch b |>.flsShow b
  else if op = 3 ∧ f.op = 2 then s.modBank b (fun f => { f with suspReq := true })
  else if op = 4 ∧ f.op = 0 ∧ f.susp.isSome then
    (s.modBank b (fun f => { f with op := 2, addr := f.susp.getD 0, susp := none, start := s.time.clk })).flsShow b
  else s.flsRefuse

/-- A suspend takes effect; after a resume the erase first runs for 1 ms (R433). -/
def State.flsSuspended (s : State) (b : Fin 5) : State :=
  let f := s.flash[b]
  if f.op = 2 ∧ f.suspReq then
    let s0 := if 0 < f.ran then s.advance ((f.start + 1600000) * Config.stepsPerClk) else s
    ((s0.modBank b (fun f => { f with op := 0, susp := some (sectorBase b f.addr), suspReq := false
                                      ran := s0.eraseRan b })).flsShow b).raise pgFls 7
  else s

/-- An address range of a bank meets the protected range (R432 reason 4). -/
def State.flsProt (s : State) (b : Fin 5) (lo hi : Nat) : Bool :=
  let r := Reg.FLS_B_PROT b
  s.rbit pgFls r 31 && decide (s.fld pgFls r 10 0 ≤ hi / 4096) && decide (lo / 4096 ≤ s.fld pgFls r 26 16)

/-- An operation fails with a reason at an offset of the bank (R431, R432). -/
def State.flsFail (s : State) (b : Fin 5) (erase : Bool) (reason o : Nat) : State :=
  let s1 := (s.setFld pgFls (Reg.FLS_B_STAT b) 18 16 reason).stick pgFls (Reg.FLS_B_STAT b) 19
  (s1.setReg pgFls (Reg.FLS_B_ERRADDR b) (w32 o)).raise pgFls (if erase then 2 else 1)

/-- A word is left undefined (R432, R438): it may read as erased, programmed or damaged. -/
def State.flsUndefined (s : State) (w : Nat) : State :=
  let k := Config.flashLeft s.free
  let s1 := s.draw.flsDrop (16 * w) (16 * w + 16)
  if k = 0 then (s1.setBytes (flashBase + 16 * w) (List.replicate 16 0xFF)).setFlsWord w 0
  else if k = 1 then s1.setFlsWord w 1 else s1.setFlsWord w 16

/-- A sector is erased. -/
def State.flsClear (s : State) (b : Fin 5) (o : Nat) : State :=
  let a := bankBase b + sectorBase b o
  let e := a + sectorSize b o
  { s.flsDrop a e with mem := sparseClear (flashBase + a) (flashBase + e) s.mem, flsMark := sparseClear (a / 16) (e / 16) s.flsMark }

/-- Why a code word at offset `o` of a bank cannot be programmed (R432); of several reasons, the first here. DESIGN CHOICE (log 65). -/
def State.flsWordFault (s : State) (b : Fin 5) (o : Nat) : Option Nat :=
  let m := s.flsWord ((bankBase b + o) / 16)
  if o % 16 ≠ 0 ∨ bankSize b < o + 16 then some 3
  else if s.flsProt b o (o + 15) then some 4
  else if s.flash[b].susp = some (sectorBase b o) then some 5
  else if m.testBit 4 then some 2
  else if m.testBit 0 || m.testBit 5 then some 1
  else none

/-- Program one code word with `bs`, unless it may not be, or does not verify: then the reason and the offset. -/
def State.flsPutWord (s : State) (b : Fin 5) (o : Nat) (bs : List Byte) (bad : Bool) : State × Option (Nat × Nat) :=
  let w := (bankBase b + o) / 16
  match s.flsWordFault b o with
  | some r => (s, some (r, o))
  | none => if bad then (s.flsUndefined w, some (6, o)) else (((s.flsDrop (16 * w) (16 * w + 16)).setBytes (flashBase + 16 * w) bs).setFlsWord w 1, none)

/-- Program code words one after another from offset `o`, up to the first that fails; `bad` names the one that does not
verify. -/
def State.flsPut (s : State) (b : Fin 5) (o : Nat) (bs : List Byte) (bad : Option Nat) : State × Option (Nat × Nat) :=
  (List.range ((bs.length + 15) / 16)).foldl (fun (x : State × Option (Nat × Nat)) j =>
    if x.2.isSome then x else x.1.flsPutWord b (o + 16 * j) ((bs.drop (16 * j)).take 16) (bad == some j)) (s, none)

/-- Program word `j` of a PROG from the program buffer (R431). -/
def State.flsProgWord (s : State) (b : Fin 5) (j : Nat) (vf : Option Nat) : State × Option (Nat × Nat) :=
  let bs := (List.range 4).flatMap (fun c => leBytes 4 (s.reg pgFls (Reg.FLS_B_PBUF (32 * b.val + 4 * j + c))).toNat)
  s.flsPutWord b (s.flash[b].addr + 16 * j) bs (vf == some j)

/-- A running operation ends; `vf` names the word (or, for an erase, any value: the sector) that did not verify within
the maximum time (R430 to R432). DESIGN CHOICE (log 14). -/
def State.flsEnd (s : State) (b : Fin 5) (vf : Option Nat) : State :=
  let f := s.flash[b]
  let t := s.flsTouch b
  let done := (t.modBank b (fun f => { f with op := 0, suspReq := false })).flsShow b
  let fin := (t.modBank b (fun f => { f with op := 0, suspReq := false, ran := 0 })).flsShow b
  match f.op with
  | 1 =>
    let x := (List.range f.words).foldl (fun (x : State × Option (Nat × Nat)) j =>
      if x.2.isSome then x else x.1.flsProgWord b j vf) (done, none)
    (match x.2 with
     | some (r, o) => x.1.flsFail b false r o
     | none => x.1.raise pgFls 0)
  | 2 =>
    if f.addr ≠ sectorBase b f.addr ∨ bankSize b ≤ f.addr then fin.flsFail b true 3 f.addr
    else if s.flsProt b f.addr (f.addr + sectorSize b f.addr - 1) then fin.flsFail b true 4 f.addr
    else if vf.isSome then
      ((List.range (sectorSize b f.addr / 16)).foldl (fun s j => s.flsUndefined ((bankBase b + f.addr) / 16 + j)) fin).flsFail b true 6 f.addr
    else (fin.flsClear b f.addr).raise pgFls 0
  | _ => s

/-- Erase the sectors that `[o, o + n)` of a bank covers; protected ones fail with reason 4. -/
def State.flsEraseRange (s : State) (b : Fin 5) (o n : Nat) : State × Option (Nat × Nat) :=
  if s.flsProt b o (o + n - 1) then (s, some (4, o))
  else
    let a := bankBase b + o
    ({ s.flsDrop a (a + n) with mem := sparseClear (flashBase + a) (flashBase + a + n) s.mem, flsMark := sparseClear (a / 16) ((a + n) / 16) s.flsMark }, none)

/-- A PROG is cut short (R431, R438): the words before the one in hand are programmed, that one is left undefined. -/
def State.flsCut (s : State) (b : Fin 5) : State :=
  let n := s.flash[b].words
  let j := n - clampNat 1 n (Config.progLeft s.free)
  let x := (List.range j).foldl (fun (x : State × Option (Nat × Nat)) i => if x.2.isSome then x else x.1.flsProgWord b i none) (s, none)
  match x.2, s.flsWordFault b (s.flash[b].addr + 16 * j) with
  | none, none => x.1.flsUndefined ((bankBase b + s.flash[b].addr) / 16 + j)
  | _, _ => x.1

/-- A reset of the flash controller ends every operation at once (R438). -/
def State.flsReset (s : State) : State :=
  (List.finRange 5).foldl (fun s (b : Fin 5) =>
    let f := s.flash[b]
    let s0 := if f.op = 1 then s.flsCut b else s
    let s1 := match (if f.op = 2 then some (sectorBase b f.addr) else f.susp) with
      | some o => (List.range (sectorSize b o / 16)).foldl (fun (s : State) j => s.flsUndefined ((bankBase b + o) / 16 + j)) s0
      | none => s0
    (s1.modBank b (fun _ => FlashBank.init)).flsShow b) { s with fbPend := [] }

/-- A bank is busy or suspended. -/
def State.flsActive (s : State) : Bool := (List.finRange 5).any (fun (b : Fin 5) => s.flash[b].op != 0 || s.flash[b].susp.isSome)

/-- A soft reset of the `FLS` page (R438). -/
def State.flsSoftReset (s : State) : State := if s.flsActive then s.flsRefuse else s.clearRegs pgFls 0x40 0x1000

/-- Block effects of a write to the `FLS` page. -/
def State.flsWrite (s : State) (off : Nat) (v mask : Word) : State :=
  match arrIdx 0x100 0x40 5 off with
  | some b => s.flsCmd b (v &&& mask)
  | none =>
    match arrIdx 0x400 4 160 off with
    | some k => if s.flash[Fin.ofNat 5 (k.val / 32)].op ≠ 0 then s.flsRefuse else s.busReg pgFls off v mask
    | none => s.busReg pgFls off v mask

/-- A read of the `FLS` page: `PROGRESS` is live. -/
def State.flsPageRead (s : State) (off : Nat) : Word :=
  match arrIdx 0x108 0x40 5 off with
  | some b => putBits (s.busRead pgFls off) 15 4 (s.flsProgress b)
  | none => s.busRead pgFls off

end Sys2Proof.Machine
end

