-- ==== Sys2Proof/Machine/Cores.lean ====
section
/-! DEFINITION. The cores' levels and banks, starting and stopping, debug halts, the CE and AC pages, and the MMU pages'
registers (08_engine_programming_model.md, 11_traps_and_privilege.md, 15_address_translation.md). -/

namespace Sys2Proof.Machine

/-! ## Levels and banks (R194, R278) -/

/-- An engine. -/
def isCe : CoreId → Bool
  | .ce _ => true
  | .ac _ => false

/-- The page of a core. -/
def corePage : CoreId → PageId
  | .ce e => pgCe e
  | .ac a => pgAc a

/-- The level in force (R278): 0 U, 1 S, 3 M. -/
def Core.lvl (k : Core) : Nat := bitsOf k.status 1 0

/-- A core's bank by name. -/
def Core.bankOf (k : Core) : BankId → Bank
  | .fg => k.bFg | .tl => k.bTl | .s => k.bS | .m => k.bM

/-- Replace a bank. -/
def Core.setBank (k : Core) (b : BankId) (x : Bank) : Core :=
  match b with
  | .fg => { k with bFg := x } | .tl => { k with bTl := x } | .s => { k with bS := x } | .m => { k with bM := x }

/-- The bank in use. -/
def Core.cur (k : Core) : Bank := k.bankOf k.bank

/-- Change the bank in use. -/
def Core.modCur (k : Core) (f : Bank → Bank) : Core := k.setBank k.bank (f k.cur)

/-- A bank emptied (R199, R288): no cell and no return entry cached, the pointers at their bases, ACC 0, `FCSR` kept. -/
def Bank.emptied (b : Bank) : Bank :=
  { b with cells := [], rets := [], acc := 0, accLo := none, accHi := none, dsp := b.dsb, rsp := b.rsb }

/-- The code of a bank in `CE_STAT.BANK` and `STATUS.PBK`. -/
def bankCode : BankId → Nat
  | .fg => 0 | .tl => 1 | .s => 2 | .m => 3

/-- A foreground is gone: what is left on its bank is discarded (R199), so that no pending value finds its cell any more, and its WAITS
take no further sample (R255). -/
def Core.dropFg (k : Core) : Core := { k with bFg := k.bFg.emptied, pend := k.pend.filter (fun p => !(p.waits && p.val.isNone)) }

/-- What a trap entry or a return may change. -/
def Core.snap (k : Core) : TrapSnap :=
  { pc := k.pc, bootHi := k.bootHi, slot := k.slot, wfi := k.wfi, status := k.status, epc := k.epc, cause := k.cause, tval := k.tval
    lvlrec := k.lvlrec, mframe := k.mframe, bTl := k.bTl, bS := k.bS, bM := k.bM, ssp := k.ssp, bank := k.bank, ctx := k.ctx
    sInUse := k.sInUse, mInUse := k.mInUse, sNest := k.sNest, pre := k.pre, ovrRecs := k.ovrRecs, tailGo := k.tailGo
    idleRet := k.idleRet, fgRec := k.fgRec }

/-- An entry or a return is abandoned without effect (R299, R300, R302). -/
def Core.undo (k : Core) (z : TrapSnap) : Core :=
  { k with pc := z.pc, bootHi := z.bootHi, slot := z.slot, wfi := z.wfi, status := z.status, epc := z.epc, cause := z.cause, tval := z.tval
           lvlrec := z.lvlrec, mframe := z.mframe, bTl := z.bTl, bS := z.bS, bM := z.bM, ssp := z.ssp, bank := z.bank, ctx := z.ctx
           sInUse := z.sInUse, mInUse := z.mInUse, sNest := z.sNest, pre := z.pre, ovrRecs := z.ovrRecs, tailGo := z.tailGo
           idleRet := z.idleRet, fgRec := z.fgRec, entry := none }

/-- An entry to S that is in progress is abandoned (R302): its instruction raises its trap again, its interrupt stays pending. -/
def Core.undoEntry (k : Core) : Core :=
  match k.entry with
  | some x => if !x.ret && k.lvl == 1 then k.undo x.snap else { k with entry := none }
  | none => k

/-- Bits [47:32] of a core's fetch address (R208, R229). DEDUCED (log 31). -/
def Core.fetchHi (k : Core) : BitVec 16 := k.bootHi.getD k.cur.vhi

/-- The program counter moves past an instruction of `len` bytes, or to where the branch before it goes (R211). -/
def Core.advancePc (k : Core) (len : Nat) : Core :=
  match k.slot with
  | some d => { k with pc := d.target.getD (k.pc + BitVec.ofNat 32 len), slot := none }
  | none => { k with pc := k.pc + BitVec.ofNat 32 len }

/-! ## Region and translation registers in force (R218, R221, R390) -/

/-- Offset of the copy in force of a region register or of an MMU context register: the copies stand at offsets of the
page that the bus does not see. -/
def forceOff (off : Nat) : Nat := off + 0x800

/-- Put an engine's region registers into force. DEDUCED (log 31). -/
def State.forceRegions (s : State) (e : Fin 64) : State :=
  (List.range 64).foldl (fun s i =>
    let o := 0x100 + 4 * i
    if s.reg (pgCe e) o = 0 ∧ s.reg (pgCe e) (forceOff o) = 0 then s else s.setReg (pgCe e) (forceOff o) (s.reg (pgCe e) o)) s

/-- Put a core's translation registers into force. DEDUCED (log 31). -/
def State.forceMmu (s : State) (a : Fin 8) : State :=
  [Reg.MMU_CTL, Reg.MMU_ROOT_LO, Reg.MMU_ROOT_HI, Reg.MMU_ASID].foldl (fun s o => s.setReg (pgMmu a) (forceOff o) (s.reg (pgMmu a) o)) s

/-- The pages a write to one core's page reaches: both members of a locked pair through the master's, none through the
checker's (R229, R331, R395). -/
def State.pairWrite (s : State) (c : CoreId) : List CoreId :=
  if !s.locked c then [c] else if isChecker c then [] else [c, checkerOf (pairOf c)]

/-! ## Debug halts (R226, R227, R330) -/

/-- Freeze actions of a halt: the channels a halted engine owns go safe where the generator's page has `FRZ` = 1 (R98, R227). -/
def State.freezePwm (s : State) (e : Fin 64) : State :=
  let c := clusterOf e
  if s.rbit (pgPwg0 c) Reg.PAGE_CTL 2 then
    s.forCh (fun s k => if s.chCtl c k 4 2 = (localOf e).val then s.enterSafe c k false true else s)
  else s

/-- `FRZ` = 1 acts at once on the channels of the cluster's engines that are halted already (R227). -/
def State.freezeHalted (s : State) (c : Fin 8) : State :=
  (List.finRange 8).foldl (fun t (i : Fin 8) => if (t.core (.ce (engineOf c i))).halted then t.freezePwm (engineOf c i) else t) s

/-- One core halts at its instruction boundary. -/
def State.haltOne (s : State) (c : CoreId) : State :=
  if (s.core c).halted || !(s.core c).running then s
  else
    let s1 := s.modCore c (fun k => { k with halted := true, step1 := false })
    match c with
    | .ce e => s1.freezePwm e
    | .ac a => s1.raise (pgAc a) 1

/-- A debug halt: both members of a locked pair halt at the same instruction (R330). -/
def State.halt (s : State) (c : CoreId) : State :=
  if s.locked c then (s.haltOne (masterOf (pairOf c))).haltOne (checkerOf (pairOf c)) else s.haltOne c

/-- A single-stepped core halts after the instruction it retires (R226). -/
def State.stepHalt (s : State) (c : CoreId) : State := if (s.core c).step1 then s.halt c else s

/-- Halted cores of a pair resume together. -/
def State.unhalt (s : State) (c : CoreId) (step : Bool) : State :=
  let cs := if s.locked c then [masterOf (pairOf c), checkerOf (pairOf c)] else [c]
  cs.foldl (fun s c => s.modCore c (fun k => if k.halted then { k with halted := false, step1 := step } else k)) s

/-- A TLBI whose broadcast ends, in either way, retires (R248, R394). DEDUCED (log 28). -/
def State.tlbiRetire (s : State) (a : Fin 8) : State :=
  if !(s.core (.ac a)).running then s
  else
    let s1 := (s.pairWrite (.ac a)).foldl (fun t d => t.modCore d (fun k =>
      ({ k with lastPc := k.pc.toNat + k.fetchHi.toNat * 2 ^ 32, entry := none, first := none } : Core).advancePc 2)) s
    s1.stepHalt (.ac a)

/-! ## The coherent-invalidate domain (R391, R392) -/

/-- The members of the domain. -/
def State.domMembers (s : State) : Nat := s.fld (pgMmu 0) Reg.MMU_DOMMEM 7 0

/-- The domain is closed. -/
def State.domClosed (s : State) : Bool := s.rbit (pgMmu 0) Reg.MMU_DOMSTAT 0

/-- Raise an event on every MMU page. -/
def State.raiseMmu (s : State) (b : Nat) : State := (List.finRange 8).foldl (fun s a => s.raise (pgMmu a) b) s

/-- The domain opens; broadcasts that wait are cut short (R392, R394). -/
def State.domOpen (s : State) (cause : Nat) : State :=
  let s1 := (s.setReg (pgMmu 0) Reg.MMU_DOMSTAT (w32 (2 * cause))).raiseMmu 2
  s1.bcast.foldl (fun t b => (t.stick (pgMmu b.issuer) Reg.MMU_STAT 2).tlbiRetire b.issuer) { s1 with bcast := [] }

/-- A member becomes unavailable: a closed domain opens. DESIGN CHOICE (log 4). -/
def State.domLost (s : State) (a : Fin 8) (cause : Nat) : State :=
  if s.domClosed && s.domMembers.testBit a then s.domOpen cause else s

/-- A core is unavailable to the domain: stopped, off, halted, or in a lock or split (R392). -/
def State.domUnfit (s : State) (a : Fin 8) : Bool :=
  let k := s.core (.ac a)
  let p := s.pairs[pairOf (.ac a)]
  !k.running || !s.domOn (104 + a) || p.halted || p.busy

/-- `MMU_DOMCTL.CLOSE` (R392). -/
def State.domClose (s : State) : State :=
  if (List.finRange 8).any (fun (a : Fin 8) => s.domMembers.testBit a && s.domUnfit a) then s.raiseMmu 3
  else s.setBit (pgMmu 0) Reg.MMU_DOMSTAT 0 true

/-- A write of `MMU_DOMCTL`, from an M-level access (R392). -/
def State.domCtl (s : State) (m : Bool) (v : Word) : State :=
  if !m then s.raiseMmu 3
  else
    let s1 := if bitOf v 1 then s.domOpen 1 else s
    if bitOf v 0 then s1.domClose else s1

/-- A write of `MMU_DOMMEM` (R392). -/
def State.domMem (s : State) (m : Bool) (v mask : Word) : State :=
  if !m || s.domClosed then s.raiseMmu 3 else s.busReg (pgMmu 0) Reg.MMU_DOMMEM v mask

/-- Who may write a core's translation registers: the core itself at S or M, any M-level access (R390). -/
def State.mmuMay (s : State) (i : Initiator) (m : Bool) (a : Fin 8) : Bool :=
  m || (i == .core (.ac a) && decide (1 ≤ (s.core (.ac a)).lvl))

/-- Block effects of a write to an MMU page (R390, R392, R395). -/
def State.mmuWrite (s : State) (i : Initiator) (a : Fin 8) (off : Nat) (m : Bool) (v mask : Word) : State :=
  if off = Reg.MMU_DOMCTL then s.domCtl m (v &&& mask)
  else if off = Reg.MMU_DOMSTAT then s
  else if off = Reg.MMU_DOMMEM then s.domMem m v mask
  else if off = Reg.MMU_CTL ∨ off = Reg.MMU_ROOT_LO ∨ off = Reg.MMU_ROOT_HI ∨ off = Reg.MMU_ASID then
    if s.mmuMay i m a then
      (s.pairWrite (.ac a)).foldl (fun s c => s.busReg (match c with | .ac b => pgMmu b | .ce _ => pgMmu a) off v mask) s
    else s.raise (pgMmu a) 1
  else s.busReg (pgMmu a) off v mask

/-- A read of an MMU page. -/
def State.mmuRead (s : State) (a : Fin 8) (off : Nat) : Word :=
  if off = Reg.MMU_DOMSTAT ∨ off = Reg.MMU_DOMMEM then s.busRead (pgMmu 0) off
  else if off = Reg.MMU_STAT then putBits (s.busRead (pgMmu a) off) 1 1 (b2n (s.domClosed && s.domMembers.testBit a))
  else s.busRead (pgMmu a) off

/-! ## Start and stop (R218, R229) -/

/-- An engine in its tail at S, at `CE_BOOTVEC`, all banks empty. DEDUCED (log 31). -/
def Core.startCe (k : Core) (pc : Word) : Core :=
  { k with running := true, halted := false, step1 := false, wfi := false, lockup := false, fresh := true, pc := pc, status := 1
           lvlrec := 0, sInUse := false, mInUse := false, sNest := 0, ctx := .tail, bank := .tl, pre := none, ovrRecs := [], tailGo := none
           slot := none, pend := [], ovrPend := none, fgDue := false, idleRet := false, fgRec := none, entry := none, first := none
           bFg := k.bFg.emptied, bTl := k.bTl.emptied, bS := k.bS.emptied, bM := k.bM.emptied }

/-- A core that stops at once: every context is abandoned; retired stores in its buffer still drain. A foreground so
abandoned overruns at its deadline (R218). -/
def Core.stop (k : Core) : Core :=
  { k with running := false, halted := false, step1 := false, wfi := false, slot := none, pend := [], pre := none, ovrRecs := [], tailGo := none
           ctx := .idle, fgGone := k.fgGone || (k.ctx == .fg), ovrPend := none, fgDue := false, entry := none, first := none }

/-- `CE_CTL.RUN` = 1 (R218). DEDUCED (log 31). -/
def State.ceStart (s : State) (e : Fin 64) : State :=
  (s.modCore (.ce e) (fun k => k.startCe (s.reg (pgCe e) Reg.CE_BOOTVEC))).forceRegions e

/-- Stop a core and clear its `RUN` bit; a closed domain that loses a member opens (R218, R229, R392). -/
def State.coreStop (s : State) (c : CoreId) : State :=
  let s1 := s.modCore c Core.stop
  match c with
  | .ce e => s1.setBit (pgCe e) Reg.CE_CTL 0 false
  | .ac a => (s1.setBit (pgAc a) Reg.AC_CTL 0 false).domLost a 2

/-- An application core that starts at M (R229, R397). DEDUCED (log 31). -/
def State.acStart (s : State) (a : Fin 8) : State :=
  let z (b : Bank) : Bank := { b.emptied with vhi := 0 }
  (s.modCore (.ac a) (fun k =>
    { k with running := true, halted := false, step1 := false, wfi := false, lockup := false, fresh := true
             pc := s.reg (pgAc a) Reg.AC_BOOTVEC_LO, bootHi := some (BitVec.ofNat 16 (s.fld (pgAc a) Reg.AC_BOOTVEC_HI 15 0))
             status := 0x803, lvlrec := 0, sInUse := false, mInUse := true, sNest := 0, ctx := .tail, bank := .m, slot := none
             pend := [], bTl := z k.bTl, bS := z k.bS, bM := z k.bM, tlb := [], walk := [], entry := none, first := none })).forceMmu a

/-- A write of `CE_CTL`: both members of a locked pair follow the master's (R218, R331). -/
def State.ceCtlWrite (s : State) (e : Fin 64) (v mask : Word) : State :=
  (s.pairWrite (.ce e)).foldl (fun s c =>
    match c with
    | .ce x =>
      let was := s.rbit (pgCe x) Reg.CE_CTL 0
      let s1 := s.busReg (pgCe x) Reg.CE_CTL v mask
      let now := s1.rbit (pgCe x) Reg.CE_CTL 0
      if now && !was then s1.ceStart x else if was && !now then s1.coreStop (.ce x) else s1
    | .ac _ => s) s

/-- A write of `AC_CTL` (R229). -/
def State.acCtlWrite (s : State) (a : Fin 8) (m : Bool) (v mask : Word) : State :=
  if !m then s.raise (pgAc a) 2
  else (s.pairWrite (.ac a)).foldl (fun s c =>
    match c with
    | .ac x =>
      let was := s.rbit (pgAc x) Reg.AC_CTL 0
      let s0 := s.busReg (pgAc x) Reg.AC_CTL v mask
      let s1 := if x.val < 2 then s0.setBit (pgAc x) Reg.AC_CTL 0 true else s0
      let now := s1.rbit (pgAc x) Reg.AC_CTL 0
      if now && !was then s1.acStart x else if was && !now then s1.coreStop (.ac x) else s1
    | .ce _ => s) s

/-! ## The pages (R223, R224, R228, R229) -/

/-- Block effects of a write to a CE page: the checker of a locked pair ignores it, the master's applies to both (R331). -/
def State.ceWrite (s : State) (e : Fin 64) (off : Nat) (v mask : Word) : State :=
  if off = Reg.CE_CTL then s.ceCtlWrite e v mask
  else (s.pairWrite (.ce e)).foldl (fun s c =>
    match c with
    | .ce x =>
      let s1 := s.busReg (pgCe x) off v mask
      if off = Reg.CE_CKPT_LEN then s1.setFld (pgCe x) off 4 0 (min 16 (s1.fld (pgCe x) off 4 0))
      else match arrIdx 0x104 0x10 16 off with
        | some _ => s1.setFld (pgCe x) off 4 0 (max 8 (s1.fld (pgCe x) off 4 0))
        | none => s1
    | .ac _ => s) s

/-- Block effects of a write to an AC page (R229). -/
def State.acWrite (s : State) (a : Fin 8) (off : Nat) (m : Bool) (v mask : Word) : State :=
  if off = Reg.AC_CTL then s.acCtlWrite a m v mask
  else if off = Reg.AC_BOOTVEC_LO ∨ off = Reg.AC_BOOTVEC_HI then
    if !m then (s.lockMark (pgAc a) off v mask).raise (pgAc a) 2
    else (s.pairWrite (.ac a)).foldl (fun s c => match c with | .ac x => s.busReg (pgAc x) off v mask | .ce _ => s) s
  else s.busReg (pgAc a) off v mask

/-- A read of a CE page. -/
def State.ceRead (s : State) (e : Fin 64) (off : Nat) : Word :=
  let k := s.core (.ce e)
  if off = Reg.CE_STAT then
    w32 (k.lvl + 4 * bankCode k.bank + 16 * b2n k.running + 32 * b2n k.wfi + 64 * b2n k.halted)
  else s.busRead (pgCe e) off

/-- A read of an AC page: `AC_PCSAMP_LO` latches the high part for the initiator. -/
def State.acRead (s : State) (i : Initiator) (a : Fin 8) (off : Nat) : State × Word :=
  let k := s.core (.ac a)
  let p := pgAc a
  if off = Reg.AC_STAT then
    (s, w32 (k.lvl + 4 * b2n k.running + 8 * b2n k.wfi + 16 * b2n k.halted + 32 * b2n k.lockup))
  else if off = Reg.AC_PCSAMP_LO then (s.setSnap i p Reg.AC_PCSAMP_HI (w32 (k.lastPc / 2 ^ 32)), w32 k.lastPc)
  else if off = Reg.AC_PCSAMP_HI then (s, s.snap i p off)
  else (s, s.busRead p off)

/-- A soft reset of a core's page: the core stops and the registers return (R13); `RUN` of AC0 and AC1 stays 1 (R229).
DEDUCED (log 31). -/
def State.coreSoftReset (s : State) (c : CoreId) : State :=
  match c with
  | .ce e => (s.coreStop (.ce e)).clearRegs (pgCe e) 0x40 0x1000
  | .ac a => if a.val < 2 then s.clearRegs (pgAc a) 0x40 0x1000 else (s.coreStop (.ac a)).clearRegs (pgAc a) 0x40 0x1000

/-! ## Foreground entry (R56, R199, R303) -/

/-- The foreground vector of an engine. -/
def State.fgVec (s : State) (e : Fin 64) : Word := s.reg (pgFrm (clusterOf e)) (Reg.FRM_CE_FGVEC (localOf e))

/-- The foreground of a frame takes the core: an entry to S in progress is abandoned (R302), the context it pre-empts is recorded, the FG
bank starts empty. -/
def Core.enterFg (k0 : Core) (vec : Word) (s1 : Bool) (fcnt : Word) (clk : Nat) : Core :=
  let k := k0.undoEntry
  { k with
    pre := some { has := k.ctx == .tail, pc := k.pc, status := k.status, bank := k.bank, wfi := false, slot := k.slot
                  ssp := k.ssp, lvlrec := k.lvlrec, sInUse := k.sInUse, sNest := k.sNest }
    ctx := .fg, bank := .fg, bFg := k.bFg.emptied, pc := vec, wfi := false, slot := none, fgRec := none, first := none
    status := (putBits k.status 1 0 (b2n s1)) ||| 0x1000
    fgClk := clk, fgFcnt := fcnt, fgEnded := false, fgGone := false, fgDue := false, ckptNow := false }

/-- Enter the foreground of the frame of the newest tick on one core. -/
def State.fgEnterOne (s : State) (c : Fin 8) (e : Fin 64) (vecOf : Fin 8) : State :=
  s.modCore (.ce e) (fun k => k.enterFg (s.reg (pgFrm c) (Reg.FRM_CE_FGVEC vecOf)) (s.rbit (pgCe e) Reg.CE_CTL 1)
    (s.car c).tickFcnt s.time.clk)

/-- Enter the foreground on local engine `i`, and on its checker where it is the master of a locked pair. -/
def State.fgEnter (s : State) (c i : Fin 8) : State :=
  let e := engineOf c i
  (s.pairWrite (.ce e)).foldl (fun s x => match x with | .ce y => s.fgEnterOne c y i | .ac _ => s) s

/-- What becomes of local engine `i` at a tick that enters foregrounds (R56, R226, R331, R338, R340, R345, R348): skipped
where it is stopped, off, halted, a checker, a standby, in a halted pair or in a catch-up; deferred at M or while a lock
of its pair runs. -/
def State.tickEngine (s : State) (c i : Fin 8) : State :=
  let e := engineOf c i
  let k := s.core (.ce e)
  let pr := pairOf (.ce e)
  let p := s.pairs[pr]
  let stby := p.locked && s.rbit (pgPairC c) (Reg.PAIR_PCFG (pr % 4)) 3
  if !s.rbit (pgFrm c) Reg.FRM_CEMASK i || !s.domOn e || !k.running || k.lockup || k.halted || p.halted || stby
      || (p.locked && isChecker (.ce e)) then s
  else if p.catchUp.isSome then s.modPair pr (fun p => { p with catchUp := p.catchUp.map (fun x => { x with ticked := true }) })
  else if k.lvl = 3 ∨ p.busy then (s.pairWrite (.ce e)).foldl (fun s x => s.modCore x (fun k => { k with fgDue := true, fgEnded := false, fgFcnt := (s.car c).tickFcnt })) s
  else s.fgEnter c i

/-- A foreground entry that waited takes place (R56, R338). -/
def State.fgDeferred (s : State) (e : Fin 64) : State :=
  if (s.core (.ce e)).fgDue && (s.core (.ce e)).lvl != 3 && !(isChecker (.ce e) && s.locked (.ce e)) && !s.pairs[pairOf (.ce e)].busy then
    s.fgEnter (clusterOf e) (localOf e)
  else s

end Sys2Proof.Machine
end

