-- ==== Sys2Proof/Machine/Pairs.lean ====
section
/-! DEFINITION. Pairs of cores (13_paired_execution.md, R329 to R354): requests, lock and split, mismatch and halt,
checkpoints, standby and takeover, and the PAIR pages. -/

namespace Sys2Proof.Machine

/-- The page of a pair. -/
def pairPage (k : Fin 36) : PageId := if k.val < 32 then ⟨.pairC, k / 4⟩ else pgPairSys

/-- The number of a pair within its page. -/
def pairLocal (k : Fin 36) : Nat := k.val % 4

/-- The cluster of an engine pair. -/
def pairCluster (k : Fin 36) : Fin 8 := clu (k.val / 4)

/-- The pair of a page's local number. -/
def pairAt (p : PageId) (i : Nat) : Fin 36 := if p.kind = .pairSys then Fin.ofNat 36 (32 + i % 4) else Fin.ofNat 36 (p.inst % 8 * 4 + i % 4)

/-- A pair of engines. -/
def isCePair (k : Fin 36) : Bool := decide (k.val < 32)

/-- An armed standby pair: locked, `STBY` = 1 (R345). -/
def State.standby (s : State) (k : Fin 36) : Bool :=
  isCePair k && s.pairs[k].locked && s.rbit (pairPage k) (Reg.PAIR_PCFG (pairLocal k)) 3

/-- A standby that is ready (R345). -/
def State.standbyReady (s : State) (k : Fin 36) : Bool := s.standby k && !s.pairs[k].halted && !s.pairs[k].busy

/-! ## Requests (R336, R337, R343) -/

/-- A lock or split request is refused (R337). -/
def State.pairRefused (s : State) (k : Fin 36) (lock : Bool) : Bool :=
  let p := s.pairs[k]
  !s.domOn (coreDomain (masterOf k)) || !s.domOn (coreDomain (checkerOf k)) || p.halted || p.detect.isSome || lock == p.locked
    || p.req.isSome || p.busy || (!lock && (s.standby k || k.val == 32))

/-- A lock or split request (R336, R337). -/
def State.pairRequest (s : State) (k : Fin 36) (lock : Bool) : State :=
  if s.pairRefused k lock then s.raise (pairPage k) 5
  else s.modPair k (fun p => { p with req := some ⟨lock, s.now + Config.usSteps⟩ })

/-- `CANCEL` withdraws a request that has not yet taken effect (R336). -/
def State.pairCancel (s : State) (k : Fin 36) : State :=
  if s.pairs[k].busy then s else s.modPair k (fun p => { p with req := none })

/-- `RELEASE` ends the halt of a pair: both members split and stopped (R343). DEDUCED (log 33). -/
def State.pairRelease (s : State) (k : Fin 36) : State :=
  if !s.pairs[k].halted then s
  else
    let s1 := s.modPair k (fun p => { p with halted := false, locked := false, present := none })
    (s1.coreStop (masterOf k)).coreStop (checkerOf k)

/-- A write of `PAIR_CMD`: RELEASE, CANCEL, then LOCK and SPLIT, each for the pairs whose bits are set. DEDUCED (log 33). -/
def State.pairCmd (s : State) (p : PageId) (v : Word) : State :=
  (List.range 4).foldl (fun s i =>
    let k := pairAt p i
    let s1 := if bitOf v (8 + i) then s.pairRelease k else s
    let s2 := if bitOf v (12 + i) then s1.pairCancel k else s1
    let s3 := if bitOf v i then s2.pairRequest k true else s2
    if bitOf v (4 + i) then s3.pairRequest k false else s3) s

/-- Block effects of a write to a PAIR page. -/
def State.pairPageWrite (s : State) (p : PageId) (off : Nat) (v mask : Word) : State :=
  if off = Reg.PAIR_CMD then s.pairCmd p (v &&& mask)
  else if p.kind = .pairSys ∧ 0x5C ≤ off ∧ off < 0xC0 then s
  else
    let s1 := s.busReg p off v mask
    if off = Reg.PAIR_TKO_LIM then s1.setFld p off 4 0 (min 20 (s1.fld p off 4 0)) else s1

/-- The completed half of a core's checkpoint slot (R344). -/
def Core.ckptDone (k : Core) : Ckpt := if k.ckptSel then k.ckpt1 else k.ckpt0

/-- A read of a PAIR page (R344, R353). -/
def State.pairPageRead (s : State) (p : PageId) (off : Nat) : Word :=
  let bits (f : Fin 36 → Bool) (sh : Nat) : Nat := (List.range 4).foldl (fun a i => a + b2n (f (pairAt p i)) * 2 ^ (sh + i)) 0
  if off = Reg.PAIR_STAT then
    w32 (bits (fun k => s.pairs[k].locked) 0 + bits (fun k => s.pairs[k].halted) 4 + bits (fun k => s.standbyReady k) 8
      + bits (fun k => s.pairs[k].busy) 12 + bits (fun k => s.pairs[k].catchUp.isSome) 16)
  else if p.kind = .pairSys ∧ 0x5C ≤ off ∧ off < 0xC0 then 0
  else match arrIdx 0x84 0x10 4 off with
    | some i =>
      let m := s.core (masterOf (pairAt p i))
      if m.ckptVal then w32 (1 + 2 * b2n m.ckptSel + 4 * m.ckptDone.blk + 65536 * m.ckptDone.ofs) else 0
    | none => match arrIdx 0x88 0x10 4 off with
      | some i => let m := s.core (masterOf (pairAt p i)); if m.ckptVal then m.ckptDone.fcnt else 0
      | none => s.busRead p off

/-! ## Lock and split (R336, R338, R339) -/

/-- The exact time of the coming machine frame boundary (R51). -/
def State.mfBoundary (s : State) : Nat := s.timeOf ((s.time.mft.toNat + s.time.mfp) * 2 ^ 32 % 2 ^ 96)

/-- The boundary of a pair that comes next, if it serves a request made for `from_` or later (R336). -/
def State.pairBoundary (s : State) (k : Fin 36) (from_ : Nat) : Option Nat :=
  if isCePair k then
    let c := pairCluster k
    if s.ticking c then (if from_ ≤ (s.car c).nextTick then some (s.car c).nextTick else none) else some (max from_ s.now)
  else if from_ ≤ s.mfBoundary then some s.mfBoundary else none

/-- Both members of a pair change in the same way. -/
def State.modMembers (s : State) (k : Fin 36) (f : Core → Core) : State := (s.modCore (masterOf k) f).modCore (checkerOf k) f

/-- A pair of application cores leaves the closed domain (R392). -/
def State.pairLeaves (s : State) (k : Fin 36) : State :=
  match masterOf k, checkerOf k with
  | .ac a, .ac b => (s.domLost a 3).domLost b 3
  | _, _ => s

/-- The boundary of an accepted lock: both members stop issuing, the checker's contexts are abandoned (R338 step 1). -/
def State.lockBoundary (s : State) (k : Fin 36) : State :=
  match s.pairs[k].req with
  | some r =>
    if !r.lock || s.pairs[k].busy then s
    else match s.pairBoundary k r.from_ with
      | some t =>
        let s1 := (s.advance t).modPair k (fun p => { p with busy := true })
        (s1.modCore (checkerOf k) (fun x => { x with ctx := .idle, pre := none, ovrRecs := [], slot := none, pend := [], entry := none, first := none })).pairLeaves k
      | none => s
  | none => s

/-- Copy the bytes of `[a, a + n)` to `b`. -/
def State.copyBytes (s : State) (a b n : Nat) : State :=
  let part := (s.mem.filter (fun e => decide (a ≤ e.1 ∧ e.1 < a + n))).map (fun e => (e.1 - a + b, e.2))
  part.foldl (fun s e => s.setByte e.1 e.2) (s.zeroBytes b (b + n))

/-- The predictor emptied (R274). -/
def Core.emptyPredictor (k : Core) : Core := { k with hist := [], counters := [], targets := [], direct := [] }

/-- Copy the block-specific registers of a page to another of its kind. -/
def State.copyRegs (s : State) (p q : PageId) : State :=
  let part := s.regs.filter (fun e => decide (pageBase p + 0x40 ≤ e.1 ∧ e.1 < pageBase p + 0x1000))
  part.foldl (fun s e => s.setReg q (e.1 - pageBase p) e.2) (s.clearRegs q 0x40 0x1000)

/-- The checker takes the master's state (R338 steps 3 and 4). -/
def State.copyToChecker (s : State) (k : Fin 36) : State :=
  let m := masterOf k
  let s1 := s.modCore m (fun x => { x.emptyPredictor with tlb := [], walk := [], icache := [] })
  let s2 := s1.modCore (checkerOf k) (fun x =>
    { (s1.core m) with spq := [], replay := [], ckpt0 := x.ckpt0, ckpt1 := x.ckpt1, ckptSel := x.ckptSel, ckptVal := x.ckptVal })
  match masterOf k, checkerOf k with
  | .ce a, .ce b => (s2.copyBytes (lsramBase a) (lsramBase b) 0x8000).copyRegs (pgCe a) (pgCe b)
  | .ac a, .ac b => s2.copyRegs (pgMmu a) (pgMmu b)
  | _, _ => s2

/-- A lock completes, once the master's buffer has drained and its pending cells are filled (R338). -/
def State.lockDone (s : State) (k : Fin 36) : State :=
  let m := s.core (masterOf k)
  let due := match s.pairs[k].req with | some r => r.lock && s.pairs[k].busy | none => false
  if !due || !m.sbuf.isEmpty || !m.pend.isEmpty then s
  else
    let s1 := (s.copyToChecker k).modPair k (fun p => { p with locked := true, busy := false, req := none })
    let s2 := s1.raise (pairPage k) 1
    match masterOf k with
    | .ce e => s2.fgDeferred e
    | .ac _ => s2

/-- The boundary of an accepted split (R339). -/
def State.splitBoundary (s : State) (k : Fin 36) : State :=
  match s.pairs[k].req with
  | some r =>
    if r.lock then s
    else match s.pairBoundary k r.from_ with
      | some t => (((s.advance t).modPair k (fun p => { p with locked := false, req := none })).raise (pairPage k) 2).pairLeaves k
      | none => s
  | none => s

/-! ## Mismatch and halt (R340 to R342) -/

/-- The newest tick's FCNT for an engine pair, the MFN [31:0] for application cores (Table: PAIR page). -/
def State.pairFcnt (s : State) (k : Fin 36) : Word := if isCePair k then (s.car (pairCluster k)).tickFcnt else s.time.mfn.setWidth 32

/-- A mismatch of kind `kind` is detected: both members stop issuing; the `drop` youngest stores of the master's buffer are
unmatched and discarded, and so are the duty words that the checker has not matched yet, 2.5 ns after their issue (R184, R340).
DEDUCED (log 32 and 33). -/
def State.mismatch (s : State) (k : Fin 36) (kind drop : Nat) : State :=
  let p := s.pairs[k]
  if !p.locked || p.halted || p.detect.isSome || decide (6 < kind) then s
  else
    let m := s.core (masterOf k)
    let s1 := s.modPair k (fun p => { p with detect := some (kind, w32 m.lastPc, s.pairFcnt k, w32 (s.time.ns.toNat % 2 ^ 32)) })
    let s2 := s1.modCore (masterOf k) (fun x => { x with sbuf := x.sbuf.take (x.sbuf.length - drop) })
    match masterOf k with
    | .ce e => s2.modPwm (clusterOf e) (fun g =>
        { g with flight := g.flight.set (localOf e) (g.flight[localOf e].filter (fun w => decide (w.at_ ≤ s.now + nsSteps 15))) })
    | .ac _ => s2

/-- The standby that takes over from a pair, if it is ready (R345, R346). -/
def State.standbyOf (s : State) (k : Fin 36) : Option (Fin 36) :=
  let r := Reg.PAIR_PCFG (pairLocal k)
  let p := pairPage k
  if !isCePair k || !s.rbit p r 0 then none
  else
    let sb := pairAt p (s.fld p r 2 1)
    if s.standbyReady sb && sb != k then some sb else none

/-- Local engine index of a pair's master. -/
def masterLocal (k : Fin 36) : Fin 8 := clu (2 * (k.val % 4))

/-- Steps 1 to 4 of a takeover by `sb` from `k` (R346). -/
def State.takeoverBegin (s : State) (k sb : Fin 36) : State :=
  let c := pairCluster k
  let p := pairPage k
  let f := masterLocal k
  let n := masterLocal sb
  -- 1: the standby's contexts are abandoned; STBY clears, SBEN clears in every pair that named it
  let s1 := s.modMembers sb (fun x => { x with ctx := .idle, pre := none, ovrRecs := [], slot := none, pend := [], bank := .tl, wfi := false, entry := none, first := none })
  let s2 := (List.range 4).foldl (fun s i =>
    if s.fld p (Reg.PAIR_PCFG i) 2 1 = pairLocal sb then s.setBit p (Reg.PAIR_PCFG i) 0 false else s)
    (s1.setBit p (Reg.PAIR_PCFG (pairLocal sb)) 3 false)
  -- 2: ownership
  let s3 := s2.forCh (fun s ch => if s.chCtl c ch 4 2 = f.val then s.setFld (pgPwg0 c) (Reg.PWG_CH_CTL ch) 4 2 n else s)
  let s4 := if s3.fld (pgPwg0 c) Reg.PWG_CTL 10 8 = f.val then s3.setFld (pgPwg0 c) Reg.PWG_CTL 10 8 n else s3
  -- 3: the failed master's mask bits and entry address
  let mv (s : State) (o : Nat) : State :=
    (s.setBit (pgFrm c) Reg.FRM_CEMASK (o + n) (s.rbit (pgFrm c) Reg.FRM_CEMASK (o + f))).setBit (pgFrm c) Reg.FRM_CEMASK (o + f) false
  let s5 := (mv (mv s4 0) 8).setReg (pgFrm c) (Reg.FRM_CE_FGVEC n) (s4.reg (pgFrm c) (Reg.FRM_CE_FGVEC f))
  -- 4: deliveries
  let s6 := s5.modSmp c (fun m =>
    let moved := m.flight[f].foldl (fun l a => insertSample a l) m.flight[n]
    { m with route := m.route.map (fun r => if r = f then n else r), flight := (m.flight.set n moved).set f [] })
  s6.modPair sb (fun q => { q with busy := true, takeover := some (Fin.ofNat 4 (pairLocal k)) })

/-- A pair is halted once its drain is complete; takeover begins if a standby is ready (R340 to R342, R346, R350). DEDUCED (log 33). -/
def State.pairHalt (s : State) (k : Fin 36) : State :=
  match s.pairs[k].detect with
  | none => s
  | some (kind, pc, fcnt, ns) =>
    if !(s.core (masterOf k)).sbuf.isEmpty then s
    else
      let p := pairPage k
      let sb := s.standbyOf k
      let tko := sb.isSome
      let ident := b2n (!isCePair k) + 2 * (if isCePair k then k.val else k.val - 32) + 64 * kind + 512 * b2n tko + 1024 * b2n (!tko)
      let s1 := (s.count p Reg.PAIR_MIS_CNT 15 0).raise p 0
      let s2 := if s1.rbit p Reg.PAIR_MIS_INFO 0 then s1
        else (((s1.setReg p Reg.PAIR_MIS_INFO (w32 (1 + 2 * pairLocal k + 8 * kind + 64 * b2n tko + 128 * b2n (!tko)
            + 256 * (match sb with | some q => pairLocal q | none => 0)))).setReg p Reg.PAIR_MIS_PC pc).setReg p
          Reg.PAIR_MIS_FCNT fcnt).setReg p Reg.PAIR_MIS_DTB ns
      let s3 := s2.modPair k (fun q => { q with halted := true, detect := none, req := none
                                                present := if k.val = 32 then none else some (w32 ident) })
      let s4 := if isCePair k then
          let c := pairCluster k
          (s3.pwmOverrun c (masterLocal k)).modPwm c (fun w => { w with overrun := if tko then w.overrun else w.overrun ||| (1#8 <<< (masterLocal k).val) })
        else s3.pairLeaves k
      match sb with
      | some q => s4.takeoverBegin k q
      | none => s4.raise p 4

/-! ## Takeover (R346 to R350) -/

/-- Write a completed checkpoint into an engine's LSRAM (R346 step 5). DEDUCED (log 34). -/
def State.ckptRestore (s : State) (e : Fin 64) (d : Ckpt) : State :=
  (List.range d.blk).foldl (fun (t : State) b =>
    (t.eccWrite .host (lsramBase e + (d.ofs + b) * 64 % 0x8000) ((d.data.drop (64 * b)).take 64)).1) s

/-- The read of the completed checkpoint for a takeover: an error that was injected into it is found (R358, R359, R361). DEDUCED (log 46). -/
def State.ckptRead (s : State) (m : Fin 64) : State :=
  let k := s.core (.ce m)
  let ofs := (2 * (localOf m).val + b2n k.ckptSel) * 1040
  let p := pgSramC (clusterOf m)
  if k.ckptDone.inj = 1 then (s.eccRecord p 9 ofs false 0 32 9).setCkptInj m k.ckptSel 0
  else if k.ckptDone.inj = 2 then s.eccRecord p 9 ofs true 0 0 9
  else s

/-- The standby `sb` starts its tail at `PAIR_SB_TVEC`, or idles (R350); the tail's level is `CE_CTL.TLVL`. DEDUCED (log 33). -/
def State.standbyTail (s : State) (sb : Fin 36) : State :=
  let v := s.reg (pairPage sb) (Reg.PAIR_SB_TVEC (pairLocal sb))
  let t := match masterOf sb with | .ce e => s.rbit (pgCe e) Reg.CE_CTL 2 | .ac _ => false
  s.modMembers sb (fun x => { x with ctx := if v = 0 then .idle else .tail, bank := .tl, bTl := x.bTl.emptied, pc := v
                                     status := b2n t, lvlrec := 0, sInUse := false, mInUse := false, sNest := 0 })

/-- Takeover steps 5 to 7 end: the standby issues its first instruction, in a catch-up foreground where the failed master
had not retired FRAMEEND of the frame of the newest tick (R346 to R348). DEDUCED (log 33). DESIGN CHOICE (log 14). -/
def State.takeoverDone (s : State) (sb : Fin 36) : State :=
  match s.pairs[sb].takeover, masterOf sb, checkerOf sb with
  | some f, .ce m, .ce c2 =>
    let p := pairPage sb
    let c := pairCluster sb
    let fk := s.core (masterOf (pairAt p f))
    let s0 := match masterOf (pairAt p f) with | .ce g => if fk.ckptVal then s.ckptRead g else s | .ac _ => s
    let s1 := if fk.ckptVal then (s0.ckptRestore m fk.ckptDone).ckptRestore c2 fk.ckptDone else s0
    let fc := (s.car c).tickFcnt
    let q := fk.replay.filter (fun a => a.frame = fc)
    let s2 := (s1.modCore (.ce m) (fun x => { x with spq := q, replay := q, running := true, halted := false })).modPair sb
      (fun x => { x with busy := false, takeover := none })
    let s3 := ((s2.count p Reg.PAIR_TKO_CNT 15 0).raise p 3).standbyTail sb
    let n := masterLocal sb
    if fk.fgEnded || !(s.car c).ticked || !s.rbit (pgFrm c) Reg.FRM_CEMASK n then s3
    else
      let lim := max 1 (s3.fld p Reg.PAIR_TKO_LIM 4 0)
      (s3.fgEnter c n).modPair sb (fun x => { x with catchUp := some ⟨s3.now + lim * Config.usSteps, fc, false⟩ })
  | _, _, _ => s

/-- A soft reset of a PAIR page returns its pairs to their state after reset (R11, Table: PAIR page): requests and takeovers end, a halted
pair is released, a locked one is split and its members go on, but for application-core pair 0, whose reset state is locked.
DESIGN CHOICE (log 61). -/
def State.pairSoftReset (s : State) (p : PageId) : State :=
  (List.range 4).foldl (fun (t : State) i =>
    let k := pairAt p i
    let q := t.pairs[k]
    let t1 := t.pairRelease k
    let t2 := t1.modPair k (fun _ => { locked := k.val == 32, halted := false, busy := false, req := none, detect := none, present := none
                                       takeover := none, catchUp := none })
    if q.locked && k.val != 32 then t2.pairLeaves k else t2) (s.clearRegs p 0x40 0x1000)

end Sys2Proof.Machine
end

