-- ==== Sys2Proof/Machine/Security.lean ====
section
/-! DEFINITION. Identity, attestation and lifecycle (19_security_lifecycle.md): the vault, signing, measurements, tamper,
image and recipe verification. -/

namespace Sys2Proof.Machine

/-- Change the security block. -/
def State.modSec (s : State) (f : Sec → Sec) : State := { s with sec := f s.sec }

/-- The lifecycle state. -/
def State.lifecycle (s : State) : Nat := s.fld pgSec Reg.SEC_LC 1 0

/-- An identity key is present. -/
def State.keyOk (s : State) : Bool := s.rbit pgSec Reg.SEC_LC 2

/-- Twelve words of the page from `off`, big-endian, as one digest. -/
def State.secDigest (s : State) (off : Nat) : BitVec 384 :=
  BitVec.ofNat 384 ((List.range 12).foldl (fun a w => a * 2 ^ 32 + (s.reg pgSec (off + 4 * w)).toNat) 0)

/-- Store a digest, or a signature of `n` words, as big-endian words. -/
def State.putDigest (s : State) (off n : Nat) (v : Nat) : State :=
  (List.range n).foldl (fun s w => s.setReg pgSec (off + 4 * w) (w32 (v / 2 ^ (32 * (n - 1 - w))))) s

/-- A digest as 48 bytes, most significant first. -/
def digestBytes (d : BitVec 384) : List Byte := (leBytes 48 d.toNat).reverse

/-- The number that bytes spell, most significant first. -/
def beNat (l : List Byte) : Nat := leNat l.reverse

/-! ## Signing (R477) -/

/-- `SEC_SIGN_CMD.GO`: `SEC_SIGN_SR` reads zero until the signing completes. DEDUCED (log 66). -/
def State.signGo (s : State) : State :=
  if s.sec.signing.isSome then s.raise pgSec 3
  else
    let s1 := (s.putDigest (Reg.SEC_SIGN_SR 0) 24 0).modSec (fun x => { x with signed := false })
    if !s.keyOk then (s1.setFld pgSec Reg.SEC_SIGN_STAT 2 1 1).raise pgSec 2
    else (s1.modSec (fun x => { x with signing := some (s.secDigest (Reg.SEC_SIGN_DIG 0)) })).setBit pgSec Reg.SEC_SIGN_STAT 0 true

/-- The signing completes: the signature of the digest, with a fresh nonce. -/
def State.signDone (s : State) : State :=
  match s.sec.signing with
  | none => s
  | some d =>
    let s1 := ((s.putDigest (Reg.SEC_SIGN_SR 0) 24 (Config.signature d s.free).toNat).draw).modSec (fun x => { x with signing := none, signed := true })
    (s1.setBit pgSec Reg.SEC_SIGN_STAT 0 false).raise pgSec 1

/-- A vault wipe begins: a signing in progress fails, the key is gone (R370, R477). -/
def State.wipe (s : State) (cause : Nat) : State :=
  let s1 := s.vaultWipe cause
  let s2 := s1.setBit pgSec Reg.SEC_LC 2 false
  if s.sec.signing.isSome then
    (((s2.modSec (fun x => { x with signing := none })).setBit pgSec Reg.SEC_SIGN_STAT 0 false).setFld pgSec Reg.SEC_SIGN_STAT 2 1 2).raise pgSec 2
  else s2

/-! ## Measurements (R478, R479) -/

/-- Extend a slot: SHA-384 of the slot and `d`. -/
def State.measExtend (s : State) (slot : Nat) (d : BitVec 384) : State :=
  let o := Reg.SEC_MEAS (12 * slot)
  s.putDigest o 12 (Config.sha384 (digestBytes (s.secDigest o) ++ digestBytes d)).toNat

/-- `SEC_MEAS_EXT.GO` takes the digest that `SEC_EXT_DIG` holds. DEDUCED (log 66). -/
def State.measGo (s : State) (slot : Fin 8) : State :=
  if s.sec.ext.isSome || (slot.val < 3 && s.rbit pgSec Reg.SEC_MEAS_LOCK 0) then s.raise pgSec 3
  else s.modSec (fun x => { x with ext := some (slot, s.secDigest (Reg.SEC_EXT_DIG 0), s.now) })

/-- An extension completes, 1 µs after its GO (R486). -/
def State.measDone (s : State) : State :=
  match s.sec.ext with
  | none => s
  | some (k, d, t) => ((s.advance (t + Config.usSteps)).measExtend k d).modSec (fun x => { x with ext := none })

/-! ## Tamper (R484, R485) -/

/-- Tamper input `k` stands at its active level. -/
def State.tmpLevel (s : State) (k : Nat) : Bool := s.sec.pins.getLsbD k == s.rbit pgSec Reg.SEC_TMP_CTL (4 + k)

/-- A wipe that tamper input `k` starts. -/
def State.tamperWipe (s : State) (k : Nat) : State :=
  (((s.wipe 2).stick pgSec Reg.SEC_TMP_STAT (8 + k)).count pgSec Reg.SEC_TMP_CNT 15 0).raise pgSec 0

/-- The pin of tamper input `k` has stood at its active level for 1 µs; an input that is active already stays so (R484). -/
def State.tamperOn (s : State) (k : Fin 4) : State :=
  if s.rbit pgSec Reg.SEC_TMP_STAT k then s else
  let lvl := s.rbit pgSec Reg.SEC_TMP_CTL (4 + k)
  let s1 := (s.modSec (fun x => { x with pins := if lvl then x.pins ||| (1#4 <<< k.val) else x.pins &&& ~~~ (1#4 <<< k.val) })).setBit pgSec
    Reg.SEC_TMP_STAT k true
  if s.rbit pgSec Reg.SEC_TMP_CTL k then s1.tamperWipe k else s1

/-- Tamper input `k` leaves its active level. -/
def State.tamperOff (s : State) (k : Fin 4) : State :=
  let lvl := s.rbit pgSec Reg.SEC_TMP_CTL (4 + k)
  (s.modSec (fun x => { x with pins := if lvl then x.pins &&& ~~~ (1#4 <<< k.val) else x.pins ||| (1#4 <<< k.val) })).setBit pgSec
    Reg.SEC_TMP_STAT k false

/-- An active input that is enabled. -/
def State.tamperHeld (s : State) : Option (Fin 4) :=
  (List.finRange 4).find? (fun (k : Fin 4) => s.rbit pgSec Reg.SEC_TMP_STAT k && s.rbit pgSec Reg.SEC_TMP_CTL k)

/-- A wipe completes; while an enabled input stays active it repeats (R370, R484). -/
def State.wipeDone (s : State) : State :=
  if !s.wiping then s
  else
    let s1 := s.vaultDone
    match s1.tamperHeld with
    | some k => s1.tamperWipe k
    | none => s1

/-- The identity key is derived at boot: from a seed, not in RETURNED, not while a tamper input holds the vault wiped, and
not during a wipe (R473, R484). -/
def State.deriveKey (s : State) : State :=
  if s.lifecycle ≠ 3 ∧ s.sec.seed ∧ s.tamperHeld = none ∧ !s.wiping then s.setBit pgSec Reg.SEC_LC 2 true else s

/-- Block effects of a write to the `SEC` page; `pair0` says that it is an M-level access of application-core pair 0
(R476). -/
def State.secWrite (s : State) (pair0 : Bool) (off : Nat) (v mask : Word) : State :=
  if !pair0 then s.raise pgSec 3
  else if off = Reg.SEC_SIGN_CMD then (if bitOf (v &&& mask) 0 then s.signGo else s)
  else if off = Reg.SEC_MEAS_EXT then (if bitOf (v &&& mask) 8 then s.measGo (Fin.ofNat 8 (bitsOf v 2 0)) else s)
  else if off = Reg.SEC_TMP_CTL then
    let old := s.reg pgSec off
    let s1 := s.busReg pgSec off v mask
    (List.finRange 4).foldl (fun s (k : Fin 4) =>
      let live := s.rbit pgSec Reg.SEC_TMP_STAT k && s.tmpLevel k
      let s2 := s.setBit pgSec Reg.SEC_TMP_STAT k live
      if live && bitOf (v &&& mask) k && !bitOf old k then s2.tamperWipe k else s2) s1
  else s.busReg pgSec off v mask

/-! ## Images (R469 to R472) -/

/-- A read of flash by the controller's own clients: the bytes, or none where a word is uncorrectable. -/
def State.flsBytes (s : State) (o n : Nat) : State × Option (List Byte) :=
  match s.flsRead o n with
  | (s1, .data bs) => (s1, some bs)
  | (s1, _) => (s1, none)

/-- A little-endian field of a byte string. -/
def fieldAt (bs : List Byte) (o n : Nat) : Nat := leNat ((bs.drop o).take n)

/-- A part of a byte string. -/
def slice (bs : List Byte) (o n : Nat) : List Byte := (bs.drop o).take n

/-- Base and size of the primary and of the alternate image region (R470). -/
def imgBase (alt : Bool) : Nat := if alt then 0x400000 else 0x20000
/-- See `imgBase`. -/
def imgSize (alt : Bool) : Nat := if alt then 0x400000 else 0x3E0000

/-- What the checks of R471 find in an image: 0 it passes, 1 a header, key, signature or digest fault, 2 `SVN` too low. -/
def State.imageFault (s : State) (bs : List Byte) (room : Nat) : Nat :=
  let h := bs.take 0x200
  let len := fieldAt h 8 4
  let slot := fieldAt h 0x18 4
  if fieldAt h 0 4 ≠ 0x57465144 ∨ fieldAt h 4 4 ≠ 1 ∨ len % 16 ≠ 0 ∨ room < len + 0x200 ∨ bs.length < len + 0x200
      ∨ fieldAt h 0x1C 4 ≠ 0 ∨ (slice h 0x110 240).any (fun b => b != 0) ∨ 64 < fieldAt h 0xC 4 then 1
  else if fieldAt h 0xC 4 < s.fld pgSec Reg.SEC_SVN_FW 6 0 then 2
  else if 1 < slot ∨ s.rbit pgSec Reg.SEC_KREV slot then 1
  else if Config.sha384 (slice h 0x50 96) ≠ Config.romKey slot then 1
  else if !Config.ecdsaOk (slice h 0x50 96) (slice h 0xB0 96) (Config.sha384 (h.take 0xB0)) then 1
  else if Config.sha384 (slice bs 0x200 len) ≠ BitVec.ofNat 384 (beNat (slice h 0x20 48)) then 1
  else 0

/-- An image region's bytes, header and body. -/
def State.imageBytes (s : State) (alt : Bool) : State × Option (List Byte) :=
  match s.flsBytes (imgBase alt) 0x200 with
  | (s1, some h) => s1.flsBytes (imgBase alt) (min (imgSize alt) (0x200 + fieldAt h 8 4))
  | (s1, none) => (s1, none)

/-- A region holds an image that passes (R471). -/
def State.imageOk (s : State) (alt : Bool) : State × Option (List Byte) :=
  match s.imageBytes alt with
  | (s1, some bs) => (s1, if s1.imageFault bs (imgSize alt) = 0 then some bs else none)
  | (s1, none) => (s1, none)

/-! ## Recipes and tokens (R480 to R482, R542) -/

/-- The digest of a bundle (R480): from its first byte through trailer offset 0x6F. -/
def bundleDigest (bs : List Byte) : BitVec 384 := Config.sha384 (bs.take (bs.length - 256 + 0x70))

/-- A recipe bundle verifies (R481). -/
def State.recipeOk (s : State) (bs : List Byte) : Bool :=
  let t := bs.drop (bs.length - 256)
  let slot := fieldAt t 4 4
  decide (fieldAt t 0 4 = 0x53525144 ∧ slot < 4) && (slice t 8 8).all (fun b => b == 0) && (slice t 0xD0 48).all (fun b => b == 0)
    && (match s.sec.owner.toList.getD slot none with | some d => decide (Config.sha384 (slice t 0x10 96) = d) | none => false)
    && Config.ecdsaOk (slice t 0x10 96) (slice t 0x70 96) (bundleDigest bs)

/-- The digest that enters the measurements: its last bit inverted for a bundle that does not verify (R481). -/
def State.recipeMeas (s : State) (bs : List Byte) : BitVec 384 :=
  if s.recipeOk bs then bundleDigest bs else bundleDigest bs ^^^ 1

/-- A FIELD token holds (R482, R542). -/
def State.tokenOk (s : State) (t : List Byte) : Bool :=
  let slot := fieldAt t 8 4
  let serial := (List.range 4).foldl (fun a w => a + (s.reg pgSec (Reg.SEC_SERIAL w)).toNat * 2 ^ (32 * w)) 0
  decide (fieldAt t 0 4 = 0x544C5144 ∧ fieldAt t 4 4 = 1 ∧ slot < 2 ∧ fieldAt t 12 4 = 0 ∧ fieldAt t 0x10 16 = serial)
    && !s.rbit pgSec Reg.SEC_KREV slot && decide (Config.sha384 (slice t 0xE0 96) = Config.romKey slot)
    && Config.ecdsaOk (slice t 0xE0 96) (slice t 0x140 96) (Config.sha384 (t.take 0x140))

/-- The owner key digests of a token; an all-zero digest leaves its slot empty. -/
def tokenOwners (t : List Byte) : List (Option (BitVec 384)) :=
  (List.range 4).map (fun i =>
    let d := slice t (0x20 + 48 * i) 48
    if d.all (fun b => b == 0) then none else some (BitVec.ofNat 384 (beNat d)))

/-- A transition that R482 allows. -/
def lcAllowed (a b : Nat) : Bool :=
  (a == 0 && b == 1) || (a == 1 && b == 2) || (decide (a < 3) && b == 3)

end Sys2Proof.Machine
end

