-- ==== Sys2Proof/Machine/Reset.lean ====
section
/-! DEFINITION. The bridge (R17 to R20), power domains (R31, R32, R444 to R449), monitors, resets, watchdogs, lockups and
boot (R442 to R459). -/

namespace Sys2Proof.Machine

/-- `n` milliseconds in DTB clock edges. -/
def msClks (n : Nat) : Nat := n * 1600000

/-! ## The bridge (R17 to R20) -/

/-- A unit fails its CRC and is replayed (R19). -/
def State.bridgeCrcFail (s : State) : State :=
  if s.bridgeIsDown then s else (s.cross.modBridge (fun b => { b with replays := 0 })).count pgRst Reg.RST_BRG_REPLAY 15 0

/-- The bridge retrains. -/
def State.bridgeTrain (s : State) : State :=
  (s.setBit pgRst Reg.RST_BRG_STAT 1 true).count pgRst Reg.RST_BRG_RETRAIN 15 0

/-- A replay completes: a fourth failure in succession starts retraining (R19). -/
def State.bridgeReplayed (s : State) (ok : Bool) : State :=
  if s.bridgeIsDown || s.rbit pgRst Reg.RST_BRG_STAT 1 then s
  else if ok then s.modBridge (fun b => { b with replays := 0 })
  else
    let s1 := s.modBridge (fun b => { b with replays := b.replays + 1 })
    if 4 ≤ s1.bridge.replays then (s1.modBridge (fun b => { b with replays := 0, retrains := 0 })).bridgeTrain
    else s1.count pgRst Reg.RST_BRG_REPLAY 15 0

/-- What waits on the bridge ends as it is declared down (R20): accesses with a bus error, a status record with `SRECERR` (R412); a
stop that STOP_ALL set off has reached the system die alone (R509). -/
def State.busDrop (s : State) : State :=
  s.bridge.waiting.foldl (fun s w =>
    match w with
    | .stop true => s.setBit pgDvsec Reg.URG_STAT 2 true
    | .stop false | .time _ => s
    | .write i .. | .read i .. | .readN i .. => { s with resp := busFail i }
    | .hostWrite .. => { s with resp := .abort }
    | .record k .. => s.stick (dmaPage k) (dmaReg Reg.DMA_CH_STAT k) 9) (s.modBridge (fun b => { b with waiting := [] }))

/-- The bridge is declared down: bridge loss is raised at every interrupt controller and the hold time starts (R20). -/
def State.bridgeDown (s : State) : State :=
  if s.bridgeIsDown then s
  else
    let s1 := s.busDrop.setFld pgRst Reg.RST_BRG_STAT 1 0 1
    let s2 := (List.finRange 8).foldl (fun s (c : Fin 8) => s.srcPulse ⟨c, by omega⟩ 31) (s1.srcPulse ird 1)
    s2.modBridge (fun b => { b with replays := 0, retrains := 0
                                    hold := some (s.time.clk + 1600 * min 1000 (s.fld pgRst Reg.RST_BRG_HOLD 9 0)) })

/-- A retraining completes: a third failure in succession declares the bridge down (R19). -/
def State.bridgeTrained (s : State) (ok : Bool) : State :=
  if s.bridgeIsDown || !s.rbit pgRst Reg.RST_BRG_STAT 1 then s
  else if ok then (s.setBit pgRst Reg.RST_BRG_STAT 1 false).modBridge (fun b => { b with retrains := 0 })
  else
    let s1 := s.modBridge (fun b => { b with retrains := b.retrains + 1 })
    if 3 ≤ s1.bridge.retrains then s1.bridgeDown else s1.bridgeTrain

/-- The hold time ends: every output goes to its safe vector (R20, R98). -/
def State.bridgeHoldEnd (s : State) : State :=
  match s.bridge.hold with
  | none => s
  | some t => ((s.advance (t * Config.stepsPerClk)).modBridge (fun b => { b with hold := none })).safeAll (some 2)

/-- After 10 µs of idleness the lanes sleep (R18). -/
def State.bridgeSleep (s : State) : State :=
  if s.bridge.asleep || s.bridgeTrains then s else (s.advance ((s.bridge.lastUnit + 16000) * Config.stepsPerClk)).modBridge (fun b => { b with asleep := true })

/-! ## Domains (R31, R32, R446) -/

/-- The parent of a domain. -/
def domParent (d : Nat) : Option Nat :=
  if d < 64 then some (64 + 5 * (d / 8))
  else if d < 104 then (if (d - 64) % 5 = 0 then none else some (64 + 5 * ((d - 64) / 5)))
  else if 120 ≤ d ∧ d ≤ 123 then some 124
  else if d = 128 then some 127
  else none

/-- The children of a domain. -/
def domChildren (d : Nat) : List Nat := (List.range 148).filter (fun e => domParent e == some d)

/-- A domain with retention (R446). -/
def domHasRet (d : Nat) : Bool :=
  decide (d < 64) || (decide (64 ≤ d ∧ d < 104) && (d - 64) % 5 == 4) || d == 125 || d == 126 || decide (129 ≤ d ∧ d ≤ 136)

/-- The state of a domain in force. -/
def State.domState (s : State) (d : Nat) : Nat := s.fld pgPwr (Reg.PWR_DOM d) 1 0

/-- A core that must keep running (R447 reason 2). -/
def State.domCore (s : State) (d : Nat) : Bool :=
  if h : d < 64 then s.locked (.ce ⟨d, h⟩)
  else if h : 104 ≤ d ∧ d < 112 then decide (d < 106) || s.locked (.ac ⟨d - 104, by omega⟩)
  else false

/-- A domain in use (R446, R447 reason 5). -/
def State.domInUse (s : State) (d : Nat) : Bool :=
  if 64 ≤ d ∧ d < 104 then ((d - 64) % 5 == 1 || (d - 64) % 5 == 2) && s.running (clu ((d - 64) / 5))
  else if d = 127 ∨ d = 128 then s.linkUp
  else if d = 137 then (List.finRange 32).any (fun (k : Fin 32) => s.dmaBusy ⟨k, by omega⟩)
  else if d = 138 ∨ d = 139 then (List.range 8).any (fun c => s.domOn (64 + 5 * c))
  else if d = 145 then (List.finRange 8).any (fun (n : Fin 8) => s.egOn n || s.guards[n].check.isSome)
  else false

/-- Why the power controller refuses a request (R447). DEDUCED (log 47). -/
def State.domRefusal (s : State) (d r : Nat) : Option Nat :=
  if r = 3 then (match domParent d with | some p => if s.domOn p then none else some 1 | none => none)
  else if (domChildren d).any (fun e => s.domOn e) then some 1
  else if s.domCore d then some 2
  else if 140 ≤ d ∧ d ≤ 144 ∧ (s.flash[Fin.ofNat 5 (d - 140)].op ≠ 0 ∨ s.flash[Fin.ofNat 5 (d - 140)].susp.isSome) then some 3
  else if r = 1 ∧ !domHasRet d then some 4
  else if s.domInUse d then some 5
  else none

/-- A page loses everything it holds beyond its identity, and in a reset (`rst`) its `PAGE_LOCK`, which a domain that goes off keeps
(R13, R444). DEDUCED (log 47). -/
def State.pageLost (s : State) (rst : Bool) (p : PageId) : State :=
  if !pageHasHeader p.kind then (s.clearRegs p 0 0x1000).clearSnaps p else
  let s1 := ((s.clearRegs p 0x8 0x1C).clearRegs p 0x20 0x1000).clearSnaps p
  if rst then s1.clearRegs p 0x1C 0x20 else s1

/-- Pages lost one after another. -/
def State.pagesLost (s : State) (rst : Bool) (l : List PageId) : State := l.foldl (fun s p => s.pageLost rst p) s

/-- A core loses its state; a checkpoint slot is memory of another domain (R355). -/
def State.coreLost (s : State) (c : CoreId) : State :=
  s.modCore c (fun k =>
    let z := if isCe c then Core.initCe else Core.initAc
    { z with ckpt0 := k.ckpt0, ckpt1 := k.ckpt1, ckptSel := k.ckptSel, ckptVal := k.ckptVal })

/-- A generator that works again takes note of what stands: a low STOP_N, a bridge that is down with its hold time over (R20, R98),
every trip source (R102). -/
def State.pwmFollow (s : State) (c : Fin 8) : State :=
  let s1 := if s.stopLow then s.stick (pgPwg0 c) Reg.PWG_SAFE_CAUSE 0 else s
  (if s.bridgeIsDown && s.bridge.hold.isNone then s1.stick (pgPwg0 c) Reg.PWG_SAFE_CAUSE 2 else s1).tripSeeAll c

/-- A cluster's pulse-width generator loses its state; what the always-on logic keeps, and the pins, stay (R72). -/
def State.pwmLost (s : State) (rst : Bool) (c : Fin 8) : State :=
  let s1 := s.pagesLost rst [pgPwg0 c, pgPwg1 c]
  let s2 := s1.modPwm c (fun p => { Pwm.init with
    tripPin := p.tripPin, ch := p.ch.map (fun x => { PwmCh.init with polH := x.polH, polL := x.polL, driven := x.driven }) })
  (s2.forCh (fun s k => s.setFld (pgPwg0 c) (Reg.PWG_CH_CTL k) 6 5 (b2n (s.ch c k).polH + 2 * b2n (s.ch c k).polL))).pwmFollow c

/-- Analogue domain: converters and sigma-delta inputs; the outputs that fast windows held active fall (R136, R151). -/
def State.analogLost (s : State) (rst : Bool) (c : Fin 8) : State :=
  (((List.finRange 8).foldl (fun s j => s.pageLost rst (pgAdc c j)) (s.pageLost rst (pgSdm c))).modC c
    (fun cl => { cl with adc := Cluster.init.adc, sdm := Cluster.init.sdm })).outsSee c

/-- Comparator domain: a domain that goes off keeps the page's header, and fast windows still reach the outputs (R151, R157). The
conversion of a readback is abandoned. -/
def State.cmpLost (s : State) (rst : Bool) (c : Fin 8) : State :=
  let p := pgCmp c
  let out := s.reg p Reg.CMP_OUT
  let s1 := (if rst then s.pageLost true p else s.clearRegs p 0x40 0x1000).setReg p Reg.CMP_OUT out
  let s2 := match s1.rbCore c with
    | some (j, _, _) => s1.modAdc c j (fun a => { a with conv := none, busy := s.now })
    | none => s1
  (s2.modC c (fun cl => { cl with cmp := Cluster.init.cmp, rb := Cluster.init.rb })).outsSee c

/-- Digital domain: frame unit, sample table, feedback, pairs, DMA and the `SRAM` page; the levels at the feedback pins stay, and the
local interrupt unit keeps its sources' configuration, by which they wake the cluster (R324, R325). DEDUCED (log 47). -/
def State.digitalLost (s : State) (rst : Bool) (c : Fin 8) : State :=
  let s1 := (s.pagesLost rst [pgFrm c, pgSmp c, pgQdec c, pgCap c, pgSep c, pgCdma c, pgPairC c]).modC c
    (fun cl => { cl with car := Carrier.init, smp := Smp.init, fb := cl.fb.map (fun f => { Feedback.init with pins := f.pins }) })
  let s2 := (List.range 8).foldl (fun s i => s.modDma (dmaOf (pgCdma c) i) (fun _ => DmaCh.init)) s1
  (List.range 4).foldl (fun s i => s.modPair (pairAt (pgPairC c) i) (fun _ => Pair.init)) s2

/-- The CXL controller loses its state: pages, MSI-X, queues and doorbells; commands in flight end unexecuted (R451). -/
def State.cxlLost (s : State) (rst : Bool) : State :=
  let s1 := s.pagesLost rst ([pgCxl, pgDvsec, pgMsix] ++ (List.range 64).map (fun q => ⟨.qcb, q⟩))
  { s1 with cxl := { Cxl.init with downAt := s.time.clk }, cmd := { s1.cmd with queues := Vector.replicate 64 Queue.init, last := 63 } }

/-- What a domain loses when it goes OFF (R444, R448). -/
def State.domLostAll (s : State) (d : Nat) : State :=
  if h : d < 64 then (s.coreLost (.ce ⟨d, h⟩)).pageLost false (pgCe ⟨d, h⟩)
  else if d < 104 then
    let c := clu ((d - 64) / 5)
    match (d - 64) % 5 with
    | 0 => s.digitalLost false c | 1 => s.analogLost false c | 2 => s.pwmLost false c | 3 => s.cmpLost false c | _ => s
  else if d < 112 then
    let a : Fin 8 := Fin.ofNat 8 (d - 104)
    ((s.coreLost (.ac a)).pagesLost false [pgAc a, pgMmu a]).domLost a 2
  else if 112 ≤ d ∧ d < 120 then s.l2Drop (d - 112)
  else if 120 ≤ d ∧ d ≤ 123 then s.pageLost false ⟨.str, d - 120⟩
  else if d = 124 then { s.pageLost false pgStr with fab := { Fabric.init with strap := s.fab.strap } }
  else if d = 125 ∨ d = 126 then
    { s with mem := s.mem.filter (fun e => !(decide (0x1000000000 ≤ e.1 ∧ e.1 < 0x3000000000) && Config.dramCh (e.1 / 64) == (d == 126))) }
  else if d = 127 then s.cxlLost false
  else if d = 137 then
    (List.range 32).foldl (fun s i => s.modDma (Fin.ofNat 96 i) (fun _ => DmaCh.init))
      (s.pagesLost false [⟨.sdma, 0⟩, ⟨.sdma, 1⟩, ⟨.sdma, 2⟩, ⟨.sdma, 3⟩])
  else if d = 145 then { s.pageLost false pgEg with guards := Vector.replicate 8 Guard.init }.tripSeeClusters
  else if d = 147 then { s with trace := Trace.init }
  else s

/-- An engine in retention keeps its LSRAM and its `CE` page, with `RUN` read as 0 (R446). -/
def State.domRet (s : State) (d : Nat) : State :=
  if h : d < 64 then (s.coreLost (.ce ⟨d, h⟩)).setBit (pgCe ⟨d, h⟩) Reg.CE_CTL 0 false else s

/-- The memory units of a domain (R355). -/
def domUnits (d : Nat) : List (PageId × Nat) :=
  if h : d < 64 then [(pgSramC (clusterOf ⟨d, h⟩), d % 8)]
  else if d < 104 then
    (match (d - 64) % 5 with
      | 0 => [(pgSramC (clu ((d - 64) / 5)), 9)] | 4 => [(pgSramC (clu ((d - 64) / 5)), 8)] | _ => [])
  else if 112 ≤ d ∧ d < 120 then [(pgSramSys, 8 + d - 112)]
  else if 129 ≤ d ∧ d ≤ 136 then [(pgSramSys, d - 129)]
  else []

/-- Initialisation of a domain's units begins, and ends. -/
def State.domInit (s : State) (d : Nat) : State :=
  let s1 := (domUnits d).foldl (fun s u => s.initStart u.1 u.2) s
  if 64 ≤ d ∧ d < 104 ∧ (d - 64) % 5 = 0 then
    (List.finRange 8).foldl (fun s i => s.modCore (.ce (engineOf (clu ((d - 64) / 5)) i))
      (fun k => { k with ckpt0 := Ckpt.init, ckpt1 := Ckpt.init, ckptVal := false })) s1
  else s1

/-- The domains that switch together with `d` (R446). DEDUCED (log 47). -/
def domGroup (d : Nat) : List Nat := if d = 138 ∨ d = 139 then [138, 139] else [d]

/-- A transition starts: `STATE` reads 2; what loses power stops at once (R444, R448). -/
def State.pwrStart (s : State) (d r : Nat) : State :=
  let was := s.domState d
  let s1 := (domGroup d).foldl (fun s e => s.setFld pgPwr (Reg.PWR_DOM e) 1 0 2) s
  let s2 := { s1.setBit pgPwr Reg.PWR_STAT 0 true with power := { s1.power with busy := some (d, r, was) } }
  if r = 0 then s2.domLostAll d else if r = 1 then s2.domRet d else if was = 0 then s2.domInit d else s2

/-- The last domain of a wake is on, or will not come on (R449). -/
def State.wakeDone (s : State) (d : Nat) (on : Bool) : State :=
  let left := s.power.waking.filter (fun e => e != d)
  let s1 := { s with power := { s.power with waking := left } }
  s1.raiseIf (on && s.power.waking.contains d && left.isEmpty) pgPwr 2

/-- A request is taken: refused, already in force, or begun (R445, R447). -/
def State.pwrTake (s : State) (d r : Nat) : State :=
  if s.domState d = r then (s.raise pgPwr 0).wakeDone d (r == 3)
  else match s.domRefusal d r with
    | some why =>
      let s1 := ((s.setBit pgPwr (Reg.PWR_DOM d) 5 true).setFld pgPwr (Reg.PWR_DOM d) 8 6 why).setReg pgPwr Reg.PWR_LASTREF (w32 (d + 256 * why))
      ((s1.count pgPwr Reg.PWR_REFCNT 15 0).raise pgPwr 1).wakeDone d false
    | none => s.pwrStart d r

/-- The power controller takes waiting requests, one at a time, until one is in transition. -/
def State.pwrServeN : Nat → State → State
  | 0, s => s
  | n + 1, s =>
    match s.power.busy, s.power.queue with
    | none, (d, r) :: t => ({ s with power := { s.power with queue := t } }.pwrTake d r).pwrServeN n
    | _, _ => s

/-- See `State.pwrServeN`. DEDUCED (log 47). -/
def State.pwrServe (s : State) : State := s.pwrServeN (s.power.queue.length + 1)

/-- A request for a domain reaches the page (R445). -/
def State.pwrRequest (s : State) (d r : Nat) : State :=
  { s with power := { s.power with queue := s.power.queue ++ [(d, r)] } }.pwrServe

/-! ## DDR training (R458, R459) -/

/-- One step of the CRC-32C of R550 over a byte. DEDUCED (log 49). -/
def crc32cByte (crc : Nat) (b : Byte) : Nat :=
  (List.range 8).foldl (fun r _ => if r % 2 = 1 then (r / 2) ^^^ 0x82F63B78 else r / 2) (crc ^^^ b.toNat)

/-- CRC-32C. DEDUCED (log 49). -/
def crc32c (bs : List Byte) : Nat := (bs.foldl crc32cByte 0xFFFFFFFF) ^^^ 0xFFFFFFFF

/-- The board description, if the ROM accepts it (R459). -/
def State.boardDesc (s : State) : State × Option (List Byte) :=
  match s.flsBytes 0x18000 0x4000 with
  | (s1, some b) =>
    let len := fieldAt b 8 4
    (s1, if fieldAt b 0 4 = 0x44425144 ∧ fieldAt b 4 4 = 1 ∧ 0x120 ≤ len ∧ len ≤ 0x4000 ∧ crc32c (slice b 0x10 (len - 0x10)) = fieldAt b 12 4
      then some b else none)
  | (s1, none) => (s1, none)

/-- A channel's record lets it be trained (R459, R584). -/
def channelOk (b : List Byte) (ch : Nat) : Bool :=
  let r := b.drop (0x20 + 0x80 * ch)
  let f (o n : Nat) := fieldAt r o n
  decide (f 0 1 = 1 ∧ (f 1 1 = 1 ∨ f 1 1 = 2) ∧ (f 2 1 = 4 ∨ f 2 1 = 8) ∧ (f 3 1 = 16 ∨ f 3 1 = 32)
    ∧ (f 4 2 = 4800 ∨ f 4 2 = 5600 ∨ f 4 2 = 6400) ∧ 1 ≤ f 6 2 ∧ f 6 2 ≤ 64) && (slice r 0x32 78).all (fun x => x == 0)

/-- A channel that is present trains at some rate up to its own. -/
def channelTrains (b : List Byte) (ch : Nat) : Bool :=
  channelOk b ch && [4800, 5600, 6400].any (fun r => decide (r ≤ fieldAt b (0x20 + 0x80 * ch + 4) 2) && Config.trains ch r)

/-- A channel that is present and fails to train. -/
def channelFails (b : List Byte) (ch : Nat) : Bool := fieldAt b (0x20 + 0x80 * ch) 1 == 1 && !channelTrains b ch

/-- The ROM trains the DDR channels and offers DRAM to the host (R456, R459, R495). -/
def State.ddrTrain (s : State) : State :=
  let x := s.boardDesc
  let s1 := x.1
  let off (s : State) (ch : Nat) : State := (s.setFld pgPwr (Reg.PWR_DOM (125 + ch)) 1 0 0).domLostAll (125 + ch)
  match x.2 with
  | none => ((off (off s1 0) 1).setBit pgRst Reg.RST_BOOT 6 true).setBit pgCxl Reg.PAGE_LOCK 0 true
  | some b =>
    let t0 := channelTrains b 0
    let t1 := channelTrains b 1
    let s2 := if t0 then s1 else off s1 0
    let s3 := if t1 then s2 else off s2 1
    let s4 := s3.setFld pgRst Reg.RST_BOOT 8 7 (b2n (channelFails b 0) + 2 * b2n (channelFails b 1))
    let s5 := if t0 || t1 then
        let lo := fieldAt b 0x10 2
        let hi := fieldAt b 0x12 2
        s4.setReg pgCxl Reg.CXL_HDM_AVAIL (w32 (lo % 1024 + hi % 1024 * 65536 + (if lo ≤ hi then 2 ^ 31 else 0)))
      else s4.setBit pgRst Reg.RST_BOOT 6 true
    s5.setBit pgCxl Reg.PAGE_LOCK 0 true

/-- A DDR domain comes ON from OFF: its channel is trained, or it stays OFF (R458, R459). -/
def State.ddrOn (s : State) (ch : Nat) : State × Bool :=
  let x := s.boardDesc
  match x.2 with
  | some b =>
    if channelTrains b ch then (x.1, true)
    else (if channelFails b ch then x.1.setBit pgRst Reg.RST_BOOT (7 + ch) true else x.1, false)
  | none => (x.1, false)

/-- The transition that runs ends (R445, R449). DESIGN CHOICE (log 14). -/
def State.pwrDone (s : State) : State :=
  match s.power.busy with
  | none => s
  | some (d, r, was) =>
    let s0 := { s with power := { s.power with busy := none } }
    let x : State × Bool := if (d = 125 ∨ d = 126) ∧ r = 3 ∧ was = 0 then s0.ddrOn (d - 125) else (s0, true)
    let now := if x.2 then r else 0
    let s1 := (domGroup d).foldl (fun s e => s.setFld pgPwr (Reg.PWR_DOM e) 1 0 now) x.1
    let s2 := if r = 3 then (domUnits d).foldl (fun s u => s.initDone u.1 u.2) s1 else s1
    let s2 := if now = 3 ∧ 64 ≤ d ∧ d < 104 ∧ (d - 64) % 5 = 2 then s2.pwmFollow (clu ((d - 64) / 5)) else s2
    (((s2.setBit pgPwr Reg.PWR_STAT 0 false).raise pgPwr 0).wakeDone d (now == 3)).pwrServe

end Sys2Proof.Machine
end

