-- ==== Sys2Proof/Machine/Boot.lean ====
section
/-! DEFINITION. Resets by scope, monitors, watchdogs, lockups and the boot sequence (R450 to R459). -/

namespace Sys2Proof.Machine

/-! ## Scopes (R451) -/

/-- A reset of scope `a` is at least as wide as one of scope `b` (R451, R453). -/
def ResetRun.covers (a b : ResetRun) : Bool :=
  a.scope == 5 || (a.scope == 4 && decide (b.scope ≤ 4)) || a == b
    || (a.scope == 3 && (b.scope == 2 || b.scope == 3 || (b.scope == 0 && b.ac)))
    || (a.scope == 1 && b.scope == 0 && !b.ac && b.num / 8 == a.num)
    || (a.scope == 2 && b.scope == 2)

/-- CORE: core state and the `CE` or `MMU` page; the core is left stopped. Both members of a locked pair go together. DEDUCED (log 48). -/
def State.resetCore (s : State) (c : CoreId) : State :=
  match c with
  | .ce e => (s.coreLost c).pageLost true (pgCe e)
  | .ac a => (((s.coreLost c).pageLost true (pgMmu a)).setBit (pgAc a) Reg.AC_CTL 0 false).domLost a 2

/-- The members a CORE reset reaches. -/
def State.resetCores (s : State) (r : ResetRun) : List CoreId :=
  if r.ac then [.ac (Fin.ofNat 8 (2 * (r.num % 4))), .ac (Fin.ofNat 8 (2 * (r.num % 4) + 1))]
  else
    let c := CoreId.ce (eng r.num)
    if s.locked c then [masterOf (pairOf c), checkerOf (pairOf c)] else [c]

/-- A pending activation that involves cluster `c` ends; the swaps armed in its other clusters are disarmed (R522). DEDUCED (log 48). -/
def State.activationLost (s : State) (c : Fin 8) : State :=
  match s.cmd.staged with
  | some a =>
    if a.mask.getLsbD c then
      let s1 := (List.finRange 8).foldl (fun s (x : Fin 8) => if a.mask.getLsbD x then s.modSmp x (fun m => { m with armed := none }) else s) s
      { s1 with cmd := { s1.cmd with staged := none, lib := s1.cmd.lib.set a.slot { s1.cmd.lib[a.slot] with state := 2 } } }
    else s
  | none => s

/-- CLUSTER: every block of the cluster; LSRAM, scratchpad and remaps stay. -/
def State.resetCluster (s : State) (c : Fin 8) : State :=
  let s1 := ((((s.activationLost c).digitalLost true c).analogLost true c).pwmLost true c).cmpLost true c
  let s2 := (s1.pageLost true (pgLiu c)).clearRegs (pgSramC c) 0x8 0x40
  let s3 := s2.sramSoftReset (pgSramC c)
  let s4 := { s3 with irq := { s3.irq with resample := s3.irq.resample.filter (fun k => k.1 / 1024 != c.val) } }
  (List.finRange 8).foldl (fun s i => (s.coreLost (.ce (engineOf c i))).pageLost true (pgCe (engineOf c i))) s4

/-- The `RST` page loses what is not kept (R451). -/
def State.resetRst (s : State) : State :=
  ((s.pageLost true pgRst).setReg pgRst Reg.RST_CAUSE (s.reg pgRst Reg.RST_CAUSE)).setReg pgRst Reg.RST_MON (s.reg pgRst Reg.RST_MON)

/-- What the `SEC` block returns to: tamper logic is always on; measurements are cleared by DEV and POR only (R478, R479, R484); `KEYOK` goes on
showing the key, which the vault keeps (R451, R473). DEDUCED (log 66). -/
def State.secClear (s : State) (meas : Bool) : State :=
  let s1 := s.clearRegs pgSec 0x80 0x88
  let s2 := (s1.clearRegs pgSec 0xC0 0x1B0).modSec (fun x => { x with signing := none, ext := none })
  if meas then (s2.clearRegs pgSec 0x88 0x90).clearRegs pgSec 0x200 0x1000 else s2

/-- A reset of the `SEC` page. -/
def State.resetSec (s : State) (meas : Bool) : State := (s.clearRegs pgSec 0x8 0x20).secClear meas

/-- Every block of the system die outside its always-on logic (the distributor, the power controller, the tamper logic). -/
def State.resetSys (s : State) (meas : Bool) : State :=
  let s1 := ((s.cxlLost true).resetRst.resetSec meas).pagesLost true [pgCmd, pgStr, ⟨.str, 0⟩, ⟨.str, 1⟩, ⟨.str, 2⟩, ⟨.str, 3⟩,
    ⟨.sdma, 0⟩, ⟨.sdma, 1⟩, ⟨.sdma, 2⟩, ⟨.sdma, 3⟩, pgPairSys]
  let s2 := (s1.clearRegs pgSramSys 0x8 0x40).sramSoftReset pgSramSys
  let s3 := (List.range 32).foldl (fun s i => s.modDma (Fin.ofNat 96 i) (fun _ => DmaCh.init)) s2
  let s4 := (List.finRange 8).foldl (fun s (a : Fin 8) => (s.coreLost (.ac a)).pagesLost true [pgAc a, pgMmu a]) s3
  let s5 := (List.finRange 4).foldl (fun s (k : Fin 4) => s.modPair ⟨32 + k, by omega⟩ (fun _ => { Pair.init with locked := k.val == 0 })) s4
  { s5 with bcast := [], trace := Trace.init, fab := { Fabric.init with strap := s.fab.strap }
            power := { s5.power with svn := 0, kslot := 0, fwver := 0, fwEntry := 0 } }

/-- DEV: every block of both dies outside always-on logic, every domain turned ON. DEDUCED (log 48). -/
def State.resetDev (s : State) : State :=
  let s1 := (s.resetSys true).egReset
  let s2 := (List.finRange 8).foldl (fun s c => s.resetCluster c) s1
  let s3 := (s2.flsReset).pageLost true pgFls
  let s4 := (List.range 148).foldl (fun s d =>
    if s.domOn d && s.fld pgPwr (Reg.PWR_DOM d) 3 2 == 3 then s
    else (if s.domOn d then s else s.domInit d).setFld pgPwr (Reg.PWR_DOM d) 3 0 15) s3
  let s5 := (List.range 148).foldl (fun s d => (domUnits d).foldl (fun s u => s.initDone u.1 u.2) s) s4
  { s5.setBit pgPwr Reg.PWR_STAT 0 false with
    power := { s5.power with queue := [], busy := none, waking := [] }
    cmd := CmdUnit.init, bridge := ⟨0, 0, false, s.time.clk, none, []⟩ }

/-- SYSD: the system die; meanwhile the control die treats the bridge as down. DEDUCED (log 48). -/
def State.resetSysd (s : State) : State := (s.resetSys false).bridgeDown

/-- POR: everything but fuses, flash content, pins and, unless VDD_SD fell below 0.5 V, `RST_CAUSE` and `RST_MON`. DEDUCED (log 48). -/
def State.resetPor (s : State) (lost : Bool) : State :=
  let f := s.flsReset
  let keep (t : State) (p : PageId) (o : Nat) : State := t.setReg p o (s.reg p o)
  let s1 : State :=
    { State.reset with
      pending := s.pending, resp := s.resp, free := s.free, msixOut := s.msixOut, viralOut := s.viralOut
      mem := s.mem.filter (fun e => decide (0x4000000 ≤ e.1 ∧ e.1 ≤ 0x57FFFFF)), flsMark := f.flsMark
      stopLow := s.stopLow, sec := { Sec.init with seed := s.sec.seed, owner := s.sec.owner, pins := s.sec.pins }
      fab := { Fabric.init with strap := s.fab.strap }
      clusters := Vector.ofFn (fun (c : Fin 8) => { Cluster.init with
        pwm := { Pwm.init with tripPin := (s.pwm c).tripPin }, ain := s.clusters[c].ain
        fb := s.clusters[c].fb.map (fun f => { Feedback.init with pins := f.pins }) }) }
  let s2 := s1
  let s3 := [Reg.SEC_SERIAL 0, Reg.SEC_SERIAL 1, Reg.SEC_SERIAL 2, Reg.SEC_SERIAL 3, Reg.SEC_SVN_FW, Reg.SEC_KREV].foldl (fun t o => keep t pgSec o) s2
  let s4 := s3.setReg pgSec Reg.SEC_LC (w32 s.lifecycle)
  let s5 := if lost then s4 else (keep (keep s4 pgRst Reg.RST_CAUSE) pgRst Reg.RST_MON)
  let s6 := (List.range 148).foldl (fun t d => (domUnits d).foldl (fun t u => t.initStart u.1 u.2) t) s5
  (List.finRange 8).foldl (fun t c => t.pwmFollow c) ((s6.initStart pgSramSys 16).wipe 0)

/-- What a reset does at its assertion. -/
def State.resetDo (s : State) (r : ResetRun) (lost : Bool) : State :=
  match r.scope with
  | 0 => (s.resetCores r).foldl (fun s c => s.resetCore c) s
  | 1 => s.resetCluster (clu r.num)
  | 2 => s.cxlLost true
  | 3 => s.resetSysd
  | 4 => s.resetDev
  | _ => s.resetPor lost

/-- A reset from a source: `bits` of `RST_CAUSE` are set; it is absorbed by a running reset that covers it, and replaces
those that it covers (R452, R453). -/
def State.resetNow (s : State) (r : ResetRun) (bits : Nat) (lost : Bool) : State :=
  let mark (t : State) : State := (t.setReg pgRst Reg.RST_CAUSE (t.reg pgRst Reg.RST_CAUSE ||| w32 bits)).mark9 pgRst Reg.RST_CAUSE (w32 bits)
  if s.power.resets.any (fun x => x.covers r) then mark s
  else
    let s1 := s.resetDo r lost
    let s2 := (mark s1).setFld pgRst Reg.RST_CAUSE 10 8 r.scope
    { s2 with power := { s2.power with resets := r :: s.power.resets.filter (fun x => !r.covers x) } }

/-- Viral is signalled before a SYSD or DEV reset of certain causes (R505). -/
def State.viralSignal (s : State) : State :=
  if s.rbit pgCxl Reg.CXL_CTL 2 then { s with viralOut := s.viralOut + 1 } else s

/-- A DEV reset from a source of R452; `viral` says that R505 names the cause. -/
def State.resetDevBy (s : State) (bits : Nat) (viral : Bool) : State :=
  (if viral then s.viralSignal else s).resetNow ⟨4, 0, false⟩ bits false

/-- A reset of any scope ends; the bridge comes back after SYSD. A DEV reset is held while the dies are hot (R450). DEDUCED (log 48). -/
def State.resetRelease (s : State) (r : ResetRun) : State :=
  if !s.power.resets.contains r || (r.scope == 4 && s.power.hot) then s
  else
    let s1 := { s with power := { s.power with resets := s.power.resets.filter (fun x => x != r) } }
    if r.scope = 3 then (s1.setFld pgRst Reg.RST_BRG_STAT 1 0 0).modBridge (fun b => { b with hold := none }) else s1

/-- A page inside the scope of a running reset. DEDUCED (log 49). -/
def State.pageHeld (s : State) (p : PageId) : Bool :=
  s.power.resets.any (fun r =>
    match r.scope with
    | 1 => pageCluster p == some (clu r.num)
    | 2 => p.kind == .cxl || p.kind == .qcb || p.kind == .db || p.kind == .dvsec || p.kind == .msix
    | 3 => (match p.kind with
        | .rst | .sec | .sramSys | .ac | .mmu | .pairSys | .sdma | .cxl | .cmd | .str | .strCommon | .qcb | .db | .dvsec | .msix => true
        | _ => false)
    | 4 => p.kind != .dtb && p.kind != .ird && p.kind != .pwr
    | 5 => true
    | _ => false)

/-! ## Sources (R450, R452 to R455) -/

/-- `RST_CMD` (R453). DEDUCED (log 48). -/
def State.rstCmd (s : State) (m : Bool) (v : Word) : State :=
  let r : ResetRun := ⟨bitsOf v 2 0, bitsOf v 8 3, bitOf v 9 && bitsOf v 2 0 == 0⟩
  if !m || bitsOf v 23 16 ≠ 0x5A || 5 ≤ r.scope || (r.scope == 1 && 8 ≤ r.num) || (r.ac && 4 ≤ r.num) then s.raise pgRst 2
  else s.resetNow (if r.scope < 2 then r else ⟨r.scope, 0, false⟩) 0x10 false

/-- A rail leaves its range for 2 µs (R450, R485); `lost` says that VDD_SD fell below 0.5 V. DEDUCED (log 66). -/
def State.railEvent (s : State) (r : Fin 7) (lost : Bool) : State :=
  let s1 := s.stick pgRst Reg.RST_MON r
  let s2 := s1.resetNow ⟨5, 0, false⟩ 0x81 lost
  let s3 := if s.rbit pgSec Reg.SEC_TMP_CTL 8 then s2.wipe 3 else s2
  if lost then s3.stick pgRst Reg.RST_MON r else s3

/-- The reference fails, or a PLL loses lock (R450, R485). -/
def State.clockEvent (s : State) : State :=
  let s1 := (s.stick pgRst Reg.RST_MON 7).resetDevBy 0x80 true
  if s.rbit pgSec Reg.SEC_TMP_CTL 9 then s1.wipe 3 else s1

/-- A die temperature is measured, in °C + 64, on the control and the system die (R450). -/
def State.tempEvent (s : State) (tcd tsd : Byte) : State :=
  let s1 := s.setReg pgMon Reg.MON_TEMP (w32 (tcd.toNat + 256 * tsd.toNat))
  let thr := s.fld pgMon Reg.MON_TWARN 7 0
  let s1 := if tcd.toNat < thr ∧ tsd.toNat < thr then { s1 with power := { s1.power with hot := false } } else s1
  s1.raiseIf (decide (thr < tcd.toNat ∨ thr < tsd.toNat)) pgPwr 3

/-- A junction above 130 °C (R450, R485). -/
def State.hotEvent (s : State) : State :=
  let s0 := s.stick pgRst Reg.RST_MON 8
  let s1 := { s0 with power := { s0.power with hot := true } }.resetDevBy 0x80 true
  if s.rbit pgSec Reg.SEC_TMP_CTL 10 then s1.wipe 3 else s1

/-- A CXL hot reset (R452). -/
def State.hotReset (s : State) : State :=
  let h := s.fld pgRst Reg.RST_CFG 1 0
  s.resetNow ⟨if h = 0 then 2 else if h = 1 then 3 else 4, 0, false⟩ 0x04 false

/-- `TMO` of a watchdog in clock edges; 0 acts as 1 ms. -/
def State.wdTime (s : State) (w : Fin 4) : Nat := msClks (max 1 (s.fld pgRst (Reg.WD_CTL w) 31 16))

/-- Reload a watchdog. -/
def State.wdReload (s : State) (w : Fin 4) (t : Nat) : State :=
  { s with power := { s.power with wdAt := s.power.wdAt.set w (t + s.wdTime w) } }

/-- A write of `WD_KICK` (R454). -/
def State.wdKick (s : State) (w : Fin 4) (v : Word) : State :=
  if bitsOf v 15 0 = 0x6B3A ∧ s.rbit pgRst (Reg.WD_CTL w) 0 then (s.wdReload w s.time.clk).setBit pgRst (Reg.WD_CNT w) 16 false else s

/-- A write of `WD_CTL`: the counter starts when `EN` is set (R454). -/
def State.wdCtl (s : State) (w : Fin 4) (v mask : Word) : State :=
  let s1 := s.busReg pgRst (Reg.WD_CTL w) v mask
  if s1.rbit pgRst (Reg.WD_CTL w) 0 && !s.rbit pgRst (Reg.WD_CTL w) 0 then s1.wdReload w s.time.clk else s1

/-- A watchdog expires (R454). DEDUCED (log 48). -/
def State.wdExpire (s : State) (w : Fin 4) : State :=
  if !s.rbit pgRst (Reg.WD_CTL w) 0 then s
  else
    let t := s.power.wdAt[w]
    let s1 := (s.advance (t * Config.stepsPerClk)).wdReload w t
    if !s.rbit pgRst (Reg.WD_CNT w) 16 then (s1.setBit pgRst (Reg.WD_CNT w) 16 true).raise pgRst 0
    else
      let s2 := s1.setBit pgRst (Reg.WD_CNT w) 16 false
      let sc := s.fld pgRst (Reg.WD_CTL w) 2 1
      if sc = 0 ∧ w.val ≠ 0 then s2.resetNow ⟨0, w, true⟩ 0x08 false
      else if sc = 1 then s2.viralSignal.resetNow ⟨3, 0, false⟩ 0x08 false
      else s2.resetDevBy 0x08 true

/-- A lockup is reported (R293, R455). DEDUCED (log 48). -/
def State.lockup (s : State) (c : CoreId) : State :=
  let s1 := s.modCore c (fun k => { k with lockup := true })
  let k := pairOf c
  let s2 := if s.locked c then s1.modMembers k (fun x => { x with lockup := true }) else s1
  match c with
  | .ce e =>
    let mark (s : State) (x : Fin 64) : State := s.stick pgRst (if x.val < 32 then Reg.RST_LOCKUP_CE_LO else Reg.RST_LOCKUP_CE_HI) (x % 32)
    let cs := if s.locked c then [masterOf k, checkerOf k] else [c]
    ((cs.foldl (fun s d => (s.coreStop d).modCore d (fun x => { x with lockup := true })) s2) |> fun t => mark t e).raise pgRst 1
  | .ac a =>
    if a.val < 2 then s2.resetDevBy 0x40 true
    else
      let s3 := (s2.coreStop (masterOf k)).coreStop (checkerOf k)
      ((s3.modCore c (fun x => { x with lockup := true })).stick pgRst Reg.RST_LOCKUP_AC a).raise pgRst 1

/-- A mismatch of application-core pair 0 resets the device (R341, R452). -/
def State.lockstepReset (s : State) : State := s.resetDevBy 0x20 true

/-- Block effects of a write to the `RST` page. -/
def State.rstWrite (s : State) (m : Bool) (off : Nat) (v mask : Word) : State :=
  if off = Reg.RST_CMD then s.rstCmd m (v &&& mask)
  else if off = Reg.RST_BRG_HOLD then
    let s1 := s.busReg pgRst off v mask
    s1.setFld pgRst off 9 0 (min 1000 (s1.fld pgRst off 9 0))
  else match arrIdx 0x100 0x10 4 off with
    | some w => s.wdCtl w v mask
    | none => match arrIdx 0x104 0x10 4 off with
      | some w => s.wdKick w (v &&& mask)
      | none => s.busReg pgRst off v mask

/-- A read of the `RST` page: the watchdogs' counters are live. -/
def State.rstRead (s : State) (off : Nat) : Word :=
  match arrIdx 0x108 0x10 4 off with
  | some w =>
    let left := if s.rbit pgRst (Reg.WD_CTL w) 0 then (s.power.wdAt[w] - s.time.clk + 1599999) / 1600000 else 0
    putBits (s.busRead pgRst off) 15 0 left
  | none => s.busRead pgRst off

/-- Block effects of a write to `PWR` page 0: `REQ` requests a domain state, 2 is ignored (R444, R445). -/
def State.pwrWrite (s : State) (p : PageId) (off : Nat) (v mask : Word) : State :=
  if p.inst ≠ 0 then s.busReg p off v mask
  else match arrIdx 0x400 4 148 off with
    | some d =>
      let r := bitsOf v 3 2
      if mask &&& 0xC = 0 then s.busReg p off v mask
      else if r = 2 then s.busReg p off v (mask &&& ~~~ 0xC)
      else (s.busReg p off v mask).pwrRequest d r
    | none => s.busReg p off v mask

/-- A read of a `PWR` page: rail powers are measured. -/
def State.pwrRead (s : State) (p : PageId) (off : Nat) : State × Word :=
  if p.inst = 2 then
    match arrIdx 0x40 4 7 off with
    | some r => (s.draw, Config.measured r s.free &&& 0xFFFF)
    | none => (s, s.busRead p off)
  else (s, s.busRead p off)

/-! ## Boot (R456, R457, R473, R478) -/

/-- The ROM extends a measurement slot; slots 0 to 2 that are locked refuse. -/
def State.romExtend (s : State) (slot : Nat) (d : BitVec 384) : State :=
  if s.rbit pgSec Reg.SEC_MEAS_LOCK 0 then s.raise pgSec 3 else s.measExtend slot d

/-- The Saluo ROM sets the bases of an M bank (R199). DESIGN CHOICE (log 64). -/
def Bank.romSet (b : Bank) : Bank :=
  let d := Config.romBase false &&& 0xFFFFFFFC
  let r := Config.romBase true &&& 0xFFFFFFFC
  { b with dsb := d, dsp := d, rsb := r, rsp := r }

/-- Stage 2: memories are initialised, the ROM starts on application-core pair 0, locked, at M; it sets watchdog 0. -/
def State.bootRom (s : State) : State :=
  let s1 := (List.range 148).foldl (fun s d => (domUnits d).foldl (fun s u => s.initDone u.1 u.2) s) (s.initDone pgSramSys 16)
  let s2 := (((s1.modPair 32 (fun p => { p with locked := true })).acStart 0).acStart 1).modMembers 32 (fun k => { k with bM := k.bM.romSet })
  let s3 := (s2.setReg pgRst (Reg.WD_CTL 0) (w32 (1 + 100 * 65536))).wdReload 0 s.time.clk
  s3.deriveKey.romExtend 0 (Config.sha384 (s.bytesAt 0 0x40000))

/-- Where an image's body lies in system SRAM, and where it is entered (R470). -/
def imageLoad (bs : List Byte) : Nat := fieldAt bs 0x10 4

/-- The ROM copies an image's body to `LOAD`, a system SRAM address (R470). DEDUCED (log 49). -/
def State.loadImage (s : State) (bs : List Byte) : State :=
  let body := (bs.drop 0x200).take (fieldAt bs 8 4)
  if 0x1000000 ≤ imageLoad bs ∧ imageLoad bs + body.length ≤ 0x1800000 then (s.eccWrite (.core (.ac 0)) (imageLoad bs) body).1 else s

/-- Stage 3: an image is taken, its body brought to `LOAD` (R470, R471, R478). DEDUCED (log 49). -/
def State.bootWith (s : State) (bs : List Byte) (alt : Bool) : State :=
  let slot := fieldAt bs 0x18 4
  let svn := fieldAt bs 0xC 4
  let s1 := ((s.setBit pgRst Reg.RST_BOOT 4 alt).setFld pgRst Reg.RST_BOOT 3 0 3)
  let s2 := { s1.loadImage bs with
    power := { s1.power with svn := svn, kslot := slot, fwver := Config.fwVersion (beNat (slice bs 0x20 48)), fwEntry := imageLoad bs + fieldAt bs 0x14 4 } }
  let s3 := s2.romExtend 1 (Config.sha384 (bs.take 0x110))
  let rec16 : List Byte := [s.lifecycle, b2n alt, slot, svn, s.fld pgSec Reg.SEC_SVN_FW 6 0, s.fld pgSec Reg.SEC_KREV 1 0].map (BitVec.ofNat 8)
  s3.romExtend 2 (Config.sha384 (rec16 ++ List.replicate 10 0))

/-- Stage 3: the primary image, or else the alternate one; both failing ends the boot (R457, R471). -/
def State.bootImage (s : State) : State :=
  match s.imageOk false with
  | (s1, some bs) => s1.bootWith bs false
  | (s1, none) =>
    match s1.imageOk true with
    | (s2, some bs) => s2.bootWith bs true
    | (s2, none) => (s2.setFld pgRst Reg.RST_BOOT 3 0 0xF).setBit pgRst Reg.RST_BOOT 5 true

/-- The next boot stage completes (R456); before stage 6 the ROM locks slots 0 to 2 and starts the firmware (R479). DEDUCED (log 49). -/
def State.bootNext (s : State) : State :=
  let st := s.fld pgRst Reg.RST_BOOT 3 0
  if !s.power.resets.isEmpty && s.power.resets.any (fun r => 3 ≤ r.scope) then s
  else if st = 0 then s.setFld pgRst Reg.RST_BOOT 3 0 1
  else if st = 1 then s.bootRom.setFld pgRst Reg.RST_BOOT 3 0 2
  else if st = 2 then s.bootImage
  else if st = 3 then s.ddrTrain.setFld pgRst Reg.RST_BOOT 3 0 4
  else if st = 5 then
    let t := s.modMembers 32 (fun k => if k.running then { k with pc := w32 s.power.fwEntry, slot := none } else k)
    (t.setBit pgSec Reg.SEC_MEAS_LOCK 0 true).setFld pgRst Reg.RST_BOOT 3 0 6
  else if st < 7 then s.setFld pgRst Reg.RST_BOOT 3 0 (st + 1)
  else s

/-- The firmware runs and serves its queues (R456). DEDUCED (log 49). -/
def State.fwUp (s : State) : Bool := let st := s.fld pgRst Reg.RST_BOOT 3 0; decide (st = 6 ∨ st = 7)

/-- The boot failed (R457). DEDUCED (log 49). -/
def State.bootFailed (s : State) : Bool := s.rbit pgRst Reg.RST_BOOT 5

/-! ## Lifecycle (R473, R481 to R483) -/

/-- The fuses of a transition are blown: owner digests, a seed drawn on leaving BLANK, then the wipe and the DEV reset. -/
def State.lcBlown (s : State) : State :=
  match s.sec.lcNext with
  | none => s
  | some (to_, owners) =>
    let own : Vector (Option (BitVec 384)) 4 := Vector.ofFn (fun i => owners.getD i none)
    let s1 := (s.setFld pgSec Reg.SEC_LC 1 0 to_).modSec (fun x =>
      { x with lcNext := none, seed := x.seed || to_ == 1, owner := if to_ = 2 then own else x.owner })
    ((s1.wipe 1).raise pgSec 4).resetDevBy 0x10 false

end Sys2Proof.Machine
end

