-- ==== Sys2Proof/Machine/Fabric.lean ====
section
/-! DEFINITION. Stops (R507, R509) and the String fabric (22_string_fabric.md, R546 to R571). -/

namespace Sys2Proof.Machine

/-! ## The effects of a stop (R98, R414, R507, R509) -/

/-- A stop from the system die: every output to its safe vector with cause STOP, every DMA channel ended as a stop. The stop
crosses the bridge (R17, R18): while it retrains the clusters wait for it (R19); with the bridge down the system DMA alone ends
at once, the clusters follow at the end of the hold time, and STOP_ALL sets `PARTIAL` (R509). -/
def State.stopEffect (s : State) (urgent : Bool) : State :=
  let sys (s : State) : State := (List.finRange 32).foldl (fun s (k : Fin 32) => s.dmaAbort ⟨k, by omega⟩ true) s
  if s.bridgeIsDown then (if urgent then (sys s).setBit pgDvsec Reg.URG_STAT 2 true else sys s)
  else if s.bridgeTrains then (sys s).busWait (.stop urgent)
  else (s.cross.safeAll (some 0)).dmaStopAll

/-! ## Ports and routes -/

/-- The page of a port. -/
def pgPort (p : Nat) : PageId := ⟨.str, p % 4⟩

/-- Change the fabric's state. -/
def State.modFab (s : State) (f : Fabric → Fabric) : State := { s with fab := f s.fab }

/-- A link is up. -/
def State.portUp (s : State) (p : Nat) : Bool := decide (p < 4) && s.rbit (pgPort p) Reg.STR_P_STAT 0

/-- The device's own address. -/
def State.fabAddr (s : State) : Nat := s.fld pgStr Reg.STR_STAT 7 0

/-- This device is the root. -/
def State.isRoot (s : State) : Bool := s.rbit pgStr Reg.STR_STAT 8

/-- Send a frame on a port, if its link is up. -/
def State.sendOn (s : State) (p : Nat) (f : Frame) : State :=
  if s.portUp p then s.modFab (fun x => { x with sent := (p, f) :: x.sent }) else s

/-- Send a frame on every port that `g` selects. -/
def State.sendAll (s : State) (g : Nat → Bool) (f : Frame) : State :=
  (List.range 4).foldl (fun s p => if g p then s.sendOn p f else s) s

/-- The number of a frame type (Table: Frame types). -/
def frameType : FrameBody → Nat
  | .stop => 1 | .sync .. => 2 | .delay _ => 3 | .linkdown _ => 4 | .cyclic .. => 5 | .write .. => 6 | .read .. => 7
  | .resp .. => 8 | .disc _ => 9 | .discr .. => 10 | .topo .. => 11

/-- The traffic class of a frame type. -/
def frameClass (b : FrameBody) : Nat := if frameType b ≤ 4 then 0 else if frameType b = 5 then 1 else 2

/-- A new frame of this device, with the next `SEQ` of its type (R550). -/
def State.newFrame (s : State) (dst : Nat) (b : FrameBody) : State × Frame :=
  let t : Fin 16 := Fin.ofNat 16 (frameType b)
  (s.modFab (fun x => { x with seq := x.seq.set t ((x.seq[t] + 1) % 65536) }), ⟨frameClass b, dst, s.fabAddr, 32, s.fab.seq[t], b, true⟩)

/-- Send a frame on every port that leads to a time child, each copy to that neighbour (R551, R559). -/
def State.sendKids (s : State) (g : Nat → Bool) (f : Frame) : State :=
  (List.range 4).foldl (fun s p => if s.rbit (pgPort p) Reg.STR_P_STAT 4 && g p
    then s.sendOn p { f with dst := s.fld (pgPort p) Reg.STR_P_STAT 15 8 } else s) s

/-- A frame is dropped for its destination (R554). -/
def State.routeDrop (s : State) : State := s.count pgStr Reg.STR_RDROP_CNT 15 0

/-- The port that a frame to `d` leaves on: the primary while it is up, else the alternate (R557). -/
def State.routePort (s : State) (d : Nat) : Option Nat :=
  let e := s.reg pgStr (Reg.STR_RT d)
  if !bitOf e 8 then none
  else if s.portUp (bitsOf e 3 0) then some (bitsOf e 3 0)
  else if s.portUp (bitsOf e 7 4) then some (bitsOf e 7 4)
  else none

/-- Send a unicast frame along its route, or drop it (R554). DEDUCED (log 54). -/
def State.sendRoute (s : State) (f : Frame) : State :=
  if f.dst = 0 ∨ 250 < f.dst then s.routeDrop
  else match s.routePort f.dst with
    | some p => s.sendOn p f
    | none => s.routeDrop

/-- Forward a unicast frame: one hop less. -/
def State.forward (s : State) (f : Frame) : State :=
  if f.hops ≤ 1 then s.routeDrop else s.sendRoute { f with hops := f.hops - 1 }

/-- A port that leads to a time child (R559). -/
def State.isChild (s : State) (p : Nat) : Bool := s.rbit (pgPort p) Reg.STR_P_STAT 4

/-- The time parent's port. -/
def State.parentPort (s : State) : Nat := s.fld pgStr Reg.STR_STAT 15 12

/-- Forward a broadcast down the time tree (R554). -/
def State.forwardTree (s : State) (p : Nat) (f : Frame) : State :=
  if f.hops ≤ 1 then s.routeDrop
  else if p ≠ s.parentPort then s
  else s.sendAll (fun q => q != p && s.isChild q) { f with hops := f.hops - 1 }

/-- Flood a frame: on every up port except the one it came in on (R554). -/
def State.flood (s : State) (p : Nat) (f : Frame) : State :=
  if f.hops ≤ 1 then s.routeDrop else s.sendAll (fun q => q != p) { f with hops := f.hops - 1 }

/-- The first copy of a flooded frame within 1 ms (R554). -/
def State.isNew (s : State) (f : Frame) : Bool :=
  !s.fab.seen.any (fun x => x.1 == frameType f.body * 256 + f.src && x.2.1 == f.seq && decide (s.time.clk < x.2.2 + msClks 1))

/-- Remember a flooded frame. -/
def State.markSeen (s : State) (f : Frame) : State :=
  let old := s.fab.seen.filter (fun y => decide (s.time.clk < y.2.2 + msClks 1))
  s.modFab (fun x => { x with seen := (frameType f.body * 256 + f.src, f.seq, s.time.clk) :: old })

/-- What becomes of a received frame before its meaning: one whose class is wrong is dropped, one whose CRC failed is
counted and, if cut through, forwarded (R551, R553); a device without an address carries no cyclic and no remote frame (R556).
True where it is taken. DEDUCED (log 54). -/
def State.frameIn (s : State) (p : Nat) (f : Frame) : State × Bool :=
  let t := frameType f.body
  if !s.portUp p || f.tc ≠ frameClass f.body || (s.fabAddr == 0 && decide (5 ≤ t ∧ t ≤ 8)) then (s, false)
  else if !f.good then
    let s1 := s.count (pgPort p) Reg.STR_P_CRC_CNT 15 0
    (if f.tc = 2 then s1
     else match f.body with
      | .stop | .linkdown _ => if s1.isNew f then s1.flood p f else s1
      | .cyclic .. => if f.dst = 255 then s1.forwardTree p f else if f.dst = s.fabAddr then s1 else s1.forward f
      | .sync .. => if p = s.parentPort then s1.sendKids (fun q => q != p) { f with hops := f.hops - 1 } else s1
      | _ => s1, false)
  else (s, true)

/-! ## Topology and routes (R557, R568) -/

/-- The links of a list that join two ports, seen from device `a`: (port, neighbour, its port). -/
def linksOf (ls : List FabLink) (a : Nat) : List (Nat × Nat × Nat) :=
  ls.filterMap (fun l => if l.a = a then some (l.pa, l.b, l.pb) else if l.b = a then some (l.pb, l.a, l.pa) else none)

/-- One round of a breadth-first search: the devices next to `front` that are not in `done`. -/
def bfsNext (ls : List FabLink) (done front : List Nat) : List Nat :=
  (front.flatMap (fun a => (linksOf ls a).map (fun x => x.2.1))).foldl (fun acc b => if done.contains b || acc.contains b then acc else acc ++ [b]) []

/-- Hops from any device of `front` to `d`, not through a device of `done`. -/
def bfs (ls : List FabLink) (d : Nat) : Nat → Nat → List Nat → List Nat → Option Nat
  | 0, _, _, _ => none
  | n + 1, k, done, front =>
    if front.contains d then some k
    else if front.isEmpty then none
    else
      let done' := done ++ front
      bfs ls d n (k + 1) done' (bfsNext ls done' front)

/-- The fewest hops from device `a` to `d` on a path that leaves `a` through its port `q`. -/
def hopsVia (ls : List FabLink) (a q d : Nat) : Option Nat :=
  ((linksOf ls a).filter (fun x => x.1 == q)).foldl (fun best x =>
    match bfs ls d 251 1 [a] [x.2.1], best with
    | some k, some b => some (min k b)
    | some k, none => some k
    | none, b => b) none

/-- The best port of a list for `d`: fewest hops, lowest port on a tie. -/
def bestPort (ls : List FabLink) (a d : Nat) (ports : List Nat) : Option (Nat × Nat) :=
  ports.foldl (fun best q =>
    match hopsVia ls a q d, best with
    | some k, some (_, b) => if k < b then some (q, k) else best
    | some k, none => some (q, k)
    | none, _ => best) none

/-- The routing entry of `d` at device `a`: (primary, alternate, hops), 15 for no port (R557). -/
def routeEntry (ls : List FabLink) (a d : Nat) : Option (Nat × Nat × Nat) :=
  match bestPort ls a d [0, 1, 2, 3] with
  | none => none
  | some (p, k) =>
    let alt := match bestPort ls a d ([0, 1, 2, 3].filter (fun q => q != p)) with | some (q, _) => q | none => 15
    some (p, alt, k)

/-- Recompute every entry that is not pinned and clear `USEALT` (R557, R568). DEDUCED (log 54). -/
def State.reroute (s : State) : State :=
  let a := s.fabAddr
  (List.range 256).foldl (fun s d =>
    let e := s.reg pgStr (Reg.STR_RT d)
    if bitOf e 16 then s.setBit pgStr (Reg.STR_RT d) 9 false
    else if d = 0 ∨ 250 < d ∨ d = a then s
    else match routeEntry s.fab.links a d with
      | some (p, q, k) => s.setReg pgStr (Reg.STR_RT d) (w32 (p + 16 * q + 256 + 1024 * (k % 64)))
      | none => if bitOf e 8 then s.setReg pgStr (Reg.STR_RT d) 0xFF else s) s

/-- Remove a link from the topology. -/
def State.dropLink (s : State) (l : FabLink) : State :=
  s.modFab (fun x => { x with links := x.links.filter (fun k => k != l && k != ⟨l.b, l.pb, l.a, l.pa⟩) })

/-- A device that cannot reach the root any longer has no time parent (R568). -/
def State.parentLost (s : State) : State :=
  if s.isRoot || s.fabAddr = 0 then s
  else match routeEntry s.fab.links s.fabAddr 1 with
    | some _ => s
    | none => s.setFld pgStr Reg.STR_STAT 15 12 0xF

/-! ## Links (R549, R558, R566 to R568) -/

/-- A link comes up, unless it joins two ports of one device (R546); a device that appears after enumeration raises `NEW_NBR`
(R549, R556). The exchange of R558 begins afresh. -/
def State.strLinkUp (s : State) (p : Fin 4) (nbr nbrPort : Nat) : State :=
  if !s.domOn (120 + p) || s.portUp p || (nbr != 0 && nbr == s.fabAddr) then s
  else
    let s1 := ((s.modFab (fun x => { x with delayAt := x.delayAt.set p none })).setReg (pgPort p) Reg.STR_P_STAT (w32 (3 + 256 * (nbr % 251) + 65536 * (nbrPort % 4)))).raise (pgPort p) 0
    s1.raiseIf (s.rbit pgStr Reg.STR_STAT 9 && nbr == 0) (pgPort p) 2

/-- The time parent when port `p` is lost: among the other fit links, the neighbour with the fewest hops to the root, the
lowest port on a tie (R567). -/
def State.newParent (s : State) (p : Nat) : Nat :=
  let cand := [0, 1, 2, 3].filter (fun q => q != p && s.portUp q && s.rbit (pgPort q) Reg.STR_P_STAT 2)
  let hop (q : Nat) : Option Nat :=
    let b := s.fld (pgPort q) Reg.STR_P_STAT 15 8
    if b = 1 then some 0 else bfs s.fab.links 1 251 0 [s.fabAddr] [b]
  match cand.foldl (fun (best : Option (Nat × Nat)) q =>
    match hop q, best with
    | some k, some (_, b) => if k < b then some (q, k) else best
    | some k, none => some (q, k)
    | none, _ => best) none with
  | some (q, _) => q
  | none => 0xF

/-- A port declares its link lost (R566, R567): alternates are used, a new time parent is taken, LINKDOWN is flooded. -/
def State.strLinkLost (s : State) (p : Fin 4) : State :=
  if !s.portUp p then s
  else
    let st := s.reg (pgPort p) Reg.STR_P_STAT
    let l : FabLink := ⟨s.fabAddr, p, bitsOf st 15 8, bitsOf st 17 16⟩
    let s1 := (((s.setReg (pgPort p) Reg.STR_P_STAT 0).count (pgPort p) Reg.STR_P_DOWN_CNT 15 0).raise (pgPort p) 1).modFab
      (fun x => { x with delay := x.delay.set p none })
    let s2 := (List.range 256).foldl (fun s d =>
      let e := s.reg pgStr (Reg.STR_RT d)
      if bitOf e 8 && bitsOf e 3 0 == p.val && bitsOf e 7 4 != 15 then s.setBit pgStr (Reg.STR_RT d) 9 true else s) s1
    let s3 := if s.parentPort = p.val then
        let q := (s2.dropLink l).newParent p
        let s4 := s2.setFld pgStr Reg.STR_STAT 15 12 q
        if q < 4 then
          let s5 := (s4.setBit (pgPort q) Reg.STR_P_STAT 3 true).setBit (pgPort q) Reg.STR_P_STAT 4 false
          { s5 with time := { s5.time with reacq := true } }
        else s4
      else s2
    let x := s3.newFrame 255 (.linkdown l)
    (x.1.markSeen x.2).sendAll (fun _ => true) x.2

/-- A LINKDOWN frame (R554, R568). DEDUCED (log 54). -/
def State.linkdownFrame (s : State) (p : Fin 4) (f : Frame) (l : FabLink) : State :=
  let x := s.frameIn p f
  if !x.2 || !s.isNew f then x.1
  else
    let s1 := ((s.markSeen f).flood p f).dropLink l
    ((s1.reroute.parentLost).count pgStr Reg.STR_REROUTE_CNT 15 0).raise pgStr 3

/-- Each end of a link starts a DELAY exchange when the link has come up and 100 µs after each start (R558). -/
def State.delayDue (s0 : State) (p : Fin 4) : State :=
  if !s0.portUp p then s0
  else
    let s1 := match s0.fab.delayAt[p] with
      | some t => s0.advance ((t + 160000) * Config.stepsPerClk)
      | none => s0
    let s := s1.modFab (fun y => { y with delayAt := y.delayAt.set p (some s1.time.clk) })
    let x := s.newFrame (s.fld (pgPort p) Reg.STR_P_STAT 15 8) (.delay none)
    (x.1.sendOn p x.2).modFab (fun y => { y with delay := y.delay.set p (some s.time.clk) })

/-- A DELAY frame: a request is answered, a reply completes the measurement (R558). DESIGN CHOICE (log 6). -/
def State.delayFrame (s : State) (p : Fin 4) (f : Frame) (reply : Option Nat) : State :=
  let x := s.frameIn p f
  if !x.2 then x.1
  else match reply with
    | none =>
      let y := s.newFrame f.src (.delay (some (Config.turnaround s.free)))
      (y.1.draw).sendOn p y.2
    | some turn =>
      match s.fab.delay[p] with
      | none => s
      | some t0 =>
        let d := ((s.time.clk - t0) * 10 - turn) / 2
        ((s.setReg (pgPort p) Reg.STR_P_DELAY (w32 (d % 2 ^ 24))).setBit (pgPort p) Reg.STR_P_STAT 2 true).modFab
          (fun z => { z with delay := z.delay.set p none })

/-! ## Time (R559 to R561, R66) -/

/-- The root sends SYNC frames every `SYNCIVAL` microseconds; a root with `SRC` = 1 sends none. DESIGN CHOICE (log 6). -/
def State.syncSend (s : State) : State :=
  if !s.isRoot || s.src = 1 then s
  else
    let iv := clampNat 1 50 (s.fld pgStr Reg.STR_CTL 13 8)
    let s1 := (s.advance ((s.fab.syncAt + 1600 * iv) * Config.stepsPerClk))
    let s2 := s1.modFab (fun x => { x with syncAt := s1.time.clk })
    let x := s2.newFrame 255 (.sync s1.time.ns s1.time.frac 0 s1.time.mfn s1.time.mft (s1.reg pgDtb Reg.DTB_MFP) 0)
    x.1.sendKids (fun _ => true) x.2

/-- A new machine frame period arrives in a SYNC: it waits for the first boundary at least 100 µs after the root's write (R561),
whose instant within the last 100 µs no frame carries. The first SYNC that the device follows gives the period itself.
DESIGN CHOICE (log 6). -/
def State.syncMfp (s : State) (mfp : Word) : State :=
  if mfp = s.reg pgDtb Reg.DTB_MFP then s
  else
    let s1 := (s.draw).setReg pgDtb Reg.DTB_MFP mfp
    { s1 with time := { s1.time with mfpDue := s.time.clk + 160000 - min 160000 (Config.mfpAge s.free) } }

/-- The machine frame that a SYNC carries (R561, R66): taken while no carrier runs; after a holdover or a reroute it is compared
instead, and a difference of more than 1 µs, or of a whole machine frame, is a time loss. True where it is one. -/
def State.syncMfn (s : State) (mfn : BitVec 48) (mft : DWord) (mfp : Word) : State × Bool :=
  let own : Int := (s.time.mft.toNat : Int) + ((mfn.toNat : Int) - (s.time.mfn.toNat : Int)) * s.time.mfp
  let off := (own - (mft.toNat : Int)).natAbs
  let s1 := { s with time := { s.time with reacq := false } }
  if s.time.reacq && !s.time.loadPend && decide (1000 < off) then (((s1.raise pgDtb 8).timeLoss), true)
  else if s.time.loadPend && !s.carRun then
    let s2 := s1.setReg pgDtb Reg.DTB_MFP mfp
    ({ s2 with time := { s2.time with mfn := mfn, mft := mft, mfp := mfp.toNat, mfpDue := 0 } }, false)
  else
    let s2 := s1.syncMfp mfp
    if s.carRun || s.time.reacq then (s2, false)
    else ({ s2 with time := { s2.time with mfn := mfn, mft := mft } }, false)

/-- A reference time goes from the fabric to the time base, over the bridge (R17, R18): it waits while the bridge retrains and is
lost while it is down. -/
def State.timeAcross (s : State) (ref : Int) : State :=
  if s.bridgeIsDown then s
  else if s.bridgeTrains then s.busWait (.time (ref - s.dtb))
  else s.cross.timeMessage (ref % (2 ^ 96 : Int)).toNat

/-- A SYNC frame (R559, R561). -/
def State.syncFrame (s : State) (p : Fin 4) (f : Frame) (ns : DWord) (frac : Word) (corr : DWord) (mfn : BitVec 48)
    (mft : DWord) (mfp hops : Word) : State :=
  let x := s.frameIn p f
  if !x.2 || p.val ≠ s.parentPort then x.1
  else
    let res := clampNat 9830400 11796480 (Config.residence s.free)
    let down : Frame := { f with hops := f.hops - 1, body := .sync ns frac (corr + BitVec.ofNat 64 res) mfn mft mfp (hops + 1) }
    let s1 := (s.draw).sendKids (fun q => q != p.val) down
    if s.src ≠ 1 then s1
    else
      let dly := s.fld (pgPort p) Reg.STR_P_DELAY 23 0
      let ref : Int := (ns.toNat : Int) * 2 ^ 32 + frac.toNat + corr.toInt * 2 ^ 16 + (dly : Int) * 2 ^ 28
      let ofs : Int := (ref - (s.dtb : Int)) / 2 ^ 28
      let s2 := s1.setReg pgStr Reg.STR_TOFS (BitVec.ofInt 32 ofs)
      let y := s2.syncMfn mfn mft mfp
      if y.2 then y.1 else y.1.timeAcross ref

/-! ## Stop (R564, R565) -/

/-- A new STOP takes effect on this device. DEDUCED (log 53). -/
def State.stopTake (s : State) (f : Frame) : State :=
  if !s.rbit pgStr Reg.STR_CTL 1 then s
  else (((s.stopEffect false).setReg pgStr Reg.STR_STOP_LAST (w32 (f.src % 256 + 65536 * f.seq))).count pgStr Reg.STR_STOP_CNT 15 0).raise pgStr 0

/-- This device originates a fabric stop: flooded now and twice more. DEDUCED (log 53). -/
def State.stopOrigin (s : State) : State :=
  let x := s.newFrame 255 .stop
  let s1 := ((x.1.markSeen x.2).sendAll (fun _ => true) x.2).modFab (fun y => { y with stop := some (x.2.seq, 2, s.time.clk) })
  s1.stopTake x.2

/-- A local STOP_ALL or STOP_N originates a fabric stop where `STOPFWD` = 1. DEDUCED (log 53). -/
def State.stopForward (s : State) : State := if s.rbit pgStr Reg.STR_CTL 0 then s.stopOrigin else s

/-- The originator resends its STOP. -/
def State.stopResend (s : State) : State :=
  match s.fab.stop with
  | none => s
  | some (seq, n, t) =>
    let s1 := s.advance ((t + 16000) * Config.stepsPerClk)
    let f : Frame := ⟨0, 255, s.fabAddr, 32, seq, .stop, true⟩
    ((s1.markSeen f).sendAll (fun _ => true) f).modFab (fun y => { y with stop := if n ≤ 1 then none else some (seq, n - 1, t + 16000) })

/-- A STOP frame. -/
def State.stopFrame (s : State) (p : Fin 4) (f : Frame) : State :=
  let x := s.frameIn p f
  if !x.2 || !s.isNew f then x.1 else ((s.markSeen f).flood p f).stopTake f

/-! ## Cyclic data (R562, R563) -/

/-- A range that lies in a cluster scratchpad or in system SRAM. -/
def cyclicMem (a n : Nat) : Bool :=
  decide (0x1000000 ≤ a ∧ a + n ≤ 0x1800000) || (decide (0x8000000 ≤ a ∧ a < 0x10000000) && decide (a % 0x1000000 + n ≤ 0x80000))

/-- The domain of such a range is ON. -/
def State.cyclicOn (s : State) (a : Nat) : Bool := if a < 0x1800000 then s.domOn (129 + (a - 0x1000000) / 0x100000) else s.domOn (68 + 5 * ((a - 0x8000000) / 0x1000000))

/-- `LEN` of a transmit slot as it acts: the nearer valid value below, at least 4. -/
def txLen (w : Word) : Nat := min 64 (max 4 (bitsOf w 30 24 / 4 * 4))

/-- A transmit slot's instant in this machine frame, if it is to send (R562). -/
def State.txDue (s : State) (k : Fin 16) : Option Nat :=
  let ofs := s.fld pgStr (Reg.STR_TX_OFS k) 23 0
  if s.rbit pgStr (Reg.STR_TX_CFG k) 0 && !s.fab.txDone.getLsbD k && decide (ofs < s.time.mfp) then
    some (s.timeOf ((s.time.mft.toNat + ofs) * 2 ^ 32))
  else none

/-- A transmit slot reads its source and sends a CYCLIC frame (R562). -/
def State.cyclicTx (s : State) (k : Fin 16) : State :=
  match s.txDue k with
  | none => s
  | some t =>
    let s1 := (s.advance t).modFab (fun x => { x with txDone := x.txDone ||| (1#16 <<< k.val) })
    let cfg := s.reg pgStr (Reg.STR_TX_CFG k)
    let a := (s.reg pgStr (Reg.STR_TX_SRC_LO k)).toNat / 4 * 4 + s.fld pgStr (Reg.STR_TX_SRC_HI k) 13 0 * 2 ^ 32
    let n := txLen cfg
    if !cyclicMem a n || !s.cyclicOn a then s1
    else
      let y := s1.eccRead .fabric a n
      if y.2 then y.1
      else
        let x := y.1.newFrame (bitsOf cfg 15 8) (.cyclic (bitsOf cfg 23 16) s.time.mfn (s1.bytesAt a n))
        if s.fabAddr = 0 then y.1
        else if bitsOf cfg 15 8 = 255 then x.1.sendAll (fun q => s.isChild q) x.2
        else x.1.sendRoute x.2

/-- A cyclic read that is not complete in time sends nothing (R562). -/
def State.txLate (s : State) (k : Fin 16) : State :=
  match s.txDue k with
  | none => s
  | some t => ((s.advance (t + nsSteps 200)).modFab (fun x => { x with txDone := x.txDone ||| (1#16 <<< k.val) })).raise pgStr 5

/-- The receive slots take a CYCLIC frame: payload, then the record (R563). -/
def State.cyclicRx (s : State) (f : Frame) (ch : Nat) (mfn : BitVec 48) (data : List Byte) : State :=
  (List.finRange 16).foldl (fun s (r : Fin 16) =>
    let cfg := s.reg pgStr (Reg.STR_RX_CFG r)
    if bitOf cfg 0 && bitsOf cfg 15 8 == f.src && bitsOf cfg 23 16 == ch then
      let a := (s.reg pgStr (Reg.STR_RX_DST_LO r)).toNat / 16 * 16 + s.fld pgStr (Reg.STR_RX_DST_HI r) 13 0 * 2 ^ 32
      let s0 := s.modFab (fun x => { x with rxHit := x.rxHit ||| (1#16 <<< r.val) })
      if cyclicMem a 80 && s.cyclicOn a then
        ((s0.eccWrite .fabric a data).1.eccWrite .fabric (a + 64)
          (leBytes 6 mfn.toNat ++ [0, 0] ++ leBytes 4 s.time.ns.toNat ++ leBytes 2 f.seq ++ [0, 0])).1
      else s0
    else s) s

/-- A CYCLIC frame (R554, R562, R563). -/
def State.cyclicFrame (s : State) (p : Fin 4) (f : Frame) (ch : Nat) (mfn : BitVec 48) (data : List Byte) : State :=
  let x := s.frameIn p f
  if !x.2 then x.1
  else if f.dst = 255 then (s.forwardTree p f).cyclicRx f ch mfn data
  else if f.dst = s.fabAddr then s.cyclicRx f ch mfn data
  else s.forward f

/-- A machine frame ends: slots without a frame have missed (R563). -/
def State.cyclicBoundary (s : State) : State :=
  let s1 := (List.finRange 16).foldl (fun s (r : Fin 16) =>
    if s.rbit pgStr (Reg.STR_RX_CFG r) 0 && !s.fab.rxHit.getLsbD r then (s.count pgStr (Reg.STR_RX_STAT r) 15 0).raise pgStr 4 else s) s
  s1.modFab (fun x => { x with rxHit := 0, txDone := 0 })

/-! ## Remote windows (R569, R570) -/

/-- A DPA range lies in a committed HDM range (R496, R497). -/
def State.inHdm (s : State) (a n : Nat) : Bool :=
  s.cxl.hdm.toList.any (fun h => match h.dpa with
    | some d => decide (a < 0x1000000000 + d + h.size ∧ 0x1000000000 + d < a + n)
    | none => false)

/-- The base of the exported region. -/
def State.expBase (s : State) : Nat := s.fld pgStr Reg.STR_EXP_LO 31 20 * 2 ^ 20 + s.fld pgStr Reg.STR_EXP_HI 13 0 * 2 ^ 32

/-- A 1 MB region that may be exported: system SRAM, or DRAM outside every committed HDM range. -/
def State.expOk (s : State) (b : Nat) : Bool :=
  decide (0x1000000 ≤ b ∧ b + 0x100000 ≤ 0x1800000) || (decide (0x1000000000 ≤ b ∧ b + 0x100000 ≤ 0x3000000000) && !s.inHdm b 0x100000)

/-- A write of `STR_EXP` (R570). -/
def State.expWrite (s : State) (off : Nat) (v mask : Word) : State :=
  let s1 := s.busReg pgStr off v mask
  if s1.rbit pgStr Reg.STR_EXP_LO 0 && !s1.expOk s1.expBase then s.raise pgStr 6 else s1

/-- Whether the memory behind an address of SRAM or DRAM answers. -/
def State.expOn (s : State) (a : Nat) : Bool :=
  if a < 0x1800000 then s.domOn (129 + (a - 0x1000000) / 0x100000)
  else if s.domOn 125 && s.domOn 126 then true
  else if !s.domOn 125 && !s.domOn 126 then false
  else s.domOn (if Config.dramCh (a / 64) then 126 else 125)

/-- A READ or WRITE is carried out in the exported region. -/
def State.expRead (s : State) (off n : Nat) : State × Option (List Byte) :=
  let a := s.expBase + off % 0x100000
  if !s.rbit pgStr Reg.STR_EXP_LO 0 || !s.expOn a then (s, none)
  else
    let y := s.eccRead .fabric a n
    (y.1, if y.2 then none else some (s.bytesAt a n))

/-- See `State.expRead`. -/
def State.expStore (s : State) (off : Nat) (bs : List Byte) : State × Bool :=
  let a := s.expBase + off % 0x100000
  if !s.rbit pgStr Reg.STR_EXP_LO 0 || !s.expOn a then (s, false) else ((s.eccWrite .fabric a bs).1, true)

/-- A WRITE frame: carried out and acknowledged, or forwarded (R570). -/
def State.writeFrame (s : State) (p : Fin 4) (f : Frame) (off : Nat) (bs : List Byte) : State :=
  let x := s.frameIn p f
  if !x.2 then x.1
  else if f.dst ≠ s.fabAddr then s.forward f
  else
    let y := s.expStore off bs
    let z := y.1.newFrame f.src (.resp y.2 [])
    z.1.sendRoute { z.2 with seq := f.seq }

/-- A READ frame. -/
def State.readFrame (s : State) (p : Fin 4) (f : Frame) (off n : Nat) : State :=
  let x := s.frameIn p f
  if !x.2 then x.1
  else if f.dst ≠ s.fabAddr then s.forward f
  else
    let y := s.expRead off n
    let z := y.1.newFrame f.src (.resp y.2.isSome (y.2.getD []))
    z.1.sendRoute { z.2 with seq := f.seq }

/-- A RESP frame completes the request whose `SEQ` it carries (R569). -/
def State.respFrame (s : State) (p : Fin 4) (f : Frame) (ok : Bool) (data : List Byte) : State :=
  let x := s.frameIn p f
  if !x.2 then x.1
  else if f.dst ≠ s.fabAddr then s.forward f
  else s.modFab (fun y => { y with tc2 := y.tc2.filterMap (fun r =>
    if r.seq = f.seq ∧ r.dst = f.src ∧ r.ans = none then
      (if r.data.isSome then none else some { r with ans := some (if ok then some data else none) })
    else some r) })

/-- A request's frame. -/
def Tc2.frame (r : Tc2) (src : Nat) : Frame :=
  ⟨2, r.dst, src, 32, r.seq, (match r.data with | some bs => .write r.off bs | none => .read r.off r.size), true⟩

/-- A remote access starts: a TC2 frame leaves and the request is remembered. -/
def State.tc2Start (s : State) (by_ : Initiator) (addr d off n : Nat) (data : Option (List Byte)) : State :=
  let body : FrameBody := match data with | some bs => .write off bs | none => .read off n
  let x := s.newFrame d body
  (x.1.sendRoute x.2).modFab (fun y => { y with tc2 := y.tc2 ++ [⟨by_, addr, d, x.2.seq, off, n, data, 1, s.time.clk, none⟩] })

/-- A request without RESP in 50 µs is sent again; after four attempts a read fails and a write is lost (R569). -/
def State.tc2Retry (s : State) (i : Nat) : State :=
  match s.fab.tc2[i]? with
  | none => s
  | some r =>
    if r.ans.isSome then s
    else
      let s1 := s.advance ((r.clk + 80000) * Config.stepsPerClk)
      if r.tries < 4 then
        (s1.modFab (fun y => { y with tc2 := y.tc2.set i { r with tries := r.tries + 1, clk := s1.time.clk } })).sendRoute (r.frame s.fabAddr)
      else if r.data.isSome then (s1.modFab (fun y => { y with tc2 := y.tc2.eraseIdx i })).count pgStr Reg.STR_WLOST_CNT 15 0
      else s1.modFab (fun y => { y with tc2 := y.tc2.set i { r with ans := some none } })

/-- A fabric address has a valid route or is this device. -/
def State.remoteOk (s : State) (d : Nat) : Bool :=
  decide (1 ≤ d ∧ d ≤ 250) && (d == s.fabAddr || s.rbit pgStr (Reg.STR_RT d) 8)

/-! ## Discovery (R555, R556) -/

/-- The device's own serial. -/
def State.serial (s : State) : BitVec 128 :=
  BitVec.ofNat 128 ((List.range 4).foldl (fun a w => a + (s.reg pgSec (Reg.SEC_SERIAL w)).toNat * 2 ^ (32 * w)) 0)

/-- Ports that are up. -/
def State.upPorts (s : State) : BitVec 4 := BitVec.ofNat 4 ((List.range 4).foldl (fun a p => a + 2 ^ p * b2n (s.portUp p)) 0)

/-- A DISC probe is answered, or passed on to the device that is to probe (R555). -/
def State.discFrame (s : State) (p : Fin 4) (f : Frame) (port : Nat) : State :=
  let x := s.frameIn p f
  if !x.2 then x.1
  else if f.dst ≠ 0 ∧ f.dst ≠ 255 ∧ f.dst ≠ s.fabAddr then s.forward f
  else
    let y := s.newFrame f.src (.discr s.serial p s.upPorts s.carRun s.fab.strap s.fabAddr)
    if f.dst = s.fabAddr ∧ f.dst ≠ 0 ∧ port < 4 then
      let z := s.newFrame 0 (.disc port)
      z.1.sendOn port z.2
    else y.1.sendOn p y.2

/-- Clear every route (R556). -/
def State.clearRoutes (s : State) : State :=
  (List.range 256).foldl (fun s d => if s.reg pgStr (Reg.STR_RT d) = 0xFF then s else s.setReg pgStr (Reg.STR_RT d) 0xFF) s

/-- The port of device `d` that leads to its discovery parent. -/
def parentPortOf (ls : List FabLink) (d : FabDev) : Nat :=
  (((linksOf ls d.addr).find? (fun x => x.2.1 == d.parent && x.2.2 == d.pport)).map (fun x => x.1)).getD 15

/-- The devices on the way from the root to device `a` along the tree, without the root. -/
def devPath (ds : List FabDev) : Nat → Nat → List FabDev
  | 0, _ => []
  | k + 1, a =>
    if a = 1 then []
    else match ds.find? (fun e => e.addr == a) with
      | some e => devPath ds k e.parent ++ [e]
      | none => []

/-- A new device `n` becomes reachable: the root and each device on its path learn the way to it, and it learns its address and
the way to the root. DESIGN CHOICE (log 71). -/
def State.discReach (s : State) (n : Nat) : State :=
  let ls := s.fab.links
  let entry (a d : Nat) : List (Nat × Nat × Nat × Nat) := match routeEntry ls a d with | some r => [(d, r.1, r.2.1, r.2.2)] | none => []
  let s1 := match routeEntry ls 1 n with
    | some (p, q, k) => s.setReg pgStr (Reg.STR_RT n) (w32 (p + 16 * q + 256 + 1024 * (k % 64)))
    | none => s
  (devPath s.fab.devs 251 n).foldl (fun s e =>
    let x := s.newFrame e.addr (.topo e.addr e.hops (parentPortOf ls e) 0 [] (if e.addr = n then entry n 1 else entry e.addr n))
    x.1.sendRoute x.2) s1

/-- Discovery ends with a reason (0 it succeeded): the tables go out and `ENUM` is set where it succeeded. -/
def State.discEnd (s : State) (reason : Nat) : State :=
  let n := s.fab.devs.length
  let s1 := (s.setBit pgStr Reg.STR_STAT 10 false).modFab (fun x => { x with disc := none, result := some (reason, n) })
  if reason = 0 then
    let s2 := (s1.reroute.setBit pgStr Reg.STR_STAT 9 true).raise pgStr 1
    let kid (a q : Nat) : Bool := s.fab.devs.any (fun d => d.parent == a && d.pport == q && d.addr != a)
    let s3 := (List.range 4).foldl (fun s q =>
      match (linksOf s.fab.links 1).find? (fun x => x.1 == q) with
      | some (_, b, pb) => (((s.setFld (pgPort q) Reg.STR_P_STAT 15 8 b).setFld (pgPort q) Reg.STR_P_STAT 17 16 pb).setBit (pgPort q) Reg.STR_P_STAT 4 (kid 1 q))
      | none => s) s2
    s.fab.devs.foldl (fun s d =>
      if d.addr = 1 then s
      else
        let kids := BitVec.ofNat 4 ((List.range 4).foldl (fun a q => a + 2 ^ q * b2n (kid d.addr q)) 0)
        let routes := s.fab.devs.filterMap (fun e => (routeEntry s.fab.links d.addr e.addr).map (fun r => (e.addr, r.1, r.2.1, r.2.2)))
        let x := s.newFrame d.addr (.topo d.addr d.hops (parentPortOf s.fab.links d) kids s.fab.links routes)
        x.1.sendRoute x.2) s3
  else s1.raise pgStr 2

/-- The next probe of a discovery leaves, or the discovery ends. -/
def State.discNext (s : State) : State :=
  match s.fab.disc with
  | none => s
  | some d =>
    match d.todo with
    | [] => s.discEnd d.fail
    | (a, q) :: t =>
      let s1 := s.modFab (fun x => { x with disc := some { d with todo := t, probe := some (a, q, s.time.clk) } })
      if a = 1 then let x := s1.newFrame 0 (.disc q); x.1.sendOn q x.2
      else let x := s1.newFrame a (.disc q); x.1.sendRoute x.2

/-- The other devices that this one knows to be addressed, those nearest to the root first. -/
def State.addressed (s : State) : List Nat :=
  let l := if s.fab.devs.isEmpty then (s.fab.links.flatMap (fun l => [l.a, l.b])).eraseDups else s.fab.devs.map (fun d => d.addr)
  l.filter (fun a => a != s.fabAddr && a != 0)

/-- Discovery begins to assign addresses: every address and route is cleared, the farthest devices first, and the root takes
address 1 (R556). DESIGN CHOICE (log 71). -/
def State.discClear (s0 : State) : State :=
  let s := s0.addressed.reverse.foldl (fun s a => let x := s.newFrame a (.topo 0 0 15 0 [] []); x.1.sendRoute x.2) s0
  let s2 := s.clearRoutes.setReg pgStr Reg.STR_STAT (w32 (1 + 256 + 1024 + 0xF000))
  let ports := [0, 1, 2, 3].filter (fun p => s.portUp p)
  s2.modFab (fun x => { x with devs := [⟨1, 0, 0, 15, s.serial⟩], links := [], disc := some ⟨ports.map (fun p => (1, p)), none, 2, 0⟩ })

/-- ENUMERATE, or a ROOT strap (R555, R556): refused with a reason, else the addressed devices are asked for `CARRUN` first. -/
def State.enumerate (s : State) (asRoot : Bool) : State :=
  let fail (r : Nat) : State := (s.modFab (fun x => { x with result := some (r, 0) })).raise pgStr 2
  if !(s.fab.strap || asRoot) || s.upPorts = 0 then fail 1
  else if s.src = 1 then fail 6
  else if s.carRun then fail 7
  else
    let ask := s.addressed.map (fun a => (a, 9))
    let s1 := s.setBit pgStr Reg.STR_STAT 10 true
    if ask.isEmpty then s1.discClear.discNext
    else (s1.modFab (fun x => { x with disc := some ⟨ask, none, 0, 0⟩, result := none })).discNext

/-- A DISCR reply reaches the root, which a device that probed for it passes on (R555, R556). DESIGN CHOICE (log 71). -/
def State.discrFrame (s : State) (p : Fin 4) (f : Frame) (serial : BitVec 128) (port : Nat) (ups : BitVec 4) (carrun strap : Bool)
    (addr : Nat) : State :=
  let x := s.frameIn p f
  if !x.2 then x.1
  else if f.dst ≠ s.fabAddr ∧ f.dst ≠ 0 then s.forward f
  else match s.fab.disc with
    | none => if s.fabAddr = 0 || s.isRoot then s else s.forward { f with dst := 1 }
    | some d =>
      match d.probe with
      | none => s
      | some (a, q, _) =>
        if q = 9 then
          if carrun then s.discEnd 7
          else if d.todo.isEmpty then s.discClear.discNext
          else (s.modFab (fun x => { x with disc := some { d with probe := none } })).discNext
        else if strap && serial != s.serial then s.discEnd 4
        else
          let hops := ((s.fab.devs.find? (fun e => e.addr == a)).map (fun e => e.hops)).getD 0 + 1
          let old := if addr ≠ 0 then addr
            else ((s.fab.devs.find? (fun e => e.serial == serial && e.addr != 1)).map (fun e => e.addr)).getD 0
          if old ≠ 0 then
            let l : FabLink := ⟨a, q, old, port⟩
            let known := s.fab.links.contains l || s.fab.links.contains ⟨old, port, a, q⟩
            (s.modFab (fun x => { x with links := if known then x.links else x.links ++ [l], disc := some { d with probe := none } })).discNext
          else if 250 < d.next then (s.modFab (fun x => { x with disc := some { d with probe := none, fail := 2 } })).discNext
          else if 32 < hops then (s.modFab (fun x => { x with disc := some { d with probe := none, fail := 8 } })).discNext
          else
            let n := d.next
            let more := ((List.range 4).filter (fun r => ups.getLsbD r)).map (fun r => (n, r))
            (s.modFab (fun x => { x with
              devs := x.devs ++ [⟨n, hops, a, q, serial⟩], links := x.links ++ [⟨a, q, n, port⟩]
              disc := some { d with probe := none, next := n + 1, todo := d.todo ++ more } })).discReach n |>.discNext

/-- A probe without answer in 20 µs (R555, R556). -/
def State.discTimeout (s : State) : State :=
  match s.fab.disc with
  | none => s
  | some d =>
    match d.probe with
    | none => s
    | some (_, q, t) =>
      let s1 := s.advance ((t + 32000) * Config.stepsPerClk)
      if q = 9 ∧ d.todo.isEmpty then s1.discClear.discNext
      else (s1.modFab (fun x => { x with disc := some { d with probe := none, fail := if q = 9 then d.fail else 3 } })).discNext

/-- The routing entries that a TOPO frame delivers, but for pinned ones (R557). -/
def State.putRoutes (s : State) (routes : List (Nat × Nat × Nat × Nat)) : State :=
  routes.foldl (fun s r =>
    if s.rbit pgStr (Reg.STR_RT r.1) 16 || decide (255 < r.1) then s
    else s.setReg pgStr (Reg.STR_RT r.1) (w32 (r.2.1 % 16 + 16 * (r.2.2.1 % 16) + 256 + 1024 * (r.2.2.2 % 64)))) s

/-- A TOPO frame delivers this device's address, tree and routes, and ends the enumeration for it (R555). One without links comes
while discovery runs and gives the address and the ways found so far; one with address 0 clears both (R556). A broadcast gives the
topology alone. DESIGN CHOICE (log 71). -/
def State.topoFrame (s : State) (p : Fin 4) (f : Frame) (addr hops pport : Nat) (kids : BitVec 4) (links : List FabLink)
    (routes : List (Nat × Nat × Nat × Nat)) : State :=
  let x := s.frameIn p f
  if !x.2 then x.1
  else if f.dst = 255 then ((s.forwardTree p f).modFab (fun y => { y with links := links })).reroute
  else if s.fabAddr ≠ 0 ∧ f.dst ≠ s.fabAddr then s.forward f
  else if addr = 0 then
    (s.clearRoutes.setReg pgStr Reg.STR_STAT 0xF000).modFab (fun y => { y with devs := [], links := [] })
  else
    let s1 := s.setReg pgStr Reg.STR_STAT (w32 (addr % 256 + 512 * b2n (!links.isEmpty) + 4096 * (pport % 16) + 65536 * (hops % 64)))
    let s2 := s1.putRoutes routes
    if links.isEmpty then s2
    else
      let s3 := (List.range 4).foldl (fun s q =>
        match (linksOf links addr).find? (fun x => x.1 == q) with
        | some (_, b, pb) =>
          (((s.setFld (pgPort q) Reg.STR_P_STAT 15 8 b).setFld (pgPort q) Reg.STR_P_STAT 17 16 pb).setBit (pgPort q) Reg.STR_P_STAT 4 (kids.getLsbD q)).setBit
            (pgPort q) Reg.STR_P_STAT 3 (q == pport)
        | none => s) s2
      (s3.modFab (fun y => { y with links := links })).raise pgStr 1

/-- SET_ROUTE writes and pins an entry; false where the destination or a port is not known (R556 reason 5, R557). -/
def State.setRoute (s : State) (d port alt : Nat) : State × Bool :=
  let known := (linksOf s.fab.links d).length ≠ 0
  match hopsVia s.fab.links s.fabAddr port d with
  | some k =>
    if known && (alt == 15 || (hopsVia s.fab.links s.fabAddr alt d).isSome) then
      (s.setReg pgStr (Reg.STR_RT d) (w32 (port + 16 * alt + 256 + 1024 * (k % 64) + 65536)), true)
    else (s, false)
  | none => (s, false)

/-- Block effects of a write to the common `STR` page. -/
def State.strWrite (s : State) (off : Nat) (v mask : Word) : State :=
  if off = Reg.STR_STOP_CMD then (if v &&& mask &&& 0x1FF = 0x1C3 then s.stopOrigin else s)
  else if off = Reg.STR_EXP_LO ∨ off = Reg.STR_EXP_HI then s.expWrite off v mask
  else
    let s1 := s.busReg pgStr off v mask
    if off = Reg.STR_CTL then s1.setFld pgStr off 13 8 (min 50 (s1.fld pgStr off 13 8)) else s1

/-- A read of the common `STR` page. -/
def State.strRead (s : State) (off : Nat) : Word :=
  if off = Reg.STR_STAT then putBits (s.busRead pgStr off) 11 11 (b2n s.fab.strap) else s.busRead pgStr off

end Sys2Proof.Machine
end

