-- ==== Sys2Proof/Machine/Cxl.lean ====
section
/-! DEFINITION. The CXL port (20_cxl_attachment.md, R487 to R510): link, HDM decoders, host accesses to DRAM, MSI-X, the
mailbox, viral, and the urgent stop. -/

namespace Sys2Proof.Machine

/-- Change the CXL port. -/
def State.modCxl (s : State) (f : Cxl → Cxl) : State := { s with cxl := f s.cxl }

/-- The link is in CXL mode (R489, R490). -/
def State.cxlMode (s : State) : Bool := s.linkUp && s.rbit pgCxl Reg.CXL_STAT 1

/-- A configuration read of function 0 (R488, R506): the vendor ID joins the identity registers and the vendor DVSEC. -/
def State.cfgRead (s : State) (off : Nat) : Word :=
  let v := s.busRead pgDvsec off
  if off = Reg.CFG_ID ∨ off = 0x004 then v ||| Config.vendorId.setWidth 32 else v

/-! ## MSI-X (R502) -/

/-- A vector is masked, individually or by the function mask. PRESUMED (log 15). -/
def State.msixMasked (s : State) (v : Nat) : Bool := s.cxl.fnMask || s.rbit pgMsix (16 * v + 12) 0

/-- Send a vector, or set its pending bit. PRESUMED (log 15). -/
def State.msixSend (s : State) (v : Nat) : State :=
  if s.msixMasked v then s.modCxl (fun x => { x with pend := x.pend ||| (1#64 <<< v) }) else { s with msixOut := v :: s.msixOut }

/-- Pending vectors that are no longer masked are sent. -/
def State.msixFlush (s : State) : State :=
  (List.range 64).foldl (fun s v =>
    if s.cxl.pend.getLsbD v && !s.msixMasked v then
      { s.modCxl (fun x => { x with pend := x.pend &&& ~~~ (1#64 <<< v) }) with msixOut := v :: s.msixOut }
    else s) s

/-- The host unmasks a vector, or the function. PRESUMED (log 15). -/
def State.msixUnmask (s : State) (v : Option (Fin 64)) : State :=
  (match v with
    | some k => s.setBit pgMsix (16 * k.val + 12) 0 false
    | none => s.modCxl (fun x => { x with fnMask := false })).msixFlush

/-! ## The urgent stop (R506 to R509) -/

/-- STOP_ALL: the stop, its record, `URGENT`; forwarded to the fabric where `STOPFWD` = 1. DEDUCED (log 52). -/
def State.stopAll (s : State) : State :=
  let p := pgDvsec
  let s1 := (s.setFld p Reg.URG_STAT 2 0 1).stopEffect true
  let s2 := (s1.setReg p Reg.URG_LAST_LO (w32 s.time.ns.toNat)).setReg p Reg.URG_LAST_HI (w32 (s.time.ns.toNat / 2 ^ 32))
  ((s2.count p Reg.URG_CNT 15 0).raise pgCxl 3).stopForward

/-- RELEASE: `PWG_SAFE_CAUSE.STOP` of every cluster clears, unless STOP_N is low (R101); it crosses the bridge as a write of the register
does, which waits for a retraining (R19) and is lost while the bridge is down (R20). DEDUCED (log 52). -/
def State.urgRelease (s : State) : State :=
  if s.stopLow || s.bridgeIsDown then s
  else if s.bridgeTrains then
    (List.finRange 8).foldl (fun s (c : Fin 8) => s.busWait (.write .host false (pgPwg0 c) Reg.PWG_SAFE_CAUSE 1 1)) s
  else (List.finRange 8).foldl (fun s c => s.setBit (pgPwg0 c) Reg.PWG_SAFE_CAUSE 0 false) s.cross

/-- A write of `URG_CMD` (R507). -/
def State.urgWrite (s : State) (v : Word) : State :=
  if bitsOf v 15 8 = 0xC3 ∧ bitsOf v 7 0 = 1 then s.stopAll
  else if bitsOf v 15 8 = 0xC3 ∧ bitsOf v 7 0 = 2 then s.urgRelease
  else s.stick pgDvsec Reg.URG_STAT 3

/-- Every channel has ended after a stop: `DONE`, vector 2. -/
def State.urgDone (s : State) : State :=
  if s.rbit pgDvsec Reg.URG_STAT 0 && s.dmaIdle then
    ((s.setBit pgDvsec Reg.URG_STAT 0 false).setBit pgDvsec Reg.URG_STAT 1 true).msixSend 2
  else s

/-! ## Link and viral (R489 to R491, R499, R503 to R505) -/

/-- Where host memory is not cached, the L2 holds no line of it (R490, R499). -/
def State.hostUncached (s : State) : State :=
  if s.hostCached then s else { s with l2ecc := s.l2ecc.filter (fun e => !isHostMem e.1) }

/-- The link trains at a speed (1 to 5) and width. -/
def State.cxlUp (s : State) (speed width : Nat) : State :=
  if s.linkUp || !s.domOn 127 || !s.domOn 128 then s
  else
    let v := s.reg pgCxl Reg.CXL_STAT
    let v1 := putBits (putBits (putBits v 1 0 (1 + 2 * b2n (decide (3 ≤ speed)))) 4 2 speed) 8 5 width
    (s.setReg pgCxl Reg.CXL_STAT v1).raise pgCxl 0

/-- The link goes down (R491). -/
def State.cxlDown (s : State) : State :=
  if !s.linkUp then s
  else
    let s1 := s.setFld pgCxl Reg.CXL_STAT 8 0 0
    (((s1.count pgCxl Reg.CXL_LINKDN_CNT 15 0).raise pgCxl 1).modCxl (fun x => { x with downAt := s.time.clk, ldDone := false })).hostUncached

/-- A link that has stayed down for `LDTMO` sets off a stop where `LDACT` = 1 (R491). DEDUCED (log 52). -/
def State.cxlDownLong (s : State) : State :=
  if s.linkUp || !s.rbit pgCxl Reg.CXL_CTL 1 || s.cxl.ldDone then s
  else
    let t := s.cxl.downAt + msClks (max 1 (s.fld pgCxl Reg.CXL_CTL 15 8))
    ((s.advance (t * Config.stepsPerClk)).modCxl (fun x => { x with ldDone := true })).stopAll

/-- Received viral (R504). DEDUCED (log 52). -/
def State.viralIn (s : State) : State := (((s.setBit pgCxl Reg.CXL_STAT 11 true).raise pgCxl 2).stopAll).msixSend 2

/-- The host writes Cache_Enable, or PTM Enable (R499, R503). -/
def State.cacheEnable (s : State) (b : Bool) : State := (s.setBit pgCxl Reg.CXL_STAT 9 b).hostUncached
/-- See `State.cacheEnable`. -/
def State.ptmEnableSet (s : State) (b : Bool) : State := s.setBit pgCxl Reg.CXL_STAT 12 b

/-! ## DRAM as host memory (R495 to R499) -/

/-- Commit decoder `d` (R496): it fails with Error Not Committed in the listed cases. DEDUCED (log 52). -/
def State.hdmCommit (s : State) (d : Fin 2) (base size skip ways : Nat) : State :=
  let unit := 0x10000000
  let lo := s.fld pgCxl Reg.CXL_HDM_AVAIL 9 0 * unit
  let hi := (s.fld pgCxl Reg.CXL_HDM_AVAIL 25 16 + 1) * unit
  let h0 := s.cxl.hdm[(0 : Fin 2)]
  let dpa := if d.val = 0 then lo else (match h0.dpa with | some x => x + h0.size | none => lo) + skip
  let other := s.cxl.hdm[(⟨1 - d.val, by omega⟩ : Fin 2)]
  let clash := match other.dpa with | some x => decide (x < dpa + size ∧ dpa < x + other.size) | none => false
  let bad := size % unit != 0 || !s.rbit pgCxl Reg.CXL_HDM_AVAIL 31 || decide (dpa < lo) || decide (hi < dpa + size) || clash || ways != 1 || !s.cxlMode
  if bad then s.modCxl (fun x => { x with hdm := x.hdm.set d ⟨base, size, skip, ways, none, true⟩ })
  else (s.modCxl (fun x => { x with hdm := x.hdm.set d ⟨base, size, skip, ways, some dpa, false⟩ })).raise pgCxl 5

/-- Uncommit decoder `d`. -/
def State.hdmUncommit (s : State) (d : Fin 2) : State :=
  if (s.cxl.hdm[d]).dpa = none then s
  else (s.modCxl (fun x => { x with hdm := x.hdm.set d { x.hdm[d] with dpa := none, err := false } })).raise pgCxl 5

/-- The system physical address of a host physical address of a committed range, in CXL mode. -/
def State.hdmAddr (s : State) (h n : Nat) : Option Nat :=
  if !s.cxlMode then none
  else (s.cxl.hdm.toList.filterMap (fun d => match d.dpa with
    | some x => if d.base ≤ h ∧ h + n ≤ d.base + d.size then some (0x1000000000 + x + (h - d.base)) else none
    | none => none)).head?

/-- Add a record to an event log; a full log sets its overflow flag and drops it (R500). Vector 1 is sent. -/
def State.logEvent (s : State) (log : Fin 4) (kind addr : Nat) : State :=
  let l := s.cxl.logs[log]
  if 32 ≤ l.recs.length then s.modCxl (fun x => { x with logs := x.logs.set log { l with ovf := true } })
  else
    (s.modCxl (fun x => { x with logs := x.logs.set log { l with recs := l.recs ++ [⟨x.handle, kind, addr, s.time.ns⟩] }
                                 handle := x.handle % 65535 + 1 })).msixSend 1

/-- A CXL.mem read of `n` bytes (R498). -/
def State.cxlRead (s : State) (h n : Nat) : State :=
  match s.hdmAddr h n with
  | none => { s with resp := .abort }
  | some a =>
    if !s.expOn a then { s with resp := .abort }
    else
      let y := s.eccRead .host a n
      if y.2 then { y.1.logEvent 2 1 (a - 0x1000000000) with resp := .poison } else { y.1 with resp := .bytes (s.bytesAt a n) }

/-- A CXL.mem write (R498). -/
def State.cxlWrite (s : State) (h : Nat) (bs : List Byte) : State :=
  match s.hdmAddr h bs.length with
  | none => { s with resp := .abort }
  | some a => if !s.expOn a then { s with resp := .abort } else { (s.eccWrite .host a bs).1 with resp := .none }

/-- A host snoop of host memory: the L2 answers with the line where it may hold it; the host may then write its own memory (R499).
DEDUCED (log 52). -/
def State.hostSnoop (s : State) (h : Nat) (bs : List Byte) : State :=
  let a := hostBase + h / 64 * 64
  if !isHostMem (a + 63) then { s with resp := .abort }
  else { s.setBytes a (bs.take 64) with resp := if s.hostCached then .bytes (s.bytesAt a 64) else .none }

/-! ## The mailbox (R500, R501) -/

/-- The host rings the doorbell and a command is served: by the firmware, or of a failed boot's ROM where `rom`. True where
it is served. -/
def State.mboxServed (s : State) (rom : Bool) : Bool := s.fwUp || (rom && s.bootFailed)

/-- The mailbox completes: return code, payload; vector 0. Codes: 0 Success, 2 Invalid Input, 3 Unsupported, 4 Internal
Error, 14 Invalid Handle. PRESUMED (log 51). -/
def State.mboxEnd (s : State) (code : Nat) (out : List Byte) (recs : List EvRec) : State :=
  ((s.modCxl (fun x => { x with code := code, out := out, recs := recs })).raise pgCxl 6).msixSend 0

/-- A command that nothing serves: the doorbell rings; a failed boot's ROM completes it with Unsupported. DEDUCED (log 52). -/
def State.mboxUnserved (s : State) : State := if s.bootFailed then s.mboxEnd 3 [] [] else s.raise pgCxl 6

/-- Get Event Records: as many as the payload holds, flag 0 for an overflow and flag 1 for more. PRESUMED (log 51). -/
def State.mboxGetEvents (s : State) (log : Fin 4) : State :=
  if !s.mboxServed false then s.mboxUnserved else s.mboxEnd 0 [BitVec.ofNat 8 (b2n (s.cxl.logs[log]).ovf + 2 * b2n (decide (31 < (s.cxl.logs[log]).recs.length)))] ((s.cxl.logs[log]).recs.take 31)

/-- Clear Event Records: all, or named handles, which must be the oldest in order. -/
def State.mboxClearEvents (s : State) (log : Fin 4) (all : Bool) (handles : List Nat) : State :=
  let l := s.cxl.logs[log]
  if !s.mboxServed false then s.mboxUnserved
  else if all then (s.modCxl (fun x => { x with logs := x.logs.set log ⟨[], false⟩ })).mboxEnd 0 [] []
  else if (l.recs.map (fun r => r.handle)).take handles.length = handles then
    (s.modCxl (fun x => { x with logs := x.logs.set log ⟨l.recs.drop handles.length, false⟩ })).mboxEnd 0 [] []
  else s.mboxEnd 14 [] []

/-- The slot that runs: 1 the primary region, 2 the alternate, 0 after a failed boot. -/
def State.runSlot (s : State) : Nat := if s.bootFailed then 0 else if s.rbit pgRst Reg.RST_BOOT 4 then 2 else 1

/-- Get FW Info: two slots, the active one, no online activation. -/
def State.mboxFwInfo (s : State) : State :=
  if !s.mboxServed false then s.mboxUnserved else s.mboxEnd 0 [2, BitVec.ofNat 8 s.runSlot, 0] []

/-- Transfer FW: part of an image at an offset, `first` beginning the transfer; `bad` is the word that flash fails on.
PRESUMED (log 51). -/
def State.mboxTransfer (s : State) (slot ofs : Nat) (first : Bool) (bs : List Byte) (bad : Option Nat) : State :=
  if !s.mboxServed true then s.mboxUnserved
  else if (slot ≠ 1 ∧ slot ≠ 2) ∨ slot = s.runSlot ∨ bs.length % 128 ≠ 0 ∨ ofs % 128 ≠ 0 ∨ imgSize (slot == 2) < ofs + bs.length then s.mboxEnd 2 [] []
  else
    let o := imgBase (slot == 2)
    let e := if first then s.flsEraseRange 0 o (imgSize (slot == 2)) else (s, none)
    let x := if e.2.isSome then e else e.1.flsPut 0 (o + ofs) bs bad
    let y := x.1.modCxl (fun c => { c with xfer := some (slot, ofs + bs.length) })
    if x.2.isSome then y.mboxEnd 4 [] [] else y.mboxEnd 0 [] []

/-- Program an image region: erase, program, verified (R538). -/
def State.regionPut (s : State) (alt : Bool) (bs : List Byte) (bad : Option Nat) : State × Option (Nat × Nat) :=
  let e := s.flsEraseRange 0 (imgBase alt) (imgSize alt)
  if e.2.isSome then e else e.1.flsPut 0 (imgBase alt) bs bad

/-- A new image takes the primary region; an image that runs from there moves into the alternate region first (R501, R538). -/
def State.placeImage (s : State) (img : List Byte) (bad : Option Nat) : State × Option (Nat × Nat) :=
  if s.runSlot = 1 then
    match s.flsBytes (imgBase false) (imgSize false) with
    | (s1, some old) =>
      let x := s1.regionPut true old none
      if x.2.isSome then x else x.1.regionPut false img bad
    | (s1, none) => (s1, some (6, imgBase false))
  else s.regionPut false img bad

/-- Activate FW (R500, R501): checked under R471, then placed for the next reset. -/
def State.mboxActivate (s : State) (slot : Nat) (online : Bool) (bad : Option Nat) : State :=
  if !s.mboxServed true then s.mboxUnserved
  else if online then s.mboxEnd 3 [] []
  else if (slot ≠ 1 ∧ slot ≠ 2) ∨ slot = s.runSlot then s.mboxEnd 2 [] []
  else match s.imageOk (slot == 2) with
    | (s1, none) => s1.mboxEnd 2 [] []
    | (s1, some img) =>
      if slot = 2 ∧ s.runSlot = 1 then
        let x := s1.placeImage img bad
        x.1.mboxEnd (if x.2.isSome then 4 else 0) [] []
      else s1.mboxEnd 0 [] []

/-- The opcodes of the Command Effects Log (R500). PRESUMED (log 51). -/
def celOpcodes : List Nat := [0x0100, 0x0101, 0x0200, 0x0201, 0x0202, 0x0400, 0x0401]

/-- Get Supported Logs: the Command Effects Log alone, by its size. -/
def State.mboxLogs (s : State) : State :=
  if !s.mboxServed false then s.mboxUnserved else s.mboxEnd 0 (leBytes 2 1 ++ leBytes 4 (4 * celOpcodes.length)) []

/-- Get Log: opcodes with their effects, which the spec does not give (free values). PRESUMED (log 51). -/
def State.mboxLog (s : State) : State :=
  if !s.mboxServed false then s.mboxUnserved
  else s.mboxEnd 0 (celOpcodes.flatMap (fun o => leBytes 2 o ++ leBytes 2 (Config.celEffect o).toNat)) []

/-- A soft reset of the `CXL` page (R11): the link is lost; viral stays until a hot reset or a wider one (R504), and so does what the host has
set in its configuration space. DESIGN CHOICE (log 61). -/
def State.cxlSoftReset (s : State) : State :=
  { (s.clearRegs pgCxl 0x40 0x1000).setReg pgCxl Reg.CXL_STAT (s.reg pgCxl Reg.CXL_STAT &&& 0x1E00) with
    cxl := { Cxl.init with downAt := s.time.clk } }

/-- Block effects of a write to the `CXL` page. -/
def State.cxlPageWrite (s : State) (off : Nat) (v mask : Word) : State :=
  if off = Reg.CXL_MSIX_SEND then (if mask &&& 0x3F = 0 then s else s.msixSend (bitsOf v 5 0))
  else if off = Reg.CXL_VIRAL_CMD then (if bitOf (v &&& mask) 0 then s.viralSignal else s)
  else s.busReg pgCxl off v mask

end Sys2Proof.Machine
end

