-- ==== Sys2Proof/Machine/Queue.lean ====
section
/-! DEFINITION. The command queues' control blocks and doorbells (R511 to R514). -/

namespace Sys2Proof.Machine

/-- The control block of a queue. -/
def pgQc (q : Fin 64) : PageId := ⟨.qcb, q⟩

/-- The command firmware's state changed. -/
def State.modCmd (s : State) (f : CmdUnit → CmdUnit) : State := { s with cmd := f s.cmd }

/-- A queue. -/
def State.queue (s : State) (q : Fin 64) : Queue := s.cmd.queues[q]

/-- Change a queue. -/
def State.modQueue (s : State) (q : Fin 64) (f : Queue → Queue) : State :=
  s.modCmd (fun u => { u with queues := u.queues.set q (f u.queues[q]) })

/-- Ring size: 2^`LOG2N`, 4 to 12 (Table: Queue control block). DEDUCED (log 55). -/
def State.ring (s : State) (q : Fin 64) : Nat := 2 ^ clampNat 4 12 (s.fld (pgQc q) Reg.QC_CTL 7 4)

/-- A queue is enabled, and has stopped on an error. -/
def State.qEn (s : State) (q : Fin 64) : Bool := s.rbit (pgQc q) Reg.QC_CTL 0
/-- See `State.qEn`. DEDUCED (log 55). -/
def State.qErr (s : State) (q : Fin 64) : Bool := s.rbit (pgQc q) Reg.QC_STAT 1

/-- A queue stops with an error code; `QERR` (R513). Commands that run go on, those that have not started are dropped. DEDUCED (log 55). -/
def State.qStop (s : State) (q : Fin 64) (code : Nat) : State :=
  let s1 := if s.qErr q then s else (s.setBit (pgQc q) Reg.QC_STAT 1 true).setFld (pgQc q) Reg.QC_STAT 5 2 code
  ((s1.modQueue q (fun x => { x with cmds := x.cmds.filter (fun c => c.started) })).stick pgCmd (if q.val < 32 then Reg.CMD_QERR_LO else Reg.CMD_QERR_HI) (q.val % 32)).raise pgCmd 0

/-- A write of `QC_CTL` (R512). -/
def State.qcCtl (s : State) (q : Fin 64) (v mask : Word) : State :=
  let p := pgQc q
  let was := s.qEn q
  let s1 := s.busReg p Reg.QC_CTL v (if was then mask &&& ~~~ maskOf 7 4 else mask)
  let now := s1.qEn q
  if now && !was then
    (s1.modQueue q (fun x => { x with tail := 0, head := 0, ctail := 0, phase := true })).setFld p Reg.QC_STAT 27 16 0
  else if was && !now then (s1.setBit p Reg.QC_STAT 1 false).setFld p Reg.QC_STAT 5 2 0
  else s1

/-- Block effects of a write to a queue control block (R512). -/
def State.qcWrite (s : State) (q : Fin 64) (off : Nat) (v mask : Word) : State :=
  if off = Reg.QC_CTL then s.qcCtl q v mask
  else if off = Reg.QC_CNT then s.busReg (pgQc q) off v mask
  else if s.qEn q then s
  else s.busReg (pgQc q) off v mask

/-- A read of a queue control block: `RUN` while enabled or commands still run. -/
def State.qcRead (s : State) (q : Fin 64) (off : Nat) : Word :=
  if off = Reg.QC_STAT then putBits (s.busRead (pgQc q) off) 0 0 (b2n (s.qEn q || !(s.queue q).cmds.isEmpty))
  else s.busRead (pgQc q) off

/-- A write of `DB_SQT`: the submission tail of an enabled queue (R513, R514). DEDUCED (log 55). -/
def State.dbTail (s : State) (q : Fin 64) (v : Nat) : State :=
  if !s.qEn q then s
  else if s.ring q ≤ v then s.qStop q 1
  else s.modQueue q (fun x => { x with tail := v })

/-- A write of `DB_CQH`: completion entries are released (R514). DEDUCED (log 55). -/
def State.dbHead (s : State) (q : Fin 64) (v : Nat) : State :=
  if !s.qEn q then s
  else if s.ring q ≤ v then s.qStop q 1
  else s.modQueue q (fun x => { x with head := v })

/-- Block effects of a write to a doorbell page. -/
def State.dbWrite (s : State) (q : Fin 64) (off : Nat) (v mask : Word) : State :=
  let n := bitsOf (v &&& mask) 11 0
  if off = Reg.DB_SQT then s.dbTail q n
  else if off = Reg.DB_CQH then s.dbHead q n
  else s

/-- A read of `CMD_ACT`: the active slot and the slot of a pending activation (R545). -/
def State.activeSlot (s : State) : Nat :=
  match (List.finRange 16).find? (fun (k : Fin 16) => (s.cmd.lib[k]).state == 4) with
  | some k => k.val
  | none => 0xFF

/-- See `State.activeSlot`. -/
def State.pendingSlot (s : State) : Nat := match s.cmd.staged with | some a => a.slot.val | none => 0xFF

/-- A read of the `CMD` page. -/
def State.cmdPageRead (s : State) (off : Nat) : Word :=
  if off = Reg.CMD_ACT then w32 (s.activeSlot + 256 * s.pendingSlot) else s.busRead pgCmd off

end Sys2Proof.Machine
end

