-- ==== Sys2Proof/Machine/Bus.lean ====
section
/-! DEFINITION. Bus accesses (01_architecture.md, R24 to R29): a write and a read of a register page with its header
(R11 to R14), the system physical address map, and what an access meets on its way. -/

namespace Sys2Proof.Machine

/-! ## Register pages -/

/-- The events of a page: the implemented bits of `PAGE_IRQ_STAT` (the event tables of the block chapters). DEDUCED (log 58). -/
def pageEvents (p : PageId) : Word :=
  match p.kind with
  | .dtb => 0x1FF | .frm => 0x7F | .pwg0 => 0x1FF | .pwg1 => 0x1F | .adc => 0x7F | .sdm => 0x7 | .smp => 0x1FF
  | .cmp => 0x3F | .qdec => 0xF | .cap => 0x3 | .sep => 0x3 | .ce => 0x3 | .ac => 0x7 | .liu => 0x7
  | .ird => if p.inst = 0 then 0x7 else 0
  | .pairC | .pairSys => 0x7F | .sramC => 0x3F | .sramSys => 0xEF | .mmu => 0xF | .cdma | .sdma => 0xFF | .fls => 0xFF
  | .cxl => 0x7F | .cmd => 0x3 | .strCommon => 0x7F | .str => 0x7 | .rst => 0x7
  | .pwr => if p.inst = 0 then 0xF else 0
  | .eg => 0xF | .sec => 0x1F
  | .qcb | .db | .dvsec | .msix => 0

/-- Pages without a `PAGE_CTL` (R327, R467). -/
def noPageCtl (p : PageId) : Bool := (p.kind == .ird || p.kind == .pwr) && p.inst != 0

/-- A soft reset of an MMU page: its registers, and the core's TLB and walk cache. -/
def State.mmuSoftReset (s : State) (a : Fin 8) : State :=
  (s.clearRegs (pgMmu a) 0x40 0x1000).modCore (.ac a) (fun k => { k with tlb := [], walk := [] })

/-- A soft reset of the CMD page: queues, library and a staged activation, whose swaps are disarmed. DESIGN CHOICE (log 61). -/
def State.cmdSoftReset (s : State) : State :=
  let s1 := match s.cmd.staged with
    | some a => (List.finRange 8).foldl (fun (t : State) (x : Fin 8) => if a.mask.getLsbD x then t.modSmp x (fun m => { m with armed := none }) else t) s
    | none => s
  { (List.range 64).foldl (fun (t : State) q => t.clearRegs ⟨.qcb, q⟩ 0 0x1000) (s1.clearRegs pgCmd 0x40 0x1000) with cmd := CmdUnit.init }

/-- A soft reset of a String port's page. -/
def State.strSoftReset (s : State) (i : Nat) : State :=
  let s1 := s.clearRegs ⟨.str, i⟩ 0x40 0x1000
  { s1 with fab := { s1.fab with delay := s1.fab.delay.set (Fin.ofNat 4 i) none } }

/-- A soft reset of the RST page. What the page shows of the boot and of the bridge stays, a watchdog's `EN` clears only by a reset
(R454), and `RST_CAUSE` and `RST_MON` outlast every reset (R451). DESIGN CHOICE (log 61). -/
def State.rstSoftReset (s : State) : State :=
  let keep : List Nat := [Reg.RST_CAUSE, Reg.RST_MON, Reg.RST_BOOT, Reg.RST_BRG_STAT]
  let s1 := keep.foldl (fun t o => t.setReg pgRst o (s.reg pgRst o)) (s.clearRegs pgRst 0x40 0x1000)
  (List.finRange 4).foldl (fun t (w : Fin 4) => (t.setBit pgRst (Reg.WD_CTL w) 0 (s.rbit pgRst (Reg.WD_CTL w) 0)).wdReload w s.time.clk) s1

/-- A soft reset of the PWR page: the states of the domains, and a transition that runs, stay; requests that wait are dropped.
DESIGN CHOICE (log 61). -/
def State.pwrSoftReset (s : State) : State :=
  let s1 := (s.clearRegs pgPwr 0x40 0x1000).setReg pgPwr Reg.PWR_STAT (s.reg pgPwr Reg.PWR_STAT)
  let s2 := (List.range 148).foldl (fun t d => t.setFld pgPwr (Reg.PWR_DOM d) 1 0 (s.domState d)) s1
  { s2 with power := { s2.power with queue := [], waking := [] } }

/-- The soft reset of a page (R11, R13, R591 to R596): the block's state and its registers from 0x040 on; the header's own registers
stay. DESIGN CHOICE (log 61). -/
def State.softReset (s : State) (m : Bool) (p : PageId) : State :=
  match p.kind with
  | .dtb => s.dtbSoftReset
  | .frm => s.frmSoftReset (clu p.inst)
  | .pwg0 => s.pwg0SoftReset (clu p.inst)
  | .pwg1 => s.pwg1SoftReset (clu p.inst)
  | .smp => s.smpSoftReset (clu p.inst)
  | .cmp => s.cmpSoftReset (clu p.inst)
  | .adc => s.adcSoftReset (clu (p.inst / 8)) (clu (p.inst % 8))
  | .sdm => s.sdmSoftReset (clu p.inst)
  | .qdec => s.fbSoftReset p (clu p.inst) (fun f => { f with idxAt := none })
  | .cap => s.fbSoftReset p (clu p.inst) (fun f => { f with cap := [] })
  | .sep => s.fbSoftReset p (clu p.inst) (fun f => { f with xfer := none, recover := none, data := 0 })
  | .liu | .ird => s.irqSoftReset p m
  | .cdma | .sdma => s.dmaSoftReset p
  | .pairC | .pairSys => s.pairSoftReset p
  | .sramC | .sramSys => s.sramSoftReset p
  | .ce => s.coreSoftReset (.ce (eng p.inst))
  | .ac => s.coreSoftReset (.ac (clu p.inst))
  | .fls => s.flsSoftReset
  | .eg => s.egSoftReset
  | .mmu => s.mmuSoftReset (clu p.inst)
  | .cxl => s.cxlSoftReset
  | .cmd => s.cmdSoftReset
  | .str => s.strSoftReset p.inst
  | .strCommon => { s.clearRegs p 0x40 0x1000 with fab := { Fabric.init with strap := s.fab.strap } }
  | .rst => s.rstSoftReset
  | .pwr => s.pwrSoftReset
  | .sec => s.secClear false
  | .qcb | .db | .dvsec | .msix => s

/-- A write of `PAGE_CTL.SRST` = 1: ignored while the page is locked (R13). -/
def State.srst (s : State) (m : Bool) (p : PageId) : State :=
  if s.rbit p Reg.PAGE_LOCK 0 then s.stick p Reg.PAGE_STAT 1 else s.softReset m p

/-- A write of `PAGE_CTL`: its fields, then a soft reset (R11, R589). Below M nothing masks an M-level interrupt (R280), so only an
M-level access clears the `EN` of an interrupt controller: DESIGN CHOICE (log 61). DEDUCED (log 58). -/
def State.pageCtlWrite (s : State) (m : Bool) (p : PageId) (v mask : Word) : State :=
  if noPageCtl p then s
  else
    let keep := (p.kind == .liu || p.kind == .ird) && !m && s.rbit p Reg.PAGE_CTL 0 && bitOf mask 0 && !bitOf v 0
    let s0 := if keep then (s.lockMark p Reg.PAGE_CTL v mask).raise p 1 else s
    let s1 := s0.busReg p Reg.PAGE_CTL (if keep then v ||| 1 else v) mask
    let s2 := if p.kind == .pwg0 then (let t := s1.settleAll (clu p.inst) s1.now; if bitOf (v &&& mask) 2 then t.freezeHalted (clu p.inst) else t)
      else s1
    if bitOf (v &&& mask) 1 then s2.srst m p else s2

/-- A write of `PAGE_LOCK`: 0xA5 sets the lock (R11, R13). -/
def State.pageLockWrite (s : State) (p : PageId) (v mask : Word) : State :=
  if bitsOf (v &&& mask) 7 0 = 0xA5 then s.setBit p Reg.PAGE_LOCK 0 true else s

/-- A write of the common header (R11). DEDUCED (log 41 and 58). -/
def State.headerWrite (s : State) (m : Bool) (p : PageId) (off : Nat) (v mask : Word) : State :=
  if off = Reg.PAGE_CTL then s.pageCtlWrite m p v mask
  else if off = Reg.PAGE_LOCK then s.pageLockWrite p v mask
  else if off = Reg.PAGE_IRQ_SET then
    s.setReg p Reg.PAGE_IRQ_STAT (s.reg p Reg.PAGE_IRQ_STAT ||| (v &&& mask &&& pageEvents p))
  else if off = Reg.PAGE_IRQ_EN then s.busReg p off (v &&& pageEvents p) mask
  else if off = Reg.PAGE_IRQ_STAT ∧ p.kind = .smp then (s.busReg p off v mask).fifoThr (clu p.inst)
  else s.busReg p off v mask

/-- A read of the common header. -/
def State.headerRead (s : State) (p : PageId) (off : Nat) : Word :=
  if off = Reg.PAGE_STAT then putBits (s.busRead p off) 0 0 (b2n (s.rbit p Reg.PAGE_LOCK 0)) else s.busRead p off

/-- An M-level access of application-core pair 0 (R475, R476). -/
def pair0M (i : Initiator) (m : Bool) : Bool := m && (i == .core (.ac 0) || i == .core (.ac 1))

/-- What a write does to a block's own registers. -/
def State.blockWrite (s : State) (i : Initiator) (m : Bool) (p : PageId) (off : Nat) (v mask : Word) : State :=
  let c := clu p.inst
  match p.kind with
  | .dtb => s.dtbWrite off v mask
  | .rst => s.rstWrite m off v mask
  | .pwr => s.pwrWrite p off v mask
  | .eg => s.egWrite off v mask
  | .sec => s.secWrite (pair0M i m) off v mask
  | .fls => s.flsWrite off v mask
  | .sramSys | .sramC => s.sramWrite p off v mask
  | .ird | .liu => s.irqWrite p off m v mask
  | .ac => s.acWrite c off m v mask
  | .mmu => s.mmuWrite i c off m v mask
  | .pairSys | .pairC => s.pairPageWrite p off v mask
  | .sdma | .cdma => s.dmaWrite p off v mask
  | .cxl => s.cxlPageWrite off v mask
  | .cmd | .str | .cap => s.busReg p off v mask
  | .strCommon => s.strWrite off v mask
  | .frm => s.frmWrite c off v mask
  | .pwg0 => s.pwg0Write c s.stopLow s.bridgeIsDown off v mask
  | .pwg1 => s.pwg1Write c off v mask
  | .adc => s.adcWrite (clu (p.inst / 8)) (clu (p.inst % 8)) off v mask
  | .sdm => s.sdmWrite c off v mask
  | .smp => s.smpWrite c off v mask
  | .cmp => s.cmpWriteReg c off v mask
  | .qdec => s.qdecWrite c off v mask
  | .sep => s.sepWrite c off v mask
  | .ce => s.ceWrite (eng p.inst) off v mask
  | .qcb => s.qcWrite (eng p.inst) off v mask
  | .db => s.dbWrite (eng p.inst) off v mask
  | .dvsec => if off = Reg.URG_CMD then s.urgWrite (v &&& mask) else s.busReg p off v mask
  | .msix => (s.busReg p off v mask).msixFlush

/-- What a read of a block's own registers returns. -/
def State.blockRead (s : State) (i : Initiator) (m : Bool) (p : PageId) (off : Nat) : State × Word :=
  let c := clu p.inst
  match p.kind with
  | .dtb => s.dtbRead i off
  | .rst => (s, s.rstRead off)
  | .pwr => s.pwrRead p off
  | .eg => s.egRead i off
  | .fls => (s, s.flsPageRead off)
  | .ird | .liu => s.irqRead p off m
  | .ac => s.acRead i c off
  | .mmu => (s, s.mmuRead c off)
  | .pairSys | .pairC => (s, s.pairPageRead p off)
  | .cmd => (s, s.cmdPageRead off)
  | .strCommon => (s, s.strRead off)
  | .frm => s.frmRead i c off
  | .pwg0 => (s, s.pwg0Read c off)
  | .adc => (s, s.adcRead (clu (p.inst / 8)) (clu (p.inst % 8)) off)
  | .sdm => s.sdmRead c off
  | .smp => s.smpRead i c off
  | .cmp => (s, s.cmpReadReg c off)
  | .cap => s.capRead i c off
  | .sep => s.sepRead i c off
  | .ce => (s, s.ceRead (eng p.inst) off)
  | .qcb => (s, s.qcRead (eng p.inst) off)
  | .sdma | .cdma => (s, s.dmaRead p off)
  | .sec | .sramSys | .sramC | .cxl | .str | .pwg1 | .db | .msix => (s, s.busRead p off)
  | .dvsec => (s, s.cfgRead off)
  | .qdec => (s, s.qdecRead (clu p.inst) off)

/-- An access to a page gets an answer: the page is not in reset, its domain is on, but for the comparators' page, which
answers without power (R157, R448). -/
def State.pageOpen (s : State) (p : PageId) : Bool :=
  !s.pageHeld p && !((pageCluster p).isSome && s.bootFailed)
    && (s.pagePowered p || (p.kind == .cmp && s.domOn (64 + 5 * (p.inst % 8))))

/-- A write that reaches a page (R7 to R14): the word at `off` under the byte lanes of `mask`. The page of a locked checker ignores it
(R229). -/
def State.pageWrite (s : State) (i : Initiator) (m : Bool) (p : PageId) (off : Nat) (v mask : Word) : State :=
  let o := off / 4 * 4
  if (p.kind == .cmp && !s.pagePowered p) || (p.kind == .ac && s.locked (.ac (clu p.inst)) && isChecker (.ac (clu p.inst))) then s
  else if pageHasHeader p.kind && decide (o < 0x40) then
    (if p.kind == .sec && !pair0M i m then s.raise pgSec 3 else s.headerWrite m p o v mask)
  else s.blockWrite i m p o v mask

/-- A read that reaches a page. -/
def State.pageRead (s : State) (i : Initiator) (m : Bool) (p : PageId) (off : Nat) : State × Word :=
  let o := off / 4 * 4
  if pageHasHeader p.kind && decide (o < 0x40) then (s, s.headerRead p o)
  else if p.kind == .cmp && !s.pagePowered p then (s, 0)
  else s.blockRead i m p o

/-! ## Where a page stands (Tables: Cluster register pages, System register pages) -/

/-- The cluster page at an offset of the cluster's register pages. -/
def clusterPage (c : Fin 8) (o : Nat) : Option PageId :=
  match o / 4096 with
  | 0 => some (pgFrm c) | 1 => some (pgPwg0 c) | 2 => some (pgPwg1 c)
  | 12 => some (pgSdm c) | 13 => some (pgSmp c) | 14 => some (pgCmp c) | 15 => some (pgQdec c)
  | 16 => some (pgCap c) | 17 => some (pgSep c) | 18 => some (pgLiu c) | 19 => some (pgCdma c) | 20 => some (pgPairC c)
  | 21 => some (pgSramC c)
  | n => if 4 ≤ n ∧ n < 12 then some (pgAdc c (clu (n - 4))) else if 24 ≤ n ∧ n < 32 then some (pgCe (engineOf c (clu (n - 24)))) else none

/-- The system page at an offset from 0x1000_0000. -/
def systemPage (o : Nat) : Option PageId :=
  match o / 4096 with
  | 0 => some pgDtb | 1 => some pgRst | 6 => some pgEg | 8 => some pgSec | 9 => some pgFls | 10 => some pgSramSys
  | 0x30 => some pgPairSys | 0x50 => some pgCxl | 0x51 => some pgCmd | 0x64 => some pgStr
  | n =>
    if 2 ≤ n ∧ n < 6 then some ⟨.pwr, n - 2⟩
    else if 0x10 ≤ n ∧ n < 0x20 then some ⟨.ird, n - 0x10⟩
    else if 0x20 ≤ n ∧ n < 0x28 then some (pgAc (clu (n - 0x20)))
    else if 0x28 ≤ n ∧ n < 0x30 then some (pgMmu (clu (n - 0x28)))
    else if 0x40 ≤ n ∧ n < 0x44 then some ⟨.sdma, n - 0x40⟩
    else if 0x60 ≤ n ∧ n < 0x64 then some ⟨.str, n - 0x60⟩
    else none

/-- An initiator stands on the control die. -/
def initControl : Initiator → Bool
  | .core (.ce _) => true
  | .cdma _ _ => true
  | _ => false

/-- An access crosses the bridge where its dies differ (R16 to R20): none while the bridge is down or off. -/
def State.crossing (s : State) (i : Initiator) (control : Bool) : Option State :=
  if initControl i == control then some s
  else if s.bridgeIsDown || !s.domOn 138 then none
  else some s.cross

/-- An access that has to cross waits while the bridge retrains (R19). -/
def State.crossWaits (s : State) (i : Initiator) (control : Bool) : Bool :=
  initControl i != control && s.bridgeTrains && s.domOn 138

/-- The same of an access to a page. -/
def State.pageWaits (s : State) (i : Initiator) (p : PageId) : Bool := s.crossWaits i (pageControl p)

/-! ## The system physical address map (R24, R25) -/

/-- The answer to an access. -/
inductive Ans where
  /-- A read's bytes. -/
  | data (bs : List Byte)
  | done
  | busError
  /-- Uncorrectable data (R359). -/
  | uncorr
  /-- A busy flash bank's status word in every lane (R434, R435). -/
  | busy (bs : List Byte)
  /-- Part of the write was lost to an uncorrectable word (R262, R359). -/
  | lost
  /-- No answer yet: a unit that initialises, a remote read under way, a bridge that retrains. -/
  | wait
  deriving DecidableEq, Repr

/-- The words of a page that an access touches. -/
def wordsOf (off n : Nat) : List Nat := eccWords off n 4

/-- Read `n` bytes of a page: each word once; the 8-byte read of the result FIFO pops one record (R131). -/
def State.pageGet (s : State) (i : Initiator) (m : Bool) (p : PageId) (off n : Nat) : State × List Byte :=
  if p.kind = .smp ∧ off = Reg.SMP_FIFO_LO ∧ n = 8 then
    let r := s.fifoPop i (clu p.inst)
    (r.1, leBytes 4 r.2.1.toNat ++ leBytes 4 r.2.2.toNat)
  else
    let x := (wordsOf off n).foldl (fun (x : State × List Byte) o =>
      let y := x.1.pageRead i m p o
      (y.1, x.2 ++ leBytes 4 y.2.toNat)) (s, [])
    (x.1, (x.2.drop (off % 4)).take n)

/-- Write bytes to a page, word by word under their lanes. -/
def State.pagePut (s : State) (i : Initiator) (m : Bool) (p : PageId) (off : Nat) (bs : List Byte) : State :=
  (wordsOf off bs.length).foldl (fun s o =>
    let lo := max off o
    let hi := min (off + bs.length) (o + 4)
    let v := w32 (leNat ((bs.drop (lo - off)).take (hi - lo)) * 2 ^ (8 * (lo - o)))
    s.pageWrite i m p o v (maskOf (8 * (hi - o) - 1) (8 * (lo - o)))) s

/-- An access to a page at a system physical address. -/
def State.pageAccess (s : State) (i : Initiator) (p : PageId) : Option State :=
  match s.crossing i (pageControl p) with
  | some s1 => if s1.pageOpen p then some s1 else none
  | none => none

/-- The unit of an address is being initialised (R369). DEDUCED (log 47). -/
def State.initing (s : State) (a : Nat) : Bool := match unitOf a with | some m => s.rbit m.page (Reg.SRAM_U_STAT m.u) 1 | none => false

/-- The L2 serves an access: normal memory, on the system die (R27). DEDUCED (log 59). -/
def viaL2 (i : Initiator) (a : Nat) : Bool := isNormal a && (match i with | .core (.ac _) => true | .host => true | .sdma _ => true | _ => false)

/-- A read through the L2 and memory (R358 to R360). -/
def State.memGet (s : State) (i : Initiator) (a n : Nat) : State × Ans :=
  let x := if viaL2 i a then s.l2Read a n else (s, false)
  let y := if isHostMem a then (x.1, false) else x.1.eccRead i a n
  (y.1, if x.2 || y.2 then .uncorr else .data (s.bytesAt a n))

/-- A write through the L2 and memory (R357, R359): each word that is lost keeps its bytes. -/
def State.memPut (s : State) (i : Initiator) (a : Nat) (bs : List Byte) : State × Ans :=
  let x :=
    if viaL2 i a then
      (eccWords a bs.length 8).foldl (fun (x : State × Bool) k =>
        let y := x.1.l2Store k (decide (a ≤ k ∧ k + 8 ≤ a + bs.length))
        if y.2 then (y.1, true)
        else
          let lo := max a k
          let z := y.1.eccWrite i lo ((bs.drop (lo - a)).take (min (a + bs.length) (k + 8) - lo))
          (z.1, x.2 || z.2)) (s, false)
    else (s.l2Write a bs.length).eccWrite i a bs
  (x.1, if x.2 then .lost else .done)

/-- Who may reach the vault (R370, R475). -/
def State.vaultOpen (s : State) (i : Initiator) (m : Bool) (a : Nat) : Bool :=
  decide (0x2001000 ≤ a) && pair0M i m && !s.wiping

/-- The domain of on-chip memory of a cluster window (R355). -/
def clusterMemDomain (a : Nat) : Nat :=
  let c := (a - 0x8000000) / 0x1000000
  if a % 0x1000000 < 0x80000 then 68 + 5 * c else 8 * c + (a % 0x1000000 - 0x100000) / 0x8000

/-- The device address of a String window. -/
def remoteDev (a : Nat) : Nat := (a - 0x20000000) / 0x100000

/-- A read of a String window (R569, R570). -/
def State.remoteRead (s : State) (i : Initiator) (a n : Nat) : State × Ans :=
  let d := remoteDev a
  if (n ≠ 4 ∧ n ≠ 8) ∨ a % n ≠ 0 ∨ !s.domOn 124 ∨ !s.remoteOk d then (s, .busError)
  else if d = s.fabAddr then
    (match s.expRead (a % 0x100000) n with
      | (s1, some bs) => (s1, .data bs)
      | (s1, none) => (s1, .busError))
  else match s.fab.tc2.findIdx? (fun r => r.by_ == i && r.addr == a && r.size == n && r.data.isNone) with
    | some k => (match s.fab.tc2[k]? with
      | some r => (match r.ans with
        | none => (s, .wait)
        | some (some bs) => (s.modFab (fun y => { y with tc2 := y.tc2.eraseIdx k }), .data (bs.take n))
        | some none => (s.modFab (fun y => { y with tc2 := y.tc2.eraseIdx k }), .busError))
      | none => (s, .wait))
    | none => (s.tc2Start i a d (a % 0x100000) n none, .wait)

/-- A write of a String window. -/
def State.remoteWrite (s : State) (i : Initiator) (a : Nat) (bs : List Byte) : State × Ans :=
  let d := remoteDev a
  let n := bs.length
  if (n ≠ 4 ∧ n ≠ 8) ∨ a % n ≠ 0 ∨ !s.domOn 124 ∨ !s.remoteOk d then (s, .busError)
  else if d = s.fabAddr then
    let x := s.expStore (a % 0x100000) bs
    (x.1, if x.2 then .done else .busError)
  else (s.tc2Start i a d (a % 0x100000) n (some bs), .done)

/-- The host window answers (R491, R504): the link is up and, for a read, no viral has been received. DEDUCED (log 52). -/
def State.hostOk (s : State) (read : Bool) : Bool := s.linkUp && s.domOn 127 && s.domOn 128 && !(read && s.viral)

/-- A read of the flash reaches its bank (R422, R427, R435). -/
def State.flashGet (s : State) (i : Initiator) (a n : Nat) : State × Ans :=
  match s.flsMiss (match i with | .core (.ac _) => true | _ => false) (a - 0x4000000) n with
  | (s1, .off) => (s1, .busError)
  | (s1, .data bs) => (s1, .data bs)
  | (s1, .busy w) => (s1, .busy (statusBytes w a n))
  | (s1, .uncorr) => (s1, .uncorr)

/-- A read at a system physical address (R24 to R27). -/
def State.physRead (s : State) (i : Initiator) (m : Bool) (a n : Nat) : State × Ans :=
  let e := a + n
  let via (control : Bool) (f : State → State × Ans) : State × Ans :=
    if s.crossWaits i control then (s, .wait)
    else match s.crossing i control with | some s1 => f s1 | none => (s, .busError)
  if e ≤ 0x40000 then via false (fun s => if s.domOn 146 then (s, .data (s.bytesAt a n)) else (s, .busError))
  else if 0x1000000 ≤ a ∧ e ≤ 0x1800000 then
    via false (fun s => if !s.expOn a then (s, .busError) else if s.initing a then (s, .wait) else s.memGet i a n)
  else if 0x2000000 ≤ a ∧ e ≤ 0x2040000 then
    via false (fun s => if !s.vaultOpen i m a then (s, .busError) else if s.initing a then (s, .wait) else s.memGet i a n)
  else if 0x4000000 ≤ a ∧ e ≤ 0x5800000 then
    (match (if viaL2 i a then s.flsHit (a - 0x4000000) n else (s, none)) with
      | (s1, some bs) => (s1, .data bs)
      | (s1, none) => if s1.crossWaits i true then (s1, .wait)
        else match s1.crossing i true with | some s2 => s2.flashGet i a n | none => (s1, .busError))
  else if 0x8000000 ≤ a ∧ e ≤ 0x10000000 then
    (if (unitOf a).isSome then
      via true (fun s => if !s.domOn (clusterMemDomain a) || s.bootFailed then (s, .busError)
        else if s.initing a then (s, .wait) else s.memGet i a n)
    else if 0x800000 ≤ a % 0x1000000 ∧ a % 0x1000000 < 0x820000 then
      (match clusterPage (clu ((a - 0x8000000) / 0x1000000)) (a % 0x1000000 - 0x800000) with
        | some p => if s.pageWaits i p then (s, .wait) else (match s.pageAccess i p with
          | some s1 => let x := s1.pageGet i m p (a % 4096) n; (x.1, .data x.2)
          | none => (s, .busError))
        | none => (s, .busError))
    else (s, .busError))
  else if 0x10000000 ≤ a ∧ e ≤ 0x11000000 then
    (match systemPage (a - 0x10000000) with
      | some p => if s.pageWaits i p then (s, .wait) else (match s.pageAccess i p with
        | some s1 => let x := s1.pageGet i m p (a % 4096) n; (x.1, .data x.2)
        | none => (s, .busError))
      | none => (s, .busError))
  else if 0x20000000 ≤ a ∧ e ≤ 0x30000000 then via false (fun s => s.remoteRead i a n)
  else if 0x1000000000 ≤ a ∧ e ≤ 0x3000000000 then
    via false (fun s => if !s.expOn a then (s, .busError) else s.memGet i a n)
  else if isHostMem a && decide (e ≤ 0x400000000000) then
    via false (fun s => if s.hostOk true then s.memGet i a n else (s, .busError))
  else (s, .busError)

/-- A write at a system physical address. -/
def State.physWrite (s : State) (i : Initiator) (m : Bool) (a : Nat) (bs : List Byte) : State × Ans :=
  let e := a + bs.length
  let via (control : Bool) (f : State → State × Ans) : State × Ans :=
    if s.crossWaits i control then (s, .wait)
    else match s.crossing i control with | some s1 => f s1 | none => (s, .busError)
  if 0x1000000 ≤ a ∧ e ≤ 0x1800000 then
    via false (fun s => if !s.expOn a then (s, .busError) else if s.initing a then (s, .wait) else s.memPut i a bs)
  else if 0x2000000 ≤ a ∧ e ≤ 0x2040000 then
    via false (fun s => if !s.vaultOpen i m a then (s, .busError) else if s.initing a then (s, .wait) else s.memPut i a bs)
  else if 0x8000000 ≤ a ∧ e ≤ 0x10000000 then
    (if (unitOf a).isSome then
      via true (fun s => if !s.domOn (clusterMemDomain a) || s.bootFailed then (s, .busError)
        else if s.initing a then (s, .wait) else s.memPut i a bs)
    else if 0x800000 ≤ a % 0x1000000 ∧ a % 0x1000000 < 0x820000 then
      (match clusterPage (clu ((a - 0x8000000) / 0x1000000)) (a % 0x1000000 - 0x800000) with
        | some p => if s.pageWaits i p then (s, .wait) else (match s.pageAccess i p with
          | some s1 => (s1.pagePut i m p (a % 4096) bs, .done)
          | none => (s, .busError))
        | none => (s, .busError))
    else (s, .busError))
  else if 0x10000000 ≤ a ∧ e ≤ 0x11000000 then
    (match systemPage (a - 0x10000000) with
      | some p => if s.pageWaits i p then (s, .wait) else (match s.pageAccess i p with
        | some s1 => (s1.pagePut i m p (a % 4096) bs, .done)
        | none => (s, .busError))
      | none => (s, .busError))
  else if 0x20000000 ≤ a ∧ e ≤ 0x30000000 then via false (fun s => s.remoteWrite i a bs)
  else if 0x1000000000 ≤ a ∧ e ≤ 0x3000000000 then
    via false (fun s => if !s.expOn a then (s, .busError) else s.memPut i a bs)
  else if isHostMem a && decide (e ≤ 0x400000000000) then
    via false (fun s => if !s.hostOk false then (s, .busError)
      else if s.viral then (s.count pgCxl Reg.CXL_D2HDROP 15 0, .done) else s.memPut i a bs)
  else (s, .busError)

end Sys2Proof.Machine
end

