-- ==== Sys2Proof/Machine/Dma.lean ====
section
/-! DEFINITION. Descriptors, bursts, confirmation and the ends of a DMA channel (16_dma.md, R403 to R418). -/

namespace Sys2Proof.Machine

/-! ## The end of a channel (R411, R412, R414, R417) -/

/-- The status record of a channel (R412): the error reason and what ended it stand in `DMA_CH_STAT`. -/
def State.dmaRecord (s : State) (k : Fin 96) : List Byte :=
  let d := s.dma[k]
  let st := s.reg (dmaPage k) (dmaReg Reg.DMA_CH_STAT k)
  leBytes 4 (bitsOf st 3 2 + 16 * bitsOf st 7 4 + 256 * bitsOf st 8 8 + 65536 * dmaLocal k)
    ++ leBytes 4 (if d.len = 0 then 0xFFFFFFFF else d.left) ++ leBytes 8 d.cdesc ++ leBytes 8 d.dst ++ leBytes 8 s.time.ns.toNat

/-- A status record's write has no answer yet: it waits for the bridge, or for the memory's initialisation, which ends first. -/
def State.dmaRecordWaits (s : State) (k : Fin 96) (a : Nat) (bs : List Byte) : State :=
  if s.bridgeTrains then s.busWait (.record k a bs)
  else match unitOf a with
    | some m => ((s.initDone m.page m.u).physWrite (dmaInit k) false a bs).1
    | none => s

/-- A channel writes its status record where `SRECEN` = 1; a write that fails sets `SRECERR` (R412). -/
def State.dmaSrec (s : State) (k : Fin 96) : State :=
  let p := dmaPage k
  if !s.rbit p (dmaReg Reg.DMA_CH_CFG k) 8 then s
  else
    let a := (s.reg p (dmaReg Reg.DMA_CH_SREC_LO k)).toNat / 32 * 32 + s.fld p (dmaReg Reg.DMA_CH_SREC_HI k) 13 0 * 2 ^ 32
    match s.physWrite (dmaInit k) false a (s.dmaRecord k) with
    | (s1, .done) => s1
    | (s1, .wait) => s1.dmaRecordWaits k a (s.dmaRecord k)
    | (s1, _) => s1.stick p (dmaReg Reg.DMA_CH_STAT k) 9

/-- A channel ends with `END` (1 done, 2 aborted, 3 error), an error reason, and whether a stop ended it. DEDUCED (log 45). -/
def State.dmaEnd (s : State) (k : Fin 96) (code err : Nat) (stop : Bool) : State :=
  let p := dmaPage k
  let r := dmaReg Reg.DMA_CH_STAT k
  let s1 := ((s.setFld p r 3 2 code).setFld p r 7 4 err).setBit p r 8 stop
  let s2 := if code = 3 then s1.setBit p Reg.DMA_STAT (8 + dmaLocal k) true else s1
  let s3 := ((s2.dmaShow k).dmaSrec k).modDma k (fun d => { d with phase := .idle, abort := none, req := false, burst := 0, got := [], put := 0 })
  (s3.dmaEvt k (code - 1)).dmaStat k

/-- A channel that has to end, and holds no burst, ends at once (R414). -/
def State.dmaSettleOne (s : State) (k : Fin 96) : State :=
  match s.dma[k].abort, s.dma[k].phase with
  | some stop, .run => s.dmaEnd k 2 0 stop
  | some stop, .fetch => s.dmaEnd k 2 0 stop
  | _, _ => s

/-- Every channel that has to end, and holds no burst, ends at once. DEDUCED (log 45). -/
def State.dmaSettle (s : State) : State :=
  if s.dma.toList.any (fun d => d.abort.isSome) then (List.finRange 96).foldl (fun s k => s.dmaSettleOne k) s else s

/-! ## Descriptors (R404 to R408) -/

/-- One side of a descriptor: address mode 0 increment, 1 fixed, 2 circular; log2 of the buffer; the start address. -/
structure DmaSide where
  mode  : Nat
  wrap  : Nat
  start : Nat
  deriving DecidableEq, Repr

/-- The source side of a channel's descriptor. -/
def DmaCh.srcSide (d : DmaCh) : DmaSide := ⟨bitsOf d.w0 1 0, bitsOf d.w0 10 6, d.src0⟩

/-- The destination side. -/
def DmaCh.dstSide (d : DmaCh) : DmaSide := ⟨bitsOf d.w0 3 2, bitsOf d.w0 15 11, d.dst0⟩

/-- Element size in bytes. -/
def DmaCh.esz (d : DmaCh) : Nat := 2 ^ bitsOf d.w0 5 4

/-- A side breaks R408. -/
def DmaSide.bad (x : DmaSide) (esz : Nat) : Bool :=
  decide (2 < x.mode) || (if x.mode = 2 then decide (x.wrap < 6 ∨ 24 < x.wrap) else x.wrap != 0) || decide (x.start % esz ≠ 0)

/-- A descriptor is invalid (R408); `rsv` says that a reserved bit of its address words is set. -/
def DmaCh.bad (d : DmaCh) (rsv : Bool) : Bool :=
  rsv || bitOf d.w0 19 || bitsOf d.w0 31 23 != 0 || decide (5 < bitsOf d.w0 22 20) || d.srcSide.bad d.esz || d.dstSide.bad d.esz
    || decide (d.len % d.esz ≠ 0) || (d.len == 0 && (d.srcSide.mode == 0 || d.dstSide.mode == 0))
    || (!bitOf d.w0 18 && decide (d.next % 32 ≠ 0))

/-- The channel as the descriptor's bytes set it up. -/
def DmaCh.load (d : DmaCh) (bs : List Byte) : DmaCh :=
  let w (o : Nat) : Nat := leNat ((bs.drop o).take 4)
  let a (o : Nat) : Nat := w o + w (o + 4) % 2 ^ 14 * 2 ^ 32
  { d with phase := .run, w0 := w32 (w 0), len := w 4, left := w 4, src0 := a 8, src := a 8, dst0 := a 16, dst := a 16
           next := a 24, isLast := (w 0).testBit 18, burst := 0, got := [], put := 0 }

/-- A reserved bit of an address word is set. -/
def descReserved (bs : List Byte) : Bool := [0x0C, 0x14, 0x1C].any (fun o => decide (2 ^ 14 ≤ leNat ((bs.drop o).take 4)))

/-- A channel's descriptor read returns and is checked (R404, R408, R417). -/
def State.dmaDescriptor (s : State) (k : Fin 96) : State :=
  let d := s.dma[k]
  if d.phase != .fetch then s
  else
    let go (s : State) (bs : List Byte) : State :=
      let d1 := d.load bs
      let s1 := s.modDma k (fun _ => d1)
      if d1.bad (descReserved bs) then s1.dmaEnd k 3 1 false else (s1.dmaShow k).dmaStat k
    match s.physRead (dmaInit k) false d.cdesc 32 with
    | (s1, .data bs) => go s1 bs
    | (s1, .busy bs) => go s1 bs
    | (s1, .wait) => s1
    | (s1, _) => s1.dmaEnd k 3 2 false

/-! ## Bursts (R403, R405, R407, R409) -/

/-- Bytes to the first point of R407 on one side. -/
def DmaSide.room (x : DmaSide) (a : Nat) : Nat :=
  match x.mode with
  | 0 => 4096 - a % 4096
  | 2 => 2 ^ x.wrap - a % 2 ^ x.wrap
  | _ => 2 ^ 32

/-- The length of the next burst (R407). -/
def DmaCh.burstLen (d : DmaCh) : Nat :=
  let n := min (8 * 2 ^ bitsOf d.w0 22 20) (min (d.srcSide.room d.src) (d.dstSide.room d.dst))
  if d.len = 0 then n else min n d.left

/-- A side's address after `n` bytes, no more than `room` of it (R405). -/
def DmaSide.step (x : DmaSide) (a n : Nat) : Nat :=
  match x.mode with
  | 0 => a + n
  | 2 => let w := 2 ^ x.wrap; a / w * w + (a + n) % w
  | _ => a

/-- The engine that has a free slot picks its channel (R403): the highest priority, in turn after the one last granted. -/
def State.dmaPick (s : State) (g : Fin 9) : Option (Fin 96) :=
  let mine : List (Fin 96) := (List.finRange 96).filter (fun (k : Fin 96) => dmaEngine k == g.val)
  let flying := (mine.filter (fun k => s.dma[k].phase == .burst)).length
  if (if g.val = 8 then 8 else 2) ≤ flying then none
  else
    let ready := mine.filter (fun k => s.dmaReady k && s.dma[k].abort.isNone)
    let prio (k : Fin 96) : Nat := s.fld (dmaPage k) (dmaReg Reg.DMA_CH_CFG k) 1 0
    let top := ready.foldl (fun a k => max a (prio k)) 0
    let best := ready.filter (fun k => prio k == top)
    match s.dmaGrant.lookup (g.val * 4 + top) with
    | none => best.head?
    | some l => (best.find? (fun k => decide (l < k.val))).or best.head?

/-- An engine grants a burst slot. DEDUCED (log 45). -/
def State.dmaGrantGo (s : State) (g : Fin 9) : State :=
  match s.dmaPick g with
  | none => s
  | some k =>
    let key := g.val * 4 + s.fld (dmaPage k) (dmaReg Reg.DMA_CH_CFG k) 1 0
    let s1 := s.modDma k (fun d => { d with phase := .burst, burst := d.burstLen, req := false })
    { s1 with dmaGrant := (key, k.val) :: s1.dmaGrant.filter (fun e => e.1 != key) }.dmaStat k

/-- The reads of a burst, element by element, with the bytes read so far: how they failed (the error reason), or no answer yet. -/
def State.dmaReads (i : Initiator) (x : DmaSide) (esz : Nat) : Nat → State → Nat → List Byte → State × List Byte × Option (Option Nat)
  | 0, s, _, acc => (s, acc, none)
  | n + 1, s, a, acc =>
    match s.physRead i false a esz with
    | (s1, .data bs) => State.dmaReads i x esz n s1 (x.step a esz) (acc ++ bs)
    | (s1, .busy bs) => State.dmaReads i x esz n s1 (x.step a esz) (acc ++ bs)
    | (s1, .uncorr) => (s1, acc, some (some 5))
    | (s1, .wait) => (s1, acc, some none)
    | (s1, _) => (s1, acc, some (some 3))

/-- The writes of a burst, element by element, with the elements left: how they failed, or no answer yet. -/
def State.dmaWrites (i : Initiator) (x : DmaSide) (esz : Nat) : Nat → State → Nat → List Byte → State × Nat × Option (Option Nat)
  | 0, s, _, _ => (s, 0, none)
  | n + 1, s, a, bs =>
    match s.physWrite i false a (bs.take esz) with
    | (s1, .busError) => (s1, n + 1, some (some 4))
    | (s1, .wait) => (s1, n + 1, some none)
    | (s1, _) => State.dmaWrites i x esz n s1 (x.step a esz) (bs.drop esz)

/-- Losses of one write are counted, in the channel and at the memory (R362, R418). -/
def State.dmaLosses (s : State) (k : Fin 96) (a : Nat) : Nat → State
  | 0 => s
  | n + 1 => ((s.count (dmaPage k) (Reg.DMA_CH_WLOST_CNT (dmaLocal k)) 15 0).writeLost (dmaInit k) a).dmaLosses k a n

/-- A descriptor is complete (R411): the chain ends, or the next descriptor is begun. -/
def State.dmaDescDone (s : State) (k : Fin 96) : State :=
  let d := s.dma[k]
  if d.isLast then s.dmaEnd k 1 0 false
  else
    let s1 := if bitOf d.w0 16 then (s.dmaSrec k).dmaEvt k 0 else s
    let s2 := s1.modDma k (fun d => { d with phase := .fetch, cdesc := d.next, len := 1, left := 0, burst := 0 })
    match s2.dma[k].abort with
    | some stop => s2.dmaEnd k 2 0 stop
    | none => (s2.dmaShow k).dmaStat k

/-- The addresses and the residue move by a burst that is done; `WRAP` where the destination wraps (R405, R409). -/
def State.dmaMove (s : State) (k : Fin 96) : State :=
  let d := s.dma[k]
  let to_ := d.dstSide.step d.dst d.burst
  let wrap := d.dstSide.mode == 2 && decide (to_ % 2 ^ d.dstSide.wrap = 0)
  let s1 := s.modDma k (fun d => { d with src := d.srcSide.step d.src d.burst, dst := to_, burst := 0, got := [], put := 0, phase := .run
                                          left := if d.len = 0 then 0 else d.left - d.burst })
  let s2 := s1.dmaShow k
  if wrap then s2.dmaEvt k 3 else s2

/-- After a burst: a complete descriptor is confirmed or done, a channel that has to end ends, any other goes on. -/
def State.dmaAfter (s : State) (k : Fin 96) : State :=
  let d := s.dma[k]
  let whole := d.len != 0 && d.left == 0
  match d.abort with
  | some stop => s.dmaEnd k 2 0 stop
  | none =>
    if whole then (if bitOf d.w0 17 then (s.modDma k (fun d => { d with phase := .confirm })).dmaStat k else s.dmaDescDone k)
    else s.dmaStat k

/-- Every write of the burst in flight of channel `k` has returned (R405, R409, R417, R418). One of its writes lost
its cycle `lost` times in succession; `before` writes of the burst came before it. DEDUCED (log 45). DESIGN CHOICE (log 14). -/
def State.dmaBurst (s : State) (k : Fin 96) (lost before : Nat) : State :=
  let d := s.dma[k]
  if d.phase != .burst then s
  else
    let i := dmaInit k
    let n := d.burst / d.esz
    let r := State.dmaReads i d.srcSide d.esz (n - d.got.length / d.esz) s (d.srcSide.step d.src d.got.length) d.got
    match r.2.2 with
    | some (some e) => r.1.dmaEnd k 3 e false
    | some none => r.1.modDma k (fun d => { d with got := r.2.1 })
    | none =>
      let at_ := d.dstSide.step d.dst (before % n * d.esz)
      let s1 := if 16 ≤ lost then r.1.dmaLosses k at_ 16 else r.1.dmaLosses k at_ lost
      let m := if 16 ≤ lost then before % n else n
      let w := State.dmaWrites i d.dstSide d.esz (m - d.put) s1 (d.dstSide.step d.dst (d.put * d.esz)) (r.2.1.drop (d.put * d.esz))
      match w.2.2 with
      | some (some e) => w.1.dmaEnd k 3 e false
      | some none => w.1.modDma k (fun d => { d with got := r.2.1, put := m - w.2.1 })
      | none => if 16 ≤ lost then w.1.dmaEnd k 3 6 false else (w.1.dmaMove k).dmaAfter k

/-! ## Confirmation (R413) -/

/-- The address lies in a register page. -/
def isRegPage (a : Nat) : Bool :=
  (decide (0x8000000 ≤ a ∧ a < 0x10000000) && decide (0x800000 ≤ a % 0x1000000 ∧ a % 0x1000000 < 0x820000))
    || decide (0x10000000 ≤ a ∧ a < 0x11000000)

/-- Where the last element of the descriptor was written. -/
def DmaCh.lastDst (d : DmaCh) : Nat :=
  match d.dstSide.mode with
  | 0 => d.dst - d.esz
  | 2 => let w := 2 ^ d.dstSide.wrap; d.dst / w * w + (d.dst + w - d.esz) % w
  | _ => d.dst

/-- The confirmation read returns and the descriptor completes; a request to end that came during it ends the channel with
`END` = 1 (R413, R415); one that fails ends it with error status, as any source read (R26, R417). DEDUCED (log 45). -/
def State.dmaConfirm (s : State) (k : Fin 96) : State :=
  let d := s.dma[k]
  if d.phase != .confirm then s
  else
    let a := if isRegPage d.lastDst then d.lastDst / 4096 * 4096 else d.lastDst
    match s.physRead (dmaInit k) false a (if isRegPage d.lastDst then 4 else d.esz) with
    | (s1, .wait) => s1
    | (s1, .busError) => s1.dmaEnd k 3 3 false
    | (s1, .uncorr) => s1.dmaEnd k 3 5 false
    | (s1, _) => if d.abort.isSome then s1.dmaEnd k 1 0 false else s1.dmaDescDone k

end Sys2Proof.Machine
end

