-- ==== Sys2Proof/Machine/Region.lean ====
section
/-! DEFINITION. The region unit of an engine (08_engine_programming_model.md, R28, R219 to R221). -/

namespace Sys2Proof.Machine

/-- The kinds of access that a region grants. -/
inductive Access3 where
  | r | w | x
  deriving DecidableEq, Repr

/-- The number of a kind within a level's permission bits. -/
def Access3.no : Access3 → Nat
  | .r => 0 | .w => 1 | .x => 2

/-- `SIZE` in force of region `r`: the region spans 2^`SIZE` bytes, 8 to 31. -/
def State.rgnSize (s : State) (e : Fin 64) (r : Fin 16) : Nat := max 8 (s.fld (pgCe e) (forceOff (Reg.CE_RGN_CFG r)) 4 0)

/-- The lowest-numbered region that matches an address (R219). -/
def State.rgnMatch (s : State) (e : Fin 64) (a : Nat) : Option (Fin 16) :=
  (List.finRange 16).find? (fun (r : Fin 16) =>
    let b := s.reg (pgCe e) (forceOff (Reg.CE_RGN_BASE r))
    bitOf b 0 && a / 2 ^ s.rgnSize e r == (b &&& 0xFFFFFF00).toNat / 2 ^ s.rgnSize e r)

/-- The local areas of the engine map (R28). -/
def localArea (a : Nat) : Bool :=
  decide (a < 0x8000) || decide (0x100000 ≤ a ∧ a < 0x180000) || decide (0x800000 ≤ a ∧ a < 0x820000)

/-- An access at level `lvl` (0 U, 1 S, 3 M) is allowed (R220); outside the local areas and the system window the map
decides (R28). -/
def State.rgnAllows (s : State) (e : Fin 64) (lvl : Nat) (k : Access3) (a : Nat) : Bool :=
  match s.rgnMatch e a with
  | some r => lvl == 3 || s.rbit (pgCe e) (forceOff (Reg.CE_RGN_CFG r)) (8 + 3 * lvl + k.no)
  | none => decide (a < 0x80000000) && lvl != 0

/-- The system physical address behind an address of the system window (R219). -/
def State.rgnPhys (s : State) (e : Fin 64) (r : Fin 16) (a : Nat) : Nat :=
  let n := 2 ^ s.rgnSize e r
  let pa := (s.reg (pgCe e) (forceOff (Reg.CE_RGN_PA_LO r)) &&& 0xFFFFFF00).toNat
    + s.fld (pgCe e) (forceOff (Reg.CE_RGN_PA_HI r)) 13 0 * 2 ^ 32
  pa / n * n + a % n

/-- The region unit grants U what the activation stub needs (R529). -/
def State.stubGrants (s : State) (e : Fin 64) : Bool :=
  (List.range 512).all (fun k => s.rgnAllows e 0 .r (0x800000 + 256 * k))
    && s.rgnAllows e 0 .r 0x6E00 && s.rgnAllows e 0 .w 0x6E00 && s.rgnAllows e 0 .x 0x6E00

end Sys2Proof.Machine
end

