-- ==== Sys2Proof/Machine/CoreMem.lean ====
section
/-! DEFINITION. What a core's accesses meet: the engine map and region unit, the application cores' translation, split
accesses, the store buffer, atomics (R26, R28, R195, R207, R220, R259 to R263, R374 to R390). -/

namespace Sys2Proof.Machine

/-! ## Answers -/

/-- A trap that an instruction raises: its cause, `TVAL`, and whether it is taken at M whatever the level (R283). -/
structure Trap where
  code : Nat
  tval : Word
  toM  : Bool
  deriving DecidableEq, Repr

/-- What a part of an instruction ends in: a value, a trap, or a stall in which the instruction has not issued. -/
inductive Res (α : Type) where
  | ok (s : State) (v : α)
  | trap (s : State) (t : Trap)
  | stall (s : State)
  deriving DecidableEq

/-- Go on after a part of an instruction. -/
def Res.bind {α β : Type} (r : Res α) (f : State → α → Res β) : Res β :=
  match r with
  | .ok s v => f s v
  | .trap s t => .trap s t
  | .stall s => .stall s

/-- Kinds of access (R220, R381, R385). -/
inductive Acc where
  | fetch | load | store | fill | spill
  deriving DecidableEq, Repr

/-- The permission a kind needs. -/
def Acc.need : Acc → Access3
  | .fetch => .x | .load | .fill => .r | .store | .spill => .w

/-- The cause a refused access raises (R196, R220). -/
def Acc.fault : Acc → Nat
  | .fetch => 4 | .load => 5 | .store => 6 | .fill | .spill => 7

/-- The access writes. -/
def Acc.writes : Acc → Bool
  | .store | .spill => true
  | _ => false

/-! ## The map (R24, R25, R28) -/

/-- An address lies in a region of the physical map, for a read or for a write (R25, R27). The boot ROM is read-only (R24): a store to it
ends as one to the flash does, in a bus error. DESIGN CHOICE (log 64). -/
def mapHas (a : Nat) (write : Bool) : Bool :=
  if a < 0x40000 then !write
  else if 0x1000000 ≤ a ∧ a < 0x1800000 then true
  else if 0x2000000 ≤ a ∧ a < 0x2040000 then true
  else if 0x4000000 ≤ a ∧ a < 0x5800000 then !write
  else if 0x8000000 ≤ a ∧ a < 0x10000000 then
    (unitOf a).isSome || (decide (0x800000 ≤ a % 0x1000000 ∧ a % 0x1000000 < 0x820000)
      && (clusterPage (clu ((a - 0x8000000) / 0x1000000)) (a % 0x1000000 - 0x800000)).isSome)
  else if 0x10000000 ≤ a ∧ a < 0x11000000 then (systemPage (a - 0x10000000)).isSome
  else if 0x20000000 ≤ a ∧ a < 0x30000000 then true
  else decide (0x1000000000 ≤ a ∧ a < 0x3000000000) || (isHostMem a && decide (a < 0x400000000000))

/-- An address lies in register pages, the vault or a String window: there an atomic raises STORE_FAULT (R207). -/
def isDevPage (a : Nat) : Bool :=
  decide (0x2000000 ≤ a ∧ a < 0x2040000) || decide (0x8000000 ≤ a ∧ a < 0x10000000 ∧ 0x800000 ≤ a % 0x1000000)
    || decide (0x10000000 ≤ a ∧ a < 0x30000000)

/-- A device region (R24). -/
def isDevice (a : Nat) : Bool := decide (0x2000000 ≤ a ∧ a < 0x2040000) || decide (0x8000000 ≤ a ∧ a < 0x11000000) || decide (0x20000000 ≤ a ∧ a < 0x30000000)

/-- A load of a device page waits for the core's buffered stores to that page and is never served by the buffer (R29, R260): the device
regions of the map for an application core, the register pages and String windows for an engine. A translation may make any page a device
page (R378). -/
def devLoad (c : CoreId) (pa : Nat) : Bool :=
  match c with
  | .ce _ => isDevPage pa
  | .ac _ => isDevice pa

/-- A `CE` page (R221). -/
def isCePage (a : Nat) : Bool := decide (0x8000000 ≤ a ∧ a < 0x10000000 ∧ 0x818000 ≤ a % 0x1000000 ∧ a % 0x1000000 < 0x820000)

/-- An engine's own LSRAM. -/
def ownLsram (e : Fin 64) (a : Nat) : Bool := decide (lsramBase e ≤ a ∧ a < lsramBase e + 0x8000)

/-! ## Engines (R219 to R221) -/

/-- A refused access is recorded, counted, and raises `RFAULT` (R220, R224). -/
def State.rgnRefuse (s : State) (e : Fin 64) (lvl : Nat) (k : Acc) (a : Nat) : State :=
  let p := pgCe e
  let s1 :=
    if s.rbit p Reg.CE_RFAULT_INFO 9 then s
    else
      let m := s.rgnMatch e a
      let rgn := match m with | some r => r.val | none => 0
      let acc := match k with | .fetch => 0 | .load | .fill => 1 | .store | .spill => 2
      ((s.setReg p Reg.CE_RFAULT (w32 a)).setReg p Reg.CE_RFAULT_INFO (w32 (rgn + 16 * b2n m.isNone + 32 * acc + 128 * lvl + 512))).mark9 p Reg.CE_RFAULT_INFO 0x200
  (s1.count p Reg.CE_RFAULT_CNT 15 0).raise p 0

/-- The system physical address behind an engine address. -/
def State.cePhys (s : State) (e : Fin 64) (a : Nat) : Nat :=
  if a < 0x8000 then lsramBase e + a
  else if a < 0x80000000 then clusterBase (clusterOf e) + (if a < 0x800000 then a - 0x100000 else a)
  else match s.rgnMatch e a with
    | some r => s.rgnPhys e r a
    | none => a

/-- An engine's access is checked: region unit, then map (R28, R220, R221, R259). -/
def State.ceCheck (s : State) (e : Fin 64) (lvl : Nat) (k : Acc) (a : Nat) : Res Nat :=
  if !s.rgnAllows e lvl k.need a then .trap (s.rgnRefuse e lvl k a) ⟨k.fault, w32 a, false⟩
  else
    let pa := s.cePhys e a
    if (a < 0x80000000 ∧ !localArea a) ∨ !mapHas pa k.writes ∨ (k.writes && isCePage pa && lvl != 3) then .trap s ⟨k.fault, w32 a, false⟩
    else .ok s pa

/-! ## Application cores (R374 to R388) -/

/-- A translation register in force. -/
def State.mmuReg (s : State) (a : Fin 8) (off : Nat) : Word := s.reg (pgMmu a) (forceOff off)

/-- Translation applies at a level (R375). DEDUCED (log 19). -/
def State.mmuOn (s : State) (a : Fin 8) (lvl : Nat) : Bool := bitOf (s.mmuReg a Reg.MMU_CTL) (if lvl = 3 then 1 else 0)

/-- The ASID in force. -/
def State.asid (s : State) (a : Fin 8) : Nat := bitsOf (s.mmuReg a Reg.MMU_ASID) 15 0

/-- The level 0 table in force (R376). -/
def State.rootTable (s : State) (a : Fin 8) : Nat :=
  (s.mmuReg a Reg.MMU_ROOT_LO).toNat / 4096 * 4096 + bitsOf (s.mmuReg a Reg.MMU_ROOT_HI) 13 0 * 2 ^ 32

/-- log2 of what a leaf of a level maps at least (R376). -/
def leafLog (lv : Nat) : Nat := 39 - 9 * lv

/-- A table entry is malformed at a level (R377, R384). -/
def badTable (e : DWord) (lv : Nat) : Bool := lv == 3 || bitsOf e 11 2 != 0 || bitsOf e 58 46 != 0

/-- A leaf is malformed at a level (R377, R379, R384). DEDUCED (log 20). -/
def badLeaf (e : DWord) (lv : Nat) : Bool :=
  let l := bitsOf e 50 46 + 12
  lv == 0 || bitOf e 11 || bitsOf e 58 51 != 0 || bitsOf e 10 9 == 3 || (bitOf e 3 && !bitOf e 2)
    || decide (l < leafLog lv) || decide (leafLog lv + 9 < l) || decide ((bitsOf e 45 12 * 4096) % 2 ^ l ≠ 0)

/-- How a walk ends: a leaf at a level with its address, or a fault with level, reason and address of the entry; `dev`
marks WALK_DEV. -/
inductive WalkEnd where
  | leaf (lv pte : Nat) (e : DWord)
  | fault (lv reason pte : Nat) (dev : Bool)
  | wait
  deriving DecidableEq, Repr

/-- Read a table entry (R382, R384 reason 2). -/
def State.pteRead (s : State) (a : Fin 8) (pte : Nat) : State × Option DWord × Bool :=
  match s.physRead (.core (.ac a)) true pte 8 with
  | (s1, .data bs) => (s1, some (BitVec.ofNat 64 (leNat bs)), false)
  | (s1, .wait) => (s1, none, true)
  | (s1, _) => (s1, none, false)

/-- A table entry enters the walk cache (R387). -/
def State.cacheWalk (s : State) (a : Fin 8) (va lv table : Nat) : State :=
  let w : WalkEntry := ⟨s.asid a, va / 2 ^ leafLog lv, lv, table⟩
  s.modCore (.ac a) (fun k => { k with walk := if k.walk.contains w then k.walk else w :: k.walk })

/-- Walk from a level on: `from_` is the entry that named the table (R376, R384). -/
def State.walkLevels (s : State) (a : Fin 8) (va : Nat) : Nat → Nat → Nat → Nat → State × WalkEnd
  | 0, lv, _, from_ => (s, .fault lv 1 from_ false)
  | n + 1, lv, table, from_ =>
    let pte := table + 8 * (va / 2 ^ leafLog lv % 512)
    if isDevice table then (s, .fault (lv - 1) 0 (if lv = 0 then pte else from_) true)
    else match s.pteRead a pte with
      | (s1, none, true) => (s1, .wait)
      | (s1, none, false) => (s1, .fault lv 2 pte false)
      | (s1, some e, _) =>
        if !bitOf e 0 then (s1, .fault lv 0 pte false)
        else if bitOf e 1 then
          if badTable e lv then (s1, .fault lv 1 pte false)
          else
            let next := bitsOf e 45 12 * 4096
            State.walkLevels (if isDevice next then s1 else s1.cacheWalk a va lv next) a va n (lv + 1) next pte
        else if badLeaf e lv then (s1, .fault lv 1 pte false)
        else (s1, .leaf lv pte e)

/-- A lookup in a cache of the core finds its entry, or the entry has left the cache (R387, R388). DESIGN CHOICE (log 11). -/
def State.keeps (s : State) : State × Bool := (s.draw, Config.keeps s.free)

/-- The entry that a lookup uses: the first of those that match which it still finds. An entry that one lookup misses may serve a later one:
the caches of a core hold copies of their own (R387, R388). DESIGN CHOICE (log 11). -/
def State.pick {α : Type} (s : State) : List α → State × Option α
  | [] => (s, none)
  | x :: t => let y := s.keeps; if y.2 then (y.1, some x) else y.1.pick t

/-- The partial walks that a cache holds for an address, the deepest first: the level to read next and its table. -/
def Core.walkFrom (k : Core) (asid va : Nat) : List (Nat × Nat) :=
  let hit (lv : Nat) := (k.walk.filter (fun w => w.asid == asid && w.level == lv && w.vbase == va / 2 ^ leafLog lv)).map (fun w => (lv + 1, w.table))
  hit 2 ++ hit 1 ++ hit 0

/-- A walk starts: counted (R400), from the walk cache where it still holds a part of the path. -/
def State.walk (s : State) (a : Fin 8) (va : Nat) : State × WalkEnd :=
  let s1 := s.count (pgMmu a) Reg.MMU_WALK_CNT 15 0
  match s1.pick ((s1.core (.ac a)).walkFrom (s1.asid a) va) with
  | (s2, some (lv, table)) => s2.walkLevels a va 4 lv table 0
  | (s2, none) => s2.walkLevels a va 4 0 (s2.rootTable a) 0

/-- The number of an access kind in a walk fault (R385). -/
def Acc.walkNo : Acc → Nat
  | .fetch => 0 | .load => 1 | .store => 2 | .fill | .spill => 3

/-- A walk fault is recorded and its trap raised (R384, R385, R400). DEDUCED (log 20). -/
def State.walkFault (s : State) (a : Fin 8) (va : Nat) (k : Acc) (lv reason pte : Nat) (dev : Bool) : Res Nat :=
  let p := pgMmu a
  let r := if dev then 0 else reason
  let info := lv % 4 + 4 * r + 16 * k.walkNo
  let s1 :=
    if s.rbit p Reg.MMU_FVA_HI 16 then s
    else
      ((((s.setReg p Reg.MMU_FVA_LO (w32 va)).setReg p Reg.MMU_FVA_HI
        (w32 (va / 2 ^ 32 % 65536 + 2 ^ 16 + lv % 4 * 2 ^ 17 + r * 2 ^ 19 + b2n dev * 2 ^ 21 + k.walkNo * 2 ^ 22))).setReg
          p Reg.MMU_FPTE_LO (w32 pte)).setReg p Reg.MMU_FPTE_HI (w32 (pte / 2 ^ 32 % 2 ^ 14))).mark9 p Reg.MMU_FVA_HI 0x10000
  let s2 := s1.raise p 0
  if k = .fill ∨ k = .spill then .trap s2 ⟨7, w32 va, false⟩
  else .trap s2 ⟨if dev then 0x10 else 0xF, w32 info, false⟩

/-- A leaf grants an access (R381). DEDUCED (log 20). -/
def leafGrants (e : DWord) (lvl : Nat) (k : Acc) : Bool :=
  let p := bitOf e (match k.need with | .r => 2 | .w => 3 | .x => 4)
  if lvl = 3 then p
  else if lvl = 0 then bitOf e 5 && p
  else p && !(bitOf e 5 && k.need == .x)

/-- The refusal of an access by a leaf (R381). -/
def Acc.page : Acc → Nat
  | .load => 0xC | .store => 0xD | .fetch => 0xE | .fill | .spill => 7

/-- An entry needs `A`, or `D` for a write, set (R383). -/
def needsMark (e : DWord) (k : Acc) : Bool := !bitOf e 7 || (k.writes && bitOf e 3 && !bitOf e 8)

/-- The entry with the marks set. -/
def markedEntry (e : DWord) (k : Acc) : DWord := e ||| (if k.writes then 0x180 else 0x80)

/-- The physical address a leaf gives (R379). -/
def leafPhys (e : DWord) (va : Nat) : Nat :=
  let l := bitsOf e 50 46 + 12
  bitsOf e 45 12 * 4096 + va % 2 ^ l

/-- A translation enters the TLB, in place of that of another entry of its span (R380) and of `old`, its own form before an update (R383).
Other forms of a changed entry may stay (R388). -/
def State.tlbPut (s : State) (a : Fin 8) (va pte : Nat) (old e : DWord) : State :=
  let l := bitsOf e 50 46 + 12
  let t : TlbEntry := ⟨s.asid a, va / 2 ^ l * 2 ^ l, l, pte, e⟩
  s.modCore (.ac a) (fun k => { k with tlb := t :: k.tlb.filter (fun x =>
    !(x.vbase == t.vbase && x.log2 == l && x.asid == t.asid && (x.pte != pte || x.raw == e || x.raw == old))) })

/-- Use a leaf: permission, then the marks (R381, R383). `again` is a fresh walk, for an entry that has changed. DEDUCED (log 20). -/
def State.useLeaf (s : State) (a : Fin 8) (va lvl : Nat) (k : Acc) (lv pte : Nat) (e : DWord) (again : State → Res Nat) : Res Nat :=
  if !leafGrants e lvl k then .trap s ⟨k.page, w32 va, false⟩
  else if !needsMark e k then .ok (s.tlbPut a va pte e e) (leafPhys e va)
  else match s.pteRead a pte with
    | (s1, none, true) => .stall s1
    | (s1, none, false) => s1.walkFault a va k lv 2 pte false
    | (s1, some now, _) =>
      if now ≠ e then again (s1.count (pgMmu a) Reg.MMU_RESTART_CNT 15 0)
      else match s1.physWrite (.core (.ac a)) true pte (leBytes 8 (markedEntry e k).toNat) with
        | (s2, .done) => .ok (s2.tlbPut a va pte e (markedEntry e k)) (leafPhys e va)
        | (s2, .lost) => .ok (s2.tlbPut a va pte e (markedEntry e k)) (leafPhys e va)
        | (s2, .wait) => .stall s2
        | (s2, _) => s2.walkFault a va k lv 2 pte false

/-- A walk and the use of its leaf. -/
def State.walkUse (s : State) (a : Fin 8) (va lvl : Nat) (k : Acc) (again : State → Res Nat) : Res Nat :=
  match s.walk a va with
  | (s1, .wait) => .stall s1
  | (s1, .fault lv r pte dev) => s1.walkFault a va k lv r pte dev
  | (s1, .leaf lv pte e) => s1.useLeaf a va lvl k lv pte e again

/-- Restart a walk at level 0, at most `n` times (R383). DEDUCED (log 20). -/
def State.walkAgain (a : Fin 8) (va lvl : Nat) (k : Acc) : Nat → State → Res Nat
  | 0, s => s.walkFault a va k 0 3 (s.rootTable a + 8 * (va / 2 ^ 39 % 512)) false
  | n + 1, s =>
    match s.walkLevels a va 4 0 (s.rootTable a) 0 with
    | (s1, .wait) => .stall s1
    | (s1, .fault lv r pte dev) => s1.walkFault a va k lv r pte dev
    | (s1, .leaf lv pte e) => s1.useLeaf a va lvl k lv pte e (State.walkAgain a va lvl k n)

/-- The level of the entry that a TLB entry was filled from. -/
def levelOfLog (l : Nat) : Nat := if 30 ≤ l then 1 else if 21 ≤ l then 2 else 3

/-- The cached translations of an address, the newest first. -/
def State.tlbHits (s : State) (a : Fin 8) (va : Nat) : List TlbEntry :=
  (s.core (.ac a)).tlb.filter (fun t => (t.asid == s.asid a || bitOf t.raw 6) && decide (t.vbase ≤ va ∧ va < t.vbase + 2 ^ t.log2))

/-- Translate an address (R375, R379, R381, R387). DEDUCED (log 19). -/
def State.translate (s : State) (a : Fin 8) (lvl : Nat) (k : Acc) (va : Nat) : Res Nat :=
  if !s.mmuOn a lvl then
    (if 2 ^ 46 ≤ va then .trap s ⟨k.fault, w32 va, false⟩ else .ok s va)
  else
    let again := State.walkAgain a va lvl k 16
    match s.pick (s.tlbHits a va) with
    | (s1, some t) =>
      let s2 := if needsMark t.raw k && leafGrants t.raw lvl k then s1.count (pgMmu a) Reg.MMU_WALK_CNT 15 0 else s1
      s2.useLeaf a va lvl k (levelOfLog t.log2) t.pte t.raw again
    | (s1, none) => s1.walkUse a va lvl k again

/-- An application core's access is checked: translation, then map (R25, R259, R375). -/
def State.acCheck (s : State) (a : Fin 8) (lvl : Nat) (k : Acc) (va : Nat) : Res Nat :=
  (s.translate a lvl k va).bind (fun s1 pa =>
    if !mapHas pa k.writes || (decide (0x2000000 ≤ pa ∧ pa < 0x2040000) && !s1.vaultOpen (.core (.ac a)) (lvl == 3) pa) then
      .trap s1 ⟨k.fault, w32 va, false⟩
    else .ok s1 pa)

/-- The flash region (R24). -/
def inFlash (a : Nat) : Bool := decide (0x4000000 ≤ a ∧ a < 0x5800000)

/-- A wrong-path or prefetch access (R276, R277, R386): where it takes place and its address are free. Its walk, if it meets no fault and
no mark has to be set, and reads nothing of a device or the flash, fills the translation caches. DESIGN CHOICE (log 21). -/
def State.speculate (s : State) (a : Fin 8) : State :=
  let lvl := (s.core (.ac a)).lvl
  if !s.mmuOn a lvl then s
  else
    let s1 := s.draw
    let va := (Config.specVa s.free).toNat
    let k : Acc := if Config.specFetch s.free then .fetch else .load
    if !Config.speculates s.free || inFlash (s.rootTable a) then s1
    else match s1.walk a va with
      | (s2, .leaf _ pte e) =>
        let pa := leafPhys e va
        let w := (s2.core (.ac a)).walk
        if leafGrants e lvl k && !needsMark e k && !isDevice pa && !inFlash pa && !inFlash pte && w.all (fun y => !inFlash y.table) then
          { s1.modCore (.ac a) (fun x => { x with walk := w, tlb := ((s2.tlbPut a va pte e e).core (.ac a)).tlb }) with free := s2.free }
        else s1
      | _ => s1

/-! ## Addresses and parts (R208, R263) -/

/-- The full address of a 32-bit address of a core: engines have no upper part. -/
def coreVa (c : CoreId) (hi : BitVec 16) (a : Word) : Nat :=
  match c with
  | .ce _ => a.toNat
  | .ac _ => a.toNat + hi.toNat * 2 ^ 32

/-- The boundary at which an access splits. -/
def splitAt : CoreId → Nat
  | .ce _ => 4
  | .ac _ => 64

/-- The one or two parts of an access: address and length; the upper one wraps within the 4 GB (R208, R263). -/
def partsOf (c : CoreId) (hi : BitVec 16) (a : Word) (n : Nat) : List (Nat × Nat) :=
  let b := splitAt c
  let room := b - a.toNat % b
  if n ≤ room then [(coreVa c hi a, n)]
  else [(coreVa c hi a, room), (coreVa c hi (a + BitVec.ofNat 32 room), n - room)]

/-- One part is checked. -/
def State.checkPart (s : State) (c : CoreId) (lvl : Nat) (k : Acc) (va : Nat) : Res Nat :=
  match c with
  | .ce e => s.ceCheck e lvl k va
  | .ac a => s.acCheck a lvl k va

/-- All parts are checked, the lower first: their physical addresses. -/
def State.checkParts (s : State) (c : CoreId) (lvl : Nat) (k : Acc) : List (Nat × Nat) → Res (List (Nat × Nat × Nat))
  | [] => .ok s []
  | (va, n) :: t => (s.checkPart c lvl k va).bind (fun s1 pa =>
      (s1.checkParts c lvl k t).bind (fun s2 l => .ok s2 ((va, pa, n) :: l)))

/-- The `MT` of the translation that served an address of a core (R377, R378): 0 where none applies. -/
def State.leafType (s : State) (c : CoreId) (lvl va : Nat) : Nat :=
  match c with
  | .ce _ => 0
  | .ac a => if s.mmuOn a lvl then (match s.tlbHits a va with | t :: _ => bitsOf t.raw 10 9 | [] => 0) else 0

/-! ## The store buffer (R259 to R262, R269, R333) -/

/-- Deterministic mode is active (R266). -/
def Core.det (k : Core) (c : CoreId) : Bool := bitOf k.dmode 0 || (isCe c && bitOf k.dmode 1 && k.ctx == .fg)

/-- Entries of a core's store buffer. -/
def sbSize : CoreId → Nat
  | .ce _ => 4
  | .ac _ => 8

/-- A write that leaves a core: the own LSRAM of a locked pair is written in both members (R330). DESIGN CHOICE (log 63). -/
def State.coreWrite (s : State) (c : CoreId) (m : Bool) (pa : Nat) (bs : List Byte) : State × Ans :=
  let x := s.physWrite (.core c) m pa bs
  match c with
  | .ce e => if s.locked c && ownLsram e pa then (((x.1.physWrite (.core (checkerOf (pairOf c))) m (pa + 0x8000) bs).1), x.2)
      else (x.1.dmaSettle, x.2)
  | .ac _ => (x.1.dmaSettle, x.2)

/-- The oldest entry drains; false where its target does not answer yet. A failing write is lost (R262).
DEDUCED (log 18). DESIGN CHOICE (log 63). -/
def State.drainFirst (s : State) (c : CoreId) : State × Bool :=
  match (s.core c).sbuf with
  | [] => (s, true)
  | e :: t =>
    match s.coreWrite c e.m e.pa e.bytes with
    | (s1, .wait) => (s1, false)
    | (s1, _) => (s1.modCore c (fun k => { k with sbuf := t }), true)

/-- The `n` oldest entries drain. -/
def State.drainN (s : State) (c : CoreId) : Nat → State × Bool
  | 0 => (s, true)
  | n + 1 =>
    let x := s.drainFirst c
    if x.2 then x.1.drainN c n else x

/-- The whole buffer drains. DEDUCED (log 18). -/
def State.drainAll (s : State) (c : CoreId) : State × Bool := s.drainN c (s.core c).sbuf.length

/-- A part of an instruction that first waits for the buffer to empty. -/
def State.drained (s : State) (c : CoreId) : Res Unit :=
  let x := s.drainAll c
  if x.2 then .ok x.1 () else .stall x.1

/-- An entry and an access share a byte. -/
def SbEntry.meets (e : SbEntry) (pa n : Nat) : Bool := decide (e.pa < pa + n ∧ pa < e.pa + e.bytes.length)

/-- How many entries, from the oldest on, reach up to the last one that satisfies `f`. -/
def lastIdx (f : SbEntry → Bool) (l : List SbEntry) : Nat := l.length - (l.reverse.takeWhile (fun e => !f e)).length

/-- Bytes of an access with those that a buffered store holds put over them (R269). -/
def SbEntry.lay (e : SbEntry) (pa : Nat) (bs : List Byte) : List Byte :=
  bs.zipIdx.map (fun x => if e.pa ≤ pa + x.2 then e.bytes.getD (pa + x.2 - e.pa) x.1 else x.1)

/-- A store's bytes put into an older entry that it overlaps (R269). -/
def SbEntry.merge (e : SbEntry) (pa : Nat) (bs : List Byte) : SbEntry :=
  { e with bytes := e.bytes.zipIdx.map (fun x => if pa ≤ e.pa + x.2 then bs.getD (e.pa + x.2 - pa) x.1 else x.1) }

/-- The target of a store, within which entries drain in order (R259): a memory unit, a device page, else its region. -/
def sbTarget (pa : Nat) : Nat :=
  match unitOf pa with
  | some m => m.base
  | none => if isDevice pa then pa / 4096 * 4096 + 1 else if isHostMem pa then 2 else 3

/-! ## Loads, stores, fetches -/

/-- The answer to one checked part of a read. -/
def State.rawRead (s : State) (c : CoreId) (lvl : Nat) (k : Acc) (va pa n : Nat) : Res (List Byte) :=
  let own := match c with | .ce e => s.locked c && ownLsram e pa | .ac _ => false
  let x := s.physRead (.core c) (lvl == 3) pa n
  let y := if own then x.1.eccRead (.core (checkerOf (pairOf c))) (pa + 0x8000) n else (x.1, false)
  if own && (x.2 == .uncorr || y.2) then .stall (y.1.mismatch (pairOf c) 6 0)
  else match x.2 with
    | .data bs => .ok y.1 bs
    | .uncorr => .trap y.1 ⟨0x16, w32 va, false⟩
    | .busy bs => if k = .fetch ∨ s.locked c then .trap y.1 ⟨0xB, w32 va, false⟩ else .ok y.1 bs
    | .wait => .stall y.1
    | _ => .trap y.1 ⟨k.fault, w32 va, false⟩

/-- Bytes of an instruction cache line: 32 on an engine (R250), on an application core those of a line of the L2. DEDUCED (log 72). -/
def icLine : CoreId → Nat
  | .ce _ => 32
  | .ac _ => 64

/-- Fetches that the instruction cache serves: those of an engine outside its own LSRAM, those of an application core outside device
regions while deterministic mode does not bypass the cache (R250, R267). -/
def Core.icServes (k : Core) (c : CoreId) (pa : Nat) : Bool :=
  match c with
  | .ce e => !ownLsram e pa
  | .ac _ => !k.det c && !isDevice pa

/-- One checked part of a fetch: a line that the instruction cache still holds is not read again (R264, R437). DESIGN CHOICE (log 21). -/
def State.fetchPart (s : State) (c : CoreId) (lvl va pa n : Nat) : Res Unit :=
  let ls := (List.range ((pa + n - 1) / icLine c - pa / icLine c + 1)).map (fun i => pa / icLine c + i)
  let read (s : State) : Res Unit := (s.rawRead c lvl .fetch va pa n).bind (fun s1 _ => .ok s1 ())
  if !(s.core c).icServes c pa || s.leafType c lvl va != 0 || (isHostMem pa && !s.hostCached) then read s
  else
    let x := if ls.all (fun l => (s.core c).icache.contains l) then s.keeps else (s, false)
    if x.2 then .ok x.1 ()
    else (read (x.1.modCore c (fun k => { k with icache := k.icache.filter (fun l => !ls.contains l) }))).bind (fun s1 _ =>
      .ok (s1.modCore c (fun k => { k with icache := ls ++ k.icache })) ())

/-- Fetch parts: the buffer does not serve fetches (R264). -/
def State.fetchParts (s : State) (c : CoreId) (lvl : Nat) : List (Nat × Nat × Nat) → Res Unit
  | [] => .ok s ()
  | (va, pa, n) :: t => (s.fetchPart c lvl va pa n).bind (fun s1 _ => s1.fetchParts c lvl t)

/-- The `n` bytes of an instruction at `a` are fetched (R220, R267). DESIGN CHOICE (log 16 and 21). -/
def State.coreFetch (s : State) (c : CoreId) (hi : BitVec 16) (a : Word) (n : Nat) : Res Unit :=
  let k := s.core c
  let outside := match c with | .ce _ => k.det c && decide (0x8000 < a.toNat + n) | .ac _ => false
  if outside then .trap s ⟨4, if a.toNat < 0x8000 then 0x8000 else a, false⟩
  else (s.checkParts c k.lvl .fetch (partsOf c hi a n)).bind (fun s1 l => s1.fetchParts c k.lvl l)

/-- One checked part of a load, through the store buffer (R260, R261, R269). `direct` reads as deterministic mode does. -/
def State.loadPart (s : State) (c : CoreId) (lvl : Nat) (k : Acc) (direct : Bool) (va pa n : Nat) : Res (List Byte) :=
  let sb := (s.core c).sbuf
  let after (f : SbEntry → Bool) : Res (List Byte) :=
    let x := s.drainN c (lastIdx f sb)
    if x.2 then x.1.rawRead c lvl k va pa n else .stall x.1
  if direct && sb.any (fun e => e.meets pa n) then
    (s.rawRead c lvl k va pa n).bind (fun s1 bs => .ok s1 (sb.foldl (fun b e => e.lay pa b) bs))
  else if devLoad c pa || s.leafType c lvl va == 2 then after (fun e => e.pa / 4096 == pa / 4096 || e.meets pa n)
  else match sb.reverse.find? (fun e => e.meets pa n) with
    | some e => if e.pa = pa ∧ e.bytes.length = n then .ok s e.bytes else after (fun e => e.meets pa n)
    | none => s.rawRead c lvl k va pa n

/-- The place of a data cause in the order of causes (R282). -/
def causeRank (code : Nat) : Nat := if code = 0x16 then 7 else if code = 0xB then 6 else 5

/-- Checked parts of a load, the lower first; of two causes the one that R282 puts first is raised. -/
def State.loadParts (s : State) (c : CoreId) (lvl : Nat) (k : Acc) (direct : Bool) : List (Nat × Nat × Nat) → Res (List Byte)
  | [] => .ok s []
  | (va, pa, n) :: t =>
    match s.loadPart c lvl k direct va pa n with
    | .ok s1 b => (s1.loadParts c lvl k direct t).bind (fun s2 l => .ok s2 (b ++ l))
    | .stall s1 => .stall s1
    | .trap s1 x =>
      match s1.loadParts c lvl k direct t with
      | .trap s2 y => .trap s2 (if causeRank y.code < causeRank x.code then y else x)
      | .ok s2 _ => .trap s2 x
      | .stall s2 => .stall s2

/-- A load (or fill) of `n` bytes at level `lvl`: both halves are checked before either is read (R263). -/
def State.coreLoad (s : State) (c : CoreId) (lvl : Nat) (k : Acc) (hi : BitVec 16) (a : Word) (n : Nat) : Res Word :=
  (s.checkParts c lvl k (partsOf c hi a n)).bind (fun s1 l =>
    (s1.loadParts c lvl k ((s.core c).det c || k == .fill) l).bind (fun s2 b => .ok s2 (w32 (leNat b))))

/-- One checked part of a store that completes at once (R267, R269). -/
def State.storeNow (s : State) (c : CoreId) (lvl : Nat) (k : Acc) (va pa : Nat) (bs : List Byte) : Res Unit :=
  match s.coreWrite c (lvl == 3) pa bs with
  | (s1, .done) => .ok (s1.modCore c (fun x => { x with sbuf := x.sbuf.map (fun e => if e.meets pa bs.length then e.merge pa bs else e) })) ()
  | (s1, .lost) => .ok s1 ()
  | (s1, .wait) => .stall s1
  | (s1, _) => .trap s1 ⟨k.fault, w32 va, false⟩

/-- Checked parts of a store that completes at once. -/
def State.storeNowParts (s : State) (c : CoreId) (lvl : Nat) (k : Acc) (bs : List Byte) : List (Nat × Nat × Nat) → Res Unit
  | [] => .ok s ()
  | (va, pa, n) :: t => (s.storeNow c lvl k va pa (bs.take n)).bind (fun s1 _ => s1.storeNowParts c lvl k (bs.drop n) t)

/-- Buffer entries of the checked parts of a store. -/
def sbParts (m : Bool) (bs : List Byte) : List (Nat × Nat × Nat) → List SbEntry
  | [] => []
  | (va, pa, n) :: t => ⟨va, pa, m, bs.take n⟩ :: sbParts m (bs.drop n) t

/-- A store that does not complete leaves memory as it was, a half that has been written included (R233, R246). -/
def State.wholeStore (s : State) (r : Res Unit) : Res Unit :=
  match r with
  | .ok s1 _ => .ok s1 ()
  | .trap _ t => .trap s t
  | .stall _ => .stall s

/-- A store (or spill) of bytes: both halves are checked before either is performed; it enters the buffer, waiting while
the buffer is full, or completes at once in deterministic mode and for a spill (R242, R259, R263, R267). DEDUCED (log 18). -/
def State.coreStore (s : State) (c : CoreId) (lvl : Nat) (k : Acc) (hi : BitVec 16) (a : Word) (bs : List Byte) : Res Unit :=
  (s.checkParts c lvl k (partsOf c hi a bs.length)).bind (fun s1 l =>
    if (s.core c).det c || k == .spill then s1.wholeStore (s1.storeNowParts c lvl k bs l)
    else
      let x := s1.drainN c ((s1.core c).sbuf.length + l.length - sbSize c)
      if x.2 then .ok (x.1.modCore c (fun y => { y with sbuf := y.sbuf ++ sbParts (lvl == 3) bs l })) () else .stall x.1)

/-- An atomic on an aligned word (R207, R243): the buffer drains before it issues; `f` gives the word to store, if any. DEDUCED (log 22). -/
def State.coreAtomic (s : State) (c : CoreId) (lvl : Nat) (hi : BitVec 16) (a : Word) (f : Word → Option Word) : Res Word :=
  let va := coreVa c hi a
  (s.drained c).bind (fun s0 _ => if a.toNat % 4 ≠ 0 then .trap s0 ⟨3, w32 va, false⟩
  else (s0.checkPart c lvl .load va).bind (fun s1 _ => (s1.checkPart c lvl .store va).bind (fun s2 pa =>
    if isDevPage pa then .trap s2 ⟨6, w32 va, false⟩
    else (s2.rawRead c lvl .load va pa 4).bind (fun s3 b =>
      match f (w32 (leNat b)) with
      | some v => (s3.storeNow c lvl .store va pa (leBytes 4 v.toNat)).bind (fun s4 _ => .ok s4 (w32 (leNat b)))
      | none => .ok s3 (w32 (leNat b))))))

end Sys2Proof.Machine
end

