-- ==== Sys2Proof/Machine/Operands.lean ====
section
/-! DEFINITION. The operand and return stacks: pending cells, fills and spills, the accumulator, and the S bank's record
(R193 to R200, R235, R246, R252 to R255, R294). -/

namespace Sys2Proof.Machine

/-! ## Pending cells (R235, R252 to R255) -/

/-- A cell takes the value it waits for. -/
def Cell.fill (c : Cell) (id : Nat) (v : Word) : Cell := if c.pend = some id then ⟨v, none⟩ else c

/-- A bank's cells and accumulator take a value they wait for. -/
def Bank.fill (b : Bank) (id : Nat) (v : Word) : Bank :=
  let b1 := { b with cells := b.cells.map (fun c => c.fill id v) }
  let b2 := if b.accLo = some id then { b1 with acc := (b1.acc &&& 0xFFFFFFFF00000000) ||| v.setWidth 64, accLo := none } else b1
  if b.accHi = some id then { b2 with acc := (b2.acc &&& 0xFFFFFFFF) ||| (v.setWidth 64 <<< 32), accHi := none } else b2

/-- A recorded delay slot keeps its bank's cells in step with what arrives. -/
def Slot.fill (d : Slot) (id : Nat) (v : Word) : Slot := { d with saved := d.saved.fill id v }

/-- The same of a recorded tail. -/
def TailRec.fill (r : TailRec) (id : Nat) (v : Word) : TailRec := { r with slot := r.slot.map (fun d => d.fill id v) }

/-- The same of the banks that an entry in progress may return to. -/
def Entry.fill (x : Entry) (id : Nat) (v : Word) : Entry :=
  { x with snap := { x.snap with bTl := x.snap.bTl.fill id v, bS := x.snap.bS.fill id v, bM := x.snap.bM.fill id v } }

/-- Every bank of a core, also a recorded one, takes a value. -/
def Core.fillBanks (k : Core) (id : Nat) (v : Word) : Core :=
  { k with bFg := k.bFg.fill id v, bTl := k.bTl.fill id v, bS := k.bS.fill id v, bM := k.bM.fill id v
           slot := k.slot.map (fun d => d.fill id v), pre := k.pre.map (fun r => r.fill id v)
           ovrRecs := k.ovrRecs.map (fun r => r.fill id v), entry := k.entry.map (fun x => x.fill id v) }

/-- The value numbered `id` arrives, if it is known: its cell is filled, if it still exists (R252, R255). -/
def Core.arrive (k : Core) (id : Nat) : Core :=
  match k.pend.find? (fun p => p.id == id) with
  | some ⟨_, some v, _⟩ => { k with pend := k.pend.filter (fun p => p.id != id) }.fillBanks id v
  | _ => k

/-- Every value that is known arrives. DEDUCED (log 17). -/
def Core.arriveAll (k : Core) : Core := k.pend.foldl (fun k p => k.arrive p.id) k

/-- A part of an instruction that reads a value: it waits for it, or stalls where no value is on its way yet (R253). DEDUCED (log 17). -/
def State.await (s : State) (c : CoreId) (id : Option Nat) : Res Unit :=
  match id with
  | none => .ok s ()
  | some i =>
    match (s.core c).pend.find? (fun p => p.id == i) with
    | some ⟨_, none, _⟩ => .stall s
    | _ => .ok (s.modCore c (fun k => k.arrive i)) ()

/-- A new pending value, known or (WAITS) not yet: the cell that waits for it. -/
def Core.pending (k : Core) (v : Option Word) (waits : Bool) : Core × Cell :=
  ({ k with pend := k.pend ++ [⟨k.nextId, v, waits⟩], nextId := k.nextId + 1 }, ⟨0, some k.nextId⟩)

/-! ## Fills and spills (R195 to R198) -/

/-- Change a bank of a core. -/
def State.modStack (s : State) (c : CoreId) (b : BankId) (f : Bank → Bank) : State :=
  s.modCore c (fun k => k.setBank b (f (k.bankOf b)))

/-- Fill up to `n` missing operand cells (R195, R196). DEDUCED (log 18). -/
def State.fillCells (s : State) (c : CoreId) (b : BankId) : Nat → Res Unit
  | 0 => .ok s ()
  | n + 1 =>
    let k := s.core c
    let x := k.bankOf b
    if x.dsp = x.dsb then .trap s ⟨8, 0, false⟩
    else (s.coreLoad c k.lvl .fill x.vhi x.dsp 4).bind (fun s1 v =>
      (s1.modStack c b (fun x => { x with cells := x.cells ++ [⟨v, none⟩], dsp := x.dsp + 4 })).fillCells c b n)

/-- An instruction that needs `n` operand cells has them cached (R195, R237). -/
def State.needCells (s : State) (c : CoreId) (n : Nat) : Res Unit :=
  let k := s.core c
  s.fillCells c k.bank (n - k.cur.cells.length)

/-- The deepest operand cells are spilled until 16 are cached (R195, R197, R255). DEDUCED (log 62). -/
def State.spillCells (s : State) (c : CoreId) (b : BankId) : Nat → Res Unit
  | 0 => .ok s ()
  | n + 1 =>
    let k := s.core c
    let x := k.bankOf b
    if x.cells.length ≤ 16 then .ok s ()
    else (s.await c (match x.cells.getLast? with | some d => d.pend | none => none)).bind (fun s1 _ =>
      let y := (s1.core c).bankOf b
      let v := match y.cells.getLast? with | some d => d.val | none => 0
      (s1.coreStore c k.lvl .spill y.vhi (y.dsp - 4) (leBytes 4 v.toNat)).bind (fun s2 _ =>
        (s2.modStack c b (fun x => { x with cells := x.cells.dropLast, dsp := x.dsp - 4 })).spillCells c b n))

/-- Results go onto the operand stack, the last one on top. DEDUCED (log 18). -/
def State.pushCells (s : State) (c : CoreId) (l : List Cell) : Res Unit :=
  let b := (s.core c).bank
  (s.modStack c b (fun x => { x with cells := l.reverse ++ x.cells })).spillCells c b l.length

/-- Results that are values. -/
def State.pushVals (s : State) (c : CoreId) (l : List Word) : Res Unit := s.pushCells c (l.map (fun v => ⟨v, none⟩))

/-- The return stack has an entry (R198). -/
def State.needRet (s : State) (c : CoreId) : Res Unit :=
  let k := s.core c
  let x := k.cur
  if !x.rets.isEmpty then .ok s ()
  else if x.rsp = x.rsb then .trap s ⟨8, 1, false⟩
  else (s.coreLoad c k.lvl .fill x.vhi x.rsp 4).bind (fun s1 v =>
    .ok (s1.modCore c (fun k => k.modCur (fun x => { x with rets := [v], rsp := x.rsp + 4 }))) ())

/-- A return address goes onto the return stack (R198). -/
def State.pushRet (s : State) (c : CoreId) (r : Word) : Res Unit :=
  let k := s.core c
  let x := k.cur
  if x.rets.length < 8 then .ok (s.modCore c (fun k => k.modCur (fun x => { x with rets := r :: x.rets }))) ()
  else (s.coreStore c k.lvl .spill x.vhi (x.rsp - 4) (leBytes 4 (x.rets.getLastD 0).toNat)).bind (fun s1 _ =>
    .ok (s1.modCore c (fun k => k.modCur (fun x => { x with rets := r :: x.rets.dropLast, rsp := x.rsp - 4 }))) ())

/-! ## Reading operands (R193, R235, R253) -/

/-- The cells `idx` (0 is T0) are waited for. DEDUCED (log 17). -/
def State.awaitCells (s : State) (c : CoreId) : List Nat → Res Unit
  | [] => .ok s ()
  | i :: t => (s.await c (match (s.core c).cur.cells[i]? with | some x => x.pend | none => none)).bind (fun s1 _ => s1.awaitCells c t)

/-- The top `n` cells are read: T0 first. -/
def State.readCells (s : State) (c : CoreId) (n : Nat) : Res (List Word) :=
  (s.needCells c n).bind (fun s1 _ => (s1.awaitCells c (List.range n)).bind (fun s2 _ =>
    .ok s2 (((s2.core c).cur.cells.take n).map (fun x => x.val))))

/-- Drop the top `n` cells. -/
def State.dropCells (s : State) (c : CoreId) (n : Nat) : State :=
  s.modCore c (fun k => k.modCur (fun x => { x with cells := x.cells.drop n }))

/-- Operands are popped: the list has T0 first. -/
def State.popCells (s : State) (c : CoreId) (n : Nat) : Res (List Word) :=
  (s.readCells c n).bind (fun s1 l => .ok (s1.dropCells c n) l)

/-! ## The accumulator (R200, R254) -/

/-- ACC's pending bits are waited for. -/
def State.awaitAcc (s : State) (c : CoreId) (b : BankId) : Res Unit :=
  (s.await c ((s.core c).bankOf b).accLo).bind (fun s1 _ => s1.await c ((s1.core c).bankOf b).accHi)

/-! ## The S bank's record (R246, R290, R294) -/

/-- A bank's `DEPTH`. -/
def Bank.depth (b : Bank) : Word := w32 (b.cells.length + 256 * b.rets.length)

/-- The 32 words of a bank's record (R294). -/
def Bank.record (b : Bank) : List Word :=
  (List.range 16).map (fun i => match b.cells[i]? with | some x => x.val | none => 0)
  ++ (List.range 8).map (fun j => b.rets.getD j 0)
  ++ [b.acc.setWidth 32, (b.acc >>> 32).setWidth 32, b.fcsr, b.dsp, b.dsb, b.rsp, b.rsb, b.depth]

/-- A bank rebuilt from its record: every cell is readable (R294). -/
def Bank.ofRecord (old : Bank) (l : List Word) : Bank :=
  let g (i : Nat) : Word := l.getD i 0
  let d := g 31
  { old with
    cells := ((l.take 16).take (bitsOf d 4 0)).map (fun v => ⟨v, none⟩)
    rets := ((l.drop 16).take 8).take (bitsOf d 11 8)
    acc := ((g 25).setWidth 64 <<< 32) ||| (g 24).setWidth 64, accLo := none, accHi := none
    fcsr := g 26 &&& 0x73F, dsp := g 27 &&& 0xFFFFFFFC, dsb := g 28 &&& 0xFFFFFFFC, rsp := g 29 &&& 0xFFFFFFFC
    rsb := g 30 &&& 0xFFFFFFFC }

/-- Any trap of a part turns into `t`; a stall remains. -/
def Res.elseTrap {α : Type} (r : Res α) (t : Trap) : Res α :=
  match r with
  | .trap s _ => .trap s t
  | x => x

/-- Words of the record are stored. -/
def State.putRecord (s : State) (c : CoreId) (lvl : Nat) (hi : BitVec 16) (a : Word) : List Word → Res Unit
  | [] => .ok s ()
  | w :: t => (s.coreStore c lvl .spill hi a (leBytes 4 w.toNat)).bind (fun s1 _ => s1.putRecord c lvl hi (a + 4) t)

/-- Words of the record are loaded. -/
def State.getRecord (s : State) (c : CoreId) (lvl : Nat) (hi : BitVec 16) (a : Word) : Nat → Res (List Word)
  | 0 => .ok s []
  | n + 1 => (s.coreLoad c lvl .fill hi a 4).bind (fun s1 w => (s1.getRecord c lvl hi (a + 4) n).bind (fun s2 l => .ok s2 (w :: l)))

/-- All 128 bytes of a record are probed (R246). DEDUCED (log 44). -/
def State.probeRecord (s : State) (c : CoreId) (lvl : Nat) (k : Acc) (hi : BitVec 16) (a : Word) : Nat → Res Unit
  | 0 => .ok s ()
  | n + 1 => (s.checkPart c lvl k (coreVa c hi a)).bind (fun s1 _ => s1.probeRecord c lvl k hi (a + 4) n)

/-- The pending cells of the S bank are waited for (R290). -/
def State.awaitS (s : State) (c : CoreId) : List (Option Nat) → Res Unit
  | [] => .ok s ()
  | p :: t => (s.await c p).bind (fun s1 _ => s1.awaitS c t)

/-- SAVE (R246): the record goes to `SSP` − 128; any failure is the trap `t`, and memory then keeps its old values. -/
def State.saveS (s : State) (c : CoreId) (lvl : Nat) (t : Trap) : Res Unit :=
  ((s.awaitS c ((s.core c).bS.cells.map (fun x => x.pend))).bind (fun s0 _ => s0.awaitAcc c .s)).bind (fun s1 _ =>
    let k := s1.core c
    let a := k.ssp - 128
    let hi := k.cur.vhi
    if k.ssp.toNat % 64 ≠ 0 then .trap s1 t
    else (((s1.probeRecord c lvl .spill hi a 32).bind (fun s2 _ => s2.wholeStore (s2.putRecord c lvl hi a k.bS.record))).elseTrap t).bind
      (fun s3 _ => .ok (s3.modCore c (fun x => { x with ssp := a })) ()))

/-- RESTORE (R246): the S bank comes from the record at `SSP`; any failure is the trap `t`. DEDUCED (log 44): R246 asks for a
writable record of both instructions. -/
def State.restoreS (s : State) (c : CoreId) (lvl : Nat) (t : Trap) : Res Unit :=
  let k := s.core c
  let hi := k.cur.vhi
  if k.ssp.toNat % 64 ≠ 0 then .trap s t
  else (((s.probeRecord c lvl .fill hi k.ssp 32).bind (fun s0 _ => (s0.probeRecord c lvl .spill hi k.ssp 32).bind (fun s1 _ =>
      s1.getRecord c lvl hi k.ssp 32))).elseTrap t).bind (fun s2 l => .ok (s2.modCore c (fun x => { x with ssp := x.ssp + 128, bS := x.bS.ofRecord l })) ())

end Sys2Proof.Machine
end

