-- ==== Sys2Proof/Machine/Fusion.lean ====
section
/-! DEFINITION. Pairs of instructions that issue as one (R256 to R258): no interrupt is taken between the two. The pair is read from
the bytes of the fetch stream. -/

namespace Sys2Proof.Machine

/-- Bytes of an instruction by its first byte (R209). -/
def opLength (op : Nat) : Nat := if op < 0x80 then 1 else if op < 0xC0 then 2 else 4

/-- A load, by opcode, and one that leaves its address above the value (.PI). -/
def opLoad (o : Nat) : Bool := decide ((0x50 ≤ o ∧ o ≤ 0x54) ∨ (0x58 ≤ o ∧ o ≤ 0x5C) ∨ (0x60 ≤ o ∧ o ≤ 0x73))
/-- See `opLoad`. -/
def opLoadPi (o : Nat) : Bool := decide (0x58 ≤ o ∧ o ≤ 0x5C)
/-- A load, store or atomic, LIT32 included (R238). -/
def opMem (o : Nat) : Bool := decide ((0x42 ≤ o ∧ o ≤ 0x46) ∨ (0x50 ≤ o ∧ o ≤ 0x7F) ∨ o = 0xC3)
/-- A branch, CALL, CALLI, JMPI or RET. -/
def opBranch (o : Nat) : Bool := [0x47, 0x48, 0x49, 0xC0, 0xC1].contains o
/-- A shuffle. -/
def opShuffle (o : Nat) : Bool := decide (2 ≤ o ∧ o ≤ 7) || o == 0x87 || o == 0x88
/-- A system instruction of opcode rows 0x0 and 0x8. -/
def opSystem (o : Nat) : Bool := decide ((8 ≤ o ∧ o ≤ 0xF) ∨ (0x8A ≤ o ∧ o ≤ 0x8D))

/-- The instruction with opcode `o` and second byte `i` reads T0 (R193, R235). -/
def opReads0 (o i : Nat) : Bool :=
  (decide (0x10 ≤ o ∧ o ≤ 0x48) && o != 0x2F) || [0x02, 0x0D, 0x4B, 0x4E, 0x89, 0x8B, 0x8D, 0xC4, 0xC5].contains o
    || decide (0x50 ≤ o ∧ o ≤ 0x7F) || decide (0x81 ≤ o ∧ o ≤ 0x86) || (o == 0x87 && i == 0) || (o == 0xC2 && i == 3)
    || (o == 0xC0 && i / 2 % 8 != 0)

/-- The instruction reads T1. -/
def opReads1 (o i : Nat) : Bool :=
  (decide (0x10 ≤ o ∧ o ≤ 0x3D) && !([0x19, 0x23, 0x28, 0x2F, 0x35, 0x37, 0x38].contains o)) || decide (0x42 ≤ o ∧ o ≤ 0x46)
    || [0x05, 0x0D, 0xC5].contains o || decide (0x55 ≤ o ∧ o ≤ 0x57) || decide (0x5D ≤ o ∧ o ≤ 0x7F) || (o == 0x87 && i == 1)

/-- The instruction writes no cell. -/
def opWritesNone (o : Nat) : Bool := [1, 0x2C, 0x2D, 0x2E, 0x47, 0x48, 0x49, 0x4B, 0x55, 0x56, 0x57, 0xC0, 0xC1].contains o || decide (0x74 ≤ o ∧ o ≤ 0x7F)

/-- The instruction reads no cell. -/
def opReadsNone (o i : Nat) : Bool := [1, 0x2F, 0x49, 0x80, 0xC1, 0xC3].contains o || (o == 0xC2 && i != 3) || (o == 0xC0 && i / 2 % 8 == 0)

/-- An engine fuses two adjacent instructions (Table: Engine fused pairs); `own` says that the first loaded from the own LSRAM. -/
def fusesCe (o o2 i2 : Nat) (own : Bool) : Bool :=
  let row := decide (0x10 ≤ o2 ∧ o2 ≤ 0x3F)
  ((o == 0x80 || o == 0xC2) && ((row && o2 != 0x2F) || (o2 == 0xC2 && i2 == 3)))
    || ([0x02, 0x04, 0x05, 0x87].contains o && row)
    || (own && opLoad o && (if opLoadPi o then opReads1 o2 i2 else opReads0 o2 i2))
    || ([0x1E, 0x1F, 0x3B, 0x3C, 0x3D].contains o && o2 == 0xC0 && (i2 / 2 % 8 == 1 || i2 / 2 % 8 == 2))

/-- An application core issues two consecutive instructions in one cycle (R258). -/
def fusesAc (o o2 i2 : Nat) : Bool :=
  (opWritesNone o || opReadsNone o2 i2 || opShuffle o || o == 0x80 || o == 0xC2)
    && !(opMem o && opMem o2) && !(opBranch o && opBranch o2) && !opSystem o && !opSystem o2

/-- An address lies in the core's barred range (R275). -/
def Core.barred (k : Core) (c : CoreId) (a : Word) : Bool :=
  match k.bar with
  | some (lo, hi, v) => decide (lo.toNat ≤ a.toNat ∧ a.toNat ≤ hi.toNat) && (isCe c || v == k.cur.vhi)
  | none => false

/-- Where a fetch address of a core lies, where that is known without a walk. -/
def State.fetchPhys (s : State) (c : CoreId) (a : Word) : Option Nat :=
  match c with
  | .ce e => some (s.cePhys e a.toNat)
  | .ac x =>
    let k := s.core c
    let va := coreVa c k.fetchHi a
    if !s.mmuOn x k.lvl then some va
    else (k.tlb.find? (fun t => (t.asid == s.asid x || bitOf t.raw 6) && decide (t.vbase ≤ va ∧ va < t.vbase + 2 ^ t.log2))).map
      (fun t => leafPhys t.raw va)

/-- The instruction that a core is about to issue is the second of a pair whose first has retired (R256 to R258). -/
def State.pairHere (s : State) (c : CoreId) : Bool :=
  let k := s.core c
  match k.first with
  | none => false
  | some (a, own) =>
    match s.fetchPhys c a, s.fetchPhys c k.pc with
    | some p, some q =>
      let o := (s.byteAt p).toNat
      let o2 := (s.byteAt q).toNat
      let i2 := (s.byteAt (q + 1)).toNat
      k.pc == a + BitVec.ofNat 32 (opLength o) && k.barred c a == k.barred c k.pc && !k.det c
        && (if isCe c then fusesCe o o2 i2 own
          else fusesAc o o2 i2 && a.toNat / 32 == k.pc.toNat / 32)
    | _, _ => false

end Sys2Proof.Machine
end

