-- ==== Sys2Proof/Machine/Traps.lean ====
section
/-! DEFINITION. Taking a trap and returning from one, interrupts, and the frame contexts of an engine
(11_traps_and_privilege.md, R278 to R304; R56 to R61, R215, R217, R341, R349). -/

namespace Sys2Proof.Machine

/-! ## Entry (R286 to R293) -/

/-- Bits of `STATUS` (R285). -/
def stSIE : Nat := 4
def stPSIE : Nat := 5
def stMIE : Nat := 6
def stPMIE : Nat := 7
def stSCRIT : Nat := 10
def stMCRIT : Nat := 11

/-- `STATUS.PPL`. -/
def Core.ppl (k : Core) : Nat := bitsOf k.status 3 2

/-- `STATUS.PBK`. -/
def Core.pbk (k : Core) : Nat := bitsOf k.status 9 8

/-- A word with one bit set to a value. -/
def putBit (w : Word) (i : Nat) (b : Bool) : Word := putBits w i i (b2n b)

/-- The predictor is emptied at trap entry, and at a RETT that changes the level, under `FLPRIV` (R272). -/
def Core.flushPriv (k : Core) : Core := if bitOf k.predMode 3 then k.emptyPredictor else k

/-- The bank code an entry keeps in `PBK`: none on application cores (R285). -/
def pbkOf (c : CoreId) (b : BankId) : Nat := if isCe c then bankCode b else 0

/-- Entry to M (R286, R288, R289): `pbk` is the bank code it keeps, `e` what R299 and R302 need of it. -/
def Core.enterM (k : Core) (cause tval epc : Word) (pbk : Nat) (e : Option Entry) : Core :=
  let below := k.lvl != 3
  let st := putBit k.status stMIE false
  let st1 :=
    if below then putBits (putBits st 3 2 k.lvl) 9 8 pbk
    else putBit (putBits st 3 2 3) stPMIE (bitOf k.status stMIE)
  { k.flushPriv with
    mframe := if below then ⟨k.epc, k.cause, k.tval, k.status⟩ else k.mframe
    epc := epc, cause := cause, tval := tval, status := putBits (putBit st1 stMCRIT true) 1 0 3
    lvlrec := (k.lvlrec <<< 2) ||| 3, bM := if below then k.bM.emptied else k.bM, mInUse := true, bank := .m
    pc := k.evecM, bootHi := none, slot := none, wfi := false, entry := e, first := none }

/-- The S bank as a nested entry leaves it: empty above what it has spilled (R288). -/
def Bank.nested (b : Bank) : Bank :=
  { b with cells := [], rets := [], acc := 0, accLo := none, accHi := none, dsb := b.dsp, rsb := b.rsp }

/-- Entry to S (R286, R288): into an empty bank, or over the saved record of the bank in use. -/
def Core.enterS (k : Core) (cause tval epc : Word) (pbk : Nat) (e : Option Entry) : Core :=
  let st := putBits (putBits k.status 3 2 k.lvl) 9 8 pbk
  let st1 := putBit (putBit (putBit st stPSIE (bitOf k.status stSIE)) stSIE false) stSCRIT true
  { k.flushPriv with
    epc := epc, cause := cause, tval := tval, status := putBits st1 1 0 1, lvlrec := (k.lvlrec <<< 2) ||| 1
    bS := if k.sInUse then k.bS.nested else k.bS.emptied, sNest := if k.sInUse then k.sNest + 1 else 0, sInUse := true
    bank := .s, pc := k.evecS, bootHi := none, slot := none, wfi := false, entry := e, first := none }

/-- A handler entered from idle is part of the tail (R301). -/
def Core.fromIdle (k : Core) : Core := if k.ctx == .idle then { k with ctx := .tail, bank := .tl, idleRet := true } else k

/-- S bank records that were open at the tick (R303). -/
def Core.nestAtTick (k : Core) : Nat := match k.pre with | some r => if r.sInUse then r.sNest else 0 | none => 0

/-- The place of the first record saved in this foreground is noted (R303). -/
def Core.noteRec (k : Core) (nest : Nat) : Core := if k.ctx == .fg && nest == k.nestAtTick then { k with fgRec := some k.ssp } else k

/-- Enter S, the S bank saved first where it is in use; where that fails, M takes SSP_INVALID (R288, R290). -/
def State.entryS (s : State) (c : CoreId) (cause tval epc : Word) (pbk : Nat) (e : Option Entry) : State :=
  let k := s.core c
  if k.sInUse then
    match s.saveS c 1 ⟨0x14, cause, true⟩ with
    | .ok s1 _ => s1.modCore c (fun x => (x.noteRec k.sNest).enterS cause tval epc pbk e)
    | .trap s1 _ => s1.modCore c (fun x => ({ k with sbuf := x.sbuf, tlb := x.tlb, walk := x.walk } : Core).enterM 0x14 cause epc pbk none)
    | .stall _ => s
  else s.modCore c (fun x => x.enterS cause tval epc pbk e)

/-- A synchronous trap with its cause code (R281, R292, R293): at M where it is raised at M, where the cause is M's, or as
DOUBLE_TRAP; at M with `MCRIT` = 1 it locks the core. -/
def State.syncTrap (s : State) (c : CoreId) (code : Nat) (tval epc : Word) (toM : Bool) (pbk : Nat) (e : Option Entry) : State :=
  let k := s.core c
  if k.lvl = 3 then
    (if bitOf k.status stMCRIT then s.lockup c else s.modCore c (fun x => x.enterM (w32 code) tval epc pbk e))
  else if toM then s.modCore c (fun x => x.enterM (w32 code) tval epc pbk e)
  else if bitOf k.status stSCRIT then s.modCore c (fun x => x.enterM 0x15 (w32 code) epc pbk e)
  else s.entryS c (w32 code) tval epc pbk e

/-- The trap of an instruction: one in a delay slot leaves the stacks as they stood before the branch, which `EPC` names
(R212, R233). -/
def State.takeTrap (s : State) (c : CoreId) (t : Trap) : State :=
  let k := s.core c
  let s1 := match k.slot with
    | some d => s.modCore c (fun x => x.setBank x.bank d.saved)
    | none => s
  let epc := match k.slot with | some d => d.branch | none => k.pc
  s1.syncTrap c t.code t.tval epc t.toM (pbkOf c k.bank) (some ⟨false, none, k.snap⟩)

/-! ## Interrupts (R298 to R300, R310 to R315, R341) -/

/-- The controller of a core. -/
def ctlOfCore : CoreId → IrqCtl
  | .ce e => ⟨(clusterOf e).val, by omega⟩
  | .ac _ => ird

/-- A core's context at S, or at M (R310). -/
def ctxOfCore (c : CoreId) (m : Bool) : Fin 16 :=
  match c with
  | .ce e => ⟨2 * (localOf e).val + b2n m, by simp only [b2n]; split <;> omega⟩
  | .ac a => ⟨2 * a.val + b2n m, by simp only [b2n]; split <;> omega⟩

/-- What a core's context requests. -/
def State.coreReq (s : State) (c : CoreId) (m : Bool) : Option (Nat × Nat) := s.ctxReq (ctlOfCore c) (ctxOfCore c m)

/-- An interrupt is pending for the core, whatever `STATUS` masks (R247). -/
def State.irqPending (s : State) (c : CoreId) : Bool := (s.coreReq c false).isSome || (s.coreReq c true).isSome

/-- S-level interrupts are not held back in the foreground (R60). -/
def State.fgIrq (s : State) (c : CoreId) (k : Core) : Bool :=
  match c with
  | .ce e => k.ctx != .fg || s.rbit (pgFrm (clusterOf e)) Reg.FRM_CEMASK (8 + (localOf e).val)
  | .ac _ => true

/-- An S-level interrupt is takeable (R298). -/
def State.takeS (s : State) (c : CoreId) (k : Core) : Bool :=
  (k.lvl == 0 || (k.lvl == 1 && bitOf k.status stSIE)) && s.fgIrq c k

/-- An M-level interrupt or asynchronous M cause is takeable (R293). -/
def Core.takeM (k : Core) : Bool := k.lvl != 3 || (bitOf k.status stMIE && !bitOf k.status stMCRIT)

/-- The interrupt a core takes under a status: the highest priority, M before S at equal priority (R298): source,
priority, and whether it is M's. DEDUCED (log 23). -/
def State.takeable (s : State) (c : CoreId) (k : Core) : Option (Nat × Nat × Bool) :=
  let a := if s.takeS c k then s.coreReq c false else none
  let b := if k.takeM then s.coreReq c true else none
  match a, b with
  | some (n, p), some (m, q) => if p ≤ q then some (m, q, true) else some (n, p, false)
  | some (n, p), none => some (n, p, false)
  | none, some (m, q) => some (m, q, true)
  | none, none => none

/-- The `CAUSE` word of an interrupt (R284). -/
def irqCause (n p : Nat) (chain subst : Bool) : Word :=
  w32 (n + p * 2 ^ 16 + b2n chain * 2 ^ 20 + b2n subst * 2 ^ 21 + 2 ^ 31)

/-- The core is at a boundary at which it can take an interrupt: not within a delay slot, a pair of instructions or a TLBI that waits
(R211, R257, R393). -/
def State.atBoundary (s : State) (c : CoreId) : Bool :=
  let k := s.core c
  let p := s.pairs[pairOf c]
  k.running && !k.halted && !k.lockup && s.domOn (coreDomain c) && !p.halted && p.detect.isNone && !p.busy
    && !(p.locked && isChecker c) && k.slot.isNone && !(s.bcast.any (fun b => CoreId.ac b.issuer == c)) && !s.pairHere c

/-- The halted pair whose mismatch application-core pair 0 takes next (R341). -/
def State.presented (s : State) : Option (Fin 36 × Word) :=
  (List.finRange 36).findSome? (fun (k : Fin 36) => (s.pairs[k].present).map (fun v => (k, v)))

/-- A locked pair's checker follows its master: it holds the master's state but its own port, buffer and slot (R330). DEDUCED (log 32). -/
def State.mirror (s : State) (c : CoreId) : State :=
  if s.locked c && !isChecker c then
    let m := s.core c
    s.modCore (checkerOf (pairOf c)) (fun x =>
      { m with spq := [], replay := [], sbuf := [], ckpt0 := x.ckpt0, ckpt1 := x.ckpt1, ckptSel := x.ckptSel, ckptVal := x.ckptVal })
  else s

/-- A return that is tail-chained (R300): the new interrupt's entry in its place; `z` is the core as it was at the RETT. DEDUCED (log 23). -/
def Core.chained (k : Core) (cause : Word) (p : Nat) (z : TrapSnap) : Core :=
  let e : Entry := ⟨false, some (p, k.lvl == 3), z⟩
  if k.lvl = 3 then
    { k.flushPriv with
      cause := cause, tval := 0, status := putBit (putBit k.status stMIE false) stMCRIT true
      bM := k.bM.emptied, pc := k.evecM, wfi := false, entry := some e, first := none }
  else
    { k.flushPriv with
      cause := cause, tval := 0, status := putBit (putBit k.status stSIE false) stSCRIT true
      bS := k.bS.emptied, pc := k.evecS, wfi := false, entry := some e, first := none }

/-- An interrupt entry (R286): source, priority, whether M takes it, and whether it replaced another one. DEDUCED (log 23). -/
def State.enterIrq (s : State) (c : CoreId) (n p : Nat) (m subst : Bool) : State :=
  let k := s.core c
  let pbk := pbkOf c k.fromIdle.bank
  let w := irqCause n p false subst
  let e : Entry := ⟨false, some (p, m), k.snap⟩
  if m then s.modCore c (fun x => x.fromIdle.enterM w 0 x.pc pbk (some e))
  else (s.modCore c Core.fromIdle).entryS c w 0 k.pc pbk (some e)

/-- What replaces an interrupt entry that is in progress, of priority `p` and level M or S (R299): an M-level interrupt an entry to S,
which is then undone; else one of the same target and a higher priority, which takes over the entry. DEDUCED (log 23). -/
def State.substituted (s : State) (c : CoreId) (p : Nat) (m : Bool) (z : TrapSnap) : Option State :=
  let viaM := if !m && ((s.core c).undo z).takeM then s.coreReq c true else none
  match viaM with
  | some (n, q) => some ((s.modCore c (fun x => x.undo z)).enterIrq c n q true true)
  | none =>
    match s.coreReq c m with
    | some (n, q) =>
      if p < q then some (s.modCore c (fun x => { x with cause := irqCause n q (bitOf x.cause 20) true, entry := some ⟨false, some (q, m), z⟩ }))
      else none
    | none => none

/-- An interrupt at a boundary with nothing in progress. -/
def State.takeIrq (s : State) (c : CoreId) : State :=
  match s.takeable c (s.core c) with
  | some (n, p, m) => s.enterIrq c n p m false
  | none => s

/-- A core takes what is takeable at its boundary (R286, R298 to R300, R341). While no instruction has issued behind an interrupt entry,
it may be substituted; behind a return, the return is abandoned for a tail-chained entry where the interrupt is taken at the level
that executed the RETT. DEDUCED (log 23). -/
def State.interrupt (s : State) (c : CoreId) : State :=
  if !s.atBoundary c then s
  else
    let k := s.core c
    let mis := if c = .ac 0 ∧ k.takeM then s.presented else none
    (match mis with
      | some (q, v) => (s.modPair q (fun p => { p with present := none })).modCore c (fun x => x.fromIdle.enterM 0x12 v x.pc (pbkOf c k.fromIdle.bank) none)
      | none =>
        match k.entry with
        | some ⟨false, some (p, m), z⟩ => (s.substituted c p m z).getD (s.takeIrq c)
        | some ⟨true, _, z⟩ =>
          (match s.takeable c k with
            | some (n, p, m) =>
              if m == (bitsOf z.status 1 0 == 3) then s.modCore c (fun x => (x.undo z).chained (irqCause n p true false) p z)
              else s.enterIrq c n p m false
            | none => s)
        | _ => s.takeIrq c).mirror c

/-- An interrupt whose request has reached the core is taken before the next instruction issues (R298, R326). -/
def State.mustTake (s : State) (c : CoreId) : Bool :=
  s.atBoundary c && (match s.takeable c (s.core c) with
    | some (n, _, _) => s.reqReached (ctlOfCore c) n
    | none => false)

/-- A pending interrupt ends a WFI; execution goes on behind it (R247). -/
def State.wfiWake (s : State) (c : CoreId) : State :=
  if (s.core c).wfi && (s.irqPending c || (c == .ac 0 && s.presented.isSome)) then
    (s.modCore c (fun k => { k with wfi := false })).mirror c
  else s

/-! ## The tail context (R56 to R58, R217, R304) -/

/-- The tail starts at an address, on an empty bank, at the level of `TLVL`; the tail before it is abandoned (R217). DEDUCED (log 25). -/
def Core.startTail (k : Core) (a : Word) (s1 : Bool) : Core :=
  { k with ctx := .tail, bank := .tl, bTl := k.bTl.emptied, pc := a, slot := none, wfi := false, tailGo := none, pre := none
           ovrRecs := [], sInUse := false, sNest := 0, lvlrec := 0, idleRet := false
           status := putBits (k.status &&& ~~~ (0x1000 : Word)) 1 0 (b2n s1) }

/-- Resume a recorded tail context, or idle where there was none; where a handler was, it is still open (R57, R301, R304). -/
def Core.resume (k : Core) (r : TailRec) : Core :=
  { k with ctx := if r.has then .tail else .idle, pc := r.pc, bank := r.bank, wfi := r.wfi, slot := r.slot
           status := putBits (k.status &&& ~~~ (0x1000 : Word)) 1 0 (bitsOf r.status 1 0) }

/-- An engine enters its tail context: the tail a TAILGO has set, else the one pre-empted (R57, R217). -/
def Core.toTail (k : Core) (tlvl : Bool) : Core :=
  match k.tailGo with
  | some a => k.startTail a tlvl
  | none => match k.pre with
    | some r => { k.resume r with pre := none }
    | none => { k with ctx := .idle, status := k.status &&& ~~~ (0x1000 : Word) }

/-- `CE_CTL.TLVL` of a core. -/
def State.tlvl (s : State) (c : CoreId) : Bool := match c with | .ce e => s.rbit (pgCe e) Reg.CE_CTL 2 | .ac _ => false

/-! ## Return (R295 to R297, R300) -/

/-- The newest entry of `LVLREC`; 0b10 acts as 0b00 (R296). -/
def Core.newest (k : Core) : Nat := let n := bitsOf k.lvlrec 1 0; if n = 2 then 0 else n

/-- A RETT fails its check (R297). -/
def Core.badReturn (k : Core) : Bool := k.newest == 0 || k.ppl == 2 || decide (k.newest < k.ppl) || decide (k.lvl < k.ppl)

/-- `STATUS` after a return (R289, R295). -/
def Core.returnStatus (k : Core) : Word :=
  if k.lvl = 3 then
    if k.ppl = 3 then putBit (putBit k.status stMIE (bitOf k.status stPMIE)) stMCRIT false
    else putBits k.mframe.status 1 0 k.ppl
  else putBits (putBit (putBit k.status stSIE (bitOf k.status stPSIE)) stSCRIT false) 1 0 k.ppl

/-- The bank a return selects (R295). -/
def Core.returnBank (k : Core) (c : CoreId) : BankId :=
  if isCe c then (if k.pbk = 0 then .fg else if k.pbk = 1 then .tl else if k.pbk = 2 then .s else .tl)
  else if k.ppl = 0 then .tl else if k.ppl = 1 then .s else .m

/-- A RETT at S performs RESTORE (R295, R304): it selects the S bank, which the entry that it leaves had saved; where it resumes the
pre-empted tail, the overrun's entry had. DEDUCED (log 23). -/
def Core.restores (k : Core) (c : CoreId) : Bool :=
  k.lvl == 1 && k.bank == .s && decide (0 < k.sNest)
    && (if isCe c && k.pbk == 3 then (match k.ovrRecs with | r :: _ => r.sInUse | [] => false) else k.returnBank c == .s)

/-- A core after its return, with the S bank already restored where a nested entry had saved it. DEDUCED (log 23). -/
def Core.returned (k : Core) (c : CoreId) (tlvl : Bool) : Core :=
  let st := k.returnStatus
  let k1 := { k with lvlrec := k.lvlrec >>> 2, status := st, bootHi := none, slot := none, wfi := false, pc := k.epc }
  let k2 := if st &&& 3 = k.status &&& 3 then k1 else k1.flushPriv
  if k.lvl = 3 ∧ k.ppl = 3 then k2
  else
    let k3 := if k.lvl = 3 then { k2 with epc := k.mframe.epc, cause := k.mframe.cause, tval := k.mframe.tval, mInUse := false } else k2
    let k4 := { k3 with bank := k.returnBank c }
    let k5 :=
      if k.restores c then { k4 with sNest := k.sNest - 1 }
      else if k4.bank = .s then { k4 with sInUse := true }
      else if k.bank = .s then { k4 with sInUse := false, sNest := 0 }
      else k4
    if isCe c && k.pbk == 3 then
      match k5.tailGo, k5.ovrRecs with
      | some a, _ => k5.startTail a tlvl
      | none, r :: t => { k5.resume r with ovrRecs := t }
      | none, [] => { k5 with ctx := .idle }
    else if isCe c && k.pbk == 1 && k5.ctx == .tail then
      (match k5.tailGo with
        | some a => k5.startTail a tlvl
        | none => if k5.idleRet && !k5.sInUse then { k5 with ctx := .idle, idleRet := false } else k5)
    else k5

/-! ## The end of a foreground (R57, R215, R344, R349) -/

/-- Samples of a frame that are still queued are discarded and counted (R57). DEDUCED (log 25). -/
def State.discardLeft (s : State) (e : Fin 64) (fcnt : Word) : State :=
  let n := ((s.core (.ce e)).spq.filter (fun a => a.frame == fcnt)).length
  let s1 := s.modCore (.ce e) (fun k => { k with spq := k.spq.filter (fun a => a.frame != fcnt) })
  (List.range n).foldl (fun s _ => s.countLeft (clusterOf e) (localOf e)) s1

/-- `FRM_CE_FGMAX` takes a foreground's length in engine cycles. -/
def State.fgLength (s : State) (e : Fin 64) : State :=
  let c := clusterOf e
  let o := Reg.FRM_CE_FGMAX (localOf e)
  let n := min 65535 ((s.time.clk - (s.core (.ce e)).fgClk) / 2)
  if s.fld (pgFrm c) o 15 0 < n then s.setFld (pgFrm c) o 15 0 n else s

/-- A checkpoint taken in this frame becomes the completed one (R216, R344). -/
def Core.ckptComplete (k : Core) : Core :=
  if k.ckptNow then { k with ckptNow := false, ckptSel := !k.ckptSel, ckptVal := true } else k

/-- The deadline of the foreground in progress lies ahead (R216, R348). -/
def State.ckptInTime (s : State) (e : Fin 64) : Bool :=
  let c := clusterOf e
  match s.pairs[pairOf (.ce e)].catchUp with
  | some u => decide (s.now < u.limit)
  | none => !s.ticking c || (s.car c).deadlined || decide (s.now < s.deadline c)

/-- The foreground of engine `e` ends (R57, R199, R215, R348, R349). DEDUCED (log 25). -/
def State.frameEnd (s : State) (e : Fin 64) : State :=
  let c := CoreId.ce e
  let k := s.core c
  let s1 := (s.fgLength e).discardLeft e k.fgFcnt
  let done (x : Core) : Core := if s.ckptInTime e then x.dropFg.ckptComplete else { x.dropFg with ckptNow := false }
  let s2 := s1.modCore c (fun x => ({ done x with fgEnded := true } : Core).toTail (s.tlvl c))
  match s.pairs[pairOf c].catchUp with
  | none => s2
  | some u =>
    let s3 := s2.modPair (pairOf c) (fun p => { p with catchUp := none })
    if !u.ticked then s3
    else
      let h := (s.car (clusterOf e)).tickFcnt
      let s4 := s3.modCore c (fun x => { x with spq := x.spq.filter (fun a => a.frame == h || decide (0 < (a.frame - h).toInt)) })
      if s.now < (s.car (clusterOf e)).nextTick - (s.car (clusterOf e)).lead - 1024 then s4.fgEnter (clusterOf e) (localOf e) else s4

/-! ## Frame overrun (R61, R303, R304) -/

/-- The context that FRAME_OVERRUN pre-empts, as it stood at the tick, or as it stands where the entry had to wait; idle
counts as S in TL. DEDUCED (log 24). -/
def Core.preempted (k : Core) : TailRec :=
  match k.pre with
  | some r => r
  | none => ⟨k.ctx == .tail, k.pc, k.status, k.bank, false, k.slot, k.ssp, k.lvlrec, k.sInUse, k.sNest⟩

/-- Traps opened since the tick are abandoned; an S bank saved since then is restored from the first record of this foreground (R303).
DEDUCED (log 24). -/
def State.abandonTraps (s : State) (c : CoreId) : Res Unit :=
  let k := s.core c
  let r := k.preempted
  let back (s : State) : State := s.modCore c (fun x =>
    { x with ssp := r.ssp, lvlrec := r.lvlrec, sInUse := r.sInUse, sNest := r.sNest, bank := .tl, ctx := .tail, slot := none, wfi := false, mInUse := false
             status := putBits (r.status &&& ~~~ (0x1000 : Word)) 1 0 (if r.has then bitsOf r.status 1 0 else 1) })
  match (if k.sInUse && decide (k.nestAtTick < k.sNest) then k.fgRec else none) with
  | some a => ((s.modCore c (fun x => { x with ssp := a })).restoreS c 1 ⟨0x14, 0, true⟩).bind (fun s1 _ => .ok (back s1) ())
  | none => .ok (back s) ()

/-- FRAME_OVERRUN is taken as a trap from the pre-empted tail context (R304); it waits while the S bank's record does not answer.
DEDUCED (log 24). -/
def State.overrunTrap (s : State) (c : CoreId) (epc tval : Word) : State :=
  let k := s.core c
  let r := k.preempted
  match s.abandonTraps c with
  | .ok s1 _ => (s1.modCore c (fun x => { x with pre := none, ovrRecs := r :: x.ovrRecs })).syncTrap c 0x11 tval epc false 3 none
  | .trap s1 _ =>
    let s2 := s1.modCore c (fun x =>
      { x with ssp := r.ssp, lvlrec := r.lvlrec, sInUse := r.sInUse, sNest := r.sNest, bank := .tl, ctx := .tail, slot := none, mInUse := false
               wfi := false, pre := none, ovrRecs := r :: x.ovrRecs
               status := putBits (r.status &&& ~~~ (0x1000 : Word)) 1 0 (if r.has then bitsOf r.status 1 0 else 1) })
    s2.syncTrap c 0x14 0x11 epc true 3 none
  | .stall _ => s.modCore c (fun x => { x with ovrPend := some (epc, tval) })

/-- A FRAME_OVERRUN that had to wait is taken: at the resume of a halted engine, or once M has returned (R56, R226). DEDUCED (log 24). -/
def State.overrunDeferred (s : State) (c : CoreId) : State :=
  match (s.core c).ovrPend with
  | some (epc, fcnt) =>
    if (s.core c).halted || (s.core c).lvl == 3 then s
    else ((s.modCore c (fun k => { k with ovrPend := none })).overrunTrap c epc fcnt).mirror c
  | none => s

/-- What a RETT does once it has issued (R295, R300). DEDUCED (log 23). -/
def State.rett (s : State) (c : CoreId) : Res Unit :=
  let k := s.core c
  if k.badReturn then .trap s ⟨0x13, w32 (k.ppl + 4 * bitsOf k.lvlrec 1 0 + 16 * k.lvl), true⟩
  else
    let chain := match s.takeable c { k with status := k.returnStatus } with
      | some (n, p, m) => if m = decide (k.lvl = 3) then some (n, p) else none
      | none => none
    match chain with
    | some (n, p) => .ok (s.modCore c (fun x => x.chained (irqCause n p true false) p k.snap)) ()
    | none =>
      let r : Res Unit := if k.restores c then s.restoreS c 1 ⟨0x14, 0, true⟩ else .ok s ()
      r.bind (fun s1 _ =>
        let s2 := s1.modCore c (fun x => { x.returned c (s.tlvl c) with entry := some ⟨true, none, k.snap⟩ })
        .ok (match c with | .ce e => (s2.overrunDeferred c).fgDeferred e | .ac _ => s2) ())

/-! ## Overrun (R61 to R63, R303, R304, R348) -/

/-- The address of the first foreground instruction that did not retire, and whether the engine is in its foreground. -/
def Core.fgStart (k : Core) : Word :=
  match k.slot with
  | some d => d.branch
  | none => if k.lvl = 3 then k.epc else k.pc

/-- Frame `fcnt` overruns on local engine `i` (R61): what the generator, the counters and the sample port do, and the trap,
which waits while the engine is halted or still at M. DEDUCED (log 24). -/
def State.overrun (s : State) (c i : Fin 8) (fcnt : Word) : State :=
  let e := engineOf c i
  let x := CoreId.ce e
  let k := s.core x
  let s1 := (s.pwmOverrun c i).modPwm c (fun p => { p with overrun := p.overrun ||| (1#8 <<< i.val) })
  let s2 := ((s1.raise (pgFrm c) 1).count (pgFrm c) Reg.FRM_FOVR_CNT 15 0).stick (pgFrm c) Reg.FRM_FOVR_CE i
  let s3 := (s2.discardLeft e fcnt).modCore x (fun k =>
    { k.dropFg with fgEnded := true, fgGone := false, fgDue := false, fgFcnt := fcnt, ckptNow := false })
  if k.fgGone then s3
  else
    let epc := if k.fgDue then s.fgVec e else k.fgStart
    if k.halted || (k.fgDue && k.lvl == 3) then (s3.modCore x (fun k => { k with ovrPend := some (epc, fcnt) })).mirror x
    else (s3.overrunTrap x epc fcnt).mirror x

/-- The foreground of the current frame is still due, runs, or was abandoned on local engine `i`. DEDUCED (log 36). -/
def State.overdue (s : State) (c i : Fin 8) : Bool :=
  let e := engineOf c i
  let k := s.core (.ce e)
  let p := s.pairs[pairOf (.ce e)]
  s.rbit (pgFrm c) Reg.FRM_CEMASK i && s.domOn e && !p.halted && p.detect.isNone && p.catchUp.isNone
    && !(p.locked && isChecker (.ce e)) && (k.ctx == .fg || k.fgGone || k.fgDue) && (k.ovrPend.isNone || k.fgDue)

/-- The deadline of the frame in progress passes (R54, R61). DEDUCED (log 24 and 36). -/
def State.frameDeadline (s : State) (c : Fin 8) : State :=
  let x := s.car c
  if !s.ticking c || !x.ticked || x.deadlined then s
  else
    let s1 := ((s.advance (s.deadline c)).modCar c (fun x => { x with deadlined := true })).sepDeadline c x.tickFcnt (s.deadline c)
    (List.finRange 8).foldl (fun s (i : Fin 8) => if s.overdue c i then s.overrun c i x.tickFcnt else s) s1

/-- A catch-up foreground of a pair reaches its own deadline (R348). -/
def State.catchUpDeadline (s : State) (k : Fin 36) : State :=
  match s.pairs[k].catchUp with
  | none => s
  | some u =>
    let s1 := (s.advance u.limit).modPair k (fun p => { p with catchUp := none })
    if (s.core (masterOf k)).ctx != .fg then s1
    else (s1.overrun (pairCluster k) (masterLocal k) u.fcnt).raise (pairPage k) 6

/-- An engine's foreground has outlived its deadline, so that no further instruction of it retires (R61, R348). -/
def State.pastDeadline (s : State) (c : CoreId) : Bool :=
  match c with
  | .ac _ => false
  | .ce e =>
    (s.core c).ctx == .fg && (match s.pairs[pairOf c].catchUp with
      | some u => decide (u.limit < s.now)
      | none => let x := s.car (clusterOf e)
                s.ticking (clusterOf e) && x.ticked && !x.deadlined && decide (s.deadline (clusterOf e) < s.now))

/-- The deadline that has passed is met. -/
def State.meetDeadline (s : State) (c : CoreId) : State :=
  match c with
  | .ac _ => s
  | .ce e => if s.pairs[pairOf c].catchUp.isSome then s.catchUpDeadline (pairOf c) else s.frameDeadline (clusterOf e)

/-- What comes before the next instruction of a core: a deadline that has passed (R61), an overrun that waits (R56, R226), an interrupt
that has reached it (R298). -/
def State.before (s : State) (c : CoreId) : Option State :=
  let k := s.core c
  if s.pastDeadline c then some (s.meetDeadline c)
  else if k.ovrPend.isSome && k.lvl != 3 then some (s.overrunDeferred c)
  else if s.mustTake c then some (s.interrupt c)
  else none

end Sys2Proof.Machine
end

