-- ==== Sys2Proof/Machine/Issue.lean ====
section
/-! DEFINITION. How a core issues one instruction: what holds it back, its fetch, the order of its causes, retiring it or
taking its trap (R209 to R212, R226, R231 to R234, R253, R282, R286), and the operand forms the instructions share. -/

namespace Sys2Proof.Machine

/-- What a command answers: every command of this block ends in a next state. -/
abbrev Out := Host.Outcome State Fault Refusal

/-- The core issues an instruction now: it runs, is not halted, locked up or waiting, and is not one half that only
follows (R218, R226, R229, R330, R338, R340, R393). DEDUCED (log 28 and 32). -/
def State.canIssue (s : State) (c : CoreId) : Bool :=
  let k := s.core c
  let p := s.pairs[pairOf c]
  k.running && !k.halted && !k.lockup && !k.wfi && k.ctx != .idle && s.domOn (coreDomain c) && !p.halted && p.detect.isNone
    && !p.busy && !(p.locked && isChecker c) && !(s.bcast.any (fun b => CoreId.ac b.issuer == c))

/-- The first instruction after a start has been fetched: `STARTED` (R223, R228). -/
def State.fetched (s : State) (c : CoreId) : State :=
  if !(s.core c).fresh then s
  else
    (s.pairWrite c).foldl (fun s d =>
      let s1 := s.modCore d (fun k => { k with fresh := false })
      match d with | .ce e => s1.raise (pgCe e) 1 | .ac a => s1.raise (pgAc a) 0) s

/-- An instruction that has not issued, or that traps, leaves its core as it was, but for what its accesses did to the
buffer and the translation caches (R233). -/
def State.revert (s : State) (c : CoreId) (k0 : Core) : State :=
  s.modCore c (fun k => { k0 with sbuf := k.sbuf, tlb := k.tlb, walk := k.walk, icache := k.icache, fresh := k.fresh })

/-- What an entry, or the instruction before, left for the boundary between two instructions is over (R257, R299). -/
def Core.begun (k : Core) : Core := { k with entry := none, first := none }

/-- An instruction retires: its address is the last retired one (R229). -/
def State.retireAt (s : State) (c : CoreId) (hi : BitVec 16) (pc : Word) : State :=
  s.modCore c (fun k => { k with lastPc := coreVa c hi pc })

/-- The instruction just retired may be the first of a pair (R257): not where it was the second of one, a branch or a delay slot, and not
in deterministic mode. `own` says that it loaded from the own LSRAM. -/
def Core.mayLead (k : Core) (c : CoreId) (k0 : Core) (second : Bool) : Core :=
  { k with first := if k0.det c || k0.slot.isSome || second || k.slot.isSome then none
      else some (k0.pc, match k.first with | some (_, own) => own | none => false) }

/-- An instruction of `len` bytes that issued from the core `k0` retires; `adv` says that the program counter then moves past it. -/
def State.retired (s s1 : State) (c : CoreId) (k0 : Core) (len : Nat) (adv : Bool) : State :=
  let s2 := s1.retireAt c k0.fetchHi k0.pc
  let s3 := if adv then s2.modCore c (fun k => k.advancePc len) else s2
  ((s3.modCore c (fun k => k.mayLead c k0 (s.pairHere c))).stepHalt c).mirror c

/-- A core issues one instruction of `len` bytes (R282): what comes before it, its fetch, ILLEGAL in a delay slot (`noSlot`) or of its
encoding (`ill`), PRIV below level `lvl`, then what it does, and its end `fin`. `bytes` is what `TVAL` shows of it. -/
def State.issueWith (s : State) (c : CoreId) (len : Nat) (noSlot ill : Bool) (lvl : Nat) (bytes : Nat) (fin : Core → State → State)
    (body : State → Res Unit) : State :=
  if !s.canIssue c then s
  else match s.before c with
  | some t => t
  | none =>
    let kOld := s.core c
    let k0 := (if kOld.det c then kOld.arriveAll else kOld).begun
    let s0 := s.modCore c (fun _ => k0)
    let r : Res Unit := (s0.coreFetch c k0.fetchHi k0.pc len).bind (fun s1 _ =>
      let s2 := s1.fetched c
      if noSlot && k0.slot.isSome then .trap s2 ⟨1, k0.pc, false⟩
      else if ill then .trap s2 ⟨1, w32 bytes, false⟩
      else if k0.lvl < lvl then .trap s2 ⟨2, w32 bytes, false⟩
      else body s2)
    match r with
    | .ok s1 _ => fin k0 s1
    | .trap s1 t => ((s1.revert c k0).takeTrap c t).mirror c
    | .stall s1 => s1.revert c kOld

/-- A core issues one instruction, which retires as it has done its work. -/
def State.issue (s : State) (c : CoreId) (len : Nat) (noSlot adv : Bool) (ill : Bool) (lvl : Nat) (bytes : Nat)
    (body : State → Res Unit) : State :=
  s.issueWith c len noSlot ill lvl bytes (fun k0 s1 => s.retired s1 c k0 len adv) body

/-- An instruction that any level may execute, legal in a delay slot and in every encoding of the form. -/
def State.plain (s : State) (c : CoreId) (len : Nat) (body : State → Res Unit) : State :=
  s.issue c len false true false 0 0 body

/-- Flags are added to `FCSR` of the bank in use (R205). -/
def State.addFlags (s : State) (c : CoreId) (f : Word) : State :=
  s.modCore c (fun k => k.modCur (fun b => { b with fcsr := b.fcsr ||| f }))

/-- Pop `n` operands (T0 first), push results and add flags. -/
def State.operate (s : State) (c : CoreId) (n : Nat) (f : Word → List Word → List Word × Word) : Res Unit :=
  (s.popCells c n).bind (fun s1 l =>
    let r := f (s1.core c).cur.fcsr l
    (s1.addFlags c r.2).pushVals c r.1)

/-- (a → c). -/
def State.unary (s : State) (c : CoreId) (len : Nat) (f : Word → Word) : State :=
  s.plain c len (fun s => s.operate c 1 (fun _ l => match l with | [a] => ([f a], 0) | _ => ([], 0)))

/-- (a b → c). -/
def State.binary (s : State) (c : CoreId) (f : Word → Word → Word) : State :=
  s.plain c 1 (fun s => s.operate c 2 (fun _ l => match l with | [b, a] => ([f a b], 0) | _ => ([], 0)))

/-- (a → c) under `FCSR`, with flags. -/
def State.unaryF (s : State) (c : CoreId) (f : Word → Word → Flagged) : State :=
  s.plain c 1 (fun s => s.operate c 1 (fun r l => match l with | [a] => ([(f r a).1], (f r a).2) | _ => ([], 0)))

/-- (a b → c) under `FCSR`, with flags. -/
def State.binaryF (s : State) (c : CoreId) (f : Word → Word → Word → Flagged) : State :=
  s.plain c 1 (fun s => s.operate c 2 (fun r l => match l with | [b, a] => ([(f r a b).1], (f r a b).2) | _ => ([], 0)))

/-- (a b c → d) under `FCSR`, with flags. -/
def State.ternaryF (s : State) (c : CoreId) (f : Word → Word → Word → Word → Flagged) : State :=
  s.plain c 1 (fun s => s.operate c 3 (fun r l => match l with | [z, y, x] => ([(f r x y z).1], (f r x y z).2) | _ => ([], 0)))

/-- A pending result is pushed (R252): its value is known and on its way. -/
def State.pushPending (s : State) (c : CoreId) (v : Word) (above : List Word) : Res Unit :=
  let x := (s.core c).pending (some v) false
  (s.modCore c (fun _ => x.1)).pushCells c (x.2 :: above.map (fun a => ⟨a, none⟩))

/-- (a b → c), (a → c) with a pending result (FDIV, FSQRT): the flags are set as the instruction retires. -/
def State.pendingF (s : State) (c : CoreId) (n : Nat) (f : Word → List Word → Flagged) : State :=
  s.plain c 1 (fun s => (s.popCells c n).bind (fun s1 l =>
    let r := f (s1.core c).cur.fcsr l
    (s1.addFlags c r.2).pushPending c r.1 []))

end Sys2Proof.Machine
end

