-- ==== Sys2Proof/Machine/InsnInt.lean ====
section
/-! DEFINITION. Integer, logic, shift and bit-field instructions (R202, R236, R239). -/

namespace Sys2Proof.Machine

/-- ADD. -/
def execAdd (c : CoreId) (s : State) : Out := .next (s.binary c (fun a b => a + b))

/-- SUB: T1 − T0 (R193). -/
def execSub (c : CoreId) (s : State) : Out := .next (s.binary c (fun a b => a - b))

/-- MUL. -/
def execMul (c : CoreId) (s : State) : Out := .next (s.binary c (fun a b => a * b))

/-- MULH: the high word of the signed product. -/
def execMulh (c : CoreId) (s : State) : Out := .next (s.binary c (fun a b => BitVec.ofInt 32 (a.toInt * b.toInt / 4294967296)))

/-- MULHU. -/
def execMulhu (c : CoreId) (s : State) : Out := .next (s.binary c (fun a b => BitVec.ofNat 32 (a.toNat * b.toNat / 4294967296)))

/-- DIV. -/
def execDiv (c : CoreId) (s : State) : Out := .next (s.binary c (fun a b => sdiv a b))

/-- DIVU. -/
def execDivu (c : CoreId) (s : State) : Out := .next (s.binary c (fun a b => udiv a b))

/-- REM. -/
def execRem (c : CoreId) (s : State) : Out := .next (s.binary c (fun a b => srem a b))

/-- REMU. -/
def execRemu (c : CoreId) (s : State) : Out := .next (s.binary c (fun a b => urem a b))

/-- NEG. -/
def execNeg (c : CoreId) (s : State) : Out := .next (s.unary c 1 (fun a => 0 - a))

/-- MIN. -/
def execMin (c : CoreId) (s : State) : Out := .next (s.binary c (fun a b => if a.toInt ≤ b.toInt then a else b))

/-- MAX. -/
def execMax (c : CoreId) (s : State) : Out := .next (s.binary c (fun a b => if a.toInt ≤ b.toInt then b else a))

/-- MINU. -/
def execMinu (c : CoreId) (s : State) : Out := .next (s.binary c (fun a b => if a.toNat ≤ b.toNat then a else b))

/-- MAXU. -/
def execMaxu (c : CoreId) (s : State) : Out := .next (s.binary c (fun a b => if a.toNat ≤ b.toNat then b else a))

/-- SLT. -/
def execSlt (c : CoreId) (s : State) : Out := .next (s.binary c (fun a b => flagWord (decide (a.toInt < b.toInt))))

/-- SLTU. -/
def execSltu (c : CoreId) (s : State) : Out := .next (s.binary c (fun a b => flagWord (decide (a.toNat < b.toNat))))

/-- AND. -/
def execAnd (c : CoreId) (s : State) : Out := .next (s.binary c (fun a b => a &&& b))

/-- OR. -/
def execOr (c : CoreId) (s : State) : Out := .next (s.binary c (fun a b => a ||| b))

/-- XOR. -/
def execXor (c : CoreId) (s : State) : Out := .next (s.binary c (fun a b => a ^^^ b))

/-- NOT. -/
def execNot (c : CoreId) (s : State) : Out := .next (s.unary c 1 (fun a => a ^^^ 0xFFFFFFFF))

/-- SHL. -/
def execShl (c : CoreId) (s : State) : Out := .next (s.binary c (fun a b => a <<< shCount b))

/-- SHR. -/
def execShr (c : CoreId) (s : State) : Out := .next (s.binary c (fun a b => a >>> shCount b))

/-- SAR. -/
def execSar (c : CoreId) (s : State) : Out := .next (s.binary c (fun a b => a.sshiftRight (shCount b)))

/-- ROR. -/
def execRor (c : CoreId) (s : State) : Out := .next (s.binary c (fun a b => a.rotateRight (shCount b)))

/-- CLZ. -/
def execClz (c : CoreId) (s : State) : Out := .next (s.unary c 1 clz)

/-- ADDI: sign-extended. -/
def execAddi (c : CoreId) (i : BitVec 8) (s : State) : Out := .next (s.unary c 2 (fun a => a + i.signExtend 32))

/-- ANDI: zero-extended. -/
def execAndi (c : CoreId) (i : BitVec 8) (s : State) : Out := .next (s.unary c 2 (fun a => a &&& i.setWidth 32))

/-- A shift by an immediate count: bits [7:5] of the byte are reserved (R236). -/
def State.shiftImm (s : State) (c : CoreId) (op : Nat) (n : BitVec 8) (f : Word → Nat → Word) : State :=
  s.issue c 2 false true (decide (31 < n.toNat)) 0 (op + 256 * n.toNat)
    (fun s => s.operate c 1 (fun _ l => match l with | [a] => ([f a n.toNat], 0) | _ => ([], 0)))

/-- SHLI. -/
def execShli (c : CoreId) (n : BitVec 8) (s : State) : Out := .next (s.shiftImm c 0x83 n (fun a n => a <<< n))

/-- SHRI. -/
def execShri (c : CoreId) (n : BitVec 8) (s : State) : Out := .next (s.shiftImm c 0x84 n (fun a n => a >>> n))

/-- SARI. -/
def execSari (c : CoreId) (n : BitVec 8) (s : State) : Out := .next (s.shiftImm c 0x85 n (fun a n => a.sshiftRight n))

/-- RORI. -/
def execRori (c : CoreId) (n : BitVec 8) (s : State) : Out := .next (s.shiftImm c 0x86 n (fun a n => a.rotateRight n))

/-- BPERM. -/
def execBperm (c : CoreId) (sel : BitVec 8) (s : State) : Out := .next (s.unary c 2 (bperm sel))

/-- Reserved bits and lengths of a bit-field instruction (R236, R239); `free` are the extension bits it may set. -/
def badField (ext : BitVec 8) (imm : BitVec 16) (free : BitVec 8) : Bool :=
  let pos := bitsOf ext 4 0
  let len := bitsOf imm 5 0
  decide (ext &&& ~~~ free ≠ 0) || decide (63 < imm.toNat) || decide (len = 0) || decide (32 < len) || decide (32 < pos + len)

/-- BFX: extension bit 7 chooses the sign extension. -/
def execBfx (c : CoreId) (ext : BitVec 8) (imm : BitVec 16) (s : State) : Out :=
  .next (s.issue c 4 false true (badField ext imm 0x9F) 0 (0xC4 + 256 * ext.toNat + 65536 * imm.toNat)
    (fun s => s.operate c 1 (fun _ l => match l with
      | [a] => ([bfx (bitsOf ext 4 0) (bitsOf imm 5 0) (bitOf ext 7) a], 0)
      | _ => ([], 0))))

/-- BFI. -/
def execBfi (c : CoreId) (ext : BitVec 8) (imm : BitVec 16) (s : State) : Out :=
  .next (s.issue c 4 false true (badField ext imm 0x1F) 0 (0xC5 + 256 * ext.toNat + 65536 * imm.toNat)
    (fun s => s.operate c 2 (fun _ l => match l with
      | [b, a] => ([bfi (bitsOf ext 4 0) (bitsOf imm 5 0) a b], 0)
      | _ => ([], 0))))

end Sys2Proof.Machine
end

