-- ==== Sys2Proof/Machine/InsnMem.lean ====
section
/-! DEFINITION. Loads, stores and atomics in every addressing form (R206, R207, R242, R243). -/

namespace Sys2Proof.Machine

/-- Zero and sign extension of a byte and of a halfword. -/
def zx8 (v : Word) : Word := v &&& 0xFF
def sx8 (v : Word) : Word := (v.setWidth 8).signExtend 32
def zx16 (v : Word) : Word := v &&& 0xFFFF
def sx16 (v : Word) : Word := (v.setWidth 16).signExtend 32

/-- A load address lies in the engine's own LSRAM, which makes the load the first of a pair (R257). -/
def State.ownsLoad (s : State) (c : CoreId) (a : Word) : Bool := match c with | .ce e => ownLsram e (s.cePhys e a.toNat) | .ac _ => false

/-- A load at an address; its value is extended by `f`. -/
def State.loadAt (s : State) (c : CoreId) (n : Nat) (a : Word) : Res Word :=
  let k := s.core c
  let own := s.ownsLoad c a
  (s.coreLoad c k.lvl .load k.cur.vhi a n).bind (fun s1 v => .ok (s1.modCore c (fun x => { x with first := some (k.pc, own) })) v)

/-- A store of the low `n` bytes of a value. -/
def State.storeAt (s : State) (c : CoreId) (n : Nat) (a v : Word) : Res Unit :=
  let k := s.core c
  s.coreStore c k.lvl .store k.cur.vhi a (leBytes n v.toNat)

/-- Plain load: (a → v). -/
def State.loadPlain (s : State) (c : CoreId) (n : Nat) (f : Word → Word) : State :=
  s.plain c 1 (fun s => (s.popCells c 1).bind (fun s1 l =>
    (s1.loadAt c n (l.headD 0)).bind (fun s2 v => s2.pushPending c (f v) [])))

/-- Post-increment load: (a → v a+n). A spill that faults leaves the load unperformed. DEDUCED (log 62). -/
def State.loadPi (s : State) (c : CoreId) (n : Nat) (f : Word → Word) : State :=
  s.plain c 1 (fun s => (s.popCells c 1).bind (fun s1 l =>
    let a := l.headD 0
    let above := [a + BitVec.ofNat 32 n]
    (s1.loadAt c n a).bind (fun s2 v =>
      match s2.pushPending c (f v) above with
      | .trap _ t => (match s1.pushPending c 0 above with | .trap s3 _ => .trap s3 t | _ => .trap s1 t)
      | r => r)))

/-- Scaled-index load: (base idx → v). -/
def State.loadX (s : State) (c : CoreId) (n : Nat) (sc : Fin 4) (f : Word → Word) : State :=
  s.plain c 1 (fun s => (s.popCells c 2).bind (fun s1 l =>
    (s1.loadAt c n (l.getD 1 0 + (l.headD 0 <<< sc.val))).bind (fun s2 v => s2.pushPending c (f v) [])))

/-- Plain store: (v a → ). -/
def State.storePlain (s : State) (c : CoreId) (n : Nat) : State :=
  s.plain c 1 (fun s => (s.popCells c 2).bind (fun s1 l => s1.storeAt c n (l.headD 0) (l.getD 1 0)))

/-- Post-increment store: (v a → a+n). -/
def State.storePi (s : State) (c : CoreId) (n : Nat) : State :=
  s.plain c 1 (fun s => (s.popCells c 2).bind (fun s1 l =>
    (s1.storeAt c n (l.headD 0) (l.getD 1 0)).bind (fun s2 _ => s2.pushVals c [l.headD 0 + BitVec.ofNat 32 n])))

/-- Pre-decrement store: (v a → a−n), v at a−n. -/
def State.storePd (s : State) (c : CoreId) (n : Nat) : State :=
  s.plain c 1 (fun s => (s.popCells c 2).bind (fun s1 l =>
    let a := l.headD 0 - BitVec.ofNat 32 n
    (s1.storeAt c n a (l.getD 1 0)).bind (fun s2 _ => s2.pushVals c [a])))

/-- Scaled-index store: (v base idx → ). -/
def State.storeX (s : State) (c : CoreId) (n : Nat) (sc : Fin 4) : State :=
  s.plain c 1 (fun s => (s.popCells c 3).bind (fun s1 l => s1.storeAt c n (l.getD 1 0 + (l.headD 0 <<< sc.val)) (l.getD 2 0)))

/-- LDB. -/
def execLdb (c : CoreId) (s : State) : Out := .next (s.loadPlain c 1 zx8)

/-- LDBS. -/
def execLdbs (c : CoreId) (s : State) : Out := .next (s.loadPlain c 1 sx8)

/-- LDH. -/
def execLdh (c : CoreId) (s : State) : Out := .next (s.loadPlain c 2 zx16)

/-- LDHS. -/
def execLdhs (c : CoreId) (s : State) : Out := .next (s.loadPlain c 2 sx16)

/-- LDW. -/
def execLdw (c : CoreId) (s : State) : Out := .next (s.loadPlain c 4 id)

/-- STB. -/
def execStb (c : CoreId) (s : State) : Out := .next (s.storePlain c 1)

/-- STH. -/
def execSth (c : CoreId) (s : State) : Out := .next (s.storePlain c 2)

/-- STW. -/
def execStw (c : CoreId) (s : State) : Out := .next (s.storePlain c 4)

/-- LDB.PI. -/
def execLdbPi (c : CoreId) (s : State) : Out := .next (s.loadPi c 1 zx8)

/-- LDBS.PI. -/
def execLdbsPi (c : CoreId) (s : State) : Out := .next (s.loadPi c 1 sx8)

/-- LDH.PI. -/
def execLdhPi (c : CoreId) (s : State) : Out := .next (s.loadPi c 2 zx16)

/-- LDHS.PI. -/
def execLdhsPi (c : CoreId) (s : State) : Out := .next (s.loadPi c 2 sx16)

/-- LDW.PI. -/
def execLdwPi (c : CoreId) (s : State) : Out := .next (s.loadPi c 4 id)

/-- STB.PI. -/
def execStbPi (c : CoreId) (s : State) : Out := .next (s.storePi c 1)

/-- STH.PI. -/
def execSthPi (c : CoreId) (s : State) : Out := .next (s.storePi c 2)

/-- STW.PI. -/
def execStwPi (c : CoreId) (s : State) : Out := .next (s.storePi c 4)

/-- STB.PD. -/
def execStbPd (c : CoreId) (s : State) : Out := .next (s.storePd c 1)

/-- STH.PD. -/
def execSthPd (c : CoreId) (s : State) : Out := .next (s.storePd c 2)

/-- STW.PD. -/
def execStwPd (c : CoreId) (s : State) : Out := .next (s.storePd c 4)

/-- LDB.Xs. -/
def execLdbX (c : CoreId) (sc : Fin 4) (s : State) : Out := .next (s.loadX c 1 sc zx8)

/-- LDBS.Xs. -/
def execLdbsX (c : CoreId) (sc : Fin 4) (s : State) : Out := .next (s.loadX c 1 sc sx8)

/-- LDH.Xs. -/
def execLdhX (c : CoreId) (sc : Fin 4) (s : State) : Out := .next (s.loadX c 2 sc zx16)

/-- LDHS.Xs. -/
def execLdhsX (c : CoreId) (sc : Fin 4) (s : State) : Out := .next (s.loadX c 2 sc sx16)

/-- LDW.Xs. -/
def execLdwX (c : CoreId) (sc : Fin 4) (s : State) : Out := .next (s.loadX c 4 sc id)

/-- STB.Xs. -/
def execStbX (c : CoreId) (sc : Fin 4) (s : State) : Out := .next (s.storeX c 1 sc)

/-- STH.Xs. -/
def execSthX (c : CoreId) (sc : Fin 4) (s : State) : Out := .next (s.storeX c 2 sc)

/-- STW.Xs. -/
def execStwX (c : CoreId) (sc : Fin 4) (s : State) : Out := .next (s.storeX c 4 sc)

/-- An atomic: `n` operands with the address on top; it leaves the old word. -/
def State.atomic (s : State) (c : CoreId) (n : Nat) (f : List Word → Word → Option Word) : State :=
  s.plain c 1 (fun s => (s.popCells c n).bind (fun s1 l =>
    let k := s1.core c
    (s1.coreAtomic c k.lvl k.cur.vhi (l.headD 0) (f l)).bind (fun s2 v => s2.pushVals c [v])))

/-- CAS: (e n a → o). -/
def execCas (c : CoreId) (s : State) : Out := .next (s.atomic c 3 (fun l o => if o = l.getD 2 0 then some (l.getD 1 0) else none))

/-- SWAPM: (v a → o). -/
def execSwapm (c : CoreId) (s : State) : Out := .next (s.atomic c 2 (fun l _ => some (l.getD 1 0)))

end Sys2Proof.Machine
end

