-- ==== Sys2Proof/Machine/InsnNum.lean ====
section
/-! DEFINITION. Q31, accumulator and binary32 instructions (R200, R203, R204, R240, R241). -/

namespace Sys2Proof.Machine

/-- QADD. -/
def execQadd (c : CoreId) (s : State) : Out := .next (s.binaryF c (fun _ a b => qadd a b))

/-- QSUB. -/
def execQsub (c : CoreId) (s : State) : Out := .next (s.binaryF c (fun _ a b => qsub a b))

/-- QMUL. -/
def execQmul (c : CoreId) (s : State) : Out := .next (s.binaryF c (fun _ a b => qmul a b))

/-- On an application core the sum sets ACC's pending bit while it is on its way (R254). -/
def Core.accPending (k : Core) (c : CoreId) : Core :=
  if isCe c then k
  else
    let a := k.cur.acc
    let x := k.pending (some (a.setWidth 32)) false
    let y := x.1.pending (some ((a >>> 32).setWidth 32)) false
    y.1.modCur (fun b => { b with accLo := x.2.pend, accHi := y.2.pend })

/-- An exact product is added into ACC, with saturation (R200). -/
def State.accumulate (s : State) (c : CoreId) (f : Word → Word → Int) : State :=
  s.plain c 1 (fun s => (s.popCells c 2).bind (fun s1 l => (s1.awaitAcc c (s1.core c).bank).bind (fun s2 _ =>
    match l with
    | [b, a] =>
      let r := sat64 ((s2.core c).cur.acc.toInt + f a b)
      .ok (((s2.modCore c (fun k => k.modCur (fun x => { x with acc := r.1 }))).addFlags c r.2).modCore c (fun k => k.accPending c)) ()
    | _ => .ok s2 ())))

/-- QMAC. -/
def execQmac (c : CoreId) (s : State) : Out := .next (s.accumulate c (fun a b => a.toInt * b.toInt))

/-- MAC. -/
def execMac (c : CoreId) (s : State) : Out := .next (s.accumulate c (fun a b => a.toInt * b.toInt))

/-- MACU. -/
def execMacu (c : CoreId) (s : State) : Out := .next (s.accumulate c (fun a b => (a.toNat * b.toNat : Nat)))

/-- ACCQ (R240). -/
def execAccq (c : CoreId) (s : State) : Out :=
  .next (s.plain c 1 (fun s => (s.awaitAcc c (s.core c).bank).bind (fun s1 _ =>
    let r := accq (s1.core c).cur.acc
    ((s1.modCore c (fun k => k.modCur (fun x => { x with acc := 0 }))).addFlags c r.2).pushVals c [r.1])))

/-- FADD. -/
def execFadd (c : CoreId) (s : State) : Out := .next (s.binaryF c fadd)

/-- FSUB. -/
def execFsub (c : CoreId) (s : State) : Out := .next (s.binaryF c fsub)

/-- FMUL. -/
def execFmul (c : CoreId) (s : State) : Out := .next (s.binaryF c fmul)

/-- FMA. -/
def execFma (c : CoreId) (s : State) : Out := .next (s.ternaryF c fma)

/-- FDIV: a pending result. -/
def execFdiv (c : CoreId) (s : State) : Out := .next (s.pendingF c 2 (fun r l => match l with | [b, a] => fdiv r a b | _ => (0, 0)))

/-- FSQRT: a pending result. -/
def execFsqrt (c : CoreId) (s : State) : Out := .next (s.pendingF c 1 (fun r l => match l with | [a] => fsqrt r a | _ => (0, 0)))

/-- FCLAMP. -/
def execFclamp (c : CoreId) (s : State) : Out := .next (s.ternaryF c fclamp)

/-- FNEG. -/
def execFneg (c : CoreId) (s : State) : Out := .next (s.unary c 1 fneg)

/-- FABS. -/
def execFabs (c : CoreId) (s : State) : Out := .next (s.unary c 1 fabs)

/-- FMIN. -/
def execFmin (c : CoreId) (s : State) : Out := .next (s.binaryF c (fminmax false))

/-- FMAX. -/
def execFmax (c : CoreId) (s : State) : Out := .next (s.binaryF c (fminmax true))

/-- FEQ. -/
def execFeq (c : CoreId) (s : State) : Out := .next (s.binaryF c feq)

/-- FLT. -/
def execFlt (c : CoreId) (s : State) : Out := .next (s.binaryF c flt)

/-- FLE. -/
def execFle (c : CoreId) (s : State) : Out := .next (s.binaryF c fle)

/-- F2I. -/
def execF2i (c : CoreId) (s : State) : Out := .next (s.unaryF c (f2int 0))

/-- I2F. -/
def execI2f (c : CoreId) (s : State) : Out := .next (s.unaryF c (int2f 0))

/-- F2Q. -/
def execF2q (c : CoreId) (s : State) : Out := .next (s.unaryF c (f2int 31))

/-- Q2F. -/
def execQ2f (c : CoreId) (s : State) : Out := .next (s.unaryF c (int2f (-31)))

end Sys2Proof.Machine
end

