-- ==== Sys2Proof/Machine/InsnStack.lean ====
section
/-! DEFINITION. Stack shuffles and literals (R193, R230, R235 to R238). -/

namespace Sys2Proof.Machine

/-- Cells move or are copied: `need` cells are cached, those of `reads` are waited for, and `f` rearranges the stack (R235,
R237). -/
def State.shuffle (s : State) (c : CoreId) (len need : Nat) (ill : Bool) (bytes : Nat) (reads : List Nat) (f : List Cell → List Cell) : State :=
  s.issue c len false true ill 0 bytes (fun s => (s.needCells c need).bind (fun s1 _ => (s1.awaitCells c reads).bind (fun s2 _ =>
    let s3 := s2.modCore c (fun k => k.modCur (fun b => { b with cells := f b.cells }))
    s3.spillCells c (s3.core c).bank 1)))

/-- The stack with cell `n` copied to the top. -/
def pickCells (n : Nat) (l : List Cell) : List Cell := (match l[n]? with | some x => [x] | none => []) ++ l

/-- The stack with cell `n` moved to the top. -/
def rollCells (n : Nat) (l : List Cell) : List Cell := (match l[n]? with | some x => [x] | none => []) ++ l.eraseIdx n

/-- A literal is pushed. -/
def State.literal (s : State) (c : CoreId) (len : Nat) (v : Word) : State := s.plain c len (fun s => s.pushVals c [v])

/-- NOP. -/
def execNop (c : CoreId) (s : State) : Out := .next (s.plain c 1 (fun s => .ok s ()))

/-- DUP: reads T0 (R235). -/
def execDup (c : CoreId) (s : State) : Out := .next (s.shuffle c 1 1 false 0 [0] (pickCells 0))

/-- DROP: a pending cell is discarded when its value arrives (R235). -/
def execDrop (c : CoreId) (s : State) : Out := .next (s.shuffle c 1 1 false 0 [] (fun l => l.drop 1))

/-- SWAP. -/
def execSwap (c : CoreId) (s : State) : Out := .next (s.shuffle c 1 2 false 0 [] (rollCells 1))

/-- OVER: reads T1. -/
def execOver (c : CoreId) (s : State) : Out := .next (s.shuffle c 1 2 false 0 [1] (pickCells 1))

/-- ROT. -/
def execRot (c : CoreId) (s : State) : Out := .next (s.shuffle c 1 3 false 0 [] (rollCells 2))

/-- NIP. -/
def execNip (c : CoreId) (s : State) : Out := .next (s.shuffle c 1 2 false 0 [] (fun l => l.take 1 ++ l.drop 2))

/-- PICK n: 16 to 255 are reserved (R236, R237). -/
def execPick (c : CoreId) (n : BitVec 8) (s : State) : Out := .next (s.shuffle c 2 (n.toNat + 1) (decide (15 < n.toNat)) (0x87 + 256 * n.toNat) [n.toNat] (pickCells n.toNat))

/-- ROLL n. -/
def execRoll (c : CoreId) (n : BitVec 8) (s : State) : Out := .next (s.shuffle c 2 (n.toNat + 1) (decide (15 < n.toNat)) (0x88 + 256 * n.toNat) [] (rollCells n.toNat))

/-- LIT8. -/
def execLit8 (c : CoreId) (i : BitVec 8) (s : State) : Out := .next (s.literal c 2 (i.signExtend 32))

/-- LIT16.SX. -/
def execLit16Sx (c : CoreId) (i : BitVec 16) (s : State) : Out := .next (s.literal c 4 (i.signExtend 32))

/-- LIT16.ZX. -/
def execLit16Zx (c : CoreId) (i : BitVec 16) (s : State) : Out := .next (s.literal c 4 (i.setWidth 32))

/-- LIT16.H. -/
def execLit16H (c : CoreId) (i : BitVec 16) (s : State) : Out := .next (s.literal c 4 (i.setWidth 32 <<< 16))

/-- LIT16.OR. -/
def execLit16Or (c : CoreId) (i : BitVec 16) (s : State) : Out := .next (s.unary c 4 (fun a => a ||| i.setWidth 32))

/-- LIT32: a word load from the instruction's own address plus a displacement (R238). -/
def execLit32 (c : CoreId) (d : BitVec 24) (s : State) : Out :=
  .next (s.plain c 4 (fun s1 =>
    let k := s1.core c
    (s1.coreLoad c k.lvl .load k.cur.vhi (k.pc + d.signExtend 32) 4).bind (fun s2 v => s2.pushPending c v [])))

end Sys2Proof.Machine
end

