-- ==== Sys2Proof/Machine/InsnFlow.lean ====
section
/-! DEFINITION. Branches, calls and returns with their delay slot, and what they train of the predictor (R209 to R212, R244,
R270, R273). -/

namespace Sys2Proof.Machine

/-- Outcomes in the global history, counters and indirect targets of a core (Table: Predictor sizes). -/
def predSizes : CoreId → Nat × Nat × Nat
  | .ce _ => (8, 512, 16)
  | .ac _ => (16, 8192, 256)

/-- The secret of the context in `CTXID` (R273). -/
def Core.secret (k : Core) : DWord := if bitOf k.predMode 1 then sparseGet (fun _ => 0) k.pkeys k.ctxid.toNat else 0

/-- The tag of what a core trains now: `CTXID` [7:0] and the level (R272). -/
def Core.predTag (k : Core) : Nat := k.ctxid.toNat % 256 * 4 + k.lvl

/-- The entry of a prediction table at an index; under `TAG`, only where its tag is the present one (R272). -/
def Core.predEntry {α : Type} (k : Core) (l : List (Nat × Nat × α)) (i : Nat) : Option α :=
  (l.find? (fun e => e.1 == i && (!bitOf k.predMode 0 || e.2.1 == k.predTag))).map (fun e => e.2.2)

/-- A prediction table with one entry trained. -/
def Core.predPut {α : Type} (k : Core) (l : List (Nat × Nat × α)) (i : Nat) (v : α) : List (Nat × Nat × α) :=
  (i, k.predTag, v) :: l.filter (fun e => e.1 != i)

/-- A branch's own address is not barred and dynamic prediction is on (R267, R272, R275). DEDUCED (log 29). -/
def Core.predicts (k : Core) (c : CoreId) : Bool := !bitOf k.predMode 4 && !k.det c && !k.barred c k.pc

/-- A 2-bit counter after an outcome. -/
def countBranch (n : BitVec 2) (taken : Bool) : BitVec 2 :=
  if taken then (if n = 3 then 3 else n + 1) else (if n = 0 then 0 else n - 1)

/-- The counter of the branch at `pc`: history and address index it, XORed with the secret (R270, R273). -/
def Core.condIndex (k : Core) (c : CoreId) : Nat :=
  let n := (predSizes c).2.1
  (Config.predIndex k.pc.toNat k.hist % n) ^^^ (k.secret.toNat % n)

/-- A B*cc* trains its counter and the history. DEDUCED (log 29). -/
def Core.trainCond (k : Core) (c : CoreId) (taken : Bool) : Core :=
  if !k.predicts c then k
  else
    let i := k.condIndex c
    let n := match k.predEntry k.counters i with | some v => countBranch v taken | none => Config.predFirst taken
    { k with hist := (taken :: k.hist).take (predSizes c).1, counters := k.predPut k.counters i n }

/-- A target as a target buffer stores it, and back: XOR the secret of the context (R273). -/
def Core.scramble (k : Core) (c : CoreId) (v : BitVec 48) : BitVec 48 :=
  v ^^^ (match c with | .ce _ => (k.secret >>> 32).setWidth 48 | .ac _ => (k.secret >>> 16).setWidth 48)

/-- The full address of a branch target. -/
def Core.target48 (k : Core) (c : CoreId) (a : Word) : BitVec 48 := BitVec.ofNat 48 (coreVa c k.fetchHi a)

/-- The entry of a target buffer of `n` entries that the branch at `pc` uses (R270). -/
def Core.targetIndex (k : Core) (n : Nat) : Nat := Config.predIndex k.pc.toNat [] % n

/-- A CALLI or JMPI trains its target. DEDUCED (log 29). -/
def Core.trainTarget (k : Core) (c : CoreId) (a : Word) : Core :=
  if !k.predicts c then k
  else { k with targets := k.predPut k.targets (k.targetIndex (predSizes c).2.2) (k.scramble c (k.target48 c a)) }

/-- A taken B*cc* or CALL of an application core trains its direct target. DEDUCED (log 29). -/
def Core.trainDirect (k : Core) (c : CoreId) (a : Word) : Core :=
  if isCe c || !k.predicts c then k
  else { k with direct := k.predPut k.direct (k.targetIndex 2048) (k.scramble c (k.target48 c a)) }

/-- The predicted direction of a B*cc* of condition `cc` and displacement `d`: its counter, else the static rule (R270, R271). -/
def Core.predictCond (k : Core) (c : CoreId) (cc : Fin 8) (d : BitVec 20) : Bool :=
  if cc = 0 then true
  else match (if k.predicts c then k.predEntry k.counters (k.condIndex c) else none) with
    | some n => decide (2 ≤ n.toNat)
    | none => d.msb

/-- The target that a buffer predicts; one in the barred range is not used (R275). -/
def Core.predictFrom (k : Core) (c : CoreId) (l : List (Nat × Nat × BitVec 48)) (n : Nat) : Option (BitVec 48) :=
  (if k.predicts c then (k.predEntry l (k.targetIndex n)).map (k.scramble c) else none).filter (fun v => !k.barred c (v.setWidth 32))

/-- The predicted target of a CALLI or JMPI; with none it waits for its target (R271). -/
def Core.predictTarget (k : Core) (c : CoreId) : Option (BitVec 48) := k.predictFrom c k.targets (predSizes c).2.2

/-- The predicted target of a B*cc* or CALL whose target is `a`: of the direct target buffer, else computed in decode (R270). -/
def Core.predictDirect (k : Core) (c : CoreId) (a : Word) : Option (BitVec 48) :=
  if k.barred c a then none else some ((k.predictFrom c k.direct 2048).getD (k.target48 c a))

/-- A B*cc* or CALL was fetched beyond on a wrong path (R270, R271, R275): a barred one, and one whose predicted target is barred, goes on in
sequence. -/
def Core.strayDirect (k : Core) (c : CoreId) (dir taken : Bool) (a : Word) : Bool :=
  !k.det c && (match (if dir && !k.barred c k.pc then k.predictDirect c a else none) with
    | some v => !taken || v != k.target48 c a
    | none => taken)

/-- A CALLI or JMPI to `a` was fetched beyond on a wrong path. -/
def Core.strayTarget (k : Core) (c : CoreId) (a : Word) : Bool :=
  !k.det c && (k.barred c k.pc || (match k.predictTarget c with | some v => v != k.target48 c a | none => false))

/-- A wrong-path fetch fills a line of the instruction cache, from normal memory that the core may execute from (R276, R277): whether it
does and its address are free; a barred range is never entered (R275). DESIGN CHOICE (log 21). -/
def State.strayFetch (s : State) (c : CoreId) : State :=
  let k := s.core c
  let s1 := s.draw
  let va := (Config.specVa s.free).setWidth 32
  let full := coreVa c k.cur.vhi va
  let walks := match c with | .ce _ => false | .ac a => s.mmuOn a k.lvl && (s.tlbHits a full).isEmpty
  if !Config.speculates s.free || k.barred c va || walks then s1
  else match s1.checkPart c k.lvl .fetch full with
    | .ok s2 pa =>
      if k.icServes c pa && !isDevice pa && !inFlash pa then
        { s1.modCore c (fun x => { x with icache := (pa / icLine c) :: x.icache }) with free := s2.free }
      else s1
    | _ => s1

/-- What a wrong path may leave behind (R276, R277, R386): lines of the instruction cache, and translations on an application core. -/
def State.stray (s : State) (c : CoreId) (wrong : Bool) : State :=
  if !wrong then s
  else match c with
    | .ce _ => s.strayFetch c
    | .ac a => (s.speculate a).strayFetch c

/-- The branch goes to its slot; `target` is where it goes after that, if it is taken (R211). -/
def State.toSlot (s : State) (c : CoreId) (len : Nat) (target : Option Word) (saved : Bank) : State :=
  s.modCore c (fun k => { k with slot := some ⟨k.pc, target, saved⟩, pc := k.pc + BitVec.ofNat 32 len })

/-- A branch condition (R210). -/
def condHolds (cc : Fin 8) (t : Word) : Bool :=
  match cc with
  | 0 => true
  | 1 => t == 0
  | 2 => t != 0
  | 3 => decide (t.toInt < 0)
  | 4 => decide (0 ≤ t.toInt)
  | 5 => decide (0 < t.toInt)
  | 6 => decide (t.toInt ≤ 0)
  | 7 => isNaN t

/-- B*cc*: `slotLen` is the length of the instruction in the slot, which an annulled branch that is not taken skips.
DESIGN CHOICE (log 21). -/
def execBcc (c : CoreId) (annul : Bool) (cc : Fin 8) (d : BitVec 20) (slotLen : Nat) (s : State) : Out :=
  .next (s.issue c 4 true false false 0 0 (fun s =>
    let n := if cc = 0 then 0 else 1
    (s.readCells c n).bind (fun s1 l =>
      let saved := (s1.core c).cur
      let taken := condHolds cc (l.headD 0)
      let k := s1.core c
      let a := k.pc + d.signExtend 32
      let s2 := ((s1.dropCells c n).stray c (k.strayDirect c (k.predictCond c cc d) taken a)).modCore c (fun k =>
        let k1 := if taken then k.trainDirect c a else k
        if cc = 0 then k1 else k1.trainCond c taken)
      if taken then .ok (s2.toSlot c 4 (some a) saved) ()
      else if annul then .ok (s2.modCore c (fun k => { k with pc := k.pc + BitVec.ofNat 32 (4 + slotLen) })) ()
      else .ok (s2.toSlot c 4 none saved) ())))

/-- CALL: the return address lies behind the slot (R198). -/
def execCall (c : CoreId) (d : BitVec 20) (slotLen : Nat) (s : State) : Out :=
  .next (s.issue c 4 true false false 0 0 (fun s =>
    let k := s.core c
    (s.pushRet c (k.pc + BitVec.ofNat 32 (4 + slotLen))).bind (fun s1 _ =>
      let a := k.pc + d.signExtend 32
      let s2 := (s1.stray c (k.strayDirect c true true a)).modCore c (fun x => x.trainDirect c a)
      .ok (s2.toSlot c 4 (some a) k.cur) ())))

/-- CALLI: pops its target before the slot executes. -/
def execCalli (c : CoreId) (slotLen : Nat) (s : State) : Out :=
  .next (s.issue c 1 true false false 0 0 (fun s => (s.readCells c 1).bind (fun s1 l =>
    let k := s1.core c
    let a := l.headD 0
    let s2 := ((s1.dropCells c 1).stray c (k.strayTarget c a)).modCore c (fun x => x.trainTarget c a)
    (s2.pushRet c (k.pc + BitVec.ofNat 32 (1 + slotLen))).bind (fun s3 _ => .ok (s3.toSlot c 1 (some a) k.cur) ()))))

/-- JMPI. -/
def execJmpi (c : CoreId) (s : State) : Out :=
  .next (s.issue c 1 true false false 0 0 (fun s => (s.readCells c 1).bind (fun s1 l =>
    let saved := (s1.core c).cur
    let a := l.headD 0
    let s2 := (s1.dropCells c 1).stray c ((s1.core c).strayTarget c a)
    .ok ((s2.modCore c (fun x => x.trainTarget c a)).toSlot c 1 (some a) saved) ())))

/-- RET. -/
def execRet (c : CoreId) (s : State) : Out :=
  .next (s.issue c 1 true false false 0 0 (fun s => (s.needRet c).bind (fun s1 _ =>
    let k := s1.core c
    let s2 := (s1.stray c (!k.det c && k.barred c k.pc)).modCore c (fun x => x.modCur (fun b => { b with rets := b.rets.drop 1 }))
    .ok (s2.toSlot c 1 (some (k.cur.rets.headD 0)) k.cur) ())))

end Sys2Proof.Machine
end

