-- ==== Sys2Proof/Machine/Csr.lean ====
section
/-! DEFINITION. The control and status registers as CSRR and CSRW see them (R201, R205, R266, R272, R273, R279, R284, R285,
R354). -/

namespace Sys2Proof.Machine

/-- The lowest level that may access a CSR; none for an unlisted number (Table: CSR numbers). -/
def csrLevel (n : Nat) : Option Nat :=
  if n ≤ 9 then some 0 else if 0x10 ≤ n ∧ n ≤ 0x17 then some 1 else if 0x80 ≤ n ∧ n ≤ 0x85 then some 3 else none

/-- A CSR that CSRW may write: all but `DEPTH` and `CYCLE`. -/
def csrWritable (n : Nat) : Bool := (csrLevel n).isSome && n != 7 && n != 8

/-- `PAIR_CTL` as it reads (R354): the same in both members. -/
def State.pairCtl (s : State) (c : CoreId) : Word :=
  let k := (pairOf c).val
  w32 (b2n (s.locked c) + 2 * (if isCe c then k else k - 32) + 64 * b2n (!isCe c))

/-- What CSRR pushes. DEDUCED (log 27). -/
def State.csrRead (s : State) (c : CoreId) (n : Nat) : Word :=
  let k := s.core c
  let b := k.cur
  match n with
  | 0x00 => b.fcsr
  | 0x01 => b.acc.setWidth 32
  | 0x02 => (b.acc >>> 32).setWidth 32
  | 0x03 => b.dsp
  | 0x04 => b.dsb
  | 0x05 => b.rsp
  | 0x06 => b.rsb
  | 0x07 => b.depth
  | 0x08 => w32 (if isCe c then s.time.clk / 2 else s.time.clk)
  | 0x09 => if isCe c then 0 else b.vhi.setWidth 32
  | 0x10 => k.status
  | 0x11 => k.cause
  | 0x12 => k.epc
  | 0x13 => k.tval
  | 0x14 => k.evecS
  | 0x15 => k.ssp
  | 0x16 => k.ctxid.setWidth 32
  | 0x17 => k.dmode
  | 0x80 => k.evecM
  | 0x81 => k.lvlrec
  | 0x82 => s.pairCtl c
  | 0x83 => k.predMode
  | _ => 0

/-- The bits of `STATUS` that a level may write (R279, R285). DEDUCED (log 27). -/
def statusMask (c : CoreId) (lvl : Nat) : Word :=
  (if isCe c then 0x73C else 0x43C) ||| (if lvl = 3 then 0x8C0 else 0)

/-- A masked write. -/
def masked (old v m : Word) : Word := (old &&& ~~~ m) ||| (v &&& m)

/-- `DMODE` after a write (R266): below M, sealed fields only get set. DEDUCED (log 27). -/
def Core.writeDmode (k : Core) (c : CoreId) (v : Word) : Word :=
  let w := v &&& (if isCe c then 7 else 5)
  if bitOf k.dmode 2 && k.lvl != 3 then k.dmode ||| w else w

/-- The secret of the context in `CTXID` with one half written (R273). DEDUCED (log 27). -/
def Core.writeKey (k : Core) (hi : Bool) (v : Word) : Core :=
  let old := sparseGet (fun _ => (0 : DWord)) k.pkeys k.ctxid.toNat
  let new := if hi then (old &&& 0xFFFFFFFF) ||| (v.setWidth 64 <<< 32) else (old &&& 0xFFFFFFFF00000000) ||| v.setWidth 64
  { k with pkeys := sparseSet (fun _ => 0) k.pkeys k.ctxid.toNat new }

/-- Write a CSR of a core, but for those that reach beyond it. DEDUCED (log 27). -/
def Core.csrWrite (k : Core) (c : CoreId) (n : Nat) (v : Word) : Core :=
  let al := v &&& 0xFFFFFFFC
  match n with
  | 0x00 => k.modCur (fun b => { b with fcsr := v &&& 0x73F })
  | 0x01 => k.modCur (fun b => { b with acc := (b.acc &&& 0xFFFFFFFF00000000) ||| v.setWidth 64, accLo := none })
  | 0x02 => k.modCur (fun b => { b with acc := (b.acc &&& 0xFFFFFFFF) ||| (v.setWidth 64 <<< 32), accHi := none })
  | 0x03 => k.modCur (fun b => { b with dsp := al })
  | 0x04 => k.modCur (fun b => { b with dsb := al })
  | 0x05 => k.modCur (fun b => { b with rsp := al })
  | 0x06 => k.modCur (fun b => { b with rsb := al })
  | 0x09 => if isCe c then k else { k.modCur (fun b => { b with vhi := v.setWidth 16 }) with bootHi := none }
  | 0x10 => { k with status := masked k.status v (statusMask c k.lvl) }
  | 0x11 => { k with cause := v &&& 0x803FFFFF }
  | 0x12 => { k with epc := v }
  | 0x13 => { k with tval := v }
  | 0x14 => { k with evecS := v }
  | 0x15 => { k with ssp := v }
  | 0x16 => if bitOf k.predMode 2 then { k.emptyPredictor with ctxid := v.setWidth 8 } else { k with ctxid := v.setWidth 8 }
  | 0x17 => { k with dmode := k.writeDmode c v }
  | 0x80 => { k with evecM := v }
  | 0x81 => { k with lvlrec := v }
  | 0x83 => { k with predMode := v &&& 0x1F }
  | 0x84 => k.writeKey false v
  | 0x85 => k.writeKey true v
  | _ => k

/-- A CSRW of `ACCLO` or `ACCHI` from a pending cell passes the pending bit to ACC (R254). -/
def Bank.passPending (b : Bank) (hi : Bool) (id : Nat) : Bank := if hi then { b with accHi := some id } else { b with accLo := some id }

/-- A lock or split request by the pair's own member at M (R336, R354). -/
def State.pairCtlWrite (s : State) (c : CoreId) (lock split : Bool) (v : Word) : State :=
  let s1 := if lock && bitOf v 8 then s.pairRequest (pairOf c) true else s
  if split && bitOf v 9 then s1.pairRequest (pairOf c) false else s1

end Sys2Proof.Machine
end

