-- ==== Sys2Proof/Machine/InsnSys.lean ====
section
/-! DEFINITION. System instructions, CSR access, translation maintenance, and the instructions that join a program to the
frame (R213 to R217, R222, R245 to R248, R393). -/

namespace Sys2Proof.Machine

/-! ## System instructions (R245 to R247) -/

/-- RETT (R295, R300); the command carries nothing beside the core. -/
def execRett (c : CoreId) (_u : Unit) (s : State) : Out :=
  .next (s.issue c 1 true false false 1 0x08 (fun s => s.rett c))

/-- FENCE: the buffer is empty, and region and translation registers come into force (R221, R247, R390). -/
def execFence (c : CoreId) (s : State) : Out :=
  .next (s.plain c 1 (fun s => (s.drained c).bind (fun s1 _ =>
    .ok (match c with
      | .ce _ => (s1.pairWrite c).foldl (fun s d => match d with | .ce x => s.forceRegions x | .ac _ => s) s1
      | .ac _ => (s1.pairWrite c).foldl (fun s d => match d with | .ac x => s.forceMmu x | .ce _ => s) s1) ())))

/-- WFI: waits, unless an interrupt is already pending. -/
def execWfi (c : CoreId) (s : State) : Out :=
  .next (s.issue c 1 true true false (if isCe c then 0 else 1) 0x0A (fun s =>
    .ok (if s.irqPending c || (c == .ac 0 && s.presented.isSome) then s else s.modCore c (fun k => { k with wfi := true })) ()))

/-- IFLUSH: drains the buffer and empties the instruction cache, so that the fetches after it read memory afresh (R247). -/
def execIflush (c : CoreId) (s : State) : Out :=
  .next (s.plain c 1 (fun s => (s.drained c).bind (fun s1 _ => .ok (s1.modCore c (fun k => { k with icache := [] })) ())))

/-- PFLUSH (R274). -/
def execPflush (c : CoreId) (s : State) : Out :=
  .next (s.issue c 1 false true false 1 0x0C (fun s => .ok (s.modCore c Core.emptyPredictor) ()))

/-- PBAR: (lo hi → ); lo > hi removes the bar. DEDUCED (log 29). -/
def execPbar (c : CoreId) (s : State) : Out :=
  .next (s.issue c 1 false true false 1 0x0D (fun s => (s.popCells c 2).bind (fun s1 l =>
    let hi := l.headD 0
    let lo := l.getD 1 0
    .ok (s1.modCore c (fun k => { k with bar := if hi.toNat < lo.toNat then none else some (lo, hi, k.cur.vhi) })) ())))

/-- `DBGBRK` of a core. -/
def State.dbgBrk (s : State) (c : CoreId) : Bool :=
  match c with | .ce e => s.rbit (pgCe e) Reg.CE_CTL 3 | .ac a => s.rbit (pgAc a) Reg.AC_CTL 1

/-- BREAK: halts the core while `DBGBRK` = 1, else traps (R226, R245). DEDUCED (log 26). -/
def execBreak (c : CoreId) (s : State) : Out :=
  .next (s.plain c 1 (fun s =>
    if s.dbgBrk c then .ok (s.modCore c (fun k => { k with step1 := true })) () else .trap s ⟨0xA, 0, false⟩))

/-- SAVE (R246). -/
def execSave (c : CoreId) (s : State) : Out :=
  .next (s.issue c 1 false true false 1 0x0F (fun s => s.saveS c (s.core c).lvl ⟨0x14, 0, true⟩))

/-- RESTORE (R246). -/
def execRestore (c : CoreId) (s : State) : Out :=
  .next (s.issue c 1 false true false 1 0x4F (fun s => s.restoreS c (s.core c).lvl ⟨0x14, 0, true⟩))

/-- TRAP: raises SYSCALL (R245). -/
def execTrap (c : CoreId) (i : BitVec 8) (s : State) : Out :=
  .next (s.issue c 2 true true false 0 0 (fun s => .trap s ⟨9, i.setWidth 32, false⟩))

/-! ## CSR access (R201, R254, R268) -/

/-- CSRR: a read of ACC waits for its pending bits. -/
def execCsrr (c : CoreId) (n : BitVec 8) (s : State) : Out :=
  let bytes := 0x8A + 256 * n.toNat
  .next (s.issue c 2 false true (csrLevel n.toNat).isNone ((csrLevel n.toNat).getD 0) bytes (fun s =>
    (if n = 1 ∨ n = 2 then s.awaitAcc c (s.core c).bank else .ok s ()).bind (fun s1 _ => s1.pushVals c [s1.csrRead c n.toNat])))

/-- A CSRW of ACC's halves: a pending source passes its pending bit on (R254). -/
def State.csrwAcc (s : State) (c : CoreId) (n : Nat) : Res Unit :=
  (s.needCells c 1).bind (fun s1 _ =>
    let x := (s1.core c).cur.cells.headD ⟨0, none⟩
    let s2 := s1.dropCells c 1
    match x.pend with
    | some id => .ok (s2.modCore c (fun k => k.modCur (fun b => b.passPending (n == 2) id))) ()
    | none => .ok (s2.modCore c (fun k => k.csrWrite c n x.val)) ())

/-- CSRW of any other CSR; `DMODE` drains the buffer (R268). -/
def State.csrwVal (s : State) (c : CoreId) (n : Nat) : Res Unit :=
  (s.popCells c 1).bind (fun s1 l =>
    let v := l.headD 0
    (if n = 0x17 then s1.drained c else .ok s1 ()).bind (fun s2 _ =>
      if n = 0x82 then .ok (s2.pairCtlWrite c true true v) ()
      else .ok (s2.modCore c (fun k => k.csrWrite c n v)) ()))

/-- CSRW. -/
def execCsrw (c : CoreId) (n : BitVec 8) (s : State) : Out :=
  .next (s.issue c 2 false true (!csrWritable n.toNat) ((csrLevel n.toNat).getD 0) (0x8B + 256 * n.toNat) (fun s =>
    if n = 1 ∨ n = 2 then s.csrwAcc c n.toNat else s.csrwVal c n.toNat))

/-- A CSRW of `PAIR_CTL` that sets `REQLOCK` (R336). -/
def execPairCtlReqlock (c : CoreId) (s : State) : Out :=
  .next (s.issue c 2 false true false 3 0x828B (fun s => (s.popCells c 1).bind (fun s1 l =>
    .ok (s1.pairCtlWrite c true false (l.headD 0)) ())))

/-- A CSRW of `PAIR_CTL` that sets `REQSPLIT` (R336). -/
def execPairCtlReqsplit (c : CoreId) (s : State) : Out :=
  .next (s.issue c 2 false true false 3 0x828B (fun s => (s.popCells c 1).bind (fun s1 l =>
    .ok (s1.pairCtlWrite c false true (l.headD 0)) ())))

/-! ## Translation maintenance (R248, R393 to R395) -/

/-- What a TLBI of a form (its imm8) removes from a core (R248). DEDUCED (log 28). -/
def Core.tlbi (k : Core) (form asid va : Nat) : Core :=
  let covers (t : TlbEntry) : Bool := decide (t.vbase ≤ va ∧ va < t.vbase + 2 ^ t.log2)
  let path (w : WalkEntry) : Bool := w.vbase == va / 2 ^ leafLog w.level
  let keep (t : TlbEntry) : Bool :=
    if form % 4 = 0 then !(covers t && (t.asid == asid || bitOf t.raw 6))
    else if form % 4 = 1 then !(t.asid == asid && !bitOf t.raw 6)
    else false
  { k with tlb := k.tlb.filter keep
           walk := if form < 4 then k.walk else if form = 4 then k.walk.filter (fun w => !path w) else [] }

/-- The members that a broadcast waits for: every other one, a locked pair through its master (R393, R395). DEDUCED (log 28). -/
def State.bcastTo (s : State) (a : Fin 8) : List (Fin 8) :=
  (List.finRange 8).filter (fun (b : Fin 8) => b != a && s.domMembers.testBit b && !(s.locked (.ac b) && isChecker (.ac b)))

/-- A TLBI acts on its own core, and is broadcast in a closed domain (R248, R391). DEDUCED (log 28). -/
def State.tlbi (s : State) (c : CoreId) (form asid va : Nat) : State :=
  let s1 := s.modCore c (fun k => k.tlbi form asid va)
  match c with
  | .ac a =>
    let to_ := s1.bcastTo a
    if s1.domClosed && s1.domMembers.testBit a && !to_.isEmpty then { s1 with bcast := s1.bcast ++ [⟨a, form, asid, va, to_⟩] } else s1
  | .ce _ => s1

/-- A core's TLBI waits for its broadcast (R393). -/
def State.bcastWaits (s : State) (c : CoreId) : Bool := s.bcast.any (fun b => CoreId.ac b.issuer == c)

/-- Issue a TLBI of a form with `n` operands, ILLEGAL on engines (R222): it drains the buffer first. In a closed domain it retires only once
every member has applied it (R248). -/
def State.tlbiForm (s : State) (c : CoreId) (form n : Nat) : State :=
  s.issueWith c 2 false (isCe c) 1 (0x8D + 256 * form) (fun k0 s1 => if s1.bcastWaits c then s1.mirror c else s.retired s1 c k0 2 true)
      (fun s => (s.popCells c n).bind (fun s1 l =>
    (s1.drained c).bind (fun s2 _ =>
      let asid := bitsOf (if n = 2 then l.getD 1 0 else l.headD 0) 15 0
      let va := if n = 2 then coreVa c (s2.core c).cur.vhi (l.headD 0) else 0
      .ok (s2.tlbi c form asid va) ())))

/-- TLBI.VA: (asid va → ). -/
def execTlbiVa (c : CoreId) (s : State) : Out := .next (s.tlbiForm c 0 2)
/-- TLBI.VA.WALK. -/
def execTlbiVaWalk (c : CoreId) (s : State) : Out := .next (s.tlbiForm c 4 2)
/-- TLBI.ASID: (asid → ). -/
def execTlbiAsid (c : CoreId) (s : State) : Out := .next (s.tlbiForm c 1 1)
/-- TLBI.ASID.WALK. -/
def execTlbiAsidWalk (c : CoreId) (s : State) : Out := .next (s.tlbiForm c 5 1)
/-- TLBI.ALL. -/
def execTlbiAll (c : CoreId) (s : State) : Out := .next (s.tlbiForm c 2 0)
/-- TLBI.ALL.WALK. -/
def execTlbiAllWalk (c : CoreId) (s : State) : Out := .next (s.tlbiForm c 6 0)

/-- A member applies the oldest broadcast that waits for it, its buffered stores having taken effect (R393). DEDUCED (log 28). -/
def State.bcastApply (s : State) (a : Fin 8) : State :=
  match s.bcast.find? (fun b => b.left.contains a) with
  | none => s
  | some b =>
    let x := s.drainAll (.ac a)
    if !x.2 then x.1
    else
      let s1 := (x.1.modCore (.ac a) (fun k => k.tlbi b.form b.asid b.va)).mirror (.ac a)
      { s1 with bcast := s1.bcast.map (fun y => if y.issuer == b.issuer then { y with left := y.left.filter (fun z => z != a) } else y) }

/-- All acknowledgements of a core's broadcast have come: its TLBI retires (R248, R393). DEDUCED (log 28). -/
def State.bcastDone (s : State) (a : Fin 8) : State :=
  if s.bcast.any (fun b => b.issuer == a && b.left.isEmpty) then
    ({ s with bcast := s.bcast.filter (fun b => b.issuer != a) } : State).tlbiRetire a
  else s

/-! ## The frame (R213 to R217) -/

/-- The core is an engine in its foreground context. -/
def State.inFg (s : State) (c : CoreId) : Bool := isCe c && (s.core c).ctx == .fg

/-- WAITS: the oldest entry, or a cell that waits for the next one to arrive (R213). -/
def execWaits (c : CoreId) (s : State) : Out :=
  .next (s.issue c 1 false true (!s.inFg c) 0 0x4A (fun s =>
    match (s.core c).spq with
    | a :: t => (s.modCore c (fun k => { k with spq := t })).pushVals c [a.cell]
    | [] =>
      let x := (s.core c).pending none true
      (s.modCore c (fun _ => x.1)).pushCells c [x.2]))

/-- PUTD: a duty-port word, which reaches the generator 15 ns later, a locked pair's 2.5 ns after that (R23, R184, R214). -/
def execPutd (c : CoreId) (s : State) : Out :=
  .next (s.issue c 1 false true (!isCe c) 0 0x4B (fun s => (s.popCells c 1).bind (fun s1 l =>
    match c with
    | .ce e =>
      let w : DutyWord := ⟨s1.now + nsSteps 15 + (if s1.locked c then 64 else 0), l.headD 0, (s1.core c).ctx == .fg⟩
      .ok (s1.modPwm (clusterOf e) (fun p => { p with flight := p.flight.set (localOf e) (p.flight[localOf e] ++ [w]) })) ()
    | .ac _ => .ok s1 ())))

/-- `CE_CTL.FLVL` of a core. -/
def State.flvl (s : State) (c : CoreId) : Nat := match c with | .ce e => s.fld (pgCe e) Reg.CE_CTL 1 1 | .ac _ => 0

/-- FRAMEEND: drains the buffer and ends the foreground (R215). -/
def execFrameend (c : CoreId) (s : State) : Out :=
  .next (s.issue c 1 true false (!s.inFg c || (s.core c).lvl != s.flvl c) 0 0x4C (fun s => (s.drained c).bind (fun s1 _ =>
    .ok (match c with | .ce e => s1.frameEnd e | .ac _ => s1) ())))

/-- CKPT: the named LSRAM blocks go into the half that is not completed (R216, R344); the header is the first word written (R361).
DEDUCED (log 34). -/
def State.ckpt (s : State) (e : Fin 64) : State :=
  let ofs := s.fld (pgCe e) Reg.CE_CKPT_SRC 14 6
  let blk := s.fld (pgCe e) Reg.CE_CKPT_LEN 4 0
  let p := pgSramC (clusterOf e)
  let inj := s.fld p (Reg.SRAM_U_INJ 9) 1 0
  let d : Ckpt := ⟨(s.core (.ce e)).fgFcnt, ofs, blk, (List.range (64 * blk)).map (fun i => s.byteAt (lsramBase e + (64 * ofs + i) % 0x8000)), inj⟩
  (if inj = 0 then s else s.setReg p (Reg.SRAM_U_INJ 9) 0).modCore (.ce e) (fun k => if k.ckptSel then { k with ckpt0 := d, ckptNow := true } else { k with ckpt1 := d, ckptNow := true })

/-- CKPT. -/
def execCkpt (c : CoreId) (s : State) : Out :=
  .next (s.issue c 1 false true (!s.inFg c) 0 0x4D (fun s => (s.drained c).bind (fun s1 _ =>
    .ok (match c with | .ce e => s1.ckpt e | .ac _ => s1) ())))

/-- TAILGO: restarts the tail at once, or sets the start of the next one (R217). DEDUCED (log 25). -/
def execTailgo (c : CoreId) (s : State) : Out :=
  .next (s.issue c 1 true false (!isCe c) 0 0x4E (fun s => (s.popCells c 1).bind (fun s1 l =>
    .ok (s1.modCore c (fun k =>
      if k.ctx == .tail && k.bank == .tl then k.startTail (l.headD 0) (s1.tlvl c)
      else { k.advancePc 1 with tailGo := some (l.headD 0) })) ())))

/-! ## Reserved encodings (R209, R234) -/

/-- RESERVED_OPCODE: bytes that decode as no instruction raise ILLEGAL, `TVAL` holding those of the instruction. Bytes that spell one are no
such command. -/
def execReservedOpcode (c : CoreId) (bytes : Word) (s : State) : Out :=
  let n := opLength (bytes.toNat % 256)
  .next (if (Sys2Proof.decodeDsx c 1 bytes).isSome then s
    else s.issue c n false true true 0 (bytes.toNat % 256 ^ n) (fun s => .ok s ()))

/-! ## Events of a core -/

/-- PENDING_CELL_FILL: the pending value numbered `id` arrives (R252, R255). -/
def execPendingCellFill (c : CoreId) (id : Nat) (s : State) : Out := .next ((s.modCore c (fun k => k.arrive id)).mirror c)

/-- STORE_BUFFER_DRAIN: entry `j` drains, unless an older entry of the same target waits; `lost` says that it loses a
conflict on its ECC word (R259, R262, R362). -/
def execStoreBufferDrain (c : CoreId) (j : Nat) (lost : Bool) (s : State) : Out :=
  let sb := (s.core c).sbuf
  .next (match sb[j]? with
    | none => s
    | some e =>
      if (sb.take j).any (fun x => sbTarget x.pa == sbTarget e.pa) then s
      else
        let done (s : State) : State := s.modCore c (fun k => { k with sbuf := k.sbuf.eraseIdx j })
        if lost then done (s.writeLost (.core c) e.pa)
        else match s.coreWrite c e.m e.pa e.bytes with
          | (s1, .wait) => s1
          | (s1, _) => done s1)

/-- WFI_WAKE (R247). -/
def execWfiWake (c : CoreId) (s : State) : Out := .next (s.wfiWake c)

/-- INTERRUPT_ENTRY (R286, R299); the command carries nothing beside the core. -/
def execInterruptEntry (c : CoreId) (_u : Unit) (s : State) : Out := .next (s.interrupt c)

/-- TLBI_BROADCAST_APPLY. -/
def execTlbiBroadcastApply (a : Fin 8) (s : State) : Out := .next (s.bcastApply a)

/-- TLBI_BROADCAST_DONE. -/
def execTlbiBroadcastDone (a : Fin 8) (s : State) : Out := .next (s.bcastDone a)

end Sys2Proof.Machine
end

