-- ==== Sys2Proof/Machine/Cmd.lean ====
section
/-! DEFINITION. The command set (21_rom_command_set.md, R511 to R545): fetch, start and completion, and what each command
does. -/

namespace Sys2Proof.Machine

/-! ## Status codes and opcodes (R517) -/

/-- Opcodes that the device knows. -/
def cmdOpcodes : List Nat :=
  [0x0000, 0x0001, 0x0002, 0x0003, 0x0100, 0x0101, 0x0102, 0x0103, 0x0200, 0x0201, 0x0202, 0x0300, 0x0301, 0x0302, 0x0303,
   0x0400, 0x0401, 0x0402, 0x0403, 0x0500, 0x0501, 0x0502, 0x0600, 0x0601, 0x0602, 0x0700, 0x0701]

/-- Opcodes of queue 0 alone (R519). -/
def cmdQueue0 (opc : Nat) : Bool := opc == 0x0002 || decide (0x0400 ≤ opc ∧ opc ≤ 0x0403) || opc == 0x0502 || opc == 0x0601

/-- Parameter `i` of a command. -/
def Cmd.par (c : Cmd) (i : Nat) : Word := c.p.getD i 0

/-- Two parameters as a number. -/
def Cmd.par2 (c : Cmd) (i : Nat) : Nat := (c.par i).toNat + (c.par (i + 1)).toNat * 2 ^ 32

/-- The slot of a recipe command. -/
def Cmd.slot (c : Cmd) : Fin 16 := Fin.ofNat 16 (c.par 0).toNat

/-- The flash bank of a command. -/
def Cmd.bank (c : Cmd) : Fin 5 := Fin.ofNat 5 (c.par 0).toNat

/-- The first test of a list that fails, by the byte offset of its field. DEDUCED (log 56). -/
def firstBad (l : List (Nat × Bool)) : Option Nat := (l.find? (fun x => !x.2)).map (fun x => x.1)

/-- The parameter ranges of SET_DOMAINS: a domain and a state up to the end mark. -/
def domParams : List Word → Nat → List (Nat × Bool)
  | [], _ => []
  | w :: t, o =>
    if w = 0xFFFF then []
    else (o, decide (bitsOf w 7 0 < 148 ∧ bitsOf w 9 8 ≠ 2 ∧ bitsOf w 31 10 = 0)) :: domParams t (o + 4)

/-- The parameters of a command that are out of range (R517 and the command tables); `rsv` is the reserved word at 0x14. -/
def Cmd.fault (c : Cmd) (rsv : Word) : Option Nat :=
  let p := fun i => (c.par i).toNat
  let own : List (Nat × Bool) :=
    if c.opc = 0x0002 then
      [(0x18, decide (p 0 ≤ 4)), (0x1C, decide (p 1 / 2 ^ 9 = 0 ∧ bitsOf (c.par 1) 7 6 = 0 ∧ (p 0 = 1 → bitsOf (c.par 1) 5 0 < 8)
        ∧ (p 0 = 0 → bitOf (c.par 1) 8 → bitsOf (c.par 1) 5 0 < 4)))]
    else if c.opc = 0x0200 ∨ c.opc = 0x0201 ∨ c.opc = 0x0202 then [(0x1C, decide (p 1 < 2 ^ 16))]
    else if c.opc = 0x0100 ∨ c.opc = 0x0101 then [(0x18, decide (p 0 < 16))]
    else if c.opc = 0x0102 then [(0x18, decide (p 0 < 16)), (0x20, decide (p 2 < 2 ^ 16))]
    else if c.opc = 0x0300 then
      [(0x20, decide (12 ≤ p 2 ∧ p 2 ≤ 34)), (0x24, decide (p 3 < 2 ^ 16)), (0x2C, decide (p 5 ≤ 2)),
       (0x30, decide (p 5 = 1 → p 6 < 1024)), (0x34, decide (p 5 = 2 → p 7 < 2 ^ 16))]
    else if c.opc = 0x0400 then [(0x10, decide (c.dlen % 16 = 0)), (0x18, decide (p 0 < 5)), (0x1C, decide (p 1 % 16 = 0))]
    else if c.opc = 0x0401 then [(0x18, decide (p 0 < 5)), (0x1C, decide (p 1 = sectorBase (p 0) (p 1)))]
    else if c.opc = 0x0402 then [(0x18, decide (p 0 < 5)), (0x20, decide (p 1 + p 2 ≤ bankSize (p 0)))]
    else if c.opc = 0x0403 then [(0x10, decide (p 0 = 0 → c.dlen ≤ 0x3E0000 - 0x200)), (0x18, decide (p 0 ≤ 1))]
    else if c.opc = 0x0501 then [(0x38, decide (p 8 ≠ 0 ∧ p 8 < 256))]
    else if c.opc = 0x0502 then [(0x18, decide (p 0 ≤ 3))]
    else if c.opc = 0x0600 then [(0x18, decide (p 0 ≤ 1))]
    else if c.opc = 0x0601 then
      [(0x18, decide (1 ≤ p 0 ∧ p 0 ≤ 250)), (0x1C, decide (p 1 < 256 ∧ p 1 % 16 < 4 ∧ (p 1 / 16 < 4 ∨ p 1 / 16 = 15)))]
    else if c.opc = 0x0700 then domParams (c.p.take 8) 0x18
    else []
  firstBad ([(0x02, decide (c.flags < 4)), (0x14, decide (rsv = 0))] ++ own)

/-- The resources that a command holds (R520): recipe slots 0 to 15, the activation, flash banks from 17, the trace unit, the
signing engine, the fabric tables, the power controller. -/
def Cmd.holds (c : Cmd) : List Nat :=
  if c.opc = 0x0100 ∨ c.opc = 0x0101 then [(c.par 0).toNat]
  else if c.opc = 0x0102 then [(c.par 0).toNat, 16]
  else if c.opc = 0x0400 ∨ c.opc = 0x0401 ∨ c.opc = 0x0402 then [17 + (c.par 0).toNat]
  else if c.opc = 0x0403 then [17]
  else if 0x0300 ≤ c.opc ∧ c.opc ≤ 0x0303 then [22]
  else if c.opc = 0x0501 ∨ c.opc = 0x0502 then [23]
  else if c.opc = 0x0600 ∨ c.opc = 0x0601 then [24]
  else if c.opc = 0x0700 then [25]
  else []

/-! ## Buffers -/

/-- The system physical address of a buffer address (R516): a device address where bit 63 is 1, else a host address. DEDUCED (log 55). -/
def bufAddr (d : Nat) : Nat := if 2 ^ 63 ≤ d % 2 ^ 64 then d % 2 ^ 63 else hostBase + d % 2 ^ 63

/-- Read `n` bytes of a command's buffer. DEDUCED (log 57). -/
def State.bufRead (s : State) (c : Cmd) (n : Nat) : State × Option (List Byte) :=
  if c.dlen < n then (s, none)
  else match s.physRead (.sdma 0) false (bufAddr c.dptr) n with
    | (s1, .data bs) => (s1, some bs)
    | (s1, _) => (s1, none)

/-- Write bytes to a command's buffer of at least `room` bytes; false where the write fails. DEDUCED (log 57). -/
def State.bufWrite (s : State) (c : Cmd) (room : Nat) (bs : List Byte) : State × Bool :=
  if c.dlen < room then (s, false)
  else
    let x := s.physWrite (.sdma 0) false (bufAddr c.dptr) bs
    (x.1, x.2 == .done && !(isHostMem (bufAddr c.dptr) && s.viral))

/-! ## Completion and start (R513, R515, R517 to R520) -/

/-- The completion entry (Table: Completion entry). -/
def compEntry (c : Cmd) (phase : Bool) (status r0 r1 : Nat) : List Byte :=
  leBytes 4 c.cid.toNat ++ leBytes 2 status ++ leBytes 2 (c.sqh % 4096 + 32768 * b2n phase) ++ leBytes 4 r0 ++ leBytes 4 r1

/-- A command ends: its completion is written, unless its queue has stopped; then its vector is sent (R513, R515). DEDUCED (log 55). -/
def State.cmdEnd (s : State) (c : Cmd) (status r0 r1 : Nat) : State :=
  let p := pgQc c.q
  let s1 := s.modQueue c.q (fun x => { x with cmds := x.cmds.filter (fun d => d.sqh != c.sqh) })
  if s.qErr c.q then s1
  else
    let x := s.queue c.q
    let a := hostBase + (s.reg p Reg.QC_CQB_LO).toNat + (s.reg p Reg.QC_CQB_HI).toNat * 2 ^ 32 + 16 * x.ctail
    let w := s1.physWrite (.sdma 0) false a (compEntry c x.phase status r0 r1)
    if w.2 != .done || s.viral then w.1.qStop c.q 3
    else
      let t := (x.ctail + 1) % s.ring c.q
      let s2 := (w.1.modQueue c.q (fun x => { x with ctail := t, phase := if t = 0 then !x.phase else x.phase })).count p Reg.QC_CNT 15 0
      let vec := s.fld p Reg.QC_CTL 15 10
      if c.flags % 2 = 1 ∧ 3 ≤ vec then s2.msixSend vec else s2

/-- Commands that run hold a resource of `c`. -/
def State.cmdBusy (s : State) (c : Cmd) : Bool :=
  (List.finRange 64).any (fun (q : Fin 64) => (s.queue q).cmds.any (fun d =>
    d.started && !(d.q == c.q && d.sqh == c.sqh) && d.holds.any (fun r => c.holds.contains r)))

/-- A command starts, or completes at once with a status of its start (R517, R519, R520). -/
def State.cmdStart (s : State) (c : Cmd) : State :=
  if !cmdOpcodes.contains c.opc then s.cmdEnd c 1 0 0
  else if cmdQueue0 c.opc && c.q.val != 0 then s.cmdEnd c 4 0 0
  else match c.bad with
    | some o => s.cmdEnd c 2 o 0
    | none =>
      if s.cmdBusy c then s.cmdEnd c 3 0 0
      else s.modQueue c.q (fun x => { x with cmds := x.cmds.map (fun d => if d.sqh = c.sqh then { d with started := true } else d) })

/-- A command may start: `OVL` = 1, or the command fetched before it is complete (R518). -/
def State.cmdMay (s : State) (c : Cmd) : Bool :=
  c.flags / 2 % 2 == 1 || (s.queue c.q).cmds.all (fun d => d.sqh != (c.sqh + s.ring c.q - 1) % s.ring c.q)

/-- Start what may start of a queue, one command after another. -/
def State.cmdServe (q : Fin 64) : Nat → State → State
  | 0, s => s
  | n + 1, s =>
    match (s.queue q).cmds.find? (fun c => !c.started && s.cmdMay c) with
    | none => s
    | some c => State.cmdServe q n (s.cmdStart c)

/-- A command completes, and its successors may start. -/
def State.cmdDone (s : State) (c : Cmd) (status r0 r1 : Nat) : State :=
  State.cmdServe c.q ((s.queue c.q).cmds.length + 1) (s.cmdEnd c status r0 r1)

/-- A descriptor's command (Table: Command descriptor). -/
def parseCmd (q : Fin 64) (sqh : Nat) (ns : DWord) (bs : List Byte) : Cmd :=
  let c : Cmd :=
    { q := q, opc := fieldAt bs 0 2, flags := fieldAt bs 2 2, cid := w32 (fieldAt bs 4 4), dptr := fieldAt bs 8 8
      dlen := fieldAt bs 0x10 4, p := (List.range 10).map (fun i => w32 (fieldAt bs (0x18 + 4 * i) 4)), sqh := sqh, ns := ns
      bad := none, started := false, waits := false, prog := 0, data := [] }
  { c with bad := c.fault (w32 (fieldAt bs 0x14 4)) }

/-- A queue has a descriptor that may be fetched (R513, R514). -/
def State.mayFetch (s : State) (q : Fin 64) : Bool :=
  let h := s.fld (pgQc q) Reg.QC_STAT 27 16
  let n := s.ring q
  s.qEn q && !s.qErr q && h != (s.queue q).tail && decide ((h + n - (s.queue q).head % n) % n < n - 1)

/-- The queue served next (R518): the highest `PRIO`, in turn among equals. -/
def State.nextQueue (s : State) : Option (Fin 64) :=
  let order := (List.range 64).map (fun k => Fin.ofNat 64 (s.cmd.last + 1 + k))
  order.foldl (fun (b : Option (Fin 64)) q =>
    if !s.mayFetch q then b
    else match b with
      | none => some q
      | some x => if s.fld (pgQc x) Reg.QC_CTL 9 8 < s.fld (pgQc q) Reg.QC_CTL 9 8 then some q else b) none

/-- The device fetches one descriptor (R511, R513, R514, R518). DEDUCED (log 55). -/
def State.descFetch (s : State) : State :=
  if !s.fwUp then s
  else match s.nextQueue with
    | none => s
    | some q =>
      let p := pgQc q
      let h := s.fld p Reg.QC_STAT 27 16
      let a := hostBase + (s.reg p Reg.QC_SQB_LO).toNat + (s.reg p Reg.QC_SQB_HI).toNat * 2 ^ 32 + 64 * h
      let s0 := s.modCmd (fun u => { u with last := q.val })
      match s0.physRead (.sdma 0) false a 64 with
      | (s1, .data bs) =>
        let n := (h + 1) % s.ring q
        let s2 := s1.setFld p Reg.QC_STAT 27 16 n
        let s3 := s2.modQueue q (fun x => { x with cmds := x.cmds ++ [parseCmd q n s.time.ns bs] })
        State.cmdServe q ((s3.queue q).cmds.length + 1) s3
      | (s1, _) => s1.qStop q 2

/-- The command that runs with opcode `opc` in queue `q`: what `f` does with it; nothing where none runs. -/
def State.cmdRun (s : State) (q : Fin 64) (opc : Nat) (f : State → Cmd → State) : State :=
  if !s.fwUp then s
  else match (s.queue q).cmds.find? (fun c => c.started && c.opc == opc) with
    | some c => f s c
    | none => s

/-- A command that reaches over the bridge waits while it retrains (R19). -/
def State.cmdCross (s : State) (q : Fin 64) (opc : Nat) (f : State → Cmd → State) : State :=
  s.cmdRun q opc (fun s c => if s.bridgeTrains then s else f s c)

/-- Change a running command. -/
def State.modRun (s : State) (c : Cmd) (f : Cmd → Cmd) : State :=
  s.modQueue c.q (fun x => { x with cmds := x.cmds.map (fun d => if d.sqh = c.sqh then f d else d) })

/-- Write a result to the buffer and complete: BUFFER where that fails. -/
def State.cmdAnswer (s : State) (c : Cmd) (room : Nat) (bs : List Byte) (r0 r1 : Nat) : State :=
  let x := s.bufWrite c room bs
  if x.2 then x.1.cmdDone c 0 r0 r1 else x.1.cmdDone c 5 0 0

/-! ## Device commands (R523, tables) -/

/-- DRAM in units of 256 MB: the capacities of the channels that are on. -/
def State.dramUnits (s : State) : Nat :=
  match s.boardDesc.2 with
  | some b => (List.range 2).foldl (fun a ch => if s.domOn (125 + ch) then a + 4 * fieldAt b (0x26 + 0x80 * ch) 2 else a) 0
  | none => 0

/-- The IDENTIFY data. -/
def State.identData (s : State) : List Byte :=
  leBytes 2 deviceId ++ leBytes 1 stepping ++ leBytes 1 s.lifecycle ++ leBytes 16 s.serial.toNat ++ leBytes 4 s.power.fwver.toNat
    ++ leBytes 4 s.power.svn ++ leBytes 1 (s.fld pgRst Reg.RST_BOOT 4 4) ++ leBytes 1 s.fabAddr ++ leBytes 2 64
    ++ leBytes 4 s.dramUnits ++ leBytes 4 (16 + 32 * 65536) ++ leBytes 24 0

/-- IDENTIFY. -/
def State.cmdIdentify (s : State) (q : Fin 64) : State := s.cmdRun q 0 (fun s c => s.cmdAnswer c 64 s.identData 0 0)

/-- GET_STATUS. DEDUCED (log 56). -/
def State.cmdStatus (s : State) (q : Fin 64) : State := s.cmdRun q 1 (fun s c =>
  let stop := (List.finRange 8).any (fun (k : Fin 8) => s.rbit (pgPwg0 k) Reg.PWG_SAFE_CAUSE 0)
  let halted := (s.pairs.toList.filter (fun x => x.halted)).length
  s.cmdDone c 0
    (s.fld pgRst Reg.RST_BOOT 3 0 + 16 * s.fld pgRst Reg.RST_BOOT 4 4 + 32 * s.lifecycle + 128 * b2n s.viral + 256 * s.activeSlot
      + 65536 * s.fabAddr + 2 ^ 24 * s.fld pgDtb Reg.DTB_STAT 1 1 + 2 ^ 25 * s.fld pgDtb Reg.DTB_STAT 3 3 + 2 ^ 26 * b2n stop)
    (halted + 256 * s.pendingSlot))

/-- The RESET_DOMAIN commands whose reset has ended complete. -/
def State.resetWake (s : State) (q : Fin 64) : State := s.cmdRun q 2 (fun s c =>
  let sc := (c.par 0).toNat
  let r : ResetRun := ⟨sc, bitsOf (c.par 1) 5 0, sc == 0 && bitOf (c.par 1) 8⟩
  if c.waits && !s.power.resets.any (fun x => x.covers r) then s.cmdDone c 0 0 0 else s)

/-- GET_TEMP. -/
def State.cmdTemp (s : State) (q : Fin 64) : State := s.cmdRun q 3 (fun s c =>
  s.cmdDone c 0 (s.fld pgMon Reg.MON_TEMP 15 0 + 65536 * s.fld pgMon Reg.MON_TWARN 7 0) 0)

/-! ## Axis commands (R525) -/

/-- The channels of an axis. -/
def axisCh (b : Nat) : List (Fin 18) := [Fin.ofNat 18 (3 * b), Fin.ofNat 18 (3 * b + 1), Fin.ofNat 18 (3 * b + 2)]

/-- The page of an axis answers the firmware. -/
def State.axisOpen (s : State) (k : Fin 8) : Bool := s.pageOpen (pgPwg0 k) && !s.bridgeIsDown

/-- An axis may be enabled: no locked page whose `EN` must change, no release that R100 refuses. -/
def State.axisMay (s : State) (k : Fin 8) (b : Nat) (on release : Bool) : Bool :=
  s.axisOpen k
    && !(s.rbit (pgPwg0 k) Reg.PAGE_LOCK 0 && (axisCh b).any (fun x => s.rbit (pgPwg0 k) (Reg.PWG_CH_CTL x) 0 != on))
    && !(release && s.safeCaused k)

/-- Do `f` on each named axis that `may` allows; the others are named in the results. -/
def State.axes (s : State) (c : Cmd) (may : State → Fin 8 → Nat → Bool) (f : State → Fin 8 → Nat → State) : State :=
  let m := (c.par2 0) % 2 ^ 48
  let s := s.cross
  let x := (List.range 48).foldl (fun (x : State × Nat) a =>
    if !m.testBit a then x
    else if may x.1 (clu (a / 6)) (a % 6) then (f x.1 (clu (a / 6)) (a % 6), x.2)
    else (x.1, x.2 + 2 ^ a)) (s, 0)
  if x.2 = 0 then x.1.cmdDone c 0 0 0 else x.1.cmdDone c 0xB (x.2 % 2 ^ 32) (x.2 / 2 ^ 32)

/-- AXIS_ENABLE. -/
def State.cmdEnable (s : State) (q : Fin 64) : State := s.cmdCross q 0x200 (fun s c =>
  s.axes c (fun s k b => s.axisMay k b true true) (fun s k b =>
    (axisCh b).foldl (fun s x => (s.chCtlWrite k x 1 1).releaseCh k x) s))

/-- AXIS_DISABLE. -/
def State.cmdDisable (s : State) (q : Fin 64) : State := s.cmdCross q 0x201 (fun s c =>
  s.axes c (fun s k b => s.axisMay k b false false) (fun s k b => (axisCh b).foldl (fun s x => s.chCtlWrite k x 0 1) s))

/-- SAFE_STATE. -/
def State.cmdSafe (s : State) (q : Fin 64) : State := s.cmdCross q 0x202 (fun s c =>
  s.axes c (fun s k _ => s.axisOpen k) (fun s k b => (axisCh b).foldl (fun s x => s.enterSafe k x false true) s))

/-! ## Recipes (R524 to R529) -/

/-- DRAM is there for the library (R526). -/
def State.haveDram (s : State) : Bool := s.domOn 125 || s.domOn 126

/-- The address of a library slot. -/
def libAddr (k : Fin 16) : Nat := 0x1000000000 + Config.libOfs + k.val * 0x2000000

/-- A stored bundle's bytes. -/
def State.libBytes (s : State) (k : Fin 16) : List Byte := s.bytesAt (libAddr k) (s.cmd.lib[k]).len

/-- Change a library slot. -/
def State.modLib (s : State) (k : Fin 16) (f : LibSlot → LibSlot) : State := s.modCmd (fun u => { u with lib := u.lib.set k (f u.lib[k]) })

/-- A section entry (Table: Bundle header and section entries). -/
structure Section where
  type : Nat
  tgt  : Nat
  dofs : Nat
  sofs : Nat
  slen : Nat
  deriving DecidableEq, Repr

/-- The sections of a bundle. -/
def sectionsOf (bs : List Byte) : List Section :=
  (List.range (fieldAt bs 0x14 2)).map (fun n =>
    let o := 0x40 + 16 * n
    ⟨fieldAt bs o 1, fieldAt bs (o + 1) 1, fieldAt bs (o + 4) 4, fieldAt bs (o + 8) 4, fieldAt bs (o + 12) 4⟩)

/-- `CLMASK` of a bundle. -/
def bundleMask (bs : List Byte) : BitVec 8 := BitVec.ofNat 8 (fieldAt bs 0x16 1)

/-- The header checks of a bundle (R524). DEDUCED (log 56). -/
def headerOk (bs : List Byte) : Bool :=
  let len := fieldAt bs 8 4
  let n := fieldAt bs 0x14 2
  decide (fieldAt bs 0 4 = 0x45525144 ∧ fieldAt bs 4 4 = 1 ∧ len ≤ bs.length ∧ len ≤ 0x2000000 ∧ 1 ≤ n ∧ n ≤ 256
    ∧ 0x40 + 16 * n + 256 ≤ len) && (slice bs 0x17 41).all (fun b => b == 0)
    && (List.range n).all (fun k => fieldAt bs (0x42 + 16 * k) 2 == 0)

/-- LOAD_RECIPE (R527). -/
def State.cmdLoad (s : State) (q : Fin 64) : State := s.cmdRun q 0x100 (fun s c =>
  let k := c.slot
  let st := (s.cmd.lib[k]).state
  if !s.haveDram then s.cmdDone c 6 14 0
  else if st = 3 ∨ st = 4 then s.cmdDone c 6 1 0
  else match s.bufRead c c.dlen with
    | (s1, none) => s1.cmdDone c 5 0 0
    | (s1, some all) =>
      if !headerOk all then s1.cmdDone c 2 0x08 0
      else
        let bs := all.take (fieldAt all 8 4)
        let ok := s1.recipeOk bs
        if !ok && 2 ≤ s1.lifecycle then (s1.modLib k (fun _ => ⟨0, 0, 0, 0, 0, false⟩)).cmdDone c 7 0 0
        else
          let s2 := (s1.eccWrite (.sdma 0) (libAddr k) bs).1
          let s3 := s2.modLib k (fun _ => ⟨1, w32 (fieldAt bs 12 4), w32 (fieldAt bs 16 4), bs.length, bundleDigest bs, ok⟩)
          (s3.measExtend 3 (s3.recipeMeas bs)).cmdDone c 0 0 0)

/-- A section lies inside the bundle and its destination. -/
def sectionFits (len : Nat) (x : Section) : Bool :=
  decide (x.sofs + x.slen ≤ len) &&
  match x.type with
  | 1 => decide (x.tgt < 64 ∧ x.dofs + x.slen ≤ 0x8000)
  | 2 => decide (x.tgt < 8 ∧ x.dofs + x.slen ≤ 0x80000)
  | 3 => decide (x.tgt < 8 ∧ x.slen = 512)
  | 4 | 5 => decide (x.tgt < 8 ∧ x.slen % 8 = 0)
  | 6 => decide (x.tgt < 64 ∧ x.slen = 0)
  | 7 => decide (x.tgt = 0)
  | _ => false

/-- Two byte ranges meet. -/
def rangesMeet (a n b m : Nat) : Bool := decide (a < b + m ∧ b < a + n)

/-- An LSRAM section meets the activation area, or a section of the active recipe. -/
def sectionClash (act : List Section) (x : Section) : Bool :=
  x.type == 1 && (rangesMeet x.dofs x.slen 0x6E00 0x80
    || act.any (fun y => y.type == 1 && y.tgt == x.tgt && rangesMeet x.dofs x.slen y.dofs y.slen))

/-- The sections of the active recipe, for a recipe of another slot. -/
def State.activeSections (s : State) (k : Fin 16) : List Section :=
  match (List.finRange 16).find? (fun (j : Fin 16) => (s.cmd.lib[j]).state == 4 && j != k) with
  | some j => sectionsOf (s.libBytes j)
  | none => []

/-- Why a stored recipe does not verify: reason and section (R528). -/
def State.recipeFault (s : State) (k : Fin 16) : Option (Nat × Nat) :=
  let bs := s.libBytes k
  let xs := sectionsOf bs
  match xs.findIdx? (fun x => !sectionFits bs.length x) with
  | some n => some (2, n)
  | none => match xs.findIdx? (sectionClash (s.activeSections k)) with
    | some n => some (3, n)
    | none =>
      if (List.range 8).any (fun c => (bundleMask bs).getLsbD c && !s.domOn (64 + 5 * c)) then some (4, 0)
      else if (s.cmd.lib[k]).state = 0 ∨ bundleDigest bs ≠ (s.cmd.lib[k]).digest then some (5, 0)
      else none

/-- VERIFY_RECIPE (R528). DEDUCED (log 56). -/
def State.cmdVerify (s : State) (q : Fin 64) : State := s.cmdRun q 0x101 (fun s c =>
  if !s.haveDram then s.cmdDone c 6 14 0
  else match s.recipeFault c.slot with
    | some (r, n) => s.cmdDone c 6 r n
    | none => (s.modLib c.slot (fun x => { x with state := max x.state 2 })).cmdDone c 0 0 0)

/-- LIST_RECIPES (R526). -/
def State.cmdList (s : State) (q : Fin 64) : State := s.cmdRun q 0x103 (fun s c =>
  if !s.haveDram then s.cmdDone c 6 14 0
  else s.cmdAnswer c 256 (s.cmd.lib.toList.flatMap (fun x =>
    leBytes 4 x.rid.toNat ++ leBytes 4 x.rver.toNat ++ leBytes 4 x.len ++ leBytes 4 x.state)) 0 0)

/-! ## Activation (R529 to R534) -/

/-- The firmware as an initiator. -/
def fwInit : Initiator := .core (.ac 0)

/-- The firmware stores bytes; an access that ends with a bus error stores nothing. -/
def State.fwPut (s : State) (a : Nat) (bs : List Byte) : State := (s.physWrite fwInit true a bs).1

/-- A word of an engine's LSRAM. -/
def State.lsWord (s : State) (e : Fin 64) (o : Nat) : Nat := s.numAt (lsramBase e + o) 4

/-- The firmware stores a word of an engine's LSRAM. -/
def State.lsPut (s : State) (e : Fin 64) (o v : Nat) : State := s.fwPut (lsramBase e + o) (leBytes 4 v)

/-- The activation stub: 0x6E00 to 0x6E5B, then a FRAMEEND (R529). -/
def stubCode : List Byte := (List.range 0x5C).map Config.stubByte ++ [0x4C]

/-- The engines of the clusters of a mask that are on. -/
def State.maskEngines (s : State) (m : BitVec 8) : List (Fin 64) :=
  (List.finRange 64).filter (fun (e : Fin 64) => m.getLsbD (clusterOf e) && s.domOn e)

/-- The entry that TYPE 6 gives an engine. -/
def entryOf (xs : List Section) (e : Fin 64) : Option Nat := (xs.find? (fun x => x.type == 6 && x.tgt == e.val)).map (fun x => x.dofs)

/-- The engines that TYPE 6 adds to the foreground. DEDUCED (log 57). -/
def State.addedEngines (s : State) (xs : List Section) (m : BitVec 8) : List (Fin 64) :=
  (s.maskEngines m).filter (fun e => (match entryOf xs e with | some v => v != 0x6E5C | none => false)
    && !s.rbit (pgFrm (clusterOf e)) Reg.FRM_CEMASK (localOf e))

/-- The firmware writes a register of an engine-view page address of a cluster (TYPE 4 and 5). -/
def State.regListPut (s : State) (c : Fin 8) (a v : Nat) : State :=
  if 0x800000 ≤ a ∧ a < 0x820000 then s.fwPut (clusterBase c + a) (leBytes 4 v) else s

/-- A register list is applied in order. DEDUCED (log 57). -/
def State.regList (s : State) (c : Fin 8) (bs : List Byte) : State :=
  (List.range (bs.length / 8)).foldl (fun s n => s.regListPut c (fieldAt bs (8 * n) 4) (fieldAt bs (8 * n + 4) 4)) s

/-- Apply the register lists of one type. -/
def State.regLists (s : State) (bs : List Byte) (type : Nat) : State :=
  (sectionsOf bs).foldl (fun s x => if x.type = type then s.regList (clu x.tgt) (slice bs x.sofs x.slen) else s) s

/-- Why staging is refused before it begins: status and results (R532). -/
def State.stageFault (s : State) (c : Cmd) (bs : List Byte) : Option (Nat × Nat × Nat) :=
  let xs := sectionsOf bs
  let m := bundleMask bs
  let n : Nat := c.par2 1 % 2 ^ 48
  let begin_ := (s.time.mft.toNat : Int) + ((n : Int) - (s.time.mfn.toNat : Int)) * (s.time.mfp : Int)
  if (s.cmd.lib[c.slot]).state ≠ 2 then some (6, 8, 0)
  else if begin_ < (c.ns.toNat : Int) + 2000000 then some (8, 0, 0)
  else
    let added := s.addedEngines xs m
    let fg := (s.maskEngines m).filter (fun e => s.rbit (pgFrm (clusterOf e)) Reg.FRM_CEMASK (localOf e) || added.contains e)
    match fg.find? (fun e => !s.rbit (pgCe e) Reg.CE_CTL 1 && !s.stubGrants e) with
    | some e => some (6, 15, e)
    | none =>
      if (List.finRange 8).any (fun (k : Fin 8) => m.getLsbD k && s.rbit (pgFrm k) Reg.PAGE_LOCK 0
          && ((s.maskEngines m).any (fun e => clusterOf e == k && s.fgVec e != 0x6E00) || added.any (fun e => clusterOf e == k)))
      then some (6, 7, 0)
      else none

/-- Step 1 of staging (R531): engines that do not enter through the stub yet. -/
def State.stageStub (s : State) (e : Fin 64) : State :=
  if s.fgVec e = 0x6E00 then s
  else
    let s1 := (s.fwPut (lsramBase e + 0x6E00) stubCode).lsPut e 0x6E6C (s.fgVec e).toNat
    let s2 := (s1.lsPut e 0x6E60 0xFFFFFFFF).lsPut e 0x6E64 0xFFFFFFFF
    s2.regListPut (clusterOf e) (0x800000 + Reg.FRM_CE_FGVEC (localOf e)) 0x6E00

/-- Step 4: the new vector, then the frame. -/
def State.stageVec (s : State) (xs : List Section) (n : Nat) (e : Fin 64) : State :=
  let v := (entryOf xs e).getD (s.lsWord e 0x6E6C)
  (((s.lsPut e 0x6E68 v).lsPut e 0x6E70 0).lsPut e 0x6E60 (n % 2 ^ 32)).lsPut e 0x6E64 (n / 2 ^ 32)

/-- Step 5 for one cluster's table: the edit bank, `SMP_SWMFN`, then SWAPM, whose check passes or fails. DEDUCED (log 57). -/
def State.stageTable (s : State) (c : Fin 8) (bs : List Byte) (n : Nat) : State :=
  let s1 := s.fwPut (clusterBase c + 0x80D400) bs
  let s2 := (s1.regListPut c (0x80D000 + Reg.SMP_SWMFN_LO) (n % 2 ^ 32)).regListPut c (0x80D000 + Reg.SMP_SWMFN_HI) (n / 2 ^ 32)
  (s2.regListPut c (0x80D000 + Reg.SMP_CMD) 2).checkDone c

/-- Staging is undone (R532). -/
def State.unstage (s : State) (es : List (Fin 64)) (cs : List (Fin 8)) : State :=
  let s1 := es.foldl (fun s e => ((s.lsPut e 0x6E68 (s.lsWord e 0x6E6C)).lsPut e 0x6E60 0xFFFFFFFF).lsPut e 0x6E64 0xFFFFFFFF) s
  cs.foldl (fun s k => s.modSmp k (fun m => { m with armed := none })) s1

/-- ACTIVATE_RECIPE (R531, R532): staging, after which the command waits for its frame. -/
def State.cmdActivate (s : State) (q : Fin 64) : State := s.cmdCross q 0x102 (fun s c =>
  if c.waits then s
  else if !s.haveDram then s.cmdDone c 6 14 0
  else
    let bs := s.libBytes c.slot
    match s.stageFault c bs with
    | some (st, r0, r1) => s.cmdDone c st r0 r1
    | none =>
      let xs := sectionsOf bs
      let m := bundleMask bs
      let n : Nat := c.par2 1 % 2 ^ 48
      let es := s.maskEngines m
      let added := s.addedEngines xs m
      let s1 := es.foldl (fun s e => s.stageStub e) s
      let s2 := xs.foldl (fun s x =>
        if x.type = 1 then s.fwPut (lsramBase (eng x.tgt) + x.dofs) (slice bs x.sofs x.slen)
        else if x.type = 2 then s.fwPut (clusterBase (clu x.tgt) + x.dofs) (slice bs x.sofs x.slen)
        else s) s1
      let s3 := s2.regLists bs 4
      let s4 := added.foldl (fun s e =>
        let k := clusterOf e
        (s.lsPut e 0x6E6C 0x6E5C).regListPut k (0x800000 + Reg.FRM_CEMASK)
          ((s.reg (pgFrm k) Reg.FRM_CEMASK).toNat ||| 2 ^ (localOf e).val)) s3
      let s5 := es.foldl (fun s e => s.stageVec xs n e) s4
      let tables := xs.filter (fun x => x.type == 3)
      let y := tables.foldl (fun (y : State × Option Nat) x =>
        if y.2.isSome then y
        else
          let t := y.1.stageTable (clu x.tgt) (slice bs x.sofs x.slen) n
          (t, if t.rbit (pgSmp (clu x.tgt)) Reg.SMP_TBL_ERR 16 then some x.tgt else none)) (s5, none)
      match y.2 with
      | some k => (y.1.unstage es (tables.map (fun x => clu x.tgt))).cmdDone c 6 6 k
      | none =>
        let s6 := y.1.modCmd (fun u => { u with staged := some ⟨c.slot, n, m, 0, none⟩ })
        (s6.modLib c.slot (fun x => { x with state := 3 })).modRun c (fun d => { d with waits := true }))

/-- The first tick of a cluster that carries the MFN of a staged activation (R533): its engines now enter the new recipe. -/
def State.activationTick (s : State) (k : Fin 8) : State :=
  match s.cmd.staged with
  | none => s
  | some a =>
    if !a.mask.getLsbD k || a.done.getLsbD k || !(s.car k).ticked || decide ((s.car k).tickMfn.toNat < a.mfn) then s
    else s.modCmd (fun u => { u with staged := some { a with
      done := a.done ||| (1#8 <<< k.val), first := if a.first.isSome then a.first else some (s.car k).tickDtb } })

/-- The waiting ACTIVATE_RECIPE completes. -/
def State.activateEnd (s : State) (status : Nat) (r : DWord) : State :=
  (List.finRange 64).foldl (fun s (q : Fin 64) => s.cmdRun q 0x102 (fun s c =>
    if c.waits then s.cmdDone c status (r.toNat % 2 ^ 32) (r.toNat / 2 ^ 32) else s)) s

/-- A cluster reset has ended the activation that an ACTIVATE_RECIPE waits for (R522). -/
def State.abortWake (s : State) : State := if s.cmd.staged.isNone then s.activateEnd 9 0 else s

/-- The firmware finishes an activation after the last cluster's tick; one that a cluster reset ended is ABORTED (R522, R533). -/
def State.activationFinish (s : State) : State :=
  if !s.fwUp || s.bridgeTrains then s
  else match s.cmd.staged with
    | none => s.abortWake
    | some a =>
      if a.done &&& a.mask ≠ a.mask then s
      else
        let bs := s.libBytes a.slot
        let es := s.maskEngines a.mask
        let s1 := s.regLists bs 5
        let s2 := es.foldl (fun s e =>
          let k := clusterOf e
          let s := if s.lsWord e 0x6E68 = 0x6E5C then
            s.regListPut k (0x800000 + Reg.FRM_CEMASK) ((s.reg (pgFrm k) Reg.FRM_CEMASK &&& ~~~ maskOf (localOf e) (localOf e)).toNat) else s
          ((s.lsPut e 0x6E6C (s.lsWord e 0x6E68)).lsPut e 0x6E60 0xFFFFFFFF).lsPut e 0x6E64 0xFFFFFFFF) s1
        let l := s.cmd.lib[a.slot]
        let s3 := s2.measExtend 4 (if l.ok then l.digest else l.digest ^^^ 1)
        let s4 := s3.modCmd (fun u => { u with staged := none, lib := u.lib.map (fun x => if x.state = 4 then { x with state := 2 } else x) })
        (s4.modLib a.slot (fun x => { x with state := 4 })).activateEnd 0 (a.first.getD 0)

/-- RESET_DOMAIN (R523): CORE and CLUSTER complete when the reset has ended; CXL, SYSD and DEV complete first. -/
def State.cmdReset (s : State) (q : Fin 64) : State := s.cmdRun q 2 (fun s c =>
  if c.waits then s
  else
    let sc := (c.par 0).toNat
    let r : ResetRun := if sc < 2 then ⟨sc, bitsOf (c.par 1) 5 0, sc == 0 && bitOf (c.par 1) 8⟩ else ⟨sc, 0, false⟩
    if sc < 2 then ((s.modRun c (fun d => { d with waits := true })).resetNow r 0x10 false).abortWake
    else (s.cmdDone c 0 0 0).resetNow r 0x10 false)

/-! ## Trace (R535) -/

/-- A ring lies in a committed HDM range. -/
def State.ringInHdm (s : State) (a n : Nat) : Bool :=
  s.cxl.hdm.toList.any (fun h => match h.dpa with
    | some d => decide (0x1000000000 + d ≤ a ∧ a + n ≤ 0x1000000000 + d + h.size)
    | none => false)

/-- TRACE_ARM. DEDUCED (log 56). -/
def State.cmdTraceArm (s : State) (q : Fin 64) : State := s.cmdRun q 0x300 (fun s c =>
  let base := bufAddr (c.par2 0)
  let size := 2 ^ (c.par 2).toNat
  if !s.haveDram then s.cmdDone c 6 14 0
  else if !(isHostMem base && isHostMem (base + size - 1)) && !s.ringInHdm base size then s.cmdDone c 2 0x18 0
  else if !s.domOn 147 then s.cmdDone c 0xB 147 0
  else
    let s1 := s.modTrace (fun _ => ⟨true, base, (c.par 2).toNat, c.par 3, (c.par 4).toNat, (c.par 5).toNat, c.par2 6, 0, none, none, 0, 0⟩)
    (s1.traceMark 1 0).cmdDone c 0 0 0)

/-- TRACE_TRIGGER. -/
def State.cmdTraceTrigger (s : State) (q : Fin 64) : State := s.cmdRun q 0x301 (fun s c =>
  if !s.tracing then s.cmdDone c 6 9 0
  else s.traceTrigger.cmdDone c 0 (s.time.ns.toNat % 2 ^ 32) (s.time.ns.toNat / 2 ^ 32))

/-- TRACE_STOP. -/
def State.cmdTraceStop (s : State) (q : Fin 64) : State := s.cmdRun q 0x302 (fun s c =>
  let s1 := if s.tracing then s.traceEnd else s
  s1.cmdDone c 0 (s1.trace.next % 2 ^ 32) 0)

/-- TRACE_READ_INDEX. -/
def State.cmdTraceIndex (s : State) (q : Fin 64) : State := s.cmdRun q 0x303 (fun s c =>
  if !s.tracing then s.cmdDone c 6 9 0
  else s.cmdDone c 0 (s.trace.next % 2 ^ 32) (match s.trace.trig with | some n => n % 2 ^ 32 | none => 0xFFFFFFFF))

/-- The trigger condition of the trace unit holds: an IRD source that pends or is asserted, or the MFN (R535). -/
def State.traceEvent (s : State) : State :=
  let hit :=
    if s.trace.kind = 1 then s.srcInput ird s.trace.arg || bitOf (s.srcCfg ird s.trace.arg) 16
    else if s.trace.kind = 2 then decide (s.trace.arg ≤ s.time.mfn.toNat)
    else false
  if hit then s.traceTrigger else s

/-! ## Flash (R537 to R539) -/

/-- The highest writable offset of a bank, and whether `[o, o + n)` lies below it (R537). -/
def State.flsWritable (s : State) (b : Fin 5) (o n : Nat) : Bool :=
  if b.val ≠ 0 then decide (o + n ≤ bankSize b)
  else decide (o + n ≤ (if s.lifecycle ≤ 1 then 0x20000 else 0x1C000))

/-- A flash command waits while its bank runs an operation of another user; a bank without power refuses. -/
def State.flsCmdRun (s : State) (q : Fin 64) (opc : Nat) (f : State → Cmd → State) : State := s.cmdCross q opc (fun s c =>
  let b := if opc = 0x403 then (0 : Fin 5) else c.bank
  if !s.bankOn b then s.cmdDone c 0xB (140 + b.val) 0
  else if s.flash[b].op ≠ 0 then s
  else f s c)

/-- End a flash command: OK, or FLASH_ERR with `FLS_B_STAT.ERR` and the offset. -/
def State.flsCmdEnd (s : State) (c : Cmd) (b : Fin 5) (erase : Bool) (r : Option (Nat × Nat)) : State :=
  match r with
  | some (why, o) => (s.flsFail b erase why o).cmdDone c 0xA why o
  | none => (s.raise pgFls 0).cmdDone c 0 0 0

/-- FLASH_WRITE; `bad` names the word that does not verify. -/
def State.cmdFlashWrite (s : State) (q : Fin 64) (bad : Option Nat) : State := s.flsCmdRun q 0x400 (fun s c =>
  let o := (c.par 1).toNat
  if !s.flsWritable c.bank o c.dlen then s.cmdDone c 6 10 0
  else match s.bufRead c c.dlen with
    | (s1, none) => s1.cmdDone c 5 0 0
    | (s1, some bs) => let x := s1.flsPut c.bank o bs bad; x.1.flsCmdEnd c c.bank false x.2)

/-- The sectors from an offset up. -/
def sectorsFrom (b : Nat) : Nat → Nat → List Nat
  | 0, _ => []
  | n + 1, o => o :: sectorsFrom b n (o + sectorSize b o)

/-- FLASH_ERASE; `bad` names the sector that does not verify. -/
def State.cmdFlashErase (s : State) (q : Fin 64) (bad : Option Nat) : State := s.flsCmdRun q 0x401 (fun s c =>
  let b := c.bank
  let secs := sectorsFrom b (min (c.par 2).toNat 256) (c.par 1).toNat
  let n := (secs.map (fun o => sectorSize b o)).sum
  if !s.flsWritable b (c.par 1).toNat n ∨ 256 < (c.par 2).toNat then s.cmdDone c 6 10 0
  else
    let x := secs.zipIdx.foldl (fun (x : State × Option (Nat × Nat)) y =>
      if x.2.isSome then x
      else if x.1.flash[b].susp.isSome then (x.1, some (5, y.1))
      else if bad = some y.2 then
        ((List.range (sectorSize b y.1 / 16)).foldl (fun s j => s.flsUndefined ((bankBase b + y.1) / 16 + j)) x.1, some (6, y.1))
      else x.1.flsEraseRange b y.1 (sectorSize b y.1)) (s, none)
    x.1.flsCmdEnd c b true x.2)

/-- FLASH_VERIFY. DEDUCED (log 56). -/
def State.cmdFlashVerify (s : State) (q : Fin 64) : State := s.flsCmdRun q 0x402 (fun s c =>
  let b := c.bank
  let o := bankBase b + (c.par 1).toNat
  let n := (c.par 2).toNat
  let worst := (eccWords o n 16).foldl (fun a k => max a (s.flsWord (k / 16) / 2 % 8)) 0
  match s.bufRead c 48 with
  | (s1, none) => s1.cmdDone c 5 0 0
  | (s1, some want) =>
    match s1.flsBytes o n with
    | (s2, some bs) => if digestBytes (Config.sha384 bs) = want then s2.cmdDone c 0 0 worst else s2.cmdDone c 7 0 worst
    | (s2, none) => s2.cmdDone c 7 0 worst)

/-- UPDATE_IMAGE in mode 0 (R538). -/
def State.cmdUpdate (s : State) (q : Fin 64) (bad : Option Nat) : State := s.flsCmdRun q 0x403 (fun s c =>
  if c.par 0 ≠ 0 then s
  else match s.bufRead c c.dlen with
    | (s1, none) => s1.cmdDone c 5 0 0
    | (s1, some img) =>
      let f := s1.imageFault img (imgSize false)
      if f = 1 then s1.cmdDone c 7 0 0
      else if f = 2 then s1.cmdDone c 0xC 0 0
      else let x := s1.placeImage img bad; x.1.flsCmdEnd c 0 false x.2)

/-- UPDATE_IMAGE in mode 1 (R472, R539). -/
def State.cmdCommit (s : State) (q : Fin 64) : State := s.cmdRun q 0x403 (fun s c =>
  if c.par 0 ≠ 1 then s
  else if s.runSlot ≠ 1 then s.cmdDone c 6 11 0
  else (s.setFld pgSec Reg.SEC_SVN_FW 6 0 (max s.power.svn (s.fld pgSec Reg.SEC_SVN_FW 6 0))).cmdDone c 0 0 0)

/-! ## Security (R474, R540 to R542) -/

/-- GET_CERT_CHAIN. -/
def State.cmdCert (s : State) (q : Fin 64) : State := s.cmdCross q 0x500 (fun s c =>
  match s.flsBytes 0x1C000 0x4000 with
  | (s1, none) => s1.cmdDone c 0xA 0 0x1C000
  | (s1, some bs) =>
    let n := ((List.range 1024).find? (fun k => (slice bs (16 * k) 16).all (fun b => b == 0xFF))).getD 1024
    s1.cmdAnswer c 16384 bs (16 * n) 0)

/-- The signed content of an attestation report (R540). -/
def State.reportHead (s : State) (c : Cmd) : List Byte :=
  let m := (c.par 8).toNat
  let slots := (List.range 8).filter (fun k => m.testBit k)
  leBytes 4 0x54415144 ++ leBytes 4 1 ++ leBytes 4 (0x60 + 48 * slots.length + 96)
    ++ leBytes 4 (m + 256 * s.lifecycle + 65536 * s.fld pgRst Reg.RST_BOOT 4 4) ++ leBytes 16 s.serial.toNat
    ++ (List.range 8).flatMap (fun i => leBytes 4 (c.par i).toNat) ++ leBytes 8 s.time.ns.toNat ++ leBytes 8 s.time.mfn.toNat
    ++ leBytes 4 s.power.fwver.toNat ++ leBytes 4 s.power.svn ++ leBytes 4 (s.fld pgSec Reg.SEC_SVN_FW 6 0) ++ leBytes 4 0
    ++ slots.flatMap (fun k => digestBytes (s.secDigest (Reg.SEC_MEAS (12 * k))))

/-- The signing that an ATTEST waits for has ended: the report, or STATE where it failed (R477, R541). -/
def State.attestEnd (s : State) (c : Cmd) : State :=
  if !s.sec.signed then s.cmdDone c 6 12 0
  else
    let sig := ((List.range 24).flatMap (fun w => (leBytes 4 (s.reg pgSec (Reg.SEC_SIGN_SR 0 + 4 * w)).toNat).reverse))
    s.cmdAnswer c (c.data.length + 96) (c.data ++ sig) (c.data.length + 96) 0

/-- ATTEST (R540, R541): the report is put together and its digest given to the signing engine, whose end completes the command.
DEDUCED (log 57). -/
def State.cmdAttest (s : State) (q : Fin 64) : State := s.cmdRun q 0x501 (fun s c =>
  let head := s.reportHead c
  if s.sec.signing.isSome then s
  else if c.waits then s.attestEnd c
  else if c.dlen < head.length + 96 then s.cmdDone c 5 0 0
  else
    let s1 := (s.putDigest (Reg.SEC_SIGN_DIG 0) 12 (Config.sha384 head).toNat).signGo
    if s1.sec.signing.isNone then s1.cmdDone c 6 12 0 else s1.modRun c (fun d => { d with waits := true, data := head }))

/-- The signing engine has ended a signing, or lost it to a wipe: the ATTEST that waits for it completes. -/
def State.attestWake (s : State) : State :=
  if s.sec.signing.isSome then s
  else (List.finRange 64).foldl (fun s (q : Fin 64) => s.cmdRun q 0x501 (fun s c => if c.waits then s.attestEnd c else s)) s

/-- SET_LIFECYCLE (R482, R542): an accepted transition completes once its fuses are blown. -/
def State.cmdLifecycle (s : State) (q : Fin 64) : State := s.cmdRun q 0x502 (fun s c =>
  let to_ := (c.par 0).toNat
  if c.waits then s
  else if !lcAllowed s.lifecycle to_ then s.cmdDone c 6 13 0
  else
    let go (s : State) (own : List (Option (BitVec 384))) : State :=
      (s.modSec (fun x => { x with lcNext := some (to_, own) })).modRun c (fun d => { d with waits := true })
    if to_ ≠ 2 then go s []
    else match s.bufRead c 0x1A0 with
      | (s1, none) => s1.cmdDone c 5 0 0
      | (s1, some t) => if s1.tokenOk t then go s1 (tokenOwners t) else s1.cmdDone c 7 0 0)

/-- The fuses are blown: the command completes, then the wipe and the reset follow (R483, R542). -/
def State.fusesBlown (s : State) : State :=
  match s.sec.lcNext with
  | none => s
  | some _ =>
    let s1 := (List.finRange 64).foldl (fun s (q : Fin 64) => s.cmdRun q 0x502 (fun s c => if c.waits then s.cmdDone c 0 0 0 else s)) s
    s1.lcBlown

/-! ## Fabric and power (R543, R544) -/

/-- ENUMERATE starts a discovery. -/
def State.cmdEnumerate (s : State) (q : Fin 64) : State := s.cmdRun q 0x600 (fun s c =>
  let s1 := if c.waits || s.fab.disc.isSome then s
    else ((s.modFab (fun x => { x with result := none })).enumerate (bitOf (c.par 0) 0)).modRun c (fun d => { d with waits := true })
  match s1.fab.result with
  | some (r, n) => if s1.fab.disc.isSome then s1 else if r = 0 then s1.cmdDone c 0 n 0 else s1.cmdDone c 0xD r 0
  | none => s1)

/-- A discovery that has ended completes the ENUMERATE that waits for it. -/
def State.enumWake (s : State) : State :=
  if s.fab.disc.isSome then s
  else match s.fab.result with
    | none => s
    | some (r, n) => (List.finRange 64).foldl (fun s (q : Fin 64) => s.cmdRun q 0x600 (fun s c =>
        if !c.waits then s else if r = 0 then s.cmdDone c 0 n 0 else s.cmdDone c 0xD r 0)) s

/-- SET_ROUTE (R557). -/
def State.cmdRoute (s : State) (q : Fin 64) : State := s.cmdRun q 0x601 (fun s c =>
  let w := (c.par 1).toNat
  let x := s.setRoute (c.par 0).toNat (w % 16) (w / 16 % 16)
  if x.2 then x.1.cmdDone c 0 0 0 else x.1.cmdDone c 0xD 5 0)

/-- One topology record (R543). -/
def State.topoRecord (s : State) (d : FabDev) : List Byte :=
  let nbr (p : Nat) : Nat := (((linksOf s.fab.links d.addr).find? (fun x => x.1 == p)).map (fun x => x.2.1)).getD 0
  leBytes 1 d.addr ++ leBytes 1 d.hops ++ leBytes 1 d.parent ++ leBytes 1 d.pport
    ++ (List.range 4).flatMap (fun p => leBytes 1 (nbr p)) ++ leBytes 8 d.serial.toNat

/-- GET_TOPOLOGY. -/
def State.cmdTopology (s : State) (q : Fin 64) : State := s.cmdRun q 0x602 (fun s c =>
  s.cmdAnswer c (16 * s.fab.devs.length) (s.fab.devs.flatMap (fun d => s.topoRecord d)) 0 0)

/-- The power controller takes the requests of SET_DOMAINS one after another; the first refusal ends the command (R544). -/
def State.domSteps (c : Cmd) : Nat → State → Nat → State
  | 0, s, done =>
    if s.power.busy.isSome || !s.power.queue.isEmpty then s.modRun c (fun d => { d with prog := done }) else s.cmdDone c 0 done 0
  | n + 1, s, done =>
    if s.power.busy.isSome || !s.power.queue.isEmpty then s.modRun c (fun d => { d with prog := done })
    else
      let w := c.par done
      if w = 0xFFFF then s.cmdDone c 0 done 0
      else
        let d := bitsOf w 7 0
        let r := bitsOf w 9 8
        let s1 := s.pwrRequest d r
        match (if s.domState d = r then none else s.domRefusal d r) with
        | some why => s1.cmdDone c 0xB done (d + 256 * why)
        | none => State.domSteps c n s1 (done + 1)

/-- SET_DOMAINS (R544). DEDUCED (log 56). -/
def State.cmdDomains (s : State) (q : Fin 64) : State := s.cmdRun q 0x700 (fun s c =>
  if (s.power.busy.isSome || !s.power.queue.isEmpty) then s else State.domSteps c (8 - c.prog) s c.prog)

/-- A transition ends: a SET_DOMAINS that waits goes on. -/
def State.domainsWake (s : State) : State :=
  (List.finRange 64).foldl (fun s (q : Fin 64) => s.cmdDomains q) s

/-- GET_POWER: measured rail powers and their sum. -/
def State.cmdPower (s : State) (q : Fin 64) : State := s.cmdRun q 0x701 (fun s c =>
  let mw := (List.range 7).map (fun r => (Config.measured r s.free &&& 0xFFFF).toNat)
  s.draw.cmdAnswer c 28 (mw.flatMap (fun v => leBytes 4 v)) mw.sum 0)

end Sys2Proof.Machine
end

