-- ==== Sys2Proof/Machine/Debug.lean ====
section
/-! DEFINITION. The debug access port (R225, R226). -/

namespace Sys2Proof.Machine

/-- The debug functions are open: not in FIELD (R225). -/
def State.debugOpen (s : State) : Bool := s.lifecycle != 2

/-- DEBUG_HALT: a request halts a core, and the other member of its locked pair (R226, R330). -/
def execDebugHalt (c : CoreId) (s : State) : Out := .next (if s.debugOpen then s.halt c else s)

/-- A halted core, or locked pair, goes on; `step` halts it again after one instruction. -/
def State.debugRun (s : State) (c : CoreId) (step : Bool) : State :=
  if !s.debugOpen || !(s.core c).halted then s
  else
    let m := if s.locked c then masterOf (pairOf c) else c
    (s.unhalt c step).overrunDeferred m

/-- DEBUG_RESUME. DEDUCED (log 26). -/
def execDebugResume (c : CoreId) (s : State) : Out := .next (s.debugRun c false)

/-- DEBUG_STEP. -/
def execDebugStep (c : CoreId) (s : State) : Out := .next (s.debugRun c true)

/-- A bank by its debug number. -/
def dbgBank (b : Fin 4) : BankId := match b with | 0 => .fg | 1 => .tl | 2 => .s | 3 => .m

/-- A debug write of a CSR reaches what M may write. DEDUCED (log 26). -/
def Core.dbgCsr (k : Core) (c : CoreId) (b : BankId) (n : Nat) (v : Word) : Core :=
  if !csrWritable n then k
  else if n = 0x10 then { k with status := masked k.status v (statusMask c 3) }
  else if n = 0x17 then { k with dmode := v &&& (if isCe c then 7 else 5) }
  else { ({ k with bank := b } : Core).csrWrite c n v with bank := k.bank }

/-- A debug read of a value that has not arrived, which no rule gives (R225). DESIGN CHOICE (log 70). -/
def State.dbgUnfilled (s : State) : State := s.draw.answerW (Config.unfilled s.free)

/-- A debug read of a CSR in a bank; a half of ACC may not have arrived. -/
def State.dbgCsrRead (s : State) (c : CoreId) (b : BankId) (n : Nat) : State :=
  let x := (s.core c).bankOf b
  if (n = 1 && x.accLo.isSome) || (n = 2 && x.accHi.isSome) then s.dbgUnfilled
  else s.answerW ((s.modCore c (fun k => { k with bank := b })).csrRead c n)

/-- A debug write is applied to both members of a locked pair. DEDUCED (log 26). -/
def State.dbgWrite (s : State) (c : CoreId) (f : Core → Core) : State :=
  if s.locked c then s.modMembers (pairOf c) f else s.modCore c f

/-- The debug port's load or store of the system physical map, with the rights of the host through BAR0 (R225, R493). -/
def State.dbgMem (s : State) (a n : Nat) (w : Option (List Byte)) : State :=
  let page := if 0x10000000 ≤ a ∧ a < 0x11000000 then systemPage (a - 0x10000000)
    else if 0x8000000 ≤ a ∧ a < 0x10000000 ∧ 0x800000 ≤ a % 0x1000000 then
      clusterPage (clu ((a - 0x8000000) / 0x1000000)) (a % 0x1000000 - 0x800000)
    else none
  let shut : Bool := match page with
    | some p => !s.rbit pgCxl Reg.CXL_CTL 0 || p.kind == .cxl || p.kind == .sec || p.kind == .rst
    | none => false
  match w with
  | none => (match s.physRead .debug false a n with
    | (s1, .data bs) => { s1 with resp := .bytes bs }
    | (s1, .busy bs) => { s1 with resp := .bytes bs }
    | (s1, .wait) => s1
    | (s1, _) => { s1 with resp := .busError })
  | some bs =>
    if shut then { s with resp := .none }
    else match s.physWrite .debug false a bs with
      | (s1, .busError) => { s1 with resp := .busError }
      | (s1, .wait) => s1
      | (s1, _) => ({ s1 with resp := .none } : State).dmaSettle

/-- A debug access of a core's state: the values on their way to it have arrived. -/
def State.dbgCore (s : State) (c : CoreId) (op : DebugOp) : State :=
  let k := s.core c
  match op with
  | .mem a n w => s.dbgMem a n w
  | .cell b i none =>
    (match (k.bankOf (dbgBank b)).cells[i]? with
      | some ⟨_, some _⟩ => s.dbgUnfilled
      | some ⟨v, none⟩ => s.answerW v
      | none => s.answerW 0)
  | .cell b i (some v) => s.dbgWrite c (fun k => k.setBank (dbgBank b) (let x := k.bankOf (dbgBank b); { x with cells := x.cells.set i ⟨v, none⟩ }))
  | .ret b i none => s.answerW ((k.bankOf (dbgBank b)).rets.getD i 0)
  | .ret b i (some v) => s.dbgWrite c (fun k => k.setBank (dbgBank b) (let x := k.bankOf (dbgBank b); { x with rets := x.rets.set i v }))
  | .csr b n none => s.dbgCsrRead c (dbgBank b) n.toNat
  | .csr b n (some v) => if n = 0x82 then s.pairCtlWrite c true true v else s.dbgWrite c (fun k => k.dbgCsr c (dbgBank b) n.toNat v)

/-- DEBUG_ACCESS: cells, return entries and CSRs of a halted core, or memory (R225). DEDUCED (log 26). -/
def execDebugAccess (c : CoreId) (op : DebugOp) (s : State) : Out :=
  .next (if !s.debugOpen then s
    else match op with
    | .mem a n w => s.dbgMem a n w
    | _ => if !(s.core c).halted then s else (s.dbgWrite c Core.arriveAll).dbgCore c op)

end Sys2Proof.Machine
end

