-- ==== Sys2Proof/Machine/Access.lean ====
section
/-! DEFINITION. Register accesses as commands: by page (the rows that name a register) and by the host's BAR0 (R492, R493). -/

namespace Sys2Proof.Machine

/-- A bus write to a register by page (rows of the register group). DEDUCED (log 58). -/
def State.regWrite (s : State) (i : Initiator) (m : Bool) (p : PageId) (off : Nat) (v mask : Word) : State :=
  if s.pageWaits i p then { s.busWait (.write i m p off v mask) with resp := .none }
  else match s.pageAccess i p with
  | some s1 => { (s1.pageWrite i m p off v mask).dmaSettle with resp := .none }
  | none => { s with resp := busFail i }

/-- A bus read of a register by page. DEDUCED (log 58). -/
def State.regRead (s : State) (i : Initiator) (m : Bool) (p : PageId) (off : Nat) : State :=
  if s.pageWaits i p then { s.busWait (.read i m p off) with resp := .none }
  else match s.pageAccess i p with
  | some s1 => let x := s1.pageRead i m p off; x.1.answerW x.2
  | none => { s with resp := busFail i }

/-- The page at a BAR0 offset (Table: BAR0 layout). -/
def bar0Page (off : Nat) : Option PageId :=
  if off < 0x800000 then systemPage off
  else if off < 0x900000 then clusterPage (clu ((off - 0x800000) / 0x20000)) ((off - 0x800000) % 0x20000)
  else none

/-- A host read through BAR0 (R492, R493). -/
def State.bar0Read (s : State) (off n : Nat) : State :=
  if (n ≠ 4 ∧ n ≠ 8) ∨ off % n ≠ 0 then { s with resp := .abort }
  else match bar0Page off with
    | none => { s with resp := .abort }
    | some p =>
      if !s.pageOpen p then { s with resp := .abort }
      else if s.pageWaits .host p then { s.busWait (.readN .host false p (off % 4096) n) with resp := .none }
      else match s.pageAccess .host p with
        | some s1 => let x := s1.pageGet .host false p (off % 4096) n; { x.1 with resp := .data (BitVec.ofNat 64 (leNat x.2)) }
        | none => { s with resp := .abort }

/-- A host write through BAR0 (R492, R493); `full` says that the posted-write buffer is full. -/
def State.bar0Write (s : State) (off n : Nat) (v : DWord) (full : Bool) : State :=
  if (n ≠ 4 ∧ n ≠ 8) ∨ off % n ≠ 0 then { s with resp := .abort }
  else match bar0Page off with
    | none => { s with resp := .abort }
    | some p =>
      if !s.pageOpen p then { s with resp := .abort }
      else if !s.rbit pgCxl Reg.CXL_CTL 0 || p.kind == .cxl || p.kind == .sec || p.kind == .rst || full then
        { (s.count pgCxl Reg.CXL_B0DROP 15 0).raise pgCxl 4 with resp := .none }
      else if s.pageWaits .host p then { s.busWait (.hostWrite p (off % 4096) n v) with resp := .none }
      else match s.pageAccess .host p with
        | some s1 => { (s1.pagePut .host false p (off % 4096) (leBytes n v.toNat)).dmaSettle with resp := .none }
        | none => { s with resp := .abort }

/-! ## After a retraining (R19) -/

/-- One thing that waited on the bridge goes on. -/
def State.busGo (s : State) : BusWait → State
  | .stop _ => (s.safeAll (some 0)).dmaStopAll
  | .time ofs => s.timeMessage (((s.dtb : Int) + ofs) % (2 ^ 96 : Int)).toNat
  | .write i m p off v mask => s.regWrite i m p off v mask
  | .read i m p off => s.regRead i m p off
  | .hostWrite p off n v =>
    match s.pageAccess .host p with
    | some s1 => { (s1.pagePut .host false p off (leBytes n v.toNat)).dmaSettle with resp := .none }
    | none => { s with resp := .abort }
  | .readN i m p off n =>
    match s.pageAccess i p with
    | some s1 => let x := s1.pageGet i m p off n; { x.1 with resp := .data (BitVec.ofNat 64 (leNat x.2)) }
    | none => { s with resp := busFail i }
  | .record k a bs =>
    match s.physWrite (dmaInit k) false a bs with
    | (s1, .done) => s1
    | (s1, _) => s1.stick (dmaPage k) (dmaReg Reg.DMA_CH_STAT k) 9

/-- Class 0 of the bridge: stops and time messages (R17). -/
def BusWait.urgent : BusWait → Bool
  | .stop _ | .time _ => true
  | _ => false

/-- What waited goes on in the order of its class, and within a class in its own order (R17, R19). -/
def State.busResume (s : State) : State :=
  if s.bridgeTrains || s.bridge.waiting.isEmpty then s
  else
    let w := s.bridge.waiting
    (w.filter (fun x => x.urgent) ++ w.filter (fun x => !x.urgent)).foldl (fun s x => s.busGo x)
      (s.cross.modBridge (fun b => { b with waiting := [] }))

end Sys2Proof.Machine
end

