-- ==== Sys2Proof/Machine/FrameEvents.lean ====
section
/-! DEFINITION. What the carriers and the time base do by themselves (02_frames_and_time.md): valleys and apexes, frame
ticks, lead windows, deadlines and overruns, machine frame boundaries, holdover and PTM dialogs. -/

namespace Sys2Proof.Machine

/-! ## The lead window (R54, R55, R126) -/

/-- The FCNT of the coming frame (R50). DEDUCED (log 36). -/
def State.nextFcnt (s : State) (c : Fin 8) : Word :=
  let f := s.reg (pgFrm c) Reg.FRM_FCNT
  if (s.car c).ticked then f + 1 else f

/-- The frame that the coming tick starts is being sampled already. -/
def State.leadIsOpen (s : State) (c : Fin 8) : Bool :=
  match (s.smp c).frame with
  | some f => f.tick == (s.car c).nextTick && f.fcnt == s.nextFcnt c
  | none => false

/-- The lead window of the coming frame opens: an armed swap takes effect, samples from here carry its tag (R55, R126), and entries of
the bank that now schedules it that lie outside the frame are skipped, under the period and the lead in force since the last tick
(R127). -/
def State.leadWindow (s : State) (c : Fin 8) : State :=
  if !s.ticking c || s.leadIsOpen c then s
  else
    let apex := s.tmode c == 2 && (s.car c).phase == .up
    let s1 := (s.advance (s.leadOpen c)).tableSwap c
    let f : SampFrame := ⟨(s.car c).nextTick, s.nextFcnt c, apex, 0⟩
    let s2 := s1.modSmp c (fun m => { m with frame := some f })
    match s.tickPer c with
    | some per => s2.entriesFail c f per
    | none => s2

/-! ## The tick (R49 to R53, R56, R62) -/

/-- Channels of an engine whose frame has overrun go to their safe vectors, or hold, at the next tick (R62, R98). -/
def State.overrunSafe (s : State) (c : Fin 8) : State :=
  let o := (s.pwm c).overrun
  let s1 := s.forCh (fun s k =>
    if o.getLsbD (s.chCtl c k 4 2) && s.chCtl c k 8 7 != 0 then s.enterSafe c k true false else s)
  s1.modPwm c (fun p => { p with overrun := 0 })

/-- Requests that wait count the tick (R141, R159, R160). -/
def State.tickWaits (s : State) (c : Fin 8) : State :=
  s.modC c (fun cl => { cl with
    adc := cl.adc.map (fun a => { a with reqs := a.reqs.map (fun r => { r with ticks := r.ticks + 1 }) })
    rb := cl.rb.tick })

/-- What the tick at the exact time `t` records (R50, R53). -/
def State.tickRecord (s : State) (c : Fin 8) (t : Nat) : State :=
  let logic := pwmFloor t
  let n := s.nextFcnt c
  let first := !(s.car c).ticked
  let s1 := (s.setReg (pgFrm c) Reg.FRM_FCNT n).raise (pgFrm c) 0
  let s2 := (s1.raiseIf first (pgFrm c) 6).raiseIf (!first && n == 0) (pgFrm c) 2
  s2.modCar c (fun x => { x with
    ticked := true, tick := logic, deadlined := false, lead := s.leadReg c * 128
    tickDtb := BitVec.ofNat 64 (s.dtbAt logic / 2 ^ 32), tickFcnt := n, tickMfn := s.mfnAt t })

/-- A frame tick: everything but the commit point and the valley's own work. The edges that it gives DMA channels (R410) are commands
of their own. DEDUCED (log 36). -/
def State.frameTick (s : State) (c : Fin 8) (t : Nat) (apex : Bool) : State :=
  let s0 := ((s.tickRecord c t).setBit (pgFrm c) Reg.FRM_STAT 3 apex).pwmAge c
  let s1 := (((s0.captureFrom c 31 true).overrunSafe c).tickWaits c).activationTick c
  (List.finRange 8).foldl (fun s (i : Fin 8) => s.tickEngine c i) s1

/-! ## The carrier turns (R41 to R48) -/

/-- The correction of the period that starts at the exact time `t` with the half-period `hp`: the whole number of steps
that puts the next valley nearest to its ideal time, within 0.1 % of the period but never less than one step (R43). -/
def State.correction (s : State) (t hp ideal : Nat) : Int :=
  let v : Int := (s.dtb : Int) * 16 + ((t + 2 * hp : Nat) - (s.now : Int)) * (s.inc : Int)
  let e : Int := signedNat 100 (wrapInt 100 ((ideal : Int) * 16 - v))
  let lim : Int := max 1 (2 * hp / 1000 : Nat)
  clampInt (-lim) lim (roundDiv e s.inc)

/-- A lock-group member takes the period that its leader commits at this valley, and its valleys the leader's new schedule
(R44, R45, R89). DEDUCED (log 35). -/
def State.memberFollow (s : State) (l d : Fin 8) (hpOld : Nat) : State :=
  let hp := s.hp l
  let s1 := s.takePeriod d hp
  let base := ((s.car l).ideal + s.phaseSteps d hp * Config.stepFrac) % 2 ^ 96
  let v := s.firstOn base (periodFrac hp) ((s.car d).valley + min hp hpOld)
  let t := s.timeOf v
  let up := (s.car d).phase == .up
  let turn := if up then max s.now (t - hp) else t
  let per := periodFrac hp
  s1.modCar d (fun x => { x with
    ideal := (v + 2 ^ 96 - per) % 2 ^ 96, nextValley := t, turn := turn
    nextTick := pwmFloor (if s.tmode d == 2 then turn else t) })

/-- A member that waits for its first valley takes the new period and the first point of the new schedule (R44, R45, R47).
DEDUCED (log 35). -/
def State.memberStarting (s : State) (l d : Fin 8) : State :=
  let hp := s.hp l
  let base := ((s.car l).ideal + s.phaseSteps d hp * Config.stepFrac) % 2 ^ 96
  let ideal := s.firstOn base (periodFrac hp) (s.car d).earliest
  (s.takePeriod d hp).schedule d ideal (s.timeOf ideal) (s.car d).earliest

/-- The running members of a leader follow a period it has committed, those that wait for their first valley too. DEDUCED (log 35). -/
def State.membersFollow (s : State) (l : Fin 8) (hpOld : Nat) : State :=
  if s.hp l = hpOld then s
  else (List.finRange 8).foldl (fun s (d : Fin 8) =>
    if d ≠ l ∧ s.lgrp l ≠ 0 ∧ s.leaderOf d = l then
      (if s.counting d then s.memberFollow l d hpOld else if (s.car d).phase = .starting then s.memberStarting l d else s)
    else s) s

/-- The carrier stops at a valley: no tick, no commit (R48, R96, R124), but a valley for modes, trips, releases and comparators (R94,
R100, R104, R152, R155); a soft reset or a start that waited goes on (R48, R596).
DEDUCED (log 39). -/
def State.carStopped (s : State) (c : Fin 8) (t : Nat) : State :=
  let x := s.car c
  let fcnt := s.nextFcnt c
  let s1 := s.modCar c (fun x => { x with phase := .stopped, stopPend := false, restart := none, srstPend := false, deadlined := true })
  let s2 := ((s1.convUnsent c fcnt).sepUnsent c fcnt).modSmp c (fun m => { m with frame := none, flight := m.flight.map (fun l => l.filter (fun a => a.frame != fcnt)) })
  let s3 := (List.finRange 8).foldl (fun s (i : Fin 8) => s.modCore (.ce (engineOf c i)) (fun k =>
    { k with spq := k.spq.filter (fun a => a.frame != fcnt) })) s2
  let s4 := (((s3.forCh (fun s k => ((s.chLoad c k).cbcValley c k t).safeValley c k)).forCmp (fun s m => s.cmpValley c m true)).settleAll c t)
  let s5 := if x.srstPend then s4.frmClear c else s4
  match x.restart with
  | some r => if x.srstPend then s5 else s5.startAt c (max r (t + 1))
  | none => s5

/-- What a valley at the exact time `t` does: the commit point, the correction and the next turns, the tick, the output
stages and the comparators. -/
def State.valleyWork (s : State) (c : Fin 8) (t ideal : Nat) : State :=
  let hpOld := s.hp c
  let s0 := s.modCar c (fun x => { x with ideal := ideal, valley := t, phase := .up })
  let s1 := s0.commitPoint c false ideal
  let hp := s1.hp c
  let corr := s1.correction t hp ((ideal + periodFrac hp) % 2 ^ 96)
  let next := (t + 2 * hp : Nat) + corr
  let tick := s.tmode c != 0
  let s2 := if tick then s1.frameTick c t false else s1
  let s3 := (s2.setFld (pgFrm c) Reg.FRM_CORR 15 0 (wrapInt 16 corr)).modCar c (fun x => { x with
    nextValley := next.toNat, turn := t + hp, nextTick := pwmFloor (if s.tmode c == 2 then t + hp else next.toNat) })
  let s4 := s3.membersFollow c hpOld
  (s4.forCh (fun s k => s.chValley c t k)).forCmp (fun s m => s.cmpValley c m false)

/-- The events of a frame that are due before its end take place first. DEDUCED (log 36). -/
def State.frameCatch (s : State) (c : Fin 8) : State := (s.frameDeadline c).leadWindow c

/-- The carrier reaches its first valley (R47), at its logic time (R42). -/
def State.firstValley (s : State) (c : Fin 8) : State :=
  if (s.car c).phase != .starting then s
  else
    let t := (s.car c).turn
    (((s.leadWindow c).advance (pwmFloor t)).valleyWork c t (s.car c).ideal).lateAll c

/-- The carrier turns at a valley (R41 to R43, R48): the edges that the half still holds, then what the valley does at its logic time
(R42), then the writes that came on its clock edge (R83). -/
def State.valley (s : State) (c : Fin 8) : State :=
  let x := s.car c
  if x.phase != .down then s
  else
    let s1 := ((s.frameCatch c).advance (pwmFloor x.turn)).forCh (fun s k => s.halfCatch c x.turn k)
    (if x.stopPend then s1.carStopped c x.turn
      else s1.valleyWork c x.turn ((x.ideal + periodFrac (s.hp c)) % 2 ^ 96)).lateAll c

/-- The carrier turns at the apex: a commit point where R85 makes it one, and a tick in double update. -/
def State.apex (s : State) (c : Fin 8) : State :=
  let x := s.car c
  if x.phase != .up then s
  else
    let tm := s.tmode c
    let s0 := ((if tm = 2 then s.frameCatch c else s).advance (pwmFloor x.turn)).forCh (fun s k => s.halfCatch c x.turn k)
    let s1 := s0.modCar c (fun x => { x with phase := .down })
    let s2 := if tm = 2 ∨ (tm = 0 ∧ s.rbit (pgPwg0 c) Reg.PWG_CTL 0) then s1.commitPoint c true x.ideal else s1
    let s3 := if tm = 2 then s2.frameTick c x.turn true else s2
    (s3.modCar c (fun y => { y with turn := y.nextValley, nextTick := pwmFloor y.nextValley })).lateAll c

/-! ## Machine frames, holdover and PTM (R51, R65, R67) -/

/-- A machine frame ends; a new period begins here once it is due (R51, R561, R563). -/
def State.mfBoundaryEvent (s : State) : State :=
  let s1 := s.advance s.mfBoundary
  let n := s.time.mfn + 1
  let s2 := { s1 with time := { s1.time with
    mfn := n, mft := s.time.mft + BitVec.ofNat 64 s.time.mfp, mfp := if s.time.mfpDue ≤ s1.time.clk then s.fld pgDtb Reg.DTB_MFP 23 0 else s.time.mfp } }
  (s2.raiseIf (n == 0) pgDtb 7).cyclicBoundary

/-- No valid time message for 100 µs (R65). DEDUCED (log 37). -/
def State.holdover (s : State) : State :=
  if s.src ≠ 1 ∨ s.rbit pgDtb Reg.DTB_STAT 2 then s
  else
    let s1 := (s.advance ((s.time.lastMsg + 160000) * Config.stepsPerClk)).setBit pgDtb Reg.DTB_STAT 2 true
    { s1 with time := { s1.time with reacq := true } }

/-- The holdover lasts 1 ms (R65). -/
def State.holdoverLost (s : State) : State :=
  if s.src ≠ 1 ∨ !s.rbit pgDtb Reg.DTB_STAT 2 ∨ s.time.heldLost then s
  else
    let s1 := s.advance ((s.time.lastMsg + 1760000) * Config.stepsPerClk)
    { s1 with time := { s1.time with heldLost := true } }.timeLoss

/-- The PTM interval expires (R67). -/
def State.ptmDue (s : State) : State :=
  if !s.rbit pgDtb Reg.DTB_CTL 2 then s
  else
    let iv := s.fld pgDtb Reg.DTB_PTM_CTL 9 0
    let s1 := s.advance ((s.time.ptmLast + iv * 1600000) * Config.stepsPerClk)
    { s1 with time := { s1.time with ptmLast := s1.time.clk } }.ptmStart

/-- A PTM dialog ends: `host` is the host time it brings, in ns, or there was no response (R64, R67). DEDUCED (log 37). -/
def State.ptmAnswer (s : State) (host : Option DWord) : State :=
  if !s.time.ptmBusy then s
  else
    let s0 := { s with time := { s.time with ptmBusy := false } }
    match host with
    | none => s0.raise pgDtb 6
    | some h =>
      let ofs := h - s.time.ns
      let s1 := ({ s0 with time := { s0.time with ptmOfs := ofs } }.raise pgDtb 5).count pgDtb Reg.DTB_PTM_CNT 15 0
      if s.src ≠ 2 then s1
      else match s.time.ptmFirst with
        | some f => s1.servo ((ofs - f).toInt * 16)
        | none =>
          if s.time.loadPend && !s.carRun then
            { s1.dtbPast with time := { s1.dtbPast.time.setDtb (h.toNat * 2 ^ 32) with loadPend := false, ptmFirst := some 0 } }
          else { s1 with time := { s1.time with loadPend := false, ptmFirst := some ofs } }

end Sys2Proof.Machine
end

