-- ==== Sys2Proof/Machine/RowsTime.lean ====
section
/-! DEFINITION. The meanings of the rows for register pages, the bridge, the time base and the carriers (R13, R14, R17 to R20,
R34 to R67, R591 to R596). -/

namespace Sys2Proof.Machine

/-- A register write by a command: all four lanes. -/
def State.wr (s : State) (x : Access) (p : PageId) (off : Nat) (v : Word) : State := s.regWrite x.by_ x.m p off v 0xFFFFFFFF

/-- A register write by a command under its byte lanes. -/
def State.wrm (s : State) (x : Access) (p : PageId) (off : Nat) (v mask : Word) : State := s.regWrite x.by_ x.m p off v mask

/-- A register read by a command. -/
def State.rd (s : State) (x : Access) (p : PageId) (off : Nat) : State := s.regRead x.by_ x.m p off

/-! ## Pages (R8, R13, R14, R591 to R596) -/

/-- REGISTER_WRITE: a write to any register (R8, R14). -/
def execRegisterWrite (x : Access) (p : PageId) (off : Nat) (v mask : Word) (s : State) : Out := .next (s.wrm x p off v mask)
/-- PAGE_LOCK_WRITE (R13). -/
def execPageLockWrite (x : Access) (p : PageId) (s : State) : Out := .next (s.wr x p Reg.PAGE_LOCK 0xA5)
/-- SOFT_RESET: `PAGE_CTL` written with `SRST` = 1 (R13). -/
def execSoftReset (x : Access) (p : PageId) (v : Word) (s : State) : Out := .next (s.wr x p Reg.PAGE_CTL (v ||| 2))
/-- DTB_SOFT_RESET (R591). -/
def execDtbSoftReset (x : Access) (v : Word) (s : State) : Out := .next (s.wr x pgDtb Reg.PAGE_CTL (v ||| 2))
/-- FRM_SOFT_RESET (R596). -/
def execFrmSoftReset (x : Access) (c : Fin 8) (v : Word) (s : State) : Out := .next (s.wr x (pgFrm c) Reg.PAGE_CTL (v ||| 2))
/-- PWG_PAGE0_SOFT_RESET (R592). -/
def execPwgPage0SoftReset (x : Access) (c : Fin 8) (v : Word) (s : State) : Out := .next (s.wr x (pgPwg0 c) Reg.PAGE_CTL (v ||| 2))
/-- PWG_PAGE1_SOFT_RESET (R593). -/
def execPwgPage1SoftReset (x : Access) (c : Fin 8) (v : Word) (s : State) : Out := .next (s.wr x (pgPwg1 c) Reg.PAGE_CTL (v ||| 2))
/-- SMP_SOFT_RESET (R595). -/
def execSmpSoftReset (x : Access) (c : Fin 8) (v : Word) (s : State) : Out := .next (s.wr x (pgSmp c) Reg.PAGE_CTL (v ||| 2))
/-- CMP_SOFT_RESET (R594). -/
def execCmpSoftReset (x : Access) (c : Fin 8) (v : Word) (s : State) : Out := .next (s.wr x (pgCmp c) Reg.PAGE_CTL (v ||| 2))

/-! ## The bridge (R17 to R20) -/

/-- BRIDGE_CRC_FAIL (R19). -/
def execBridgeCrcFail (s : State) : Out := .next s.bridgeCrcFail
/-- BRIDGE_REPLAY_DONE: whether the replayed unit passed (R19). -/
def execBridgeReplayDone (ok : Bool) (s : State) : Out := .next (s.bridgeReplayed ok)
/-- BRIDGE_RETRAIN_DONE: whether the retraining succeeded (R19). -/
def execBridgeRetrainDone (ok : Bool) (s : State) : Out := .next (s.bridgeTrained ok).busResume
/-- BRIDGE_HOLD_EXPIRY (R20). -/
def execBridgeHoldExpiry (s : State) : Out := .next s.bridgeHoldEnd
/-- BRIDGE_LANE_SLEEP (R18). -/
def execBridgeLaneSleep (s : State) : Out := .next s.bridgeSleep
/-- BRIDGE_LANE_WAKE (R18). -/
def execBridgeLaneWake (s : State) : Out := .next (if s.bridgeIsDown then s else s.cross)

/-! ## The time base (R34 to R40, R51, R64, R65, R67) -/

/-- DTB_INC_WRITE (R35, R36). -/
def execDtbIncWrite (x : Access) (v mask : Word) (s : State) : Out := .next (s.wrm x pgDtb Reg.DTB_INC v mask)
/-- DTB_CMD_LOAD (R40). -/
def execDtbCmdLoad (x : Access) (s : State) : Out := .next (s.wr x pgDtb Reg.DTB_CMD 1)
/-- DTB_CMD_STEP (R37, R40). -/
def execDtbCmdStep (x : Access) (s : State) : Out := .next (s.wr x pgDtb Reg.DTB_CMD 2)
/-- DTB_CMD_MFLOAD (R40, R51). -/
def execDtbCmdMfload (x : Access) (s : State) : Out := .next (s.wr x pgDtb Reg.DTB_CMD 16)
/-- DTB_CMD_TLCLR (R65). -/
def execDtbCmdTlclr (x : Access) (s : State) : Out := .next (s.wr x pgDtb Reg.DTB_CMD 4)
/-- DTB_CMD_PTMREQ (R67). -/
def execDtbCmdPtmreq (x : Access) (s : State) : Out := .next (s.wr x pgDtb Reg.DTB_CMD 8)
/-- DTB_CTL_WRITE (R64). -/
def execDtbCtlWrite (x : Access) (v mask : Word) (s : State) : Out := .next (s.wrm x pgDtb Reg.DTB_CTL v mask)
/-- DTB_MFP_WRITE (R51). -/
def execDtbMfpWrite (x : Access) (v mask : Word) (s : State) : Out := .next (s.wrm x pgDtb Reg.DTB_MFP v mask)
/-- DTB_WRAP: the DTB counts on to the clock edge at which its integer part wraps (R37). -/
def execDtbWrap (s : State) : Out := .next (s.edges ((2 ^ 96 - s.dtb + s.inc - 1) / s.inc))
/-- DTB_NS_LO_READ (R38). -/
def execDtbNsLoRead (x : Access) (s : State) : Out := .next (s.rd x pgDtb Reg.DTB_NS_LO)
/-- FRM_DTB_LO_READ (R39). -/
def execFrmDtbLoRead (x : Access) (c : Fin 8) (s : State) : Out := .next (s.rd x (pgFrm c) Reg.FRM_DTB_LO)
/-- FRM_TICK_DTB_LO_READ (R53). -/
def execFrmTickDtbLoRead (x : Access) (c : Fin 8) (s : State) : Out := .next (s.rd x (pgFrm c) Reg.FRM_TICK_DTB_LO)
/-- DTB_MFN_LO_READ (R51). -/
def execDtbMfnLoRead (x : Access) (s : State) : Out := .next (s.rd x pgDtb Reg.DTB_MFN_LO)
/-- DTB_PTM_OFS_LO_READ (R67). -/
def execDtbPtmOfsLoRead (x : Access) (s : State) : Out := .next (s.rd x pgDtb Reg.DTB_PTM_OFS_LO)
/-- MACHINE_FRAME_BOUNDARY (R51, R563). -/
def execMachineFrameBoundary (s : State) : Out := .next s.mfBoundaryEvent
/-- TIME_HOLDOVER (R65). -/
def execTimeHoldover (s : State) : Out := .next s.holdover
/-- FABRIC_TIME_LOST (R65). -/
def execFabricTimeLost (s : State) : Out := .next s.holdoverLost
/-- PTM_DIALOG_DUE (R67). -/
def execPtmDialogDue (s : State) : Out := .next s.ptmDue
/-- PTM_RESPONSE: the host time in ns, or none where there was no response (R64, R67). -/
def execPtmResponse (host : Option DWord) (s : State) : Out := .next (s.ptmAnswer host)

/-! ## Carriers and frames (R41 to R62, R348) -/

/-- FRM_RUN_START: `FRM_CTL` written with `RUN` = 1 (R46, R47, R49, R52). -/
def execFrmRunStart (x : Access) (c : Fin 8) (v : Word) (s : State) : Out := .next (s.wr x (pgFrm c) Reg.FRM_CTL (v ||| 1))
/-- FRM_RUN_STOP: `FRM_CTL` written with `RUN` = 0 (R46 to R48). -/
def execFrmRunStop (x : Access) (c : Fin 8) (v : Word) (s : State) : Out := .next (s.wr x (pgFrm c) Reg.FRM_CTL (v &&& ~~~ 1))
/-- FRM_LEAD_WRITE (R54). -/
def execFrmLeadWrite (x : Access) (c : Fin 8) (v mask : Word) (s : State) : Out := .next (s.wrm x (pgFrm c) Reg.FRM_LEAD v mask)
/-- FRM_FCNT_WRITE (R50). -/
def execFrmFcntWrite (x : Access) (c : Fin 8) (v mask : Word) (s : State) : Out := .next (s.wrm x (pgFrm c) Reg.FRM_FCNT v mask)
/-- CARRIER_FIRST_VALLEY (R47). -/
def execCarrierFirstValley (c : Fin 8) (s : State) : Out := .next (s.firstValley c)
/-- CARRIER_VALLEY (R41 to R43, R48). -/
def execCarrierValley (c : Fin 8) (s : State) : Out := .next (s.valley c)
/-- CARRIER_APEX (R41, R85). -/
def execCarrierApex (c : Fin 8) (s : State) : Out := .next (s.apex c)
/-- LEAD_WINDOW_OPEN (R54, R55). -/
def execLeadWindowOpen (c : Fin 8) (s : State) : Out := .next (s.leadWindow c)
/-- FRAME_DEADLINE (R61). -/
def execFrameDeadline (c : Fin 8) (s : State) : Out := .next (s.frameDeadline c)
/-- CATCHUP_DEADLINE (R348). -/
def execCatchupDeadline (k : Fin 36) (s : State) : Out := .next (s.catchUpDeadline k)

end Sys2Proof.Machine
end

