-- ==== Sys2Proof/Machine/RowsLoop.lean ====
section
/-! DEFINITION. The meanings of the rows for the pulse-width generator, the converters, the comparators and the position
feedback (03_pwm.md to 06_position_feedback.md). -/

namespace Sys2Proof.Machine

/-! ## Pulse-width generator -/

/-- PWG_CH_CTL_WRITE (R72, R94, R96). -/
def execPwgChCtlWrite (x : Access) (c : Fin 8) (k : Fin 18) (v mask : Word) (s : State) : Out :=
  .next (s.wrm x (pgPwg0 c) (Reg.PWG_CH_CTL k) v mask)
/-- PWG_PER_WRITE (R84). -/
def execPwgPerWrite (x : Access) (c : Fin 8) (v mask : Word) (s : State) : Out := .next (s.wrm x (pgPwg0 c) Reg.PWG_PER v mask)
/-- PWG_CMP_WRITE: `isU` selects CMPU (R22, R84, R91). -/
def execPwgCmpWrite (x : Access) (c : Fin 8) (k : Fin 18) (isU : Bool) (v mask : Word) (s : State) : Out :=
  .next (s.wrm x (pgPwg0 c) (if isU then Reg.PWG_CH_CMPU k else Reg.PWG_CH_CMPD k) v mask)
/-- PWG_TOKEN_WRITE (R86). -/
def execPwgTokenWrite (x : Access) (c : Fin 8) (v : Word) (s : State) : Out := .next (s.wr x (pgPwg0 c) Reg.PWG_TOKEN v)

/-- The oldest duty-port word of local engine `i` reaches the generator: it takes part at the first PWM clock edge from then on (R23,
R83, R183). -/
def State.dutyNext (s : State) (c i : Fin 8) : State :=
  match (s.pwm c).flight[i] with
  | [] => s
  | w :: t => ((s.advance (pwmCeil w.at_)).modPwm c (fun p => { p with flight := p.flight.set i t })).dutyWord c i w

/-- DUTY_WORD_ARRIVAL (R81 to R84). -/
def execDutyWordArrival (c i : Fin 8) (s : State) : Out := .next (s.dutyNext c i)

/-- The counter reaches an active compare (R75, R76): the edge of the half in progress, once. -/
def State.compareMatch (s : State) (c : Fin 8) (k : Fin 18) (isU : Bool) : State :=
  let x := s.ch c k
  if isU then
    if (s.car c).phase != .up || x.doneU then s
    else let t := (s.car c).valley + s.actU c k; (s.advance t).edgeU c k t
  else
    if (s.car c).phase != .down || x.doneD || s.actD c k == 0 then s
    else let t := (s.car c).valley + 2 * s.hp c - s.actD c k; (s.advance t).edgeD c k t

/-- COMPARE_MATCH (R75). -/
def execCompareMatch (c : Fin 8) (k : Fin 18) (isU : Bool) (s : State) : Out := .next (s.compareMatch c k isU)

/-- A dead time elapses: the output that waited goes active (R78). -/
def State.deadExpire (s : State) (c : Fin 8) (k : Fin 18) : State :=
  match (s.ch c k).dead with
  | none => s
  | some (t, isH) => (((s.advance t).modCh c k (fun x => { x with dead := none }))).setOut c k isH (!isH) t

/-- DEAD_TIME_EXPIRY (R78). -/
def execDeadTimeExpiry (c : Fin 8) (k : Fin 18) (s : State) : Out := .next (s.deadExpire c k)
/-- PWG_SAFE_SET_WRITE (R98). -/
def execPwgSafeSetWrite (x : Access) (c : Fin 8) (v : Word) (s : State) : Out := .next (s.wr x (pgPwg0 c) Reg.PWG_SAFE_SET v)
/-- PWG_SAFE_REL_WRITE (R100). -/
def execPwgSafeRelWrite (x : Access) (c : Fin 8) (v : Word) (s : State) : Out := .next (s.wr x (pgPwg0 c) Reg.PWG_SAFE_REL v)
/-- PWG_SAFE_CAUSE_WRITE (R101). -/
def execPwgSafeCauseWrite (x : Access) (c : Fin 8) (v mask : Word) (s : State) : Out := .next (s.wrm x (pgPwg0 c) Reg.PWG_SAFE_CAUSE v mask)
/-- PWG_TRIP_SW_WRITE (R102). -/
def execPwgTripSwWrite (x : Access) (c : Fin 8) (v mask : Word) (s : State) : Out := .next (s.wrm x (pgPwg1 c) Reg.PWG_TRIP_SW v mask)
/-- PWG_TRIP_CLR_WRITE (R105). -/
def execPwgTripClrWrite (x : Access) (c : Fin 8) (v : Word) (s : State) : Out := .next (s.wr x (pgPwg1 c) Reg.PWG_TRIP_CLR v)

/-- TRIP pin `i` takes its active level, or its inactive one (R102). -/
def State.tripPinSet (s : State) (c : Fin 8) (i : Nat) (active : Bool) : State :=
  let lvl := s.rbit (pgPwg1 c) Reg.PWG_TRIP_PINCFG i == active
  (s.modPwm c (fun p => { p with tripPin := if lvl then p.tripPin ||| (1#4 <<< i) else p.tripPin &&& ~~~ (1#4 <<< i) })).tripSeeAll c

/-- TRIP_SOURCE_ACTIVE: a TRIP pin becomes active; the trip logic takes note of every other source as it stands (R102, R103). -/
def execTripSourceActive (c : Fin 8) (i : Fin 16) (s : State) : Out :=
  .next (if i.val < 4 then s.tripPinSet c i true else s.tripSeeAll c)
/-- TRIP_PIN_INACTIVE (R102). -/
def execTripPinInactive (c : Fin 8) (i : Fin 4) (s : State) : Out := .next (s.tripPinSet c i false)
/-- PWG_BLK_CTL_WRITE: a write to a blanking unit's `PWG_BLK_CTL`, or (`src`) to its `PWG_BLK_SRC` (R109). -/
def execPwgBlkCtlWrite (x : Access) (c : Fin 8) (u : Fin 4) (src : Bool) (v mask : Word) (s : State) : Out :=
  .next (s.wrm x (pgPwg1 c) (if src then Reg.PWG_BLK_SRC u else Reg.PWG_BLK_CTL u) v mask)

/-- A blanking window closes at its end (R110). -/
def State.blankEnd (s : State) (c : Fin 8) (u : Fin 4) : State :=
  match (s.pwm c).blk[u] with
  | none => s
  | some e => (s.advance e.1).blankClose c u e.1

/-- BLANKING_WINDOW_CLOSE (R110). -/
def execBlankingWindowClose (c : Fin 8) (u : Fin 4) (s : State) : Out := .next (s.blankEnd c u)

/-- The STOP_N pin falls (R98, R414, R565). -/
def State.stopPinFall (s : State) : State :=
  ((({ s with stopLow := true }.safeAll (some 0)).dmaStopAll).stopForward).dmaSettle

/-- STOP_N_FALL (R98). -/
def execStopNFall (s : State) : Out := .next s.stopPinFall
/-- STOP_N_RISE (R101). -/
def execStopNRise (s : State) : Out := .next { s with stopLow := false }

/-! ## Converters -/

/-- SAMPLE_ENTRY_ACT: `level` is what stands at the entry's analogue input: a pin's voltage in nV, the junction temperature in
1/16 °C (R115, R121, R127). -/
def execSampleEntryAct (c : Fin 8) (x : Fin 64) (level : Int) (s : State) : Out := .next (s.entryAct c x level)
/-- ADC_CONVERSION_END (R116, R117). -/
def execAdcConversionEnd (c j : Fin 8) (s : State) : Out := .next (s.convEnd c j)
/-- SAMPLE_PORT_ARRIVAL (R21, R123). -/
def execSamplePortArrival (c i : Fin 8) (s : State) : Out := .next (s.portNext c i)

/-- A read of `SMP_FIFO_LO`: of one word, or (`wide`) of both in one access (R131). -/
def State.fifoRead (s : State) (x : Access) (c : Fin 8) (wide : Bool) : State :=
  if wide then
    if s.pageWaits x.by_ (pgSmp c) then { s.busWait (.readN x.by_ x.m (pgSmp c) Reg.SMP_FIFO_LO 8) with resp := .none }
    else match s.pageAccess x.by_ (pgSmp c) with
    | some s1 => let y := s1.pageGet x.by_ x.m (pgSmp c) Reg.SMP_FIFO_LO 8; y.1.answer (BitVec.ofNat 64 (leNat y.2))
    | none => { s with resp := busFail x.by_ }
  else s.rd x (pgSmp c) Reg.SMP_FIFO_LO

/-- SMP_FIFO_LO_READ (R131). -/
def execSmpFifoLoRead (x : Access) (c : Fin 8) (wide : Bool) (s : State) : Out := .next (s.fifoRead x c wide)
/-- SMP_CMD_SWAP (R125). -/
def execSmpCmdSwap (x : Access) (c : Fin 8) (s : State) : Out := .next (s.wr x (pgSmp c) Reg.SMP_CMD 1)
/-- SMP_CMD_SWAPM (R126). -/
def execSmpCmdSwapm (x : Access) (c : Fin 8) (s : State) : Out := .next (s.wr x (pgSmp c) Reg.SMP_CMD 2)
/-- SMP_CMD_CHECK (R125). -/
def execSmpCmdCheck (x : Access) (c : Fin 8) (s : State) : Out := .next (s.wr x (pgSmp c) Reg.SMP_CMD 4)
/-- SMP_CMD_FCLR (R131). -/
def execSmpCmdFclr (x : Access) (c : Fin 8) (s : State) : Out := .next (s.wr x (pgSmp c) Reg.SMP_CMD 8)
/-- SMP_CMD_DISARM (R126). -/
def execSmpCmdDisarm (x : Access) (c : Fin 8) (s : State) : Out := .next (s.wr x (pgSmp c) Reg.SMP_CMD 16)
/-- TABLE_CHECK_DONE (R125). -/
def execTableCheckDone (c : Fin 8) (s : State) : Out := .next (s.checkDone c)
/-- SAMPLE_TABLE_SWAP (R126). -/
def execSampleTableSwap (c : Fin 8) (s : State) : Out := .next (s.tableSwap c)
/-- SMP_CTL_WRITE (R142, R143). -/
def execSmpCtlWrite (x : Access) (c : Fin 8) (v mask : Word) (s : State) : Out := .next (s.wrm x (pgSmp c) Reg.SMP_CTL v mask)
/-- ADC_CAL_CMD_CAL (R138). -/
def execAdcCalCmdCal (x : Access) (c j : Fin 8) (s : State) : Out := .next (s.wr x (pgAdc c j) Reg.ADC_CAL_CMD 1)
/-- ADC_CAL_CMD_TEST (R139). -/
def execAdcCalCmdTest (x : Access) (c j : Fin 8) (s : State) : Out := .next (s.wr x (pgAdc c j) Reg.ADC_CAL_CMD 2)
/-- ADC_CAL_CMD_ABORT (R140). -/
def execAdcCalCmdAbort (x : Access) (c j : Fin 8) (s : State) : Out := .next (s.wr x (pgAdc c j) Reg.ADC_CAL_CMD 4)
/-- CAL_RUN_START (R137 to R140). -/
def execCalRunStart (c j : Fin 8) (s : State) : Out := .next (s.calStart c j)
/-- CAL_RUN_DONE (R138). -/
def execCalRunDone (c j : Fin 8) (s : State) : Out := .next (s.calDone c j)
/-- SELF_TEST_STEP_DONE (R139). -/
def execSelfTestStepDone (c j : Fin 8) (s : State) : Out := .next (s.testStep c j)
/-- CAL_STARVED (R141). -/
def execCalStarved (c j : Fin 8) (s : State) : Out := .next (s.calStarved c j)
/-- SUBST_START (R143). -/
def execSubstStart (c : Fin 8) (s : State) : Out := .next (s.substStart c)
/-- SUBST_END (R143). -/
def execSubstEnd (c : Fin 8) (s : State) : Out := .next (s.substEnd c)
/-- BACKGROUND_CONVERSION (R144, R158). -/
def execBackgroundConversion (c : Fin 8) (s : State) : Out := .next (s.bgStart c)
/-- SDM_RESULT: edges of the input's modulator clock, with the data at each, up to the one that completes a result (R132, R134). -/
def execSdmResult (c : Fin 8) (n : Fin 12) (edges : List (Bool × BitVec 16)) (s : State) : Out := .next (s.sdmEdges c n edges)
/-- SDM_CLOCK_LOST (R133). -/
def execSdmClockLost (c : Fin 8) (n : Fin 12) (s : State) : Out := .next (s.sdmLost c n)
/-- SDM_CLOCK_RETURN (R133). -/
def execSdmClockReturn (c : Fin 8) (n : Fin 12) (s : State) : Out := .next (s.sdmReturn c n)
/-- FAST_ACT: edges of the input's modulator clock, with the data at each, up to the one that makes the fast window active (R135). -/
def execFastAct (c : Fin 8) (n : Fin 12) (edges : List (Bool × BitVec 16)) (s : State) : Out := .next (s.sdmEdges c n edges)
/-- FAST_WINDOW_INACTIVE: edges of the input's modulator clock, with the data at each (R135). -/
def execFastWindowInactive (c : Fin 8) (n : Fin 12) (edges : List (Bool × BitVec 16)) (s : State) : Out := .next (s.sdmEdges c n edges)
/-- SDM_RES_READ (R134). -/
def execSdmResRead (x : Access) (c : Fin 8) (n : Fin 12) (s : State) : Out := .next (s.rd x (pgSdm c) (Reg.SDM_RES n))

/-! ## Comparators -/

/-- CMP_STATE_CHANGE: the voltage in nV that the pin of comparator `m` has reached, what the comparator's parts add to its nominal
figures (R161), and whether the crossing is over before a PWM clock edge sees it (R150, R152, R153). -/
def execCmpStateChange (c : Fin 8) (m : Fin 12) (l : PinLevel) (hiErr loErr hystErr : Int) (s : State) : Out :=
  .next (s.cmpLevel c m l.nV ⟨hiErr, loErr, hystErr⟩ l.brief)
/-- CMP_CTL_WRITE (R153, R154). -/
def execCmpCtlWrite (x : Access) (c : Fin 8) (m : Fin 12) (v mask : Word) (s : State) : Out := .next (s.wrm x (pgCmp c) (Reg.CMP_CTL m) v mask)
/-- CMP_READY: the voltage in nV at the comparator's pin, and what its parts add to its nominal figures (R153, R161). -/
def execCmpReady (c : Fin 8) (m : Fin 12) (level hiErr loErr hystErr : Int) (s : State) : Out :=
  .next (s.cmpReady c m level ⟨hiErr, loErr, hystErr⟩)
/-- CMP_THR_WRITE (R155). -/
def execCmpThrWrite (x : Access) (c : Fin 8) (m : Fin 12) (v mask : Word) (s : State) : Out := .next (s.wrm x (pgCmp c) (Reg.CMP_THR m) v mask)
/-- DAC_SETTLED (R155). -/
def execDacSettled (c : Fin 8) (m : Fin 12) (s : State) : Out := .next (s.dacSettled c m)
/-- CMP_RB_CMD_REQ (R158). -/
def execCmpRbCmdReq (x : Access) (c : Fin 8) (d : Fin 24) (s : State) : Out := .next (s.wr x (pgCmp c) Reg.CMP_RB_CMD (w32 (256 + d)))
/-- RB_DONE (R158). -/
def execRbDone (c : Fin 8) (s : State) : Out := .next (s.rbDone c)
/-- RB_WALK_STEP (R159). -/
def execRbWalkStep (c : Fin 8) (s : State) : Out := .next (s.rbWalk c)
/-- RB_STARVED (R160). -/
def execRbStarved (c : Fin 8) (s : State) : Out := .next (s.rbStarved c)

/-! ## Position feedback -/

/-- QDEC_PINSEL_WRITE (R165). -/
def execQdecPinselWrite (x : Access) (c : Fin 8) (v mask : Word) (s : State) : Out := .next (s.wrm x (pgQdec c) Reg.QDEC_PINSEL v mask)
/-- QDEC_COUNT_STEP: the levels at pins A and B and for how many PWM clock cycles they have held (R167, R168). -/
def execQdecCountStep (c : Fin 8) (n : Fin 6) (ab : Bool × Bool) (held : Nat) (s : State) : Out :=
  .next (s.qdecEdge c n ab.1 ab.2 held)
/-- QDEC_INDEX: a unit, the level at its pin I, and for how many PWM clock cycles it has held (R167, R169). -/
def execQdecIndex (c : Fin 8) (l : Fin 6 × HeldLevel) (s : State) : Out :=
  .next (s.qdecIndex c l.1 l.2.level l.2.held)
/-- QDEC_POS_WRITE (R170). -/
def execQdecPosWrite (x : Access) (c : Fin 8) (n : Fin 6) (v mask : Word) (s : State) : Out := .next (s.wrm x (pgQdec c) (Reg.QDEC_POS n) v mask)
/-- CAPTURE_EDGE: the level at the pin that the unit watches and for how many PWM clock cycles it has held (R172, R173). -/
def execCaptureEdge (c : Fin 8) (u : Fin 6) (l : HeldLevel) (s : State) : Out := .next (s.capPin c u l.level l.held)
/-- CAP_TS_LO_READ (R174). -/
def execCapTsLoRead (x : Access) (c : Fin 8) (u : Fin 6) (s : State) : Out := .next (s.rd x (pgCap c) (Reg.CAP_TS_LO u))
/-- SEP_TRANSFER_END: the clocks before the start bit, the data bits and the CRC received (R175 to R178). -/
def execSepTransferEnd (c : Fin 8) (n : Fin 6) (first : Nat) (data : DWord) (crc : BitVec 16) (s : State) : Out := .next (s.sepEnd c n first data crc)
/-- SEP_RECOVERY_END (R175). -/
def execSepRecoveryEnd (c : Fin 8) (n : Fin 6) (s : State) : Out := .next (s.sepRecover c n)
/-- SEP_CMD_REQ (R179). -/
def execSepCmdReq (x : Access) (c : Fin 8) (n : Fin 6) (s : State) : Out := .next (s.wr x (pgSep c) Reg.SEP_CMD (w32 (2 ^ n.val)))
/-- SEP_DATA_LO_READ (R177). -/
def execSepDataLoRead (x : Access) (c : Fin 8) (n : Fin 6) (s : State) : Out := .next (s.rd x (pgSep c) (Reg.SEP_DATA_LO n))

end Sys2Proof.Machine
end

