-- ==== Sys2Proof/Machine/RowsSys.lean ====
section
/-! DEFINITION. The meanings of the rows for starting cores, interrupt controllers, core pairs, memories, translation,
DMA, flash, power and reset, energy guards and security (R218, R229, R311 to R325, R336 to R348, R358 to R370, R390 to
R393, R403 to R417, R428 to R433, R443 to R485, R576). -/

namespace Sys2Proof.Machine

/-! ## Starting and stopping cores (R218, R229) -/

/-- CE_RUN_START: `CE_CTL` written with `RUN` = 1 (R218). -/
def execCeRunStart (x : Access) (e : Fin 64) (v : Word) (s : State) : Out := .next (s.wr x (pgCe e) Reg.CE_CTL (v ||| 1))
/-- CE_RUN_STOP: `CE_CTL` written with `RUN` = 0 (R218). -/
def execCeRunStop (x : Access) (e : Fin 64) (v : Word) (s : State) : Out := .next (s.wr x (pgCe e) Reg.CE_CTL (v &&& ~~~ 1))
/-- AC_RUN_START (R229). -/
def execAcRunStart (x : Access) (a : Fin 8) (v : Word) (s : State) : Out := .next (s.wr x (pgAc a) Reg.AC_CTL (v ||| 1))
/-- AC_RUN_STOP (R229). -/
def execAcRunStop (x : Access) (a : Fin 8) (v : Word) (s : State) : Out := .next (s.wr x (pgAc a) Reg.AC_CTL (v &&& ~~~ 1))
/-- AC_PCSAMP_LO_READ (R229). -/
def execAcPcsampLoRead (x : Access) (a : Fin 8) (s : State) : Out := .next (s.rd x (pgAc a) Reg.AC_PCSAMP_LO)

/-! ## Interrupt controllers (R311 to R325) -/

/-- SOURCE_EDGE (R322, R324). -/
def execSourceEdge (i : IrqCtl) (n : Fin 1024) (s : State) : Out := .next (s.srcPulse i n).pwrServe
/-- SOURCE_LEVEL_CHANGE: the pending bit of a level source follows the input its block now gives (R321). -/
def execSourceLevelChange (i : IrqCtl) (n : Fin 1024) (s : State) : Out := .next (s.srcFollow i n).pwrServe
/-- EDGE_LATCH_PASS (R324). -/
def execEdgeLatchPass (i : IrqCtl) (n : Fin 1024) (s : State) : Out := .next (s.latchPass i n)
/-- CTX_CLAIM_READ (R316). -/
def execCtxClaimRead (x : Access) (i : IrqCtl) (k : Fin 16) (s : State) : Out := .next (s.rd x (irqPage i) (Reg.CTX_CLAIM k))
/-- CTX_CMPL_WRITE (R319, R320). -/
def execCtxCmplWrite (x : Access) (i : IrqCtl) (k : Fin 16) (v : Word) (s : State) : Out := .next (s.wr x (irqPage i) (Reg.CTX_CMPL k) v)
/-- COMPLETION_RESAMPLE (R321). -/
def execCompletionResample (i : IrqCtl) (n : Fin 1024) (s : State) : Out := .next (s.srcResample i n)
/-- SWSET_WRITE (R323). -/
def execSwsetWrite (x : Access) (i : IrqCtl) (v : Word) (s : State) : Out := .next (s.wr x (irqPage i) Reg.SWSET v).pwrServe
/-- CTX_CTL_WRITE (R315, R318). -/
def execCtxCtlWrite (x : Access) (i : IrqCtl) (k : Fin 16) (v mask : Word) (s : State) : Out :=
  .next (s.wrm x (irqPage i) (Reg.CTX_CTL k) v mask)
/-- SRC_CFG_WRITE: of `SRC_CFG`, or (`tgt`) of `SRC_TGT` (R312, R313). -/
def execSrcCfgWrite (x : Access) (i : IrqCtl) (n : Fin 1024) (tgt : Bool) (v mask : Word) (s : State) : Out :=
  .next (s.wrm x (srcPage i n) (if tgt then Reg.SRC_TGT (n % 128) else Reg.SRC_CFG (n % 128)) v mask)

/-! ## Core pairs (R336 to R348) -/

/-- A write of `PAIR_CMD` with one bit set. -/
def State.pairBit (s : State) (x : Access) (k : Fin 36) (b : Nat) : State := s.wr x (pairPage k) Reg.PAIR_CMD (w32 (2 ^ (b + pairLocal k)))

/-- PAIR_CMD_LOCK (R336). -/
def execPairCmdLock (x : Access) (k : Fin 36) (s : State) : Out := .next (s.pairBit x k 0)
/-- PAIR_CMD_SPLIT (R336). -/
def execPairCmdSplit (x : Access) (k : Fin 36) (s : State) : Out := .next (s.pairBit x k 4)
/-- PAIR_CMD_RELEASE (R343). -/
def execPairCmdRelease (x : Access) (k : Fin 36) (s : State) : Out := .next (s.pairBit x k 8)
/-- PAIR_CMD_CANCEL (R336). -/
def execPairCmdCancel (x : Access) (k : Fin 36) (s : State) : Out := .next (s.pairBit x k 12)
/-- PAIR_LOCK_BOUNDARY (R337, R338). -/
def execPairLockBoundary (k : Fin 36) (s : State) : Out := .next (s.lockBoundary k)
/-- LOCK_DONE (R338). -/
def execLockDone (k : Fin 36) (s : State) : Out := .next (s.lockDone k)
/-- PAIR_SPLIT_BOUNDARY (R339). -/
def execPairSplitBoundary (k : Fin 36) (s : State) : Out := .next (s.splitBoundary k)
/-- PAIR_MISMATCH_DETECT: what differed, and how many entries behind the boundary of difference the store buffers drop
(R340, R341). -/
def execPairMismatchDetect (k : Fin 36) (kind : BitVec 3) (drop : Nat) (s : State) : Out := .next (s.mismatch k kind.toNat drop)
/-- The halt of a pair; that of application-core pair 0 resets the device (R341, R344). -/
def State.pairHaltGo (s : State) (k : Fin 36) : State :=
  let s1 := s.pairHalt k
  if k = 32 ∧ s1.pairs[k].halted ∧ !s.pairs[k].halted then s1.lockstepReset else s1

/-- PAIR_HALT (R340 to R342, R344). -/
def execPairHalt (k : Fin 36) (s : State) : Out := .next (s.pairHaltGo k)
/-- TAKEOVER_COMPLETE (R345, R346). -/
def execTakeoverComplete (sb : Fin 36) (s : State) : Out := .next (s.takeoverDone sb)

/-! ## Memories (R358 to R370) -/

/-- ECC_WRITEBACK of the word with this key (R358). -/
def execEccWriteback (key : Nat) (s : State) : Out := .next (s.eccWriteback key)
/-- BG_TEST_REGION (R364). -/
def execBgTestRegion (p : PageId) (u : Fin 32) (s : State) : Out := .next (s.btStart p u)
/-- BG_TEST_DONE: whether the march test failed (R364 to R366). -/
def execBgTestDone (p : PageId) (u : Fin 32) (fail : Bool) (s : State) : Out := .next (s.btDone p u fail)
/-- SRAM_U_REMAP_GO (R367). -/
def execSramURemapGo (x : Access) (p : PageId) (u : Fin 32) (r : BitVec 16) (s : State) : Out :=
  .next (s.wr x p (Reg.SRAM_U_REMAP u) (w32 (r.toNat + 2 ^ 16)))
/-- REMAP_DONE (R367). -/
def execRemapDone (p : PageId) (u : Fin 32) (s : State) : Out := .next (s.remapDone p u)
/-- SRAM_INIT_DONE (R369). -/
def execSramInitDone (p : PageId) (u : Fin 32) (s : State) : Out := .next (s.initDone p u)
/-- VAULT_WIPE, with the cause of R485 (R370). -/
def execVaultWipe (cause : Fin 4) (s : State) : Out := .next (s.wipe cause).attestWake
/-- VAULT_WIPE_DONE (R370). -/
def execVaultWipeDone (s : State) : Out := .next s.wipeDone

/-- MEMORY_BIT_ERROR at an address: one bit or more, in the line that the L2 holds or in the memory (R357, R358, R383). -/
def execMemoryBitError (a : Nat) (bit : Nat) (many inL2 dirty : Bool) (s : State) : Out :=
  .next (if inL2 then s.l2Flip a bit many dirty else s.eccFlip a bit many)

/-! ## Translation (R390 to R393) -/

/-- The registers of R390. -/
def mmuContext : Fin 4 → Nat
  | 0 => Reg.MMU_CTL
  | 1 => Reg.MMU_ROOT_LO
  | 2 => Reg.MMU_ROOT_HI
  | 3 => Reg.MMU_ASID

/-- MMU_CONTEXT_WRITE (R390). -/
def execMmuContextWrite (x : Access) (a : Fin 8) (r : Fin 4) (v mask : Word) (s : State) : Out :=
  .next (s.wrm x (pgMmu a) (mmuContext r) v mask)
/-- MMU_DOMCTL_CLOSE (R392). -/
def execMmuDomctlClose (x : Access) (a : Fin 8) (s : State) : Out := .next (s.wr x (pgMmu a) Reg.MMU_DOMCTL 1)
/-- MMU_DOMCTL_OPEN (R392). -/
def execMmuDomctlOpen (x : Access) (a : Fin 8) (s : State) : Out := .next (s.wr x (pgMmu a) Reg.MMU_DOMCTL 2)
/-- MMU_DOMMEM_WRITE (R392). -/
def execMmuDommemWrite (x : Access) (a : Fin 8) (v mask : Word) (s : State) : Out := .next (s.wrm x (pgMmu a) Reg.MMU_DOMMEM v mask)

/-! ## DMA (R403 to R417) -/

/-- DMA_START (R408, R416). -/
def execDmaStart (x : Access) (k : Fin 96) (s : State) : Out := .next (s.wr x (dmaPage k) (dmaReg Reg.DMA_CH_CMD k) 1)
/-- DMA_ABORT (R414). -/
def execDmaAbort (x : Access) (k : Fin 96) (s : State) : Out := .next (s.wr x (dmaPage k) (dmaReg Reg.DMA_CH_CMD k) 2)
/-- DMA_SWREQ (R410). -/
def execDmaSwreq (x : Access) (k : Fin 96) (s : State) : Out := .next (s.wr x (dmaPage k) (dmaReg Reg.DMA_CH_CMD k) 4)

/-- A hardware request: the level of the sample FIFO is looked at, or the carrier's tick gives an edge (R410). -/
def State.dmaRequest (s : State) (k : Fin 96) : State := if s.dmaReq k = 2 then s.dmaEdge k 2 else s.dmaStat k

/-- DMA_REQUEST (R410, R411). -/
def execDmaRequest (k : Fin 96) (s : State) : Out := .next (s.dmaRequest k)
/-- DMA_DESCRIPTOR_READ (R404, R408). -/
def execDmaDescriptorRead (k : Fin 96) (s : State) : Out := .next (s.dmaDescriptor k)
/-- DMA_BURST_GRANT by the engine of cluster `g`, or (8) of the system (R403). -/
def execDmaBurstGrant (g : Fin 9) (s : State) : Out := .next (s.dmaGrantGo g)
/-- DMA_BURST_DONE: `lost` bytes of the burst's writes were refused downstream after `before` bytes (R405, R409). -/
def execDmaBurstDone (k : Fin 96) (lost before : Nat) (s : State) : Out := .next (s.dmaBurst k lost before)
/-- DMA_CONFIRM_DONE (R413). -/
def execDmaConfirmDone (k : Fin 96) (s : State) : Out := .next (s.dmaConfirm k)

/-! ## Flash (R424 to R433) -/

/-- FLS_CMD_PROG of one to eight code words (R429, R431). -/
def execFlsCmdProg (x : Access) (b : Fin 5) (words : BitVec 3) (s : State) : Out :=
  .next (s.wr x pgFls (Reg.FLS_B_CMD b) (w32 (0xA700 + 8 * words.toNat + 1)))
/-- FLS_CMD_ERASE (R429, R431). -/
def execFlsCmdErase (x : Access) (b : Fin 5) (s : State) : Out := .next (s.wr x pgFls (Reg.FLS_B_CMD b) 0xA702)
/-- FLS_CMD_SUSPEND (R433). -/
def execFlsCmdSuspend (x : Access) (b : Fin 5) (s : State) : Out := .next (s.wr x pgFls (Reg.FLS_B_CMD b) 0xA703)
/-- FLS_CMD_RESUME (R433). -/
def execFlsCmdResume (x : Access) (b : Fin 5) (s : State) : Out := .next (s.wr x pgFls (Reg.FLS_B_CMD b) 0xA704)
/-- FLASH_OP_END: `vf` names the code word that did not verify, or for an erase that the sector did not (R430 to R432). -/
def execFlashOpEnd (b : Fin 5) (vf : Option Nat) (s : State) : Out := .next (s.flsEnd b vf)
/-- FLASH_SUSPENDED (R433). -/
def execFlashSuspended (b : Fin 5) (s : State) : Out := .next (s.flsSuspended b)
/-- FLASH_FALLBACK_DONE (R428). -/
def execFlashFallbackDone (s : State) : Out := .next s.flsFallbackDone
/-- FLASH_BIT_ERROR: `n` bits of the code word at an offset (R424, R425). -/
def execFlashBitError (o n : Nat) (s : State) : Out := .next (s.flsFlip o n)

/-! ## Power and reset (R443 to R457) -/

/-- POWER_DOMAIN_REQUEST: `PWR_DOM.REQ` (R444, R445). -/
def execPowerDomainRequest (x : Access) (d : Fin 148) (r : BitVec 2) (s : State) : Out :=
  .next (s.wrm x pgPwr (Reg.PWR_DOM d) (w32 (4 * r.toNat)) 0xC)
/-- POWER_TRANSITION_DONE (R445, R449, R544). -/
def execPowerTransitionDone (s : State) : Out := .next s.pwrDone.domainsWake
/-- RAIL_MONITOR_EVENT (R450). -/
def execRailMonitorEvent (r : Fin 7) (lost : Bool) (s : State) : Out := .next (s.railEvent r lost)
/-- REFERENCE_CLOCK_FAIL (R450). -/
def execReferenceClockFail (s : State) : Out := .next s.clockEvent
/-- PLL_LOCK_LOST (R450). -/
def execPllLockLost (s : State) : Out := .next s.clockEvent
/-- TEMP_WARN: a measurement of the two dies, in °C + 64 (R450). -/
def execTempWarn (tcd tsd : BitVec 8) (s : State) : Out := .next (s.tempEvent tcd tsd)
/-- OVER_TEMPERATURE (R450). -/
def execOverTemperature (s : State) : Out := .next s.hotEvent
/-- POWER_ON_RESET: `lost` says that VDD_SD fell below 0.5 V (R443). -/
def execPowerOnReset (lost : Bool) (s : State) : Out := .next (s.resetNow ⟨5, 0, false⟩ 0x01 lost)
/-- RESET_N_PIN (R452). -/
def execResetNPin (s : State) : Out := .next (s.resetDevBy 0x02 false)
/-- RST_CMD_WRITE (R453). -/
def execRstCmdWrite (x : Access) (v : Word) (s : State) : Out := .next (s.wr x pgRst Reg.RST_CMD v).abortWake
/-- CXL_HOT_RESET (R452). -/
def execCxlHotReset (s : State) : Out := .next s.hotReset
/-- RESET_RELEASE of the reset of a scope (R451, R452); RESET_DOMAIN commands that wait for it complete (R523). -/
def execResetRelease (scope : Fin 6) (num : Fin 64) (ac : Bool) (s : State) : Out :=
  .next ((List.finRange 64).foldl (fun s (q : Fin 64) => s.resetWake q) (s.resetRelease ⟨scope, num, ac⟩))
/-- WD_KICK (R454). -/
def execWdKick (x : Access) (w : Fin 4) (v : Word) (s : State) : Out := .next (s.wr x pgRst (Reg.WD_KICK w) v)
/-- WATCHDOG_EXPIRY (R454). -/
def execWatchdogExpiry (w : Fin 4) (s : State) : Out := .next (s.wdExpire w)
/-- BOOT_STAGE_DONE (R456, R457). -/
def execBootStageDone (s : State) : Out := .next s.bootNext

/-! ## Energy guards and pins (R461 to R468, R576) -/

/-- EG_SAMPLE of current and voltage (R461 to R464). -/
def execEgSample (n : Fin 8) (i v : BitVec 12) (s : State) : Out := .next (s.egSample n i v)
/-- EG_CMD_ON (R463, R465). -/
def execEgCmdOn (x : Access) (n : Fin 8) (s : State) : Out := .next (s.wr x pgEg (Reg.EG_CMD n) 1)
/-- EG_CMD_OFF (R463). -/
def execEgCmdOff (x : Access) (n : Fin 8) (s : State) : Out := .next (s.wr x pgEg (Reg.EG_CMD n) 2)
/-- EG_CMD_CLR (R463). -/
def execEgCmdClr (x : Access) (n : Fin 8) (s : State) : Out := .next (s.wr x pgEg (Reg.EG_CMD n) 4)
/-- EG_CMD_CHECK (R465). -/
def execEgCmdCheck (x : Access) (n : Fin 8) (s : State) : Out := .next (s.wr x pgEg (Reg.EG_CMD n) 8)
/-- EG_CHECK_DONE: a live voltage, the voltage step and the time the check took (R465 to R467). -/
def execEgCheckDone (n : Fin 8) (live : Bool) (dv tns : Nat) (s : State) : Out := .next (s.egCheckDone n live dv tns)
/-- EG_E_LO_READ (R468). -/
def execEgELoRead (x : Access) (n : Fin 8) (s : State) : Out := .next (s.rd x pgEg (Reg.EG_E_LO n))
/-- FIO_SEL_WRITE (R576). -/
def execFioSelWrite (x : Access) (c : Fin 8) (v mask : Word) (s : State) : Out := .next (s.wrm x pgEg (Reg.FIO_SEL c) v mask)

/-! ## Security (R473 to R485) -/

/-- SEC_SIGN_CMD_GO (R477). -/
def execSecSignCmdGo (x : Access) (s : State) : Out := .next (s.wr x pgSec Reg.SEC_SIGN_CMD 1)
/-- SIGN_DONE (R477). -/
def execSignDone (s : State) : Out := .next s.signDone.attestWake
/-- SEC_MEAS_EXT_GO (R478). -/
def execSecMeasExtGo (x : Access) (slot : Fin 8) (s : State) : Out := .next (s.wr x pgSec Reg.SEC_MEAS_EXT (w32 (slot + 256)))
/-- MEAS_EXT_DONE (R478). -/
def execMeasExtDone (s : State) : Out := .next s.measDone
/-- SEC_MEAS_LOCK_L02 (R479). -/
def execSecMeasLockL02 (x : Access) (s : State) : Out := .next (s.wr x pgSec Reg.SEC_MEAS_LOCK 1)
/-- TAMPER_INPUT (R484). -/
def execTamperInput (k : Fin 4) (s : State) : Out := .next (s.tamperOn k).attestWake
/-- TAMPER_INPUT_INACTIVE (R484). -/
def execTamperInputInactive (k : Fin 4) (s : State) : Out := .next (s.tamperOff k)
/-- LC_FUSES_BLOWN (R483, R542). -/
def execLcFusesBlown (s : State) : Out := .next s.fusesBlown

end Sys2Proof.Machine
end

