-- ==== Sys2Proof/Machine/RowsHost.lean ====
section
/-! DEFINITION. The meanings of the rows for the CXL link, the host, the urgent stop, the command queues and the commands
of the firmware (R486 to R545). -/

namespace Sys2Proof.Machine

/-! ## The CXL link and the host (R489 to R505) -/

/-- CXL_LINK_UP at a speed (1 to 5) and width (R489, R490). -/
def execCxlLinkUp (speed : Fin 5) (width : BitVec 5) (s : State) : Out := .next (s.cxlUp (speed + 1) width.toNat)
/-- CXL_LINK_DOWN (R491). -/
def execCxlLinkDown (s : State) : Out := .next s.cxlDown
/-- LINK_DOWN_TIMEOUT (R491). -/
def execLinkDownTimeout (s : State) : Out := .next s.cxlDownLong.dmaSettle
/-- HOST_BAR0_WRITE of four bytes or (`wide`) eight; `full` says that the posted-write buffer is full (R493). -/
def execHostBar0Write (off : Nat) (wide : Bool) (v : DWord) (full : Bool) (s : State) : Out :=
  .next (s.bar0Write off (if wide then 8 else 4) v full)
/-- HOST_BAR0_READ (R492). -/
def execHostBar0Read (off : Nat) (wide : Bool) (s : State) : Out := .next (s.bar0Read off (if wide then 8 else 4))
/-- HDM_COMMIT: decoder `d` with its base, size, DPA skip and interleave ways is committed, or uncommitted (R496). -/
def execHdmCommit (d : Fin 2) (commit : Bool) (base size skip ways : Nat) (s : State) : Out :=
  .next (if commit then s.hdmCommit d base size skip ways else s.hdmUncommit d)
/-- CXL_MEM_READ of `n` bytes at a host physical address (R497, R498). -/
def execCxlMemRead (h n : Nat) (s : State) : Out := .next (s.cxlRead h n)
/-- CXL_MEM_WRITE (R497, R498). -/
def execCxlMemWrite (h : Nat) (bs : List Byte) (s : State) : Out := .next (s.cxlWrite h bs)
/-- HOST_SNOOP of a line of host memory; the host then holds these bytes there (R499). -/
def execHostSnoop (h : Nat) (bs : List Byte) (s : State) : Out := .next (s.hostSnoop h bs)
/-- VIRAL_IN (R504). -/
def execViralIn (s : State) : Out := .next s.viralIn.dmaSettle
/-- CXL_VIRAL_CMD_RAISE (R505). -/
def execCxlViralCmdRaise (x : Access) (s : State) : Out := .next (s.wr x pgCxl Reg.CXL_VIRAL_CMD 1)
/-- CXL_MSIX_SEND (R502). -/
def execCxlMsixSend (x : Access) (v : Fin 64) (s : State) : Out := .next (s.wr x pgCxl Reg.CXL_MSIX_SEND (w32 v))
/-- MSIX_UNMASK of a vector, or of the function (R502). -/
def execMsixUnmask (v : Option (Fin 64)) (s : State) : Out := .next (s.msixUnmask v)
/-- MBOX_GET_EVENT_RECORDS (R500). -/
def execMboxGetEventRecords (log : Fin 4) (s : State) : Out := .next (s.mboxGetEvents log)
/-- MBOX_CLEAR_EVENT_RECORDS: all, or the named handles (R500). -/
def execMboxClearEventRecords (log : Fin 4) (all : Bool) (handles : List Nat) (s : State) : Out := .next (s.mboxClearEvents log all handles)
/-- MBOX_GET_FW_INFO (R500). -/
def execMboxGetFwInfo (s : State) : Out := .next s.mboxFwInfo
/-- MBOX_TRANSFER_FW: `bad` is the word on which flash fails (R500). -/
def execMboxTransferFw (slot ofs : Nat) (first : Bool) (bs : List Byte) (bad : Option Nat) (s : State) : Out :=
  .next (s.mboxTransfer slot ofs first bs bad)
/-- MBOX_ACTIVATE_FW (R500, R501). -/
def execMboxActivateFw (slot : Nat) (online : Bool) (bad : Option Nat) (s : State) : Out := .next (s.mboxActivate slot online bad)
/-- MBOX_GET_SUPPORTED_LOGS (R500). -/
def execMboxGetSupportedLogs (s : State) : Out := .next s.mboxLogs
/-- MBOX_GET_LOG (R500). -/
def execMboxGetLog (s : State) : Out := .next s.mboxLog
/-- PTM_ENABLE_WRITE (R503). -/
def execPtmEnableWrite (b : Bool) (s : State) : Out := .next (s.ptmEnableSet b)
/-- CACHE_ENABLE_WRITE (R499). -/
def execCacheEnableWrite (b : Bool) (s : State) : Out := .next (s.cacheEnable b)

/-! ## The urgent stop (R506 to R509) -/

/-- URG_STOP_ALL: the host writes `URG_CMD` with its key and STOP_ALL (R507). -/
def execUrgStopAll (s : State) : Out := .next (s.urgWrite 0xC301).dmaSettle
/-- URG_RELEASE (R507). -/
def execUrgRelease (s : State) : Out := .next (s.urgWrite 0xC302).dmaSettle
/-- URGENT_DONE (R507, R508). -/
def execUrgentDone (s : State) : Out := .next s.urgDone

/-! ## Queues (R510 to R522) -/

/-- QC_CTL_WRITE (R512). -/
def execQcCtlWrite (x : Access) (q : Fin 64) (v mask : Word) (s : State) : Out := .next (s.wrm x (pgQc q) Reg.QC_CTL v mask)
/-- DB_SQT_WRITE (R513). -/
def execDbSqtWrite (x : Access) (q : Fin 64) (v : Word) (s : State) : Out := .next (s.wr x ⟨.db, q⟩ Reg.DB_SQT v)
/-- DB_CQH_WRITE (R514). -/
def execDbCqhWrite (x : Access) (q : Fin 64) (v : Word) (s : State) : Out := .next (s.wr x ⟨.db, q⟩ Reg.DB_CQH v)
/-- DESCRIPTOR_FETCH (R514 to R518). -/
def execDescriptorFetch (s : State) : Out := .next s.descFetch

/-! ## Commands: each row carries out the running command of its kind on a queue (R523 to R545) -/

/-- IDENTIFY (R523). -/
def execIdentify (q : Fin 64) (s : State) : Out := .next (s.cmdIdentify q)
/-- GET_STATUS (R523, R524). -/
def execGetStatus (q : Fin 64) (s : State) : Out := .next (s.cmdStatus q)
/-- RESET_DOMAIN (R523). -/
def execResetDomain (q : Fin 64) (s : State) : Out := .next (s.cmdReset q)
/-- GET_TEMP (R523). -/
def execGetTemp (q : Fin 64) (s : State) : Out := .next (s.cmdTemp q)
/-- AXIS_ENABLE (R525). -/
def execAxisEnable (q : Fin 64) (s : State) : Out := .next (s.cmdEnable q)
/-- AXIS_DISABLE (R525). -/
def execAxisDisable (q : Fin 64) (s : State) : Out := .next (s.cmdDisable q)
/-- SAFE_STATE (R525). -/
def execSafeState (q : Fin 64) (s : State) : Out := .next (s.cmdSafe q)
/-- LOAD_RECIPE (R527). -/
def execLoadRecipe (q : Fin 64) (s : State) : Out := .next (s.cmdLoad q)
/-- VERIFY_RECIPE (R528). -/
def execVerifyRecipe (q : Fin 64) (s : State) : Out := .next (s.cmdVerify q)
/-- ACTIVATE_RECIPE (R531, R532). -/
def execActivateRecipe (q : Fin 64) (s : State) : Out := .next (s.cmdActivate q)
/-- LIST_RECIPES (R526). -/
def execListRecipes (q : Fin 64) (s : State) : Out := .next (s.cmdList q)
/-- ACTIVATION_TAKES_EFFECT (R533). -/
def execActivationTakesEffect (c : Fin 8) (s : State) : Out := .next (s.activationTick c)
/-- ACTIVATION_FINISH (R533, R534). -/
def execActivationFinish (s : State) : Out := .next s.activationFinish.dmaSettle
/-- TRACE_ARM (R535). -/
def execTraceArm (q : Fin 64) (s : State) : Out := .next (s.cmdTraceArm q)
/-- TRACE_TRIGGER (R535). -/
def execTraceTrigger (q : Fin 64) (s : State) : Out := .next (s.cmdTraceTrigger q)
/-- TRACE_STOP (R535). -/
def execTraceStop (q : Fin 64) (s : State) : Out := .next (s.cmdTraceStop q)
/-- TRACE_READ_INDEX (R535). -/
def execTraceReadIndex (q : Fin 64) (s : State) : Out := .next (s.cmdTraceIndex q)
/-- TRACE_EVENT_TRIGGER (R535). -/
def execTraceEventTrigger (s : State) : Out := .next s.traceEvent
/-- FLASH_WRITE: `bad` is the word on which flash fails (R537). -/
def execFlashWrite (q : Fin 64) (bad : Option Nat) (s : State) : Out := .next (s.cmdFlashWrite q bad)
/-- FLASH_ERASE: `bad` is the sector on which flash fails (R537). -/
def execFlashErase (q : Fin 64) (bad : Option Nat) (s : State) : Out := .next (s.cmdFlashErase q bad)
/-- FLASH_VERIFY (R537). -/
def execFlashVerify (q : Fin 64) (s : State) : Out := .next (s.cmdFlashVerify q)
/-- UPDATE_IMAGE_WRITE (R538). -/
def execUpdateImageWrite (q : Fin 64) (bad : Option Nat) (s : State) : Out := .next (s.cmdUpdate q bad)
/-- UPDATE_IMAGE_COMMIT (R539). -/
def execUpdateImageCommit (q : Fin 64) (s : State) : Out := .next (s.cmdCommit q)
/-- GET_CERT_CHAIN (R474). -/
def execGetCertChain (q : Fin 64) (s : State) : Out := .next (s.cmdCert q)
/-- ATTEST (R540, R541). -/
def execAttest (q : Fin 64) (s : State) : Out := .next (s.cmdAttest q)
/-- SET_LIFECYCLE (R542). -/
def execSetLifecycle (q : Fin 64) (s : State) : Out := .next (s.cmdLifecycle q)
/-- ENUMERATE (R543, R555). -/
def execEnumerate (q : Fin 64) (s : State) : Out := .next (s.cmdEnumerate q)
/-- SET_ROUTE (R543, R557). -/
def execSetRoute (q : Fin 64) (s : State) : Out := .next (s.cmdRoute q)
/-- GET_TOPOLOGY (R543). -/
def execGetTopology (q : Fin 64) (s : State) : Out := .next (s.cmdTopology q)
/-- SET_DOMAINS (R544). -/
def execSetDomains (q : Fin 64) (s : State) : Out := .next (s.cmdDomains q)
/-- GET_POWER (R543). -/
def execGetPower (q : Fin 64) (s : State) : Out := .next (s.cmdPower q)

end Sys2Proof.Machine
end

