-- ==== Sys2Proof/Machine/RowsFabric.lean ====
section
/-! DEFINITION. The meanings of the rows for the String fabric (R546 to R570). A frame arrives on a port with its header and
what its type carries. -/

namespace Sys2Proof.Machine

/-- STRING_LINK_UP on a port, to a neighbour and its port (R549). -/
def execStringLinkUp (p : Fin 4) (nbr : BitVec 8) (nbrPort : Fin 4) (s : State) : Out := .next (s.strLinkUp p nbr.toNat nbrPort)
/-- STRING_LINK_LOST (R566, R567). -/
def execStringLinkLost (p : Fin 4) (s : State) : Out := .next (s.strLinkLost p)
/-- STOP_FRAME (R564). -/
def execStopFrame (p : Fin 4) (h : FrameHead) (s : State) : Out := .next (s.stopFrame p (h.frame .stop)).dmaSettle
/-- SYNC_FRAME (R559 to R561). -/
def execSyncFrame (p : Fin 4) (h : FrameHead) (ns : DWord) (frac : Word) (corr : DWord) (mfn : BitVec 48) (mft : DWord) (mfp hops : Word)
    (s : State) : Out :=
  .next (s.syncFrame p (h.frame (.sync ns frac corr mfn mft mfp hops)) ns frac corr mfn mft mfp hops)
/-- DELAY_FRAME: a request, or a reply with the responder's turnaround (R558). -/
def execDelayFrame (p : Fin 4) (h : FrameHead) (reply : Option Nat) (s : State) : Out := .next (s.delayFrame p (h.frame (.delay reply)) reply)
/-- LINKDOWN_FRAME (R567, R568). -/
def execLinkdownFrame (p : Fin 4) (h : FrameHead) (l : FabLink) (s : State) : Out := .next (s.linkdownFrame p (h.frame (.linkdown l)) l)
/-- CYCLIC_FRAME (R562, R563). -/
def execCyclicFrame (p : Fin 4) (h : FrameHead) (ch : BitVec 16) (mfn : BitVec 48) (data : List Byte) (s : State) : Out :=
  .next (s.cyclicFrame p (h.frame (.cyclic ch.toNat mfn data)) ch.toNat mfn data)
/-- WRITE_FRAME (R569, R570). -/
def execWriteFrame (p : Fin 4) (h : FrameHead) (off : BitVec 20) (bs : List Byte) (s : State) : Out :=
  .next (s.writeFrame p (h.frame (.write off.toNat bs)) off.toNat bs)
/-- READ_FRAME (R569, R570). -/
def execReadFrame (p : Fin 4) (h : FrameHead) (off : BitVec 20) (n : Nat) (s : State) : Out :=
  .next (s.readFrame p (h.frame (.read off.toNat n)) off.toNat n)
/-- RESP_FRAME: whether the request was served, and its bytes (R569). -/
def execRespFrame (p : Fin 4) (h : FrameHead) (ok : Bool) (data : List Byte) (s : State) : Out :=
  .next (s.respFrame p (h.frame (.resp ok data)) ok data)
/-- DISC_FRAME (R555). -/
def execDiscFrame (p : Fin 4) (h : FrameHead) (port : Nat) (s : State) : Out := .next (s.discFrame p (h.frame (.disc port)) port)
/-- DISCR_FRAME (R555, R556). -/
def execDiscrFrame (p : Fin 4) (h : FrameHead) (serial : BitVec 128) (port : Fin 4) (ups : BitVec 4) (carrun strap : Bool) (addr : BitVec 8)
    (s : State) : Out :=
  .next (s.discrFrame p (h.frame (.discr serial port ups carrun strap addr.toNat)) serial port ups carrun strap addr.toNat).enumWake
/-- TOPO_FRAME (R555 to R557). -/
def execTopoFrame (p : Fin 4) (h : FrameHead) (addr hops pport : Nat) (kids : BitVec 4) (links : List FabLink)
    (routes : List (Nat × Nat × Nat × Nat)) (s : State) : Out :=
  .next (s.topoFrame p (h.frame (.topo addr hops pport kids links routes)) addr hops pport kids links routes)
/-- DISC_TIMEOUT (R555). -/
def execDiscTimeout (s : State) : Out := .next s.discTimeout.enumWake
/-- DELAY_EXCHANGE_DUE (R558). -/
def execDelayExchangeDue (p : Fin 4) (s : State) : Out := .next (s.delayDue p)
/-- SYNC_INTERVAL (R559). -/
def execSyncInterval (s : State) : Out := .next s.syncSend
/-- CYCLIC_TX (R562). -/
def execCyclicTx (k : Fin 16) (s : State) : Out := .next (s.cyclicTx k)
/-- TX_LATE (R562). -/
def execTxLate (k : Fin 16) (s : State) : Out := .next (s.txLate k)
/-- STR_STOP_CMD_GO (R564). -/
def execStrStopCmdGo (x : Access) (v : Word) (s : State) : Out := .next (s.wr x pgStr Reg.STR_STOP_CMD v)
/-- STOP_RESEND (R564). -/
def execStopResend (s : State) : Out := .next s.stopResend
/-- TC2_RETRY_TIMEOUT of the open request `i` (R569). -/
def execTc2RetryTimeout (i : Nat) (s : State) : Out := .next (s.tc2Retry i)
/-- STR_EXP_WRITE: of `STR_EXP_LO`, or (`hi`) of `STR_EXP_HI` (R570). -/
def execStrExpWrite (x : Access) (hi : Bool) (v mask : Word) (s : State) : Out :=
  .next (s.wrm x pgStr (if hi then Reg.STR_EXP_HI else Reg.STR_EXP_LO) v mask)

end Sys2Proof.Machine
end

