-- ==== Sys2Proof/Machine/Dispatch.lean ====
section
/-! DEFINITION. One arm per command: a direct call of its meaning. -/

namespace Sys2Proof.Machine

/-- The effect of a command on everything but the queue. -/
def exec (i : Instr) (s : State) : Host.Outcome State Fault Refusal :=
  match i with
  | .registerWrite x p off v mask => Sys2Proof.Machine.execRegisterWrite x p off v mask s
  | .pageLockWrite x p => Sys2Proof.Machine.execPageLockWrite x p s
  | .softReset x p v => Sys2Proof.Machine.execSoftReset x p v s
  | .dtbSoftReset x v => Sys2Proof.Machine.execDtbSoftReset x v s
  | .frmSoftReset x c v => Sys2Proof.Machine.execFrmSoftReset x c v s
  | .pwgPage0SoftReset x c v => Sys2Proof.Machine.execPwgPage0SoftReset x c v s
  | .pwgPage1SoftReset x c v => Sys2Proof.Machine.execPwgPage1SoftReset x c v s
  | .smpSoftReset x c v => Sys2Proof.Machine.execSmpSoftReset x c v s
  | .cmpSoftReset x c v => Sys2Proof.Machine.execCmpSoftReset x c v s
  | .bridgeCrcFail => Sys2Proof.Machine.execBridgeCrcFail s
  | .bridgeReplayDone ok => Sys2Proof.Machine.execBridgeReplayDone ok s
  | .bridgeRetrainDone ok => Sys2Proof.Machine.execBridgeRetrainDone ok s
  | .bridgeHoldExpiry => Sys2Proof.Machine.execBridgeHoldExpiry s
  | .bridgeLaneSleep => Sys2Proof.Machine.execBridgeLaneSleep s
  | .bridgeLaneWake => Sys2Proof.Machine.execBridgeLaneWake s
  | .dtbIncWrite x v mask => Sys2Proof.Machine.execDtbIncWrite x v mask s
  | .dtbCmdLoad x => Sys2Proof.Machine.execDtbCmdLoad x s
  | .dtbCmdStep x => Sys2Proof.Machine.execDtbCmdStep x s
  | .dtbCmdMfload x => Sys2Proof.Machine.execDtbCmdMfload x s
  | .dtbCmdTlclr x => Sys2Proof.Machine.execDtbCmdTlclr x s
  | .dtbCmdPtmreq x => Sys2Proof.Machine.execDtbCmdPtmreq x s
  | .dtbCtlWrite x v mask => Sys2Proof.Machine.execDtbCtlWrite x v mask s
  | .dtbMfpWrite x v mask => Sys2Proof.Machine.execDtbMfpWrite x v mask s
  | .dtbWrap => Sys2Proof.Machine.execDtbWrap s
  | .dtbNsLoRead x => Sys2Proof.Machine.execDtbNsLoRead x s
  | .frmDtbLoRead x c => Sys2Proof.Machine.execFrmDtbLoRead x c s
  | .frmTickDtbLoRead x c => Sys2Proof.Machine.execFrmTickDtbLoRead x c s
  | .dtbMfnLoRead x => Sys2Proof.Machine.execDtbMfnLoRead x s
  | .dtbPtmOfsLoRead x => Sys2Proof.Machine.execDtbPtmOfsLoRead x s
  | .machineFrameBoundary => Sys2Proof.Machine.execMachineFrameBoundary s
  | .timeHoldover => Sys2Proof.Machine.execTimeHoldover s
  | .fabricTimeLost => Sys2Proof.Machine.execFabricTimeLost s
  | .ptmDialogDue => Sys2Proof.Machine.execPtmDialogDue s
  | .ptmResponse host => Sys2Proof.Machine.execPtmResponse host s
  | .frmRunStart x c v => Sys2Proof.Machine.execFrmRunStart x c v s
  | .frmRunStop x c v => Sys2Proof.Machine.execFrmRunStop x c v s
  | .frmLeadWrite x c v mask => Sys2Proof.Machine.execFrmLeadWrite x c v mask s
  | .frmFcntWrite x c v mask => Sys2Proof.Machine.execFrmFcntWrite x c v mask s
  | .carrierFirstValley c => Sys2Proof.Machine.execCarrierFirstValley c s
  | .carrierValley c => Sys2Proof.Machine.execCarrierValley c s
  | .carrierApex c => Sys2Proof.Machine.execCarrierApex c s
  | .leadWindowOpen c => Sys2Proof.Machine.execLeadWindowOpen c s
  | .frameDeadline c => Sys2Proof.Machine.execFrameDeadline c s
  | .pwgChCtlWrite x c k v mask => Sys2Proof.Machine.execPwgChCtlWrite x c k v mask s
  | .pwgPerWrite x c v mask => Sys2Proof.Machine.execPwgPerWrite x c v mask s
  | .pwgCmpWrite x c k isU v mask => Sys2Proof.Machine.execPwgCmpWrite x c k isU v mask s
  | .pwgTokenWrite x c v => Sys2Proof.Machine.execPwgTokenWrite x c v s
  | .dutyWordArrival c idx => Sys2Proof.Machine.execDutyWordArrival c idx s
  | .compareMatch c k isU => Sys2Proof.Machine.execCompareMatch c k isU s
  | .deadTimeExpiry c k => Sys2Proof.Machine.execDeadTimeExpiry c k s
  | .pwgSafeSetWrite x c v => Sys2Proof.Machine.execPwgSafeSetWrite x c v s
  | .pwgSafeRelWrite x c v => Sys2Proof.Machine.execPwgSafeRelWrite x c v s
  | .pwgSafeCauseWrite x c v mask => Sys2Proof.Machine.execPwgSafeCauseWrite x c v mask s
  | .pwgTripSwWrite x c v mask => Sys2Proof.Machine.execPwgTripSwWrite x c v mask s
  | .pwgTripClrWrite x c v => Sys2Proof.Machine.execPwgTripClrWrite x c v s
  | .tripSourceActive c idx => Sys2Proof.Machine.execTripSourceActive c idx s
  | .pwgBlkCtlWrite x c u src v mask => Sys2Proof.Machine.execPwgBlkCtlWrite x c u src v mask s
  | .blankingWindowClose c u => Sys2Proof.Machine.execBlankingWindowClose c u s
  | .stopNFall => Sys2Proof.Machine.execStopNFall s
  | .sampleEntryAct c x level => Sys2Proof.Machine.execSampleEntryAct c x level s
  | .adcConversionEnd c j => Sys2Proof.Machine.execAdcConversionEnd c j s
  | .samplePortArrival c idx => Sys2Proof.Machine.execSamplePortArrival c idx s
  | .smpFifoLoRead x c wide => Sys2Proof.Machine.execSmpFifoLoRead x c wide s
  | .smpCmdSwap x c => Sys2Proof.Machine.execSmpCmdSwap x c s
  | .smpCmdSwapm x c => Sys2Proof.Machine.execSmpCmdSwapm x c s
  | .smpCmdCheck x c => Sys2Proof.Machine.execSmpCmdCheck x c s
  | .smpCmdFclr x c => Sys2Proof.Machine.execSmpCmdFclr x c s
  | .smpCmdDisarm x c => Sys2Proof.Machine.execSmpCmdDisarm x c s
  | .tableCheckDone c => Sys2Proof.Machine.execTableCheckDone c s
  | .sampleTableSwap c => Sys2Proof.Machine.execSampleTableSwap c s
  | .smpCtlWrite x c v mask => Sys2Proof.Machine.execSmpCtlWrite x c v mask s
  | .adcCalCmdCal x c j => Sys2Proof.Machine.execAdcCalCmdCal x c j s
  | .adcCalCmdTest x c j => Sys2Proof.Machine.execAdcCalCmdTest x c j s
  | .adcCalCmdAbort x c j => Sys2Proof.Machine.execAdcCalCmdAbort x c j s
  | .calRunStart c j => Sys2Proof.Machine.execCalRunStart c j s
  | .calRunDone c j => Sys2Proof.Machine.execCalRunDone c j s
  | .selfTestStepDone c j => Sys2Proof.Machine.execSelfTestStepDone c j s
  | .calStarved c j => Sys2Proof.Machine.execCalStarved c j s
  | .substStart c => Sys2Proof.Machine.execSubstStart c s
  | .substEnd c => Sys2Proof.Machine.execSubstEnd c s
  | .backgroundConversion c => Sys2Proof.Machine.execBackgroundConversion c s
  | .sdmResult c n edges => Sys2Proof.Machine.execSdmResult c n edges s
  | .sdmClockLost c n => Sys2Proof.Machine.execSdmClockLost c n s
  | .sdmClockReturn c n => Sys2Proof.Machine.execSdmClockReturn c n s
  | .fastAct c n edges => Sys2Proof.Machine.execFastAct c n edges s
  | .sdmResRead x c n => Sys2Proof.Machine.execSdmResRead x c n s
  | .cmpStateChange c m l hiErr loErr hystErr => Sys2Proof.Machine.execCmpStateChange c m l hiErr loErr hystErr s
  | .cmpCtlWrite x c m v mask => Sys2Proof.Machine.execCmpCtlWrite x c m v mask s
  | .cmpReady c m level hiErr loErr hystErr => Sys2Proof.Machine.execCmpReady c m level hiErr loErr hystErr s
  | .cmpThrWrite x c m v mask => Sys2Proof.Machine.execCmpThrWrite x c m v mask s
  | .dacSettled c m => Sys2Proof.Machine.execDacSettled c m s
  | .cmpRbCmdReq x c d => Sys2Proof.Machine.execCmpRbCmdReq x c d s
  | .rbDone c => Sys2Proof.Machine.execRbDone c s
  | .rbWalkStep c => Sys2Proof.Machine.execRbWalkStep c s
  | .rbStarved c => Sys2Proof.Machine.execRbStarved c s
  | .qdecPinselWrite x c v mask => Sys2Proof.Machine.execQdecPinselWrite x c v mask s
  | .qdecCountStep c n ab held => Sys2Proof.Machine.execQdecCountStep c n ab held s
  | .qdecIndex c l => Sys2Proof.Machine.execQdecIndex c l s
  | .qdecPosWrite x c n v mask => Sys2Proof.Machine.execQdecPosWrite x c n v mask s
  | .captureEdge c u l => Sys2Proof.Machine.execCaptureEdge c u l s
  | .capTsLoRead x c u => Sys2Proof.Machine.execCapTsLoRead x c u s
  | .sepTransferEnd c n first data crc => Sys2Proof.Machine.execSepTransferEnd c n first data crc s
  | .sepRecoveryEnd c n => Sys2Proof.Machine.execSepRecoveryEnd c n s
  | .sepCmdReq x c n => Sys2Proof.Machine.execSepCmdReq x c n s
  | .sepDataLoRead x c n => Sys2Proof.Machine.execSepDataLoRead x c n s
  | .pendingCellFill c id => Sys2Proof.Machine.execPendingCellFill c id s
  | .storeBufferDrain c j lost => Sys2Proof.Machine.execStoreBufferDrain c j lost s
  | .nop c => Sys2Proof.Machine.execNop c s
  | .dup c => Sys2Proof.Machine.execDup c s
  | .drop c => Sys2Proof.Machine.execDrop c s
  | .swap c => Sys2Proof.Machine.execSwap c s
  | .over c => Sys2Proof.Machine.execOver c s
  | .rot c => Sys2Proof.Machine.execRot c s
  | .nip c => Sys2Proof.Machine.execNip c s
  | .pick c n => Sys2Proof.Machine.execPick c n s
  | .roll c n => Sys2Proof.Machine.execRoll c n s
  | .lit8 c idx => Sys2Proof.Machine.execLit8 c idx s
  | .lit16Sx c idx => Sys2Proof.Machine.execLit16Sx c idx s
  | .lit16Zx c idx => Sys2Proof.Machine.execLit16Zx c idx s
  | .lit16H c idx => Sys2Proof.Machine.execLit16H c idx s
  | .lit16Or c idx => Sys2Proof.Machine.execLit16Or c idx s
  | .lit32 c d => Sys2Proof.Machine.execLit32 c d s
  | .add c => Sys2Proof.Machine.execAdd c s
  | .sub c => Sys2Proof.Machine.execSub c s
  | .mul c => Sys2Proof.Machine.execMul c s
  | .mulh c => Sys2Proof.Machine.execMulh c s
  | .mulhu c => Sys2Proof.Machine.execMulhu c s
  | .div c => Sys2Proof.Machine.execDiv c s
  | .divu c => Sys2Proof.Machine.execDivu c s
  | .rem c => Sys2Proof.Machine.execRem c s
  | .remu c => Sys2Proof.Machine.execRemu c s
  | .neg c => Sys2Proof.Machine.execNeg c s
  | .min c => Sys2Proof.Machine.execMin c s
  | .max c => Sys2Proof.Machine.execMax c s
  | .minu c => Sys2Proof.Machine.execMinu c s
  | .maxu c => Sys2Proof.Machine.execMaxu c s
  | .slt c => Sys2Proof.Machine.execSlt c s
  | .sltu c => Sys2Proof.Machine.execSltu c s
  | .and c => Sys2Proof.Machine.execAnd c s
  | .or c => Sys2Proof.Machine.execOr c s
  | .xor c => Sys2Proof.Machine.execXor c s
  | .not c => Sys2Proof.Machine.execNot c s
  | .shl c => Sys2Proof.Machine.execShl c s
  | .shr c => Sys2Proof.Machine.execShr c s
  | .sar c => Sys2Proof.Machine.execSar c s
  | .ror c => Sys2Proof.Machine.execRor c s
  | .clz c => Sys2Proof.Machine.execClz c s
  | .addi c idx => Sys2Proof.Machine.execAddi c idx s
  | .andi c idx => Sys2Proof.Machine.execAndi c idx s
  | .shli c n => Sys2Proof.Machine.execShli c n s
  | .shri c n => Sys2Proof.Machine.execShri c n s
  | .sari c n => Sys2Proof.Machine.execSari c n s
  | .rori c n => Sys2Proof.Machine.execRori c n s
  | .bperm c sel => Sys2Proof.Machine.execBperm c sel s
  | .bfx c ext imm => Sys2Proof.Machine.execBfx c ext imm s
  | .bfi c ext imm => Sys2Proof.Machine.execBfi c ext imm s
  | .qadd c => Sys2Proof.Machine.execQadd c s
  | .qsub c => Sys2Proof.Machine.execQsub c s
  | .qmul c => Sys2Proof.Machine.execQmul c s
  | .qmac c => Sys2Proof.Machine.execQmac c s
  | .mac c => Sys2Proof.Machine.execMac c s
  | .macu c => Sys2Proof.Machine.execMacu c s
  | .accq c => Sys2Proof.Machine.execAccq c s
  | .fadd c => Sys2Proof.Machine.execFadd c s
  | .fsub c => Sys2Proof.Machine.execFsub c s
  | .fmul c => Sys2Proof.Machine.execFmul c s
  | .fma c => Sys2Proof.Machine.execFma c s
  | .fdiv c => Sys2Proof.Machine.execFdiv c s
  | .fsqrt c => Sys2Proof.Machine.execFsqrt c s
  | .fclamp c => Sys2Proof.Machine.execFclamp c s
  | .fneg c => Sys2Proof.Machine.execFneg c s
  | .fabs c => Sys2Proof.Machine.execFabs c s
  | .fmin c => Sys2Proof.Machine.execFmin c s
  | .fmax c => Sys2Proof.Machine.execFmax c s
  | .feq c => Sys2Proof.Machine.execFeq c s
  | .flt c => Sys2Proof.Machine.execFlt c s
  | .fle c => Sys2Proof.Machine.execFle c s
  | .f2i c => Sys2Proof.Machine.execF2i c s
  | .i2f c => Sys2Proof.Machine.execI2f c s
  | .f2q c => Sys2Proof.Machine.execF2q c s
  | .q2f c => Sys2Proof.Machine.execQ2f c s
  | .ldb c => Sys2Proof.Machine.execLdb c s
  | .ldbs c => Sys2Proof.Machine.execLdbs c s
  | .ldh c => Sys2Proof.Machine.execLdh c s
  | .ldhs c => Sys2Proof.Machine.execLdhs c s
  | .ldw c => Sys2Proof.Machine.execLdw c s
  | .stb c => Sys2Proof.Machine.execStb c s
  | .sth c => Sys2Proof.Machine.execSth c s
  | .stw c => Sys2Proof.Machine.execStw c s
  | .ldbPi c => Sys2Proof.Machine.execLdbPi c s
  | .ldbsPi c => Sys2Proof.Machine.execLdbsPi c s
  | .ldhPi c => Sys2Proof.Machine.execLdhPi c s
  | .ldhsPi c => Sys2Proof.Machine.execLdhsPi c s
  | .ldwPi c => Sys2Proof.Machine.execLdwPi c s
  | .stbPi c => Sys2Proof.Machine.execStbPi c s
  | .sthPi c => Sys2Proof.Machine.execSthPi c s
  | .stwPi c => Sys2Proof.Machine.execStwPi c s
  | .stbPd c => Sys2Proof.Machine.execStbPd c s
  | .sthPd c => Sys2Proof.Machine.execSthPd c s
  | .stwPd c => Sys2Proof.Machine.execStwPd c s
  | .ldbX c sc => Sys2Proof.Machine.execLdbX c sc s
  | .ldbsX c sc => Sys2Proof.Machine.execLdbsX c sc s
  | .ldhX c sc => Sys2Proof.Machine.execLdhX c sc s
  | .ldhsX c sc => Sys2Proof.Machine.execLdhsX c sc s
  | .ldwX c sc => Sys2Proof.Machine.execLdwX c sc s
  | .stbX c sc => Sys2Proof.Machine.execStbX c sc s
  | .sthX c sc => Sys2Proof.Machine.execSthX c sc s
  | .stwX c sc => Sys2Proof.Machine.execStwX c sc s
  | .cas c => Sys2Proof.Machine.execCas c s
  | .swapm c => Sys2Proof.Machine.execSwapm c s
  | .bcc c annul cc d slotLen => Sys2Proof.Machine.execBcc c annul cc d slotLen s
  | .call c d slotLen => Sys2Proof.Machine.execCall c d slotLen s
  | .calli c slotLen => Sys2Proof.Machine.execCalli c slotLen s
  | .jmpi c => Sys2Proof.Machine.execJmpi c s
  | .ret c => Sys2Proof.Machine.execRet c s
  | .rett c u => Sys2Proof.Machine.execRett c u s
  | .fence c => Sys2Proof.Machine.execFence c s
  | .wfi c => Sys2Proof.Machine.execWfi c s
  | .wfiWake c => Sys2Proof.Machine.execWfiWake c s
  | .iflush c => Sys2Proof.Machine.execIflush c s
  | .pflush c => Sys2Proof.Machine.execPflush c s
  | .pbar c => Sys2Proof.Machine.execPbar c s
  | .break_ c => Sys2Proof.Machine.execBreak c s
  | .save c => Sys2Proof.Machine.execSave c s
  | .restore c => Sys2Proof.Machine.execRestore c s
  | .csrr c n => Sys2Proof.Machine.execCsrr c n s
  | .csrw c n => Sys2Proof.Machine.execCsrw c n s
  | .pairCtlReqlock c => Sys2Proof.Machine.execPairCtlReqlock c s
  | .pairCtlReqsplit c => Sys2Proof.Machine.execPairCtlReqsplit c s
  | .trap c idx => Sys2Proof.Machine.execTrap c idx s
  | .tlbiVa c => Sys2Proof.Machine.execTlbiVa c s
  | .tlbiVaWalk c => Sys2Proof.Machine.execTlbiVaWalk c s
  | .tlbiAsid c => Sys2Proof.Machine.execTlbiAsid c s
  | .tlbiAsidWalk c => Sys2Proof.Machine.execTlbiAsidWalk c s
  | .tlbiAll c => Sys2Proof.Machine.execTlbiAll c s
  | .tlbiAllWalk c => Sys2Proof.Machine.execTlbiAllWalk c s
  | .waits c => Sys2Proof.Machine.execWaits c s
  | .putd c => Sys2Proof.Machine.execPutd c s
  | .frameend c => Sys2Proof.Machine.execFrameend c s
  | .ckpt c => Sys2Proof.Machine.execCkpt c s
  | .tailgo c => Sys2Proof.Machine.execTailgo c s
  | .interruptEntry c u => Sys2Proof.Machine.execInterruptEntry c u s
  | .ceRunStart x e v => Sys2Proof.Machine.execCeRunStart x e v s
  | .ceRunStop x e v => Sys2Proof.Machine.execCeRunStop x e v s
  | .acRunStart x a v => Sys2Proof.Machine.execAcRunStart x a v s
  | .acRunStop x a v => Sys2Proof.Machine.execAcRunStop x a v s
  | .acPcsampLoRead x a => Sys2Proof.Machine.execAcPcsampLoRead x a s
  | .debugHalt c => Sys2Proof.Machine.execDebugHalt c s
  | .debugResume c => Sys2Proof.Machine.execDebugResume c s
  | .debugStep c => Sys2Proof.Machine.execDebugStep c s
  | .debugAccess c op => Sys2Proof.Machine.execDebugAccess c op s
  | .sourceEdge idx n => Sys2Proof.Machine.execSourceEdge idx n s
  | .sourceLevelChange idx n => Sys2Proof.Machine.execSourceLevelChange idx n s
  | .edgeLatchPass idx n => Sys2Proof.Machine.execEdgeLatchPass idx n s
  | .ctxClaimRead x idx k => Sys2Proof.Machine.execCtxClaimRead x idx k s
  | .ctxCmplWrite x idx k v => Sys2Proof.Machine.execCtxCmplWrite x idx k v s
  | .completionResample idx n => Sys2Proof.Machine.execCompletionResample idx n s
  | .swsetWrite x idx v => Sys2Proof.Machine.execSwsetWrite x idx v s
  | .ctxCtlWrite x idx k v mask => Sys2Proof.Machine.execCtxCtlWrite x idx k v mask s
  | .srcCfgWrite x idx n tgt v mask => Sys2Proof.Machine.execSrcCfgWrite x idx n tgt v mask s
  | .pairCmdLock x k => Sys2Proof.Machine.execPairCmdLock x k s
  | .pairCmdSplit x k => Sys2Proof.Machine.execPairCmdSplit x k s
  | .pairCmdRelease x k => Sys2Proof.Machine.execPairCmdRelease x k s
  | .pairCmdCancel x k => Sys2Proof.Machine.execPairCmdCancel x k s
  | .pairLockBoundary k => Sys2Proof.Machine.execPairLockBoundary k s
  | .lockDone k => Sys2Proof.Machine.execLockDone k s
  | .pairSplitBoundary k => Sys2Proof.Machine.execPairSplitBoundary k s
  | .pairMismatchDetect k kind drop => Sys2Proof.Machine.execPairMismatchDetect k kind drop s
  | .pairHalt k => Sys2Proof.Machine.execPairHalt k s
  | .takeoverComplete sb => Sys2Proof.Machine.execTakeoverComplete sb s
  | .catchupDeadline k => Sys2Proof.Machine.execCatchupDeadline k s
  | .eccWriteback key => Sys2Proof.Machine.execEccWriteback key s
  | .bgTestRegion p u => Sys2Proof.Machine.execBgTestRegion p u s
  | .bgTestDone p u fail => Sys2Proof.Machine.execBgTestDone p u fail s
  | .sramURemapGo x p u r => Sys2Proof.Machine.execSramURemapGo x p u r s
  | .remapDone p u => Sys2Proof.Machine.execRemapDone p u s
  | .sramInitDone p u => Sys2Proof.Machine.execSramInitDone p u s
  | .vaultWipe cause => Sys2Proof.Machine.execVaultWipe cause s
  | .vaultWipeDone => Sys2Proof.Machine.execVaultWipeDone s
  | .mmuContextWrite x a r v mask => Sys2Proof.Machine.execMmuContextWrite x a r v mask s
  | .mmuDomctlClose x a => Sys2Proof.Machine.execMmuDomctlClose x a s
  | .mmuDomctlOpen x a => Sys2Proof.Machine.execMmuDomctlOpen x a s
  | .mmuDommemWrite x a v mask => Sys2Proof.Machine.execMmuDommemWrite x a v mask s
  | .tlbiBroadcastApply a => Sys2Proof.Machine.execTlbiBroadcastApply a s
  | .tlbiBroadcastDone a => Sys2Proof.Machine.execTlbiBroadcastDone a s
  | .dmaStart x k => Sys2Proof.Machine.execDmaStart x k s
  | .dmaAbort x k => Sys2Proof.Machine.execDmaAbort x k s
  | .dmaSwreq x k => Sys2Proof.Machine.execDmaSwreq x k s
  | .dmaRequest k => Sys2Proof.Machine.execDmaRequest k s
  | .dmaDescriptorRead k => Sys2Proof.Machine.execDmaDescriptorRead k s
  | .dmaBurstGrant g => Sys2Proof.Machine.execDmaBurstGrant g s
  | .dmaBurstDone k lost before => Sys2Proof.Machine.execDmaBurstDone k lost before s
  | .dmaConfirmDone k => Sys2Proof.Machine.execDmaConfirmDone k s
  | .flsCmdProg x b words => Sys2Proof.Machine.execFlsCmdProg x b words s
  | .flsCmdErase x b => Sys2Proof.Machine.execFlsCmdErase x b s
  | .flsCmdSuspend x b => Sys2Proof.Machine.execFlsCmdSuspend x b s
  | .flsCmdResume x b => Sys2Proof.Machine.execFlsCmdResume x b s
  | .flashOpEnd b vf => Sys2Proof.Machine.execFlashOpEnd b vf s
  | .flashSuspended b => Sys2Proof.Machine.execFlashSuspended b s
  | .flashFallbackDone => Sys2Proof.Machine.execFlashFallbackDone s
  | .powerDomainRequest x d r => Sys2Proof.Machine.execPowerDomainRequest x d r s
  | .powerTransitionDone => Sys2Proof.Machine.execPowerTransitionDone s
  | .railMonitorEvent r lost => Sys2Proof.Machine.execRailMonitorEvent r lost s
  | .referenceClockFail => Sys2Proof.Machine.execReferenceClockFail s
  | .pllLockLost => Sys2Proof.Machine.execPllLockLost s
  | .tempWarn tcd tsd => Sys2Proof.Machine.execTempWarn tcd tsd s
  | .overTemperature => Sys2Proof.Machine.execOverTemperature s
  | .powerOnReset lost => Sys2Proof.Machine.execPowerOnReset lost s
  | .resetNPin => Sys2Proof.Machine.execResetNPin s
  | .rstCmdWrite x v => Sys2Proof.Machine.execRstCmdWrite x v s
  | .cxlHotReset => Sys2Proof.Machine.execCxlHotReset s
  | .resetRelease scope num ac => Sys2Proof.Machine.execResetRelease scope num ac s
  | .wdKick x w v => Sys2Proof.Machine.execWdKick x w v s
  | .watchdogExpiry w => Sys2Proof.Machine.execWatchdogExpiry w s
  | .bootStageDone => Sys2Proof.Machine.execBootStageDone s
  | .egSample n idx v => Sys2Proof.Machine.execEgSample n idx v s
  | .egCmdOn x n => Sys2Proof.Machine.execEgCmdOn x n s
  | .egCmdOff x n => Sys2Proof.Machine.execEgCmdOff x n s
  | .egCmdClr x n => Sys2Proof.Machine.execEgCmdClr x n s
  | .egCmdCheck x n => Sys2Proof.Machine.execEgCmdCheck x n s
  | .egCheckDone n live dv tns => Sys2Proof.Machine.execEgCheckDone n live dv tns s
  | .egELoRead x n => Sys2Proof.Machine.execEgELoRead x n s
  | .fioSelWrite x c v mask => Sys2Proof.Machine.execFioSelWrite x c v mask s
  | .secSignCmdGo x => Sys2Proof.Machine.execSecSignCmdGo x s
  | .signDone => Sys2Proof.Machine.execSignDone s
  | .secMeasExtGo x slot => Sys2Proof.Machine.execSecMeasExtGo x slot s
  | .measExtDone => Sys2Proof.Machine.execMeasExtDone s
  | .secMeasLockL02 x => Sys2Proof.Machine.execSecMeasLockL02 x s
  | .tamperInput k => Sys2Proof.Machine.execTamperInput k s
  | .lcFusesBlown => Sys2Proof.Machine.execLcFusesBlown s
  | .cxlLinkUp speed width => Sys2Proof.Machine.execCxlLinkUp speed width s
  | .cxlLinkDown => Sys2Proof.Machine.execCxlLinkDown s
  | .linkDownTimeout => Sys2Proof.Machine.execLinkDownTimeout s
  | .hostBar0Write off wide v full => Sys2Proof.Machine.execHostBar0Write off wide v full s
  | .hostBar0Read off wide => Sys2Proof.Machine.execHostBar0Read off wide s
  | .hdmCommit d commit base size skip ways => Sys2Proof.Machine.execHdmCommit d commit base size skip ways s
  | .cxlMemRead h n => Sys2Proof.Machine.execCxlMemRead h n s
  | .cxlMemWrite h bs => Sys2Proof.Machine.execCxlMemWrite h bs s
  | .hostSnoop h bs => Sys2Proof.Machine.execHostSnoop h bs s
  | .viralIn => Sys2Proof.Machine.execViralIn s
  | .cxlViralCmdRaise x => Sys2Proof.Machine.execCxlViralCmdRaise x s
  | .cxlMsixSend x v => Sys2Proof.Machine.execCxlMsixSend x v s
  | .msixUnmask v => Sys2Proof.Machine.execMsixUnmask v s
  | .mboxGetEventRecords log => Sys2Proof.Machine.execMboxGetEventRecords log s
  | .mboxClearEventRecords log all handles => Sys2Proof.Machine.execMboxClearEventRecords log all handles s
  | .mboxGetFwInfo => Sys2Proof.Machine.execMboxGetFwInfo s
  | .mboxTransferFw slot ofs first bs bad => Sys2Proof.Machine.execMboxTransferFw slot ofs first bs bad s
  | .mboxActivateFw slot online bad => Sys2Proof.Machine.execMboxActivateFw slot online bad s
  | .mboxGetSupportedLogs => Sys2Proof.Machine.execMboxGetSupportedLogs s
  | .mboxGetLog => Sys2Proof.Machine.execMboxGetLog s
  | .urgStopAll => Sys2Proof.Machine.execUrgStopAll s
  | .urgRelease => Sys2Proof.Machine.execUrgRelease s
  | .urgentDone => Sys2Proof.Machine.execUrgentDone s
  | .qcCtlWrite x q v mask => Sys2Proof.Machine.execQcCtlWrite x q v mask s
  | .dbSqtWrite x q v => Sys2Proof.Machine.execDbSqtWrite x q v s
  | .dbCqhWrite x q v => Sys2Proof.Machine.execDbCqhWrite x q v s
  | .descriptorFetch => Sys2Proof.Machine.execDescriptorFetch s
  | .identify q => Sys2Proof.Machine.execIdentify q s
  | .getStatus q => Sys2Proof.Machine.execGetStatus q s
  | .resetDomain q => Sys2Proof.Machine.execResetDomain q s
  | .getTemp q => Sys2Proof.Machine.execGetTemp q s
  | .axisEnable q => Sys2Proof.Machine.execAxisEnable q s
  | .axisDisable q => Sys2Proof.Machine.execAxisDisable q s
  | .safeState q => Sys2Proof.Machine.execSafeState q s
  | .loadRecipe q => Sys2Proof.Machine.execLoadRecipe q s
  | .verifyRecipe q => Sys2Proof.Machine.execVerifyRecipe q s
  | .activateRecipe q => Sys2Proof.Machine.execActivateRecipe q s
  | .listRecipes q => Sys2Proof.Machine.execListRecipes q s
  | .activationTakesEffect c => Sys2Proof.Machine.execActivationTakesEffect c s
  | .activationFinish => Sys2Proof.Machine.execActivationFinish s
  | .traceArm q => Sys2Proof.Machine.execTraceArm q s
  | .traceTrigger q => Sys2Proof.Machine.execTraceTrigger q s
  | .traceStop q => Sys2Proof.Machine.execTraceStop q s
  | .traceReadIndex q => Sys2Proof.Machine.execTraceReadIndex q s
  | .traceEventTrigger => Sys2Proof.Machine.execTraceEventTrigger s
  | .flashWrite q bad => Sys2Proof.Machine.execFlashWrite q bad s
  | .flashErase q bad => Sys2Proof.Machine.execFlashErase q bad s
  | .flashVerify q => Sys2Proof.Machine.execFlashVerify q s
  | .updateImageWrite q bad => Sys2Proof.Machine.execUpdateImageWrite q bad s
  | .updateImageCommit q => Sys2Proof.Machine.execUpdateImageCommit q s
  | .getCertChain q => Sys2Proof.Machine.execGetCertChain q s
  | .attest q => Sys2Proof.Machine.execAttest q s
  | .setLifecycle q => Sys2Proof.Machine.execSetLifecycle q s
  | .enumerate q => Sys2Proof.Machine.execEnumerate q s
  | .setRoute q => Sys2Proof.Machine.execSetRoute q s
  | .getTopology q => Sys2Proof.Machine.execGetTopology q s
  | .setDomains q => Sys2Proof.Machine.execSetDomains q s
  | .getPower q => Sys2Proof.Machine.execGetPower q s
  | .stringLinkUp p nbr nbrPort => Sys2Proof.Machine.execStringLinkUp p nbr nbrPort s
  | .stringLinkLost p => Sys2Proof.Machine.execStringLinkLost p s
  | .stopFrame p h => Sys2Proof.Machine.execStopFrame p h s
  | .syncFrame p h ns frac corr mfn mft mfp hops => Sys2Proof.Machine.execSyncFrame p h ns frac corr mfn mft mfp hops s
  | .delayFrame p h reply => Sys2Proof.Machine.execDelayFrame p h reply s
  | .linkdownFrame p h l => Sys2Proof.Machine.execLinkdownFrame p h l s
  | .cyclicFrame p h ch mfn data => Sys2Proof.Machine.execCyclicFrame p h ch mfn data s
  | .writeFrame p h off bs => Sys2Proof.Machine.execWriteFrame p h off bs s
  | .readFrame p h off n => Sys2Proof.Machine.execReadFrame p h off n s
  | .respFrame p h ok data => Sys2Proof.Machine.execRespFrame p h ok data s
  | .discFrame p h port => Sys2Proof.Machine.execDiscFrame p h port s
  | .discrFrame p h serial port ups carrun strap addr => Sys2Proof.Machine.execDiscrFrame p h serial port ups carrun strap addr s
  | .topoFrame p h addr hops pport kids links routes => Sys2Proof.Machine.execTopoFrame p h addr hops pport kids links routes s
  | .discTimeout => Sys2Proof.Machine.execDiscTimeout s
  | .delayExchangeDue p => Sys2Proof.Machine.execDelayExchangeDue p s
  | .syncInterval => Sys2Proof.Machine.execSyncInterval s
  | .cyclicTx k => Sys2Proof.Machine.execCyclicTx k s
  | .txLate k => Sys2Proof.Machine.execTxLate k s
  | .strStopCmdGo x v => Sys2Proof.Machine.execStrStopCmdGo x v s
  | .stopResend => Sys2Proof.Machine.execStopResend s
  | .tc2RetryTimeout idx => Sys2Proof.Machine.execTc2RetryTimeout idx s
  | .strExpWrite x hi v mask => Sys2Proof.Machine.execStrExpWrite x hi v mask s
  | .stopNRise => Sys2Proof.Machine.execStopNRise s
  | .tripPinInactive c idx => Sys2Proof.Machine.execTripPinInactive c idx s
  | .fastWindowInactive c n edges => Sys2Proof.Machine.execFastWindowInactive c n edges s
  | .tamperInputInactive k => Sys2Proof.Machine.execTamperInputInactive k s
  | .reservedOpcode c bytes => Sys2Proof.Machine.execReservedOpcode c bytes s
  | .memoryBitError a bit many inL2 dirty => Sys2Proof.Machine.execMemoryBitError a bit many inL2 dirty s
  | .flashBitError o n => Sys2Proof.Machine.execFlashBitError o n s
  | .ptmEnableWrite b => Sys2Proof.Machine.execPtmEnableWrite b s
  | .cacheEnableWrite b => Sys2Proof.Machine.execCacheEnableWrite b s

end Sys2Proof.Machine
end

