-- ==== Sys2Proof/Machine/Step.lean ====
section
/-! DEFINITION. One step: the command in front of the queue, or one edge of the time-base clock. -/

namespace Sys2Proof.Machine

/-- The command in front of the queue is carried out; with an empty queue the part goes on by one edge of the DTB clock
(R34). DESIGN CHOICE (log 1). -/
def step (s : State) : Host.Outcome State Fault Refusal :=
  match s.pending with
  | [] => .next (s.edges 1)
  | c :: r => exec c { s with pending := r }

/-- The command that a word spells goes in front of the queue; no row of the table has bits, so no word spells one. -/
def State.withFetchWord (s : State) (nbits w : Nat) : State :=
  match decodeTableWord nbits w with
  | some c => { s with pending := c :: s.pending }
  | none => s

end Sys2Proof.Machine
end

