-- ==== Sys2Proof/Safety.lean ====
section
/-! DEFINITION. What the claims speak of: accesses that reach their page, cores that issue, outputs that are off, and the
canonical form of the stores. -/

namespace Sys2Proof.Machine

/-- Memory, registers and snapshots are in canonical form. -/
def State.canonical (s : State) : Bool :=
  sparseWf memDflt s.mem && sparseWf regDflt s.regs && sparseWf (fun _ => (0 : Word)) s.snaps

/-- An access reaches its page (R7, R16, R26, R448, R451), in the state `s1` that the crossing of the bridge leaves, no
DMA channel is about to end, and the stores are in canonical form. -/
def State.Reaches (s : State) (x : Access) (p : PageId) (s1 : State) : Prop :=
  s.pageAccess x.by_ p = some s1 ∧ s.pageWaits x.by_ p = false ∧ s1.dma.toList.any (fun d => d.abort.isSome) = false ∧ s1.canonical = true

/-- The page is not locked (R13). -/
def State.Open (s : State) (p : PageId) : Prop := s.rbit p Reg.PAGE_LOCK 0 = false

/-- Every output of a cluster is inactive (R71). -/
def State.OutputsOff (s : State) (c : Fin 8) : Prop := ∀ k : Fin 18, (s.ch c k).outH = false ∧ (s.ch c k).outL = false

/-- The core as an instruction finds it: what an entry or the instruction before it left for the boundary is over (R257, R299). -/
def State.ready (s : State) (c : CoreId) : State := s.modCore c Core.begun

/-- A core issues an instruction of `len` bytes: it runs, with nothing that comes before it, outside a delay slot, not as a locked
pair, in no deterministic mode, after its first instruction, not single-stepped, with at most 16 cells cached, and its fetch
succeeds, which leaves `s1` (R195, R207, R218, R226, R264, R298). -/
def State.Issues (s : State) (c : CoreId) (len : Nat) (s1 : State) : Prop :=
  s.canIssue c = true ∧ s.before c = none ∧ (s.core c).det c = false ∧ (s.core c).fresh = false ∧ (s.core c).slot = none
    ∧ (s.core c).step1 = false ∧ s.locked c = false ∧ (s.core c).cur.cells.length ≤ 16
    ∧ (s.ready c).coreFetch c (s.core c).fetchHi (s.core c).pc len = .ok s1 ()
    ∧ s1.core c = { (s.ready c).core c with tlb := (s1.core c).tlb, walk := (s1.core c).walk, icache := (s1.core c).icache }
    ∧ s1.locked c = false

/-- Its top `n` operand cells are cached and hold values (R195, R235). -/
def Core.Operands (k : Core) (l : List Word) : Prop := k.cur.cells.take l.length = l.map (fun v => ⟨v, none⟩)

/-- What the instruction at the program counter leaves for a pair with the next one (R257): not where it is the second of a pair.
`own` says that it loaded from the own LSRAM. -/
def State.leads (s : State) (c : CoreId) (own : Bool) : Option (Word × Bool) := if s.pairHere c then none else some ((s.core c).pc, own)

/-- The instruction of `len` bytes that the core issued in `s` retires from `s1`: it has done `g`, the program counter moves past it,
its address is recorded (R211, R229, R233, R257). -/
def State.retiresBy (s s1 : State) (c : CoreId) (len : Nat) (own : Bool) (g : Core → Core) : State :=
  s1.modCore c (fun k => { g k with lastPc := coreVa c k.fetchHi k.pc, pc := k.pc + BitVec.ofNat 32 len, first := s.leads c own })

/-- It retires, and what it has done is a change `f` of the bank in use. -/
def State.retires (s s1 : State) (c : CoreId) (len : Nat) (f : Bank → Bank) : State := s.retiresBy s1 c len false (fun k => k.modCur f)

/-- An instruction that traps as it issues leaves its core as it was, and the trap is taken (R233, R286). -/
def State.refuses (s s1 : State) (c : CoreId) (t : Trap) : State := ((s1.revert c ((s.ready c).core c)).takeTrap c t).mirror c

/-- One of the results of an instruction: it replaces the top `n` cells, and its flags are added (R205, R229). -/
def Bank.results (b : Bank) (n : Nat) (r fl : Word) : Bank := { b with cells := ⟨r, none⟩ :: b.cells.drop n, fcsr := b.fcsr ||| fl }

/-- The instruction of `len` bytes retires with a pending result: `n` operands are gone, a cell waits for the value `v` that is
on its way, the cells `above` lie over it (R252). -/
def State.retiresPending (s s1 : State) (c : CoreId) (len n : Nat) (v fl : Word) (above : List Cell) (own : Bool) : State :=
  s.retiresBy s1 c len own (fun k =>
    { k.modCur (fun b => { b with cells := above ++ ⟨0, some k.nextId⟩ :: b.cells.drop n, fcsr := b.fcsr ||| fl }) with
      pend := k.pend ++ [⟨k.nextId, some v, false⟩], nextId := k.nextId + 1 })

/-- Only the buffer and the translation caches of a core may differ, which is not part of a locked pair. -/
def State.SameCore (s s2 : State) (c : CoreId) : Prop :=
  s2.core c = { s.core c with sbuf := (s2.core c).sbuf, tlb := (s2.core c).tlb, walk := (s2.core c).walk } ∧ s2.locked c = false

/-- A load of `n` bytes at an address is granted and answered with `v`, which leaves `s2` (R206, R260, R263). -/
def State.Loads (s : State) (c : CoreId) (a : Word) (n : Nat) (s2 : State) (v : Word) : Prop :=
  s.coreLoad c (s.core c).lvl .load (s.core c).cur.vhi a n = .ok s2 v ∧ s.SameCore s2 c

/-- A store of `n` bytes is granted at its physical addresses `l`, which leaves `s2`, and the buffer has room for it (R259, R263). -/
def State.Stores (s : State) (c : CoreId) (a : Word) (n : Nat) (s2 : State) (l : List (Nat × Nat × Nat)) : Prop :=
  s.checkParts c (s.core c).lvl .store (partsOf c (s.core c).cur.vhi a n) = .ok s2 l ∧ s.SameCore s2 c
    ∧ (s2.core c).sbuf.length + l.length ≤ sbSize c

/-- The store buffer takes a store of `bs` at its physical addresses (R259). -/
def State.buffers (s2 : State) (c : CoreId) (l : List (Nat × Nat × Nat)) (bs : List Byte) : State :=
  s2.modCore c (fun k => { k with sbuf := k.sbuf ++ sbParts ((s2.core c).lvl == 3) bs l })

/-- An engine at M whose own memory answers: powered, initialised, without a bit error or an injected one, with nothing
buffered before it (R220, R259, R355 to R361, R369). -/
def State.OwnMemory (s : State) (e : Fin 64) : Prop :=
  (s.core (.ce e)).lvl = 3 ∧ s.locked (.ce e) = false ∧ (s.core (.ce e)).det (.ce e) = false ∧ (s.core (.ce e)).sbuf = []
    ∧ s.domOn e = true ∧ s.bootFailed = false ∧ s.ecc = [] ∧ s.l2ecc = [] ∧ s.dma.toList.any (fun d => d.abort.isSome) = false
    ∧ s.rbit (pgSramC (clusterOf e)) (Reg.SRAM_U_STAT (localOf e).val) 1 = false
    ∧ s.fld (pgSramC (clusterOf e)) (Reg.SRAM_U_INJ (localOf e).val) 1 0 = 0

/-- The core issues as in `Issues`, but in the slot of the branch `d` (R211). -/
def State.IssuesInSlot (s : State) (c : CoreId) (len : Nat) (s1 : State) (d : Slot) : Prop :=
  s.canIssue c = true ∧ s.before c = none ∧ (s.core c).det c = false ∧ (s.core c).fresh = false ∧ (s.core c).slot = some d
    ∧ (s.core c).step1 = false ∧ s.locked c = false ∧ (s.ready c).coreFetch c (s.core c).fetchHi (s.core c).pc len = .ok s1 ()
    ∧ s1.core c = { (s.ready c).core c with tlb := (s1.core c).tlb, walk := (s1.core c).walk, icache := (s1.core c).icache }
    ∧ s1.locked c = false

/-- A branch of `len` bytes retires from `s1` into its slot: what a wrong path left behind (`wrong`) stays, `g` trains the predictor,
`target` is where it goes after the slot, `saved` the bank as it was before (R211, R212, R270, R386). -/
def State.branches (s1 : State) (c : CoreId) (len : Nat) (target : Option Word) (saved : Bank) (wrong : Bool) (g : Core → Core) : State :=
  (s1.stray c wrong).modCore c (fun k =>
    { g k with slot := some ⟨k.pc, target, saved⟩, lastPc := coreVa c k.fetchHi k.pc, pc := k.pc + BitVec.ofNat 32 len, first := none })

/-- A register write has been answered: it carries no data. -/
def State.wrote (s : State) : State := { s with resp := .none }

/-- A page takes writes of its common header: it has one with a `PAGE_CTL`, it is powered, and the `SEC` page hears pair 0 at M
alone, and the page of a locked pair's checker hears nothing (R11, R229, R327, R467, R475). -/
def State.TakesHeader (s : State) (x : Access) (p : PageId) : Prop :=
  pageHasHeader p.kind = true ∧ noPageCtl p = false ∧ s.pagePowered p = true ∧ (p.kind = .sec → pair0M x.by_ x.m = true)
    ∧ (p.kind = .ac → s.locked (.ac (clu p.inst)) = false ∨ isChecker (.ac (clu p.inst)) = false)

/-- `PAGE_CTL` takes the bits of a write to an unlocked page (R11, R589). -/
def State.ctlSet (s : State) (p : PageId) (v mask : Word) : State :=
  s.setReg p Reg.PAGE_CTL ((s.reg p Reg.PAGE_CTL &&& ~~~(mask &&& 5)) ||| (v &&& mask &&& 5))

/-- A write below M would clear the `EN` of an interrupt controller, which it may not (R280): the model's choice (log 61). -/
def State.holdsEn (s : State) (x : Access) (p : PageId) (v mask : Word) : Bool :=
  (p.kind == .liu || p.kind == .ird) && !x.m && s.rbit p Reg.PAGE_CTL 0 && bitOf mask 0 && !bitOf v 0

/-- Memory, cores, pairs, channels, time and the queue are as they were. -/
def State.Apart (s t : State) : Prop :=
  t.mem = s.mem ∧ t.cores = s.cores ∧ t.pairs = s.pairs ∧ t.dma = s.dma ∧ t.time = s.time ∧ t.pending = s.pending

/-- A ready comparator has followed its input, from `s` into `t` (R150, R151, R153): each state is active beyond its threshold, inactive
past the hysteresis, else as it was; the output is the live window; a midpoint decision ends where the input leaves its band. -/
def State.Follows (s t : State) (c : Fin 8) (m : Fin 12) : Prop :=
  let x := t.cmpView c m
  let u := s.cmpU c m
  (t.cmpU c m).sth = (if x.hi < x.v then true else if x.v < x.hi - x.hyst then false else u.sth)
    ∧ (t.cmpU c m).stl = (if x.v < x.lo then true else if x.lo + x.hyst < x.v then false else u.stl)
    ∧ t.rbit (pgCmp c) Reg.CMP_OUT m = t.liveOut c m
    ∧ t.rbit (pgCmp c) Reg.CMP_STARTMID m = (s.rbit (pgCmp c) Reg.CMP_STARTMID m && decide (x.hi - x.hyst ≤ x.v ∧ x.v ≤ x.hi))
    ∧ t.rbit (pgCmp c) Reg.CMP_STARTMID (16 + m) = (s.rbit (pgCmp c) Reg.CMP_STARTMID (16 + m) && decide (x.lo ≤ x.v ∧ x.v ≤ x.lo + x.hyst))

/-- No command of any queue is in hand (R511). -/
def State.Unqueued (s : State) : Prop := ∀ q : Fin 64, s.cmd.queues[q].cmds = []

/-- A reset of scope `r` has just begun, its cause recorded (R452, R453). -/
def State.UnderReset (t : State) (r : ResetRun) (bits : Nat) : Prop :=
  t.power.resets.head? = some r ∧ t.reg pgRst Reg.RST_CAUSE &&& w32 bits = w32 bits ∧ t.fld pgRst Reg.RST_CAUSE 10 8 = r.scope

/-- Every core stands still (R451). -/
def State.Stopped (t : State) : Prop := ∀ i : Fin 72, t.cores[i].running = false

/-- No DMA channel writes a status record (R412). -/
def State.NoRecords (s : State) : Prop := ∀ k : Fin 96, s.rbit (dmaPage k) (dmaReg Reg.DMA_CH_CFG k) 8 = false

/-- No DMA channel is about to end. -/
def State.NoAborts (s : State) : Prop := s.dma.toList.any (fun d => d.abort.isSome) = false

/-- What a stop, `urgent` or of the fabric, does (R98, R414, R507, R509): every channel of every powered cluster is in its safe vector with cause `STOP`, every DMA
channel between bursts has ended as stopped; while the bridge is down the system channels alone end, and `PARTIAL` is set; while it
retrains they end, and the rest waits (R19). -/
def State.StopActs (s t : State) (urgent : Bool) : Prop :=
  (s.bridgeIsDown = false → s.bridgeTrains = false → ∀ c : Fin 8, s.domOn (66 + 5 * c.val) = true →
    t.rbit (pgPwg0 c) Reg.PWG_SAFE_CAUSE 0 = true ∧ ∀ k : Fin 18, (t.ch c k).safe = true)
  ∧ (s.bridgeIsDown = true → t.clusters = s.clusters ∧ (urgent = true → t.rbit pgDvsec Reg.URG_STAT 2 = true))
  ∧ (s.bridgeTrains = true → t.clusters = s.clusters ∧ .stop urgent ∈ t.bridge.waiting)
  ∧ (∀ k : Fin 96, s.bridgeIsDown = false ∧ s.bridgeTrains = false ∨ k.val < 32 → s.dma[k].abort = none → s.dma[k].phase = .run ∨ s.dma[k].phase = .fetch →
      t.dma[k].phase = .idle ∧ t.fld (dmaPage k) (dmaReg Reg.DMA_CH_STAT k) 3 2 = 2 ∧ t.rbit (dmaPage k) (dmaReg Reg.DMA_CH_STAT k) 8 = true)
  ∧ t.mem = s.mem ∧ t.cores = s.cores ∧ t.pairs = s.pairs

/-- The running command of an opcode on a queue, while the firmware serves (R511, R518). -/
def State.Runs (s : State) (q : Fin 64) (opc : Nat) (c : Cmd) : Prop :=
  s.fwUp = true ∧ (s.queue q).cmds.find? (fun d => d.started && d.opc == opc) = some c

/-- No command of an opcode runs on a queue. -/
def State.RunsNone (s : State) (q : Fin 64) (opc : Nat) : Prop :=
  s.fwUp = false ∨ (s.queue q).cmds.find? (fun d => d.started && d.opc == opc) = none

end Sys2Proof.Machine
end

