-- ==== Sys2Proof/Certificates/Slice0/Obligations.lean ====
section
/-! DEFINITION. The statements: what the rules of the specification say of commands and of the machine. -/

open Sys2Proof Sys2Proof.Machine

/-! ## Instructions (R193 to R248) -/

/-- R202, R236, R239: an integer, logic or shift instruction of two operands pops T0 = `b` and T1 = `a` and pushes its
result; every other cell, `FCSR`, the other registers and memory stay as the fetch left them.
Each of these is said to complete, with a next state that has its effect: `add`, `sub`, `mul`, `mulh`, `mulhu`, `div`, `divu`, `rem`, `remu`, `min`,
`max`, `minu`, `maxu`, `slt`, `sltu`, `and`, `or`, `xor`, `shl`, `shr`, `sar`, `ror`. -/
def Obligations.BinaryIntegerInstructions : Prop :=
  ∀ (s s1 : State) (c : CoreId) (a b : Word), s.Issues c 1 s1 → (s.core c).Operands [b, a] →
    ∀ p ∈ ([(.add c, a + b), (.sub c, a - b), (.mul c, a * b),
        (.mulh c, ((a.signExtend 64 * b.signExtend 64) >>> 32).setWidth 32),
        (.mulhu c, ((a.setWidth 64 * b.setWidth 64) >>> 32).setWidth 32),
        (.div c, if b = 0 then -1 else a.sdiv b), (.divu c, if b = 0 then -1 else a / b),
        (.rem c, if b = 0 then a else a.srem b), (.remu c, if b = 0 then a else a % b),
        (.min c, if a.slt b then a else b), (.max c, if a.slt b then b else a),
        (.minu c, if a < b then a else b), (.maxu c, if a < b then b else a),
        (.slt c, if a.slt b then 1 else 0), (.sltu c, if a < b then 1 else 0),
        (.and c, a &&& b), (.or c, a ||| b), (.xor c, a ^^^ b),
        (.shl c, a <<< (b &&& 31)), (.shr c, a >>> (b &&& 31)), (.sar c, a.sshiftRight' (b &&& 31)),
        (.ror c, a.rotateRight (b &&& 31).toNat)] : List (Instr × Word)),
      exec p.1 s = .next (s.retires s1 c 1 (fun k => { k with cells := ⟨p.2, none⟩ :: k.cells.drop 2 }))

/-- R236, R239: an instruction of one operand T0 = `a` replaces it by its result; BFI, of two, replaces both.
Each of these is said to complete, with a next state that has its effect: `lit16Or`, `neg`, `not`, `clz`, `addi`, `andi`, `shli`, `shri`, `sari`,
`rori`, `bperm`, `bfx`, `bfi`. -/
def Obligations.UnaryIntegerInstructions : Prop :=
  ∀ (s : State) (c : CoreId) (a b : Word) (i n : BitVec 8) (h ext : BitVec 16) (x : BitVec 8), n.toNat < 32 →
    (∀ p ∈ ([(1, .neg c, 0 - a), (1, .not c, ~~~ a), (1, .clz c, BitVec.ofNat 32 ((List.range 32).takeWhile (fun k => !a.getLsbD (31 - k))).length),
          (2, .addi c i, a + i.signExtend 32), (2, .andi c i, a &&& i.setWidth 32), (4, .lit16Or c h, a ||| h.setWidth 32),
          (2, .shli c n, a <<< n.toNat), (2, .shri c n, a >>> n.toNat), (2, .sari c n, a.sshiftRight n.toNat),
          (2, .rori c n, a.rotateRight n.toNat)] : List (Nat × Instr × Word)),
        ∀ s1, s.Issues c p.1 s1 → (s.core c).Operands [a] →
          exec p.2.1 s = .next (s.retires s1 c p.1 (fun k => { k with cells := ⟨p.2.2, none⟩ :: k.cells.drop 1 })))
    ∧ (∀ s1, s.Issues c 2 s1 → (s.core c).Operands [a] →
        exec (.bperm c i) s = .next (s.retires s1 c 2 (fun k =>
          { k with cells := ⟨bperm i a, none⟩ :: k.cells.drop 1 })) ∧
        ∀ m < 4, ∀ j < 8, (bperm i a).getLsbD (8 * m + j) = a.getLsbD (8 * ((i >>> (2 * m)) &&& 3).toNat + j))
    ∧ (∀ s1, s.Issues c 4 s1 → badField x ext 0x9F = false → (s.core c).Operands [a] →
        exec (.bfx c x ext) s = .next (s.retires s1 c 4 (fun k =>
          { k with cells := ⟨bfx (x.toNat % 32) (ext.toNat % 64) (x.getLsbD 7) a, none⟩ :: k.cells.drop 1 })) ∧
        ∀ j < 32, (bfx (x.toNat % 32) (ext.toNat % 64) (x.getLsbD 7) a).getLsbD j =
          if j < ext.toNat % 64 then a.getLsbD (x.toNat % 32 + j)
          else x.getLsbD 7 && a.getLsbD (x.toNat % 32 + ext.toNat % 64 - 1))
    ∧ (∀ s1, s.Issues c 4 s1 → badField x ext 0x1F = false → (s.core c).Operands [b, a] →
        exec (.bfi c x ext) s = .next (s.retires s1 c 4 (fun k =>
          { k with cells := ⟨bfi (x.toNat % 32) (ext.toNat % 64) a b, none⟩ :: k.cells.drop 2 })) ∧
        ∀ j < 32, (bfi (x.toNat % 32) (ext.toNat % 64) a b).getLsbD j =
          if x.toNat % 32 ≤ j ∧ j < x.toNat % 32 + ext.toNat % 64 then b.getLsbD (j - x.toNat % 32) else a.getLsbD j)

/-- R230, R235 to R237: the shuffles move or copy cells, a moved cell with whether it is pending; literals are pushed.
Each of these is said to complete, with a next state that has its effect: `nop`, `dup`, `drop`, `swap`, `over`, `rot`, `nip`, `pick`, `roll`, `lit8`,
`lit16Sx`, `lit16Zx`, `lit16H`. -/
def Obligations.StackInstructions : Prop :=
  ∀ (s : State) (c : CoreId) (l : List Cell) (x y z : Cell) (v w : Word) (i n : BitVec 8) (h : BitVec 16),
    (∀ s1, s.Issues c 1 s1 → exec (.nop c) s = .next (s.retires s1 c 1 id))
    ∧ (∀ s1, s.Issues c 1 s1 → (s.core c).cur.cells = x :: l →
        exec (.drop c) s = .next (s.retires s1 c 1 (fun k => { k with cells := l })))
    ∧ (∀ s1, s.Issues c 1 s1 → (s.core c).cur.cells = x :: y :: l →
        exec (.swap c) s = .next (s.retires s1 c 1 (fun k => { k with cells := y :: x :: l })) ∧
        exec (.nip c) s = .next (s.retires s1 c 1 (fun k => { k with cells := x :: l })))
    ∧ (∀ s1, s.Issues c 1 s1 → (s.core c).cur.cells = x :: y :: z :: l →
        exec (.rot c) s = .next (s.retires s1 c 1 (fun k => { k with cells := z :: x :: y :: l })))
    ∧ (∀ s1, s.Issues c 1 s1 → (s.core c).cur.cells = ⟨v, none⟩ :: l → l.length < 15 →
        exec (.dup c) s = .next (s.retires s1 c 1 (fun k => { k with cells := ⟨v, none⟩ :: ⟨v, none⟩ :: l })))
    ∧ (∀ s1, s.Issues c 1 s1 → (s.core c).cur.cells = x :: ⟨w, none⟩ :: l → l.length < 14 →
        exec (.over c) s = .next (s.retires s1 c 1 (fun k => { k with cells := ⟨w, none⟩ :: x :: ⟨w, none⟩ :: l })))
    ∧ (∀ s1, s.Issues c 2 s1 → n.toNat < 16 → (s.core c).cur.cells.length < 16 → (s.core c).cur.cells[n.toNat]? = some ⟨v, none⟩ →
        exec (.pick c n) s = .next (s.retires s1 c 2 (fun k => { k with cells := ⟨v, none⟩ :: k.cells })))
    ∧ (∀ s1, s.Issues c 2 s1 → n.toNat < 16 → (s.core c).cur.cells[n.toNat]? = some x →
        exec (.roll c n) s = .next (s.retires s1 c 2 (fun k => { k with cells := x :: k.cells.eraseIdx n.toNat })))
    ∧ ((s.core c).cur.cells.length < 16 →
        ∀ p ∈ ([(2, .lit8 c i, i.signExtend 32), (4, .lit16Sx c h, h.signExtend 32), (4, .lit16Zx c h, h.setWidth 32),
            (4, .lit16H c h, h ++ (0 : BitVec 16))] : List (Nat × Instr × Word)),
          ∀ s1, s.Issues c p.1 s1 →
            exec p.2.1 s = .next (s.retires s1 c p.1 (fun k => { k with cells := ⟨p.2.2, none⟩ :: k.cells })))

/-- R234: reserved immediates, and a reserved opcode or encoding, raise ILLEGAL (cause 1) with the instruction's bytes in `TVAL`,
little-endian and zero-extended.
Said to complete, with a next state that has its effect: `reservedOpcode`. -/
def Obligations.ReservedFormsTrap : Prop :=
  ∀ (s : State) (c : CoreId) (n : BitVec 8) (bytes : Word),
    (32 ≤ n.toNat → ∀ s1, s.Issues c 2 s1 →
      ∀ p ∈ ([(.shli c n, 0x83), (.shri c n, 0x84), (.sari c n, 0x85), (.rori c n, 0x86)] : List (Instr × Nat)),
        exec p.1 s = .next (s.refuses s1 c ⟨1, w32 (p.2 + 256 * n.toNat), false⟩))
    ∧ (16 ≤ n.toNat → ∀ s1, s.Issues c 2 s1 →
      ∀ p ∈ ([(.pick c n, 0x87), (.roll c n, 0x88)] : List (Instr × Nat)),
        exec p.1 s = .next (s.refuses s1 c ⟨1, w32 (p.2 + 256 * n.toNat), false⟩))
    ∧ (decodeDsx c 1 bytes = none → ∀ s1, s.Issues c (opLength (bytes.toNat % 256)) s1 →
        exec (.reservedOpcode c bytes) s = .next (s.refuses s1 c ⟨1, w32 (bytes.toNat % 256 ^ opLength (bytes.toNat % 256)), false⟩))

/-- R200, R203, R240: the Q31 instructions saturate and then set `QS` (bit 5); the accumulator takes exact products and
saturates at 64 bits (on an application core with its pending bit, R254); ACCQ pushes it rounded and clears it.
Each of these is said to complete, with a next state that has its effect: `qadd`, `qsub`, `qmul`, `qmac`, `mac`, `macu`, `accq`. -/
def Obligations.FractionalInstructions : Prop :=
  ∀ (s s1 : State) (c : CoreId) (a b : Word), s.Issues c 1 s1 →
    ((s.core c).Operands [b, a] →
      ∀ p ∈ ([(.qadd c, a.toInt + b.toInt), (.qsub c, a.toInt - b.toInt),
          (.qmul c, (a.toInt * b.toInt + 2 ^ 30) / 2 ^ 31)] : List (Instr × Int)),
        exec p.1 s = .next (s.retires s1 c 1 (fun k => k.results 2 (BitVec.ofInt 32 (clampInt (-2 ^ 31) (2 ^ 31 - 1) p.2))
          (if clampInt (-2 ^ 31) (2 ^ 31 - 1) p.2 = p.2 then 0 else 0x20))))
    ∧ ((s.core c).cur.accLo = none → (s.core c).cur.accHi = none →
      ((s.core c).Operands [b, a] →
        ∀ p ∈ ([(.mac c, a.toInt * b.toInt), (.qmac c, a.toInt * b.toInt), (.macu c, (a.toNat * b.toNat : Nat))] : List (Instr × Int)),
          exec p.1 s = .next (s.retiresBy s1 c 1 false (fun x => (x.modCur (fun k =>
            { k with cells := k.cells.drop 2, acc := BitVec.ofInt 64 (clampInt (-2 ^ 63) (2 ^ 63 - 1) (k.acc.toInt + p.2))
                     fcsr := k.fcsr ||| (if clampInt (-2 ^ 63) (2 ^ 63 - 1) (k.acc.toInt + p.2) = k.acc.toInt + p.2 then 0 else 0x20) })).accPending c)))
      ∧ ((s.core c).cur.cells.length < 16 →
        exec (.accq c) s = .next (s.retires s1 c 1 (fun k =>
          { k with cells := ⟨(accq k.acc).1, none⟩ :: k.cells, acc := 0, fcsr := k.fcsr ||| (accq k.acc).2 }))))

/-- R204, R205, R241: a binary32 instruction pops its operands, pushes its result under `FCSR` and adds its flags. FNEG and
FABS change the sign bit alone and set no flag.
Each of these is said to complete, with a next state that has its effect: `fadd`, `fsub`, `fmul`, `fma`, `fclamp`, `fneg`, `fabs`, `fmin`, `fmax`,
`feq`, `flt`, `fle`, `f2i`, `i2f`, `f2q`, `q2f`. -/
def Obligations.FloatInstructions : Prop :=
  ∀ (s s1 : State) (c : CoreId) (x y z : Word), s.Issues c 1 s1 →
    ((s.core c).Operands [z] →
      exec (.fneg c) s = .next (s.retires s1 c 1 (fun k => k.results 1 (z ^^^ 0x80000000) 0))
      ∧ exec (.fabs c) s = .next (s.retires s1 c 1 (fun k => k.results 1 (z &&& 0x7FFFFFFF) 0))
      ∧ ∀ p ∈ ([(.f2i c, f2int 0), (.i2f c, int2f 0), (.f2q c, f2int 31), (.q2f c, int2f (-31))] : List (Instr × (Word → Word → Flagged))),
          exec p.1 s = .next (s.retires s1 c 1 (fun k => k.results 1 (p.2 k.fcsr z).1 (p.2 k.fcsr z).2)))
    ∧ ((s.core c).Operands [z, y] →
        ∀ p ∈ ([(.fadd c, fadd), (.fsub c, fsub), (.fmul c, fmul), (.fmin c, fminmax false), (.fmax c, fminmax true), (.feq c, feq),
            (.flt c, flt), (.fle c, fle)] : List (Instr × (Word → Word → Word → Flagged))),
          exec p.1 s = .next (s.retires s1 c 1 (fun k => k.results 2 (p.2 k.fcsr y z).1 (p.2 k.fcsr y z).2)))
    ∧ ((s.core c).Operands [z, y, x] →
        ∀ p ∈ ([(.fma c, fma), (.fclamp c, fclamp)] : List (Instr × (Word → Word → Word → Word → Flagged))),
          exec p.1 s = .next (s.retires s1 c 1 (fun k => k.results 3 (p.2 k.fcsr x y z).1 (p.2 k.fcsr x y z).2)))

/-- R204, R238, R252, R255: FDIV, FSQRT and LIT32 retire with a pending cell, which PENDING_CELL_FILL turns into the value on
its way, in whichever bank that cell lies.
Each of these is said to complete, with a next state that has its effect: `pendingCellFill`, `lit32`, `fdiv`, `fsqrt`. -/
def Obligations.PendingResults : Prop :=
  ∀ (s s1 s2 : State) (c : CoreId) (x y v : Word) (d : BitVec 24),
    (s.Issues c 1 s1 → (s.core c).Operands [y, x] →
      exec (.fdiv c) s = .next (s.retiresPending s1 c 1 2 (fdiv (s.core c).cur.fcsr x y).1 (fdiv (s.core c).cur.fcsr x y).2 [] false))
    ∧ (s.Issues c 1 s1 → (s.core c).Operands [y] →
      exec (.fsqrt c) s = .next (s.retiresPending s1 c 1 1 (fsqrt (s.core c).cur.fcsr y).1 (fsqrt (s.core c).cur.fcsr y).2 [] false))
    ∧ (s.Issues c 4 s1 → (s.core c).cur.cells.length < 16 → s1.Loads c ((s.core c).pc + d.signExtend 32) 4 s2 v →
      exec (.lit32 c d) s = .next (s.retiresPending s2 c 4 0 v 0 [] false))
    ∧ (∀ id w, s.locked c = false → (s.core c).pend.find? (fun p => p.id == id) = some ⟨id, some v, w⟩ →
      ∃ t, exec (.pendingCellFill c id) s = .next t ∧ (t.core c).pend = (s.core c).pend.filter (fun p => p.id != id)
        ∧ (t.core c).cur.cells = (s.core c).cur.cells.map (fun z => if z.pend = some id then ⟨v, none⟩ else z)
        ∧ (t.core c).pc = (s.core c).pc ∧ t.mem = s.mem ∧ t.regs = s.regs)

/-- R206, R242, R252: a load pops its address (the form with an index adds `idx << s` to the base), and leaves a pending cell
that its zero- or sign-extended bytes fill; the post-increment form leaves the address plus the size above it.
Each of these is said to complete, with a next state that has its effect: `ldb`, `ldbs`, `ldh`, `ldhs`, `ldw`, `ldbPi`, `ldbsPi`, `ldhPi`, `ldhsPi`,
`ldwPi`, `ldbX`, `ldbsX`, `ldhX`, `ldhsX`, `ldwX`. -/
def Obligations.LoadInstructions : Prop :=
  ∀ (s s1 s2 : State) (c : CoreId) (a i v : Word) (sc : Fin 4), s.Issues c 1 s1 →
    ((s.core c).Operands [a] →
      ∀ p ∈ ([(.ldb c, .ldbPi c, 1, fun w => (w.setWidth 8).setWidth 32), (.ldbs c, .ldbsPi c, 1, fun w => (w.setWidth 8).signExtend 32),
          (.ldh c, .ldhPi c, 2, fun w => (w.setWidth 16).setWidth 32), (.ldhs c, .ldhsPi c, 2, fun w => (w.setWidth 16).signExtend 32),
          (.ldw c, .ldwPi c, 4, fun w => w)] : List (Instr × Instr × Nat × (Word → Word))),
        (s1.dropCells c 1).Loads c a p.2.2.1 s2 v →
        exec p.1 s = .next (s.retiresPending s2 c 1 0 (p.2.2.2 v) 0 [] (s1.ownsLoad c a))
        ∧ ((s.core c).cur.cells.length < 16 →
            exec p.2.1 s = .next (s.retiresPending s2 c 1 0 (p.2.2.2 v) 0 [⟨a + BitVec.ofNat 32 p.2.2.1, none⟩] (s1.ownsLoad c a))))
    ∧ ((s.core c).Operands [i, a] →
      ∀ p ∈ ([(.ldbX c sc, 1, fun w => (w.setWidth 8).setWidth 32), (.ldbsX c sc, 1, fun w => (w.setWidth 8).signExtend 32),
          (.ldhX c sc, 2, fun w => (w.setWidth 16).setWidth 32), (.ldhsX c sc, 2, fun w => (w.setWidth 16).signExtend 32),
          (.ldwX c sc, 4, fun w => w)] : List (Instr × Nat × (Word → Word))),
        (s1.dropCells c 2).Loads c (a + (i <<< sc.val)) p.2.1 s2 v →
        exec p.1 s = .next (s.retiresPending s2 c 1 0 (p.2.2 v) 0 [] (s1.ownsLoad c (a + (i <<< sc.val)))))

/-- R206, R242, R259: a store pops value and address and puts the value's low bytes into the store buffer; the post-increment
form leaves the address plus the size, the pre-decrement form stores at the address less the size and leaves that.
Each of these is said to complete, with a next state that has its effect: `stb`, `sth`, `stw`, `stbPi`, `sthPi`, `stwPi`, `stbPd`, `sthPd`, `stwPd`,
`stbX`, `sthX`, `stwX`. -/
def Obligations.StoreInstructions : Prop :=
  ∀ (s s1 s2 : State) (c : CoreId) (a i v : Word) (sc : Fin 4) (l : List (Nat × Nat × Nat)), s.Issues c 1 s1 →
    ((s.core c).Operands [a, v] →
      (∀ p ∈ ([(.stb c, .stbPi c, 1), (.sth c, .sthPi c, 2), (.stw c, .stwPi c, 4)] : List (Instr × Instr × Nat)),
        (s1.dropCells c 2).Stores c a p.2.2 s2 l →
        exec p.1 s = .next (s.retires (s2.buffers c l (leBytes p.2.2 v.toNat)) c 1 id)
        ∧ exec p.2.1 s = .next (s.retires (s2.buffers c l (leBytes p.2.2 v.toNat)) c 1 (fun k =>
            { k with cells := ⟨a + BitVec.ofNat 32 p.2.2, none⟩ :: k.cells })))
      ∧ (∀ p ∈ ([(.stbPd c, 1), (.sthPd c, 2), (.stwPd c, 4)] : List (Instr × Nat)),
        (s1.dropCells c 2).Stores c (a - BitVec.ofNat 32 p.2) p.2 s2 l →
        exec p.1 s = .next (s.retires (s2.buffers c l (leBytes p.2 v.toNat)) c 1 (fun k =>
            { k with cells := ⟨a - BitVec.ofNat 32 p.2, none⟩ :: k.cells }))))
    ∧ ((s.core c).Operands [i, a, v] →
      ∀ p ∈ ([(.stbX c sc, 1), (.sthX c sc, 2), (.stwX c sc, 4)] : List (Instr × Nat)),
        (s1.dropCells c 3).Stores c (a + (i <<< sc.val)) p.2 s2 l →
        exec p.1 s = .next (s.retires (s2.buffers c l (leBytes p.2 v.toNat)) c 1 id))

/-- R6, R207, R243, R259, R260, R362: in an engine's own memory a load reads the bytes little-endian, a buffered store
changes its bytes alone as it drains, and an atomic reads the aligned word and stores in one step; a store that loses a
conflict on its word is discarded and counted.
Each of these is said to complete, with a next state that has its effect: `storeBufferDrain`, `cas`, `swapm`. -/
def Obligations.OwnMemoryAccess : Prop :=
  ∀ (s : State) (e : Fin 64) (a : Word) (n : Nat), a.toNat + n ≤ 0x8000 → n = 1 ∨ n = 2 ∨ n = 4 → a.toNat % n = 0 →
    (s.OwnMemory e → s.Loads (.ce e) a n s (w32 (s.numAt (lsramBase e + a.toNat) n)))
    ∧ (∀ (bs : List Byte) (rest : List SbEntry) (va : Nat), bs.length = n →
        (s.core (.ce e)).sbuf = ⟨va, lsramBase e + a.toNat, true, bs⟩ :: rest → (s.modCore (.ce e) (fun k => { k with sbuf := [] })).OwnMemory e →
        exec (.storeBufferDrain (.ce e) 0 false) s
          = .next ((s.setBytes (lsramBase e + a.toNat) bs).modCore (.ce e) (fun k => { k with sbuf := rest }))
        ∧ ∃ t, exec (.storeBufferDrain (.ce e) 0 true) s = .next t ∧ t.mem = s.mem ∧ (t.core (.ce e)).sbuf = rest
            ∧ t.rbit (pgSramC (clusterOf e)) Reg.PAGE_IRQ_STAT 4 = true)
    ∧ (∀ (s1 : State) (x y : Word), n = 4 → s.Issues (.ce e) 1 s1 → s1.OwnMemory e →
        ((s.core (.ce e)).Operands [a, x] →
          exec (.swapm (.ce e)) s = .next (s.retires (s1.setBytes (lsramBase e + a.toNat) (leBytes 4 x.toNat)) (.ce e) 1
            (fun k => { k with cells := ⟨w32 (s1.numAt (lsramBase e + a.toNat) 4), none⟩ :: k.cells.drop 2 })))
        ∧ ((s.core (.ce e)).Operands [a, x, y] →
          exec (.cas (.ce e)) s = .next (s.retires (if w32 (s1.numAt (lsramBase e + a.toNat) 4) = y then
              s1.setBytes (lsramBase e + a.toNat) (leBytes 4 x.toNat) else s1) (.ce e) 1
            (fun k => { k with cells := ⟨w32 (s1.numAt (lsramBase e + a.toNat) 4), none⟩ :: k.cells.drop 3 }))))

/-- R207: a misaligned atomic raises MISALIGNED (cause 3) with its address. -/
def Obligations.MisalignedAtomicsTrap : Prop :=
  ∀ (s s1 : State) (c : CoreId) (a x y : Word), s.Issues c 1 s1 → a.toNat % 4 ≠ 0 →
    ((s.core c).Operands [a, x] → exec (.swapm c) s = .next (s.refuses (s1.dropCells c 2) c ⟨3, a, false⟩))
    ∧ ((s.core c).Operands [a, x, y] → exec (.cas c) s = .next (s.refuses (s1.dropCells c 3) c ⟨3, a, false⟩))

/-- R198, R209 to R212, R244, R270: a branch reads its condition and target before its slot executes, which follows it; a branch
not taken falls through, an annulling one past its slot; calls push the address behind the slot, RET pops it;
its predictor is trained, and what a wrong path left behind stays.
Each of these is said to complete, with a next state that has its effect: `bcc`, `call`, `calli`, `jmpi`, `ret`. -/
def Obligations.BranchInstructions : Prop :=
  ∀ (s s1 : State) (c : CoreId) (v : Word) (d : BitVec 20) (n : Nat) (annul : Bool),
    (let k := s1.core c
     let a := k.pc + d.signExtend 32
     s.Issues c 4 s1 →
      exec (.bcc c annul 0 d n) s = .next (s1.branches c 4 (some a) k.cur (k.strayDirect c true true a) (fun k => k.trainDirect c a))
      ∧ ((s.core c).Operands [v] →
        ∀ p ∈ ([(1, v == 0), (2, v != 0), (3, v.slt 0), (4, !v.slt 0), (5, (0 : Word).slt v), (6, !(0 : Word).slt v), (7, isNaN v)] : List (Fin 8 × Bool)),
          let wrong := k.strayDirect c (k.predictCond c p.1 d) p.2 a
          exec (.bcc c annul p.1 d n) s = .next (
            if p.2 then (s1.dropCells c 1).branches c 4 (some a) k.cur wrong (fun k => (k.trainDirect c a).trainCond c true)
            else if annul then s.retiresBy ((s1.dropCells c 1).stray c wrong) c (4 + n) false (fun k => k.trainCond c false)
            else (s1.dropCells c 1).branches c 4 none k.cur wrong (fun k => k.trainCond c false)))
      ∧ (k.cur.rets.length < 8 →
        exec (.call c d n) s = .next ((s1.modCore c (fun x => x.modCur (fun b => { b with rets := (k.pc + BitVec.ofNat 32 (4 + n)) :: b.rets }))).branches
          c 4 (some a) k.cur (k.strayDirect c true true a) (fun k => k.trainDirect c a))))
    ∧ (let k := s1.core c
       s.Issues c 1 s1 → (s.core c).Operands [v] →
      exec (.jmpi c) s = .next ((s1.dropCells c 1).branches c 1 (some v) k.cur (k.strayTarget c v) (fun k => k.trainTarget c v))
      ∧ (k.cur.rets.length < 8 →
        exec (.calli c n) s = .next ((s1.dropCells c 1).branches c 1 (some v) k.cur (k.strayTarget c v) (fun x =>
          (x.trainTarget c v).modCur (fun b => { b with rets := (k.pc + BitVec.ofNat 32 (1 + n)) :: b.rets })))))
    ∧ (∀ r l, s.Issues c 1 s1 → (s.core c).cur.rets = r :: l →
      exec (.ret c) s = .next (s1.branches c 1 (some r) (s1.core c).cur ((s1.core c).barred c (s1.core c).pc)
        (fun k => k.modCur (fun b => { b with rets := l }))))

/-- R211, R212: the instruction in a delay slot is followed by the branch's target, or by the next one where it was not
taken; a branch, a return, a WFI, a TRAP, a FRAMEEND or a TAILGO there raises ILLEGAL with its own address. -/
def Obligations.DelaySlots : Prop :=
  ∀ (s s1 : State) (c : CoreId) (d : Slot),
    (s.IssuesInSlot c 1 s1 d →
      exec (.nop c) s = .next (s1.modCore c (fun k =>
        { k with slot := none, lastPc := coreVa c k.fetchHi k.pc, pc := d.target.getD (k.pc + 1) }))
      ∧ ∀ i ∈ ([.calli c 1, .jmpi c, .ret c, .rett c (), .wfi c, .frameend c, .tailgo c] : List Instr),
          exec i s = .next (s.refuses s1 c ⟨1, (s.core c).pc, false⟩))
    ∧ (s.IssuesInSlot c 2 s1 d → ∀ x, exec (.trap c x) s = .next (s.refuses s1 c ⟨1, (s.core c).pc, false⟩))
    ∧ (s.IssuesInSlot c 4 s1 d → ∀ (annul : Bool) (cc : Fin 8) (o : BitVec 20) (n : Nat),
      ∀ i ∈ ([.bcc c annul cc o n, .call c o n] : List Instr), exec i s = .next (s.refuses s1 c ⟨1, (s.core c).pc, false⟩))

/-- R281, R284 to R289, R292, R293: TRAP, and BREAK without `DBGBRK`, enter S from below M, or M as DOUBLE_TRAP while `SCRIT` is
set; at M they enter M, or
lock the core up while `MCRIT` is set.
Each of these is said to complete, with a next state that has its effect: `break_`, `trap`. -/
def Obligations.TrapsEnter : Prop :=
  ∀ (s s1 : State) (c : CoreId) (i : BitVec 8),
    ∀ p ∈ ([(2, .trap c i, 9, i.setWidth 32), (1, .break_ c, 0xA, 0)] : List (Nat × Instr × Word × Word)),
      s.Issues c p.1 s1 → s1.dbgBrk c = false →
      ∃ t, exec p.2.1 s = .next t ∧
        let k := s.core c
        let u := t.core c
        (k.lvl ≠ 3 ∨ bitOf k.status 11 = false ∨ (c ≠ .ac 0 ∧ c ≠ .ac 1) → t.mem = s1.mem ∧ t.pending = s1.pending)
        ∧ (k.lvl ≠ 3 → bitOf k.status 10 = false → k.sInUse = false →
          u.pc = k.evecS ∧ u.epc = k.pc ∧ u.cause = p.2.2.1 ∧ u.tval = p.2.2.2 ∧ u.lvl = 1 ∧ bitsOf u.status 3 2 = k.lvl
            ∧ bitOf u.status 4 = false ∧ bitOf u.status 5 = bitOf k.status 4 ∧ bitOf u.status 10 = true
            ∧ bitsOf u.status 9 8 = pbkOf c k.bank ∧ u.lvlrec = (k.lvlrec <<< 2) ||| 1 ∧ u.bank = .s ∧ u.sInUse = true
            ∧ u.bS = k.bS.emptied ∧ u.bFg = k.bFg ∧ u.bTl = k.bTl ∧ u.bM = k.bM ∧ u.mframe = k.mframe ∧ u.ssp = k.ssp ∧ t.regs = s1.regs)
        ∧ (k.lvl ≠ 3 → bitOf k.status 10 = true →
          u.pc = k.evecM ∧ u.epc = k.pc ∧ u.cause = 0x15 ∧ u.tval = p.2.2.1 ∧ u.lvl = 3 ∧ bitsOf u.status 3 2 = k.lvl
            ∧ bitOf u.status 6 = false ∧ bitOf u.status 11 = true ∧ bitsOf u.status 9 8 = pbkOf c k.bank
            ∧ u.mframe = ⟨k.epc, k.cause, k.tval, k.status⟩ ∧ u.lvlrec = (k.lvlrec <<< 2) ||| 3 ∧ u.bank = .m ∧ u.mInUse = true
            ∧ u.bM = k.bM.emptied ∧ u.bFg = k.bFg ∧ u.bTl = k.bTl ∧ u.bS = k.bS ∧ u.ssp = k.ssp ∧ t.regs = s1.regs)
        ∧ (k.lvl = 3 → bitOf k.status 11 = false →
          u.pc = k.evecM ∧ u.epc = k.pc ∧ u.cause = p.2.2.1 ∧ u.tval = p.2.2.2 ∧ u.lvl = 3 ∧ bitsOf u.status 3 2 = 3
            ∧ bitOf u.status 6 = false ∧ bitOf u.status 7 = bitOf k.status 6 ∧ bitOf u.status 11 = true
            ∧ u.mframe = k.mframe ∧ u.lvlrec = (k.lvlrec <<< 2) ||| 3 ∧ u.bank = .m ∧ u.bM = k.bM ∧ u.bS = k.bS ∧ t.regs = s1.regs)
        ∧ (k.lvl = 3 → bitOf k.status 11 = true → c ≠ .ac 0 → c ≠ .ac 1 → u.lockup = true ∧ u.running = false)

/-- R278, R289, R295 to R297, R300: RETT goes back to `EPC` at the level in `PPL` with the bank in `PBK`; a return that fails its
check raises RETT_FAIL at M; below S it raises PRIV. A takeable interrupt of the level returned from is tail-chained.
Said to complete, with a next state that has its effect: `rett`. -/
def Obligations.ReturnFromTrap : Prop :=
  ∀ (s s1 : State) (c : CoreId), s.Issues c 1 s1 →
    let k := s.core c
    let back : Core := { s1.core c with status := k.returnStatus }
    (k.lvl = 0 → exec (.rett c ()) s = .next (s.refuses s1 c ⟨2, 0x08, false⟩))
    ∧ (1 ≤ k.lvl → (bitsOf k.lvlrec 1 0 = 0 ∨ bitsOf k.lvlrec 1 0 = 2 ∨ k.ppl = 2 ∨ bitsOf k.lvlrec 1 0 < k.ppl ∨ k.lvl < k.ppl) →
        exec (.rett c ()) s = .next (s.refuses s1 c ⟨0x13, w32 (k.ppl + 4 * bitsOf k.lvlrec 1 0 + 16 * k.lvl), true⟩))
    ∧ (k.badReturn = false → k.lvl = 1 → k.restores c = false → s1.takeable c back = none → k.ovrPend = none → k.fgDue = false →
        (isCe c = true → k.pbk = 0 ∨ k.pbk = 2) → (isCe c = false → k.ppl = 0) →
        ∃ t, exec (.rett c ()) s = .next t ∧ t.mem = s1.mem ∧ t.regs = s1.regs ∧
          let u := t.core c
          u.pc = k.epc ∧ u.lvl = k.ppl ∧ bitOf u.status 4 = bitOf k.status 5 ∧ bitOf u.status 10 = false ∧ u.lvlrec = k.lvlrec >>> 2
            ∧ u.sInUse = (if isCe c ∧ k.pbk = 2 then true else if k.bank = .s then false else k.sInUse)
            ∧ u.bank = (if isCe c then (if k.pbk = 0 then .fg else .s) else .tl)
            ∧ u.bFg = k.bFg ∧ u.bTl = k.bTl ∧ u.bS = k.bS ∧ u.bM = k.bM ∧ u.ssp = k.ssp)
    ∧ (k.badReturn = false → k.lvl = 3 → k.ppl = 3 → s1.takeable c back = none → k.ovrPend = none → k.fgDue = false →
        ∃ t, exec (.rett c ()) s = .next t ∧ t.mem = s1.mem ∧ t.regs = s1.regs ∧
          let u := t.core c
          u.pc = k.epc ∧ u.lvl = 3 ∧ bitOf u.status 6 = bitOf k.status 7 ∧ bitOf u.status 11 = false ∧ u.lvlrec = k.lvlrec >>> 2
            ∧ u.bank = k.bank ∧ u.bM = k.bM ∧ u.mframe = k.mframe)
    ∧ (k.badReturn = false → k.lvl = 3 → k.ppl ≤ 1 → s1.takeable c back = none → k.ovrPend = none → k.fgDue = false →
        (isCe c = true → k.pbk = 0 ∨ k.pbk = 2) →
        ∃ t, exec (.rett c ()) s = .next t ∧ t.mem = s1.mem ∧ t.regs = s1.regs ∧
          let u := t.core c
          u.pc = k.epc ∧ u.status = putBits k.mframe.status 1 0 k.ppl ∧ u.epc = k.mframe.epc ∧ u.cause = k.mframe.cause
            ∧ u.tval = k.mframe.tval ∧ u.mInUse = false ∧ u.lvlrec = k.lvlrec >>> 2
            ∧ u.bank = (if isCe c then (if k.pbk = 0 then .fg else .s) else if k.ppl = 0 then .tl else .s))
    ∧ (∀ n p, k.badReturn = false → k.lvl = 1 → s1.takeable c back = some (n, p, false) →
        ∃ t, exec (.rett c ()) s = .next t ∧ t.mem = s1.mem ∧ t.regs = s1.regs ∧
          let u := t.core c
          u.pc = k.evecS ∧ u.cause = irqCause n p true false ∧ u.tval = 0 ∧ u.epc = k.epc ∧ u.lvl = 1 ∧ bitOf u.status 4 = false
            ∧ bitOf u.status 10 = true ∧ u.lvlrec = k.lvlrec ∧ u.bank = k.bank ∧ u.bS = k.bS.emptied)

/-- R247, R284, R286, R298, R299: at a boundary a core takes its highest takeable interrupt at S or M, with source and
priority in `CAUSE`; while an entry is in progress, a higher one of the same level takes it over, and one at M an entry to S; WFI
waits only where none is pending, and a pending one ends the wait.
Each of these is said to complete, with a next state that has its effect: `wfi`, `wfiWake`, `interruptEntry`. -/
def Obligations.InterruptsAndWaiting : Prop :=
  ∀ (s : State) (c : CoreId) (n p : Nat), s.locked c = false →
    let k := s.core c
    (s.atBoundary c = true → (c = .ac 0 → s.presented = none) → k.entry = none →
      (s.takeable c k = some (n, p, true) →
        ∃ t, exec (.interruptEntry c ()) s = .next t ∧ t.mem = s.mem ∧ t.regs = s.regs ∧
          let u := t.core c
          u.pc = k.evecM ∧ u.epc = k.pc ∧ u.cause = irqCause n p false false ∧ u.tval = 0 ∧ u.lvl = 3 ∧ bitsOf u.status 3 2 = k.lvl
            ∧ bitOf u.status 6 = false ∧ bitOf u.status 11 = true ∧ u.bank = .m ∧ u.wfi = false)
      ∧ (s.takeable c k = some (n, p, false) → k.sInUse = false →
        ∃ t, exec (.interruptEntry c ()) s = .next t ∧ t.mem = s.mem ∧ t.regs = s.regs ∧
          let u := t.core c
          u.pc = k.evecS ∧ u.epc = k.pc ∧ u.cause = irqCause n p false false ∧ u.tval = 0 ∧ u.lvl = 1 ∧ bitsOf u.status 3 2 = k.lvl
            ∧ bitOf u.status 4 = false ∧ bitOf u.status 5 = bitOf k.status 4 ∧ bitOf u.status 10 = true ∧ u.bank = .s
            ∧ u.bS = k.bS.emptied ∧ u.wfi = false)
      ∧ (s.takeable c k = none → exec (.interruptEntry c ()) s = .next s))
    ∧ (∀ z q m, s.atBoundary c = true → (c = .ac 0 → s.presented = none) → k.entry = some ⟨false, some (p, true), z⟩ →
        s.coreReq c true = some (m, q) → p < q →
        exec (.interruptEntry c ()) s = .next (s.modCore c (fun x =>
          { x with cause := irqCause m q (bitOf x.cause 20) true, entry := some ⟨false, some (q, true), z⟩ })))
    ∧ (∀ z q m, s.atBoundary c = true → (c = .ac 0 → s.presented = none) → k.entry = some ⟨false, some (p, false), z⟩ →
        (k.undo z).takeM = true → s.coreReq c true = some (m, q) →
        exec (.interruptEntry c ()) s = .next ((s.modCore c (fun x => x.undo z)).enterIrq c m q true true))
    ∧ (∀ s1, s.Issues c 1 s1 → (isCe c = true ∨ 1 ≤ k.lvl) → (c = .ac 0 → s1.presented = none) →
        exec (.wfi c) s = .next (s.retires (if s1.irqPending c then s1 else s1.modCore c (fun k => { k with wfi := true })) c 1 id))
    ∧ (k.wfi = true → s.irqPending c = true → exec (.wfiWake c) s = .next (s.modCore c (fun k => { k with wfi := false })))
    ∧ (k.wfi = false → exec (.wfiWake c) s = .next s)

/-- R221, R226, R245, R247, R274, R275, R390: FENCE empties the store buffer and puts an engine's region registers, or an
application core's translation registers, into force; IFLUSH empties the buffer and the
instruction cache; PFLUSH empties the predictor; PBAR bars a
range; BREAK under `DBGBRK` halts its core behind itself.
Each of these is said to complete, with a next state that has its effect: `fence`, `iflush`, `pflush`, `pbar`, `break_`. -/
def Obligations.SystemInstructions : Prop :=
  ∀ (s s1 s2 : State) (c : CoreId) (lo hi : Word), s.Issues c 1 s1 →
    (s1.drainAll c = (s2, true) → s1.SameCore s2 c →
      exec (.iflush c) s = .next (s.retiresBy s2 c 1 false (fun k => { k with icache := [] }))
      ∧ (∀ e, c = .ce e → exec (.fence c) s = .next (s.retires (s2.forceRegions e) c 1 id)
              ∧ (s2.canonical = true → ∀ i < 64, (s2.forceRegions e).reg (pgCe e) (forceOff (0x100 + 4 * i)) = s2.reg (pgCe e) (0x100 + 4 * i)))
      ∧ (∀ a, c = .ac a → exec (.fence c) s = .next (s.retires (s2.forceMmu a) c 1 id)
              ∧ (s2.canonical = true → ∀ o ∈ [Reg.MMU_CTL, Reg.MMU_ROOT_LO, Reg.MMU_ROOT_HI, Reg.MMU_ASID],
                  (s2.forceMmu a).reg (pgMmu a) (forceOff o) = s2.reg (pgMmu a) o)))
    ∧ (1 ≤ (s.core c).lvl → exec (.pflush c) s = .next (s.retires (s1.modCore c Core.emptyPredictor) c 1 id))
    ∧ (1 ≤ (s.core c).lvl → (s.core c).Operands [hi, lo] →
        exec (.pbar c) s = .next (s.retires (s1.modCore c (fun k =>
          { k with bar := if hi < lo then none else some (lo, hi, k.cur.vhi) })) c 1 (fun b => { b with cells := b.cells.drop 2 })))
    ∧ ((s.core c).lvl = 0 → (s.core c).Operands [hi, lo] →
        exec (.pflush c) s = .next (s.refuses s1 c ⟨2, 0x0C, false⟩) ∧ exec (.pbar c) s = .next (s.refuses s1 c ⟨2, 0x0D, false⟩))
    ∧ (s1.dbgBrk c = true →
        ∃ t, exec (.break_ c) s = .next t ∧ (t.core c).halted = true ∧ (t.core c).pc = (s.core c).pc + 1 ∧ (t.core c).cur = (s.core c).cur
          ∧ t.mem = s1.mem)

/-- R246, R294: at M in its own memory SAVE writes the S bank's record below an aligned `SSP` and moves `SSP` there; RESTORE
reads it back and moves `SSP` above it.
Each of these is said to complete, with a next state that has its effect: `save`, `restore`. -/
def Obligations.SaveAndRestore : Prop :=
  ∀ (s s1 : State) (e : Fin 64), s.Issues (.ce e) 1 s1 → s1.OwnMemory e → (s.core (.ce e)).ssp.toNat % 64 = 0 →
    let k := s.core (.ce e)
    (128 ≤ k.ssp.toNat → k.ssp.toNat ≤ 0x8000 → (∀ x ∈ k.bS.cells, x.pend = none) → k.bS.accLo = none → k.bS.accHi = none →
      exec (.save (.ce e)) s = .next (s.retires ((s1.setBytes (lsramBase e + (k.ssp.toNat - 128)) (k.bS.record.flatMap (fun w => leBytes 4 w.toNat))).modCore (.ce e)
        (fun x => { x with ssp := k.ssp - 128 })) (.ce e) 1 id))
    ∧ (k.ssp.toNat + 128 ≤ 0x8000 →
      exec (.restore (.ce e)) s = .next (s.retiresBy (s1.modCore (.ce e) (fun x => { x with ssp := k.ssp + 128 })) (.ce e) 1 false
        (fun x => { x with bS := x.bS.ofRecord ((List.range 32).map (fun i => w32 (s1.numAt (lsramBase e + (k.ssp.toNat + 4 * i)) 4))) })))

/-- R201, R205, R254, R266, R279, R284, R285, R354: CSRR pushes what its register holds, CSRW stores the bits that a program may
set; a register above the level raises PRIV, an unlisted or read-only one ILLEGAL; `REQLOCK` and `REQSPLIT` of `PAIR_CTL` ask
the pair.
Each of these is said to complete, with a next state that has its effect: `csrr`, `csrw`, `pairCtlReqlock`, `pairCtlReqsplit`. -/
def Obligations.ControlRegisters : Prop :=
  ∀ (s s1 : State) (c : CoreId) (n : BitVec 8) (v : Word), s.Issues c 2 s1 →
    let k := s.core c
    (k.cur.cells.length < 16 → k.cur.accLo = none → k.cur.accHi = none →
      ∀ p ∈ ([(0x00, 0, k.cur.fcsr), (0x01, 0, k.cur.acc.setWidth 32), (0x02, 0, (k.cur.acc >>> 32).setWidth 32), (0x03, 0, k.cur.dsp),
          (0x04, 0, k.cur.dsb), (0x05, 0, k.cur.rsp), (0x06, 0, k.cur.rsb), (0x07, 0, w32 (k.cur.cells.length + 256 * k.cur.rets.length)),
          (0x08, 0, w32 (if isCe c then s1.time.clk / 2 else s1.time.clk)), (0x09, 0, if isCe c then 0 else k.cur.vhi.setWidth 32),
          (0x10, 1, k.status), (0x11, 1, k.cause), (0x12, 1, k.epc), (0x13, 1, k.tval), (0x14, 1, k.evecS), (0x15, 1, k.ssp),
          (0x16, 1, k.ctxid.setWidth 32), (0x17, 1, k.dmode), (0x80, 3, k.evecM), (0x81, 3, k.lvlrec), (0x82, 3, s1.pairCtl c),
          (0x83, 3, k.predMode), (0x84, 3, 0), (0x85, 3, 0)] : List (BitVec 8 × Nat × Word)),
        (p.2.1 ≤ k.lvl → exec (.csrr c p.1) s = .next (s.retires s1 c 2 (fun b => { b with cells := ⟨p.2.2, none⟩ :: b.cells })))
        ∧ (k.lvl < p.2.1 → exec (.csrr c p.1) s = .next (s.refuses s1 c ⟨2, w32 (0x8A + 256 * p.1.toNat), false⟩)))
    ∧ (k.Operands [v] →
      (∀ p ∈ ([(0x00, fun b => { b with fcsr := v &&& 0x73F }), (0x01, fun b => { b with acc := (b.acc >>> 32 <<< 32) ||| v.setWidth 64, accLo := none }),
          (0x02, fun b => { b with acc := (b.acc.setWidth 32).setWidth 64 ||| (v.setWidth 64 <<< 32), accHi := none }),
          (0x03, fun b => { b with dsp := v &&& ~~~ 3 }), (0x04, fun b => { b with dsb := v &&& ~~~ 3 }),
          (0x05, fun b => { b with rsp := v &&& ~~~ 3 }), (0x06, fun b => { b with rsb := v &&& ~~~ 3 })] : List (BitVec 8 × (Bank → Bank))),
        exec (.csrw c p.1) s = .next (s.retires s1 c 2 (fun b => p.2 { b with cells := b.cells.drop 1 })))
      ∧ (∀ p ∈ ([(0x10, 1, fun k => { k with status := masked k.status v (statusMask c k.lvl) }), (0x11, 1, fun k => { k with cause := v &&& 0x803FFFFF }),
          (0x12, 1, fun k => { k with epc := v }), (0x13, 1, fun k => { k with tval := v }), (0x14, 1, fun k => { k with evecS := v }),
          (0x15, 1, fun k => { k with ssp := v }),
          (0x16, 1, fun k => { (if bitOf k.predMode 2 then k.emptyPredictor else k) with ctxid := v.setWidth 8 }),
          (0x09, 0, fun k => if isCe c then k else { k.modCur (fun b => { b with vhi := v.setWidth 16 }) with bootHi := none }),
          (0x84, 3, fun k => k.writeKey false v), (0x85, 3, fun k => k.writeKey true v), (0x80, 3, fun k => { k with evecM := v }), (0x81, 3, fun k => { k with lvlrec := v }),
          (0x83, 3, fun k => { k with predMode := v &&& 0x1F })] : List (BitVec 8 × Nat × (Core → Core))),
        (p.2.1 ≤ k.lvl → exec (.csrw c p.1) s = .next (s.retiresBy (s1.dropCells c 1) c 2 false p.2.2))
        ∧ (k.lvl < p.2.1 → exec (.csrw c p.1) s = .next (s.refuses s1 c ⟨2, w32 (0x8B + 256 * p.1.toNat), false⟩)))
      ∧ (1 ≤ k.lvl → k.sbuf = [] →
          exec (.csrw c 0x17) s = .next (s.retiresBy (s1.dropCells c 1) c 2 false (fun k =>
            { k with dmode := if bitOf k.dmode 2 && k.lvl != 3 then k.dmode ||| (v &&& (if isCe c then 7 else 5)) else v &&& (if isCe c then 7 else 5) })))
      ∧ (k.lvl = 3 →
          exec (.csrw c 0x82) s = .next (s.retires (s1.pairCtlWrite c true true v) c 2 (fun b => { b with cells := b.cells.drop 1 }))
          ∧ exec (.pairCtlReqlock c) s = .next (s.retires (if bitOf v 8 then s1.pairRequest (pairOf c) true else s1) c 2
            (fun b => { b with cells := b.cells.drop 1 }))
          ∧ exec (.pairCtlReqsplit c) s = .next (s.retires (if bitOf v 9 then s1.pairRequest (pairOf c) false else s1) c 2
            (fun b => { b with cells := b.cells.drop 1 }))))
    ∧ ((10 ≤ n.toNat ∧ n.toNat < 0x10 ∨ 0x18 ≤ n.toNat ∧ n.toNat < 0x80 ∨ 0x86 ≤ n.toNat) →
        exec (.csrr c n) s = .next (s.refuses s1 c ⟨1, w32 (0x8A + 256 * n.toNat), false⟩)
        ∧ exec (.csrw c n) s = .next (s.refuses s1 c ⟨1, w32 (0x8B + 256 * n.toNat), false⟩))
    ∧ (∀ m ∈ ([7, 8] : List (BitVec 8)), exec (.csrw c m) s = .next (s.refuses s1 c ⟨1, w32 (0x8B + 256 * m.toNat), false⟩))

/-- R222, R248, R393: a TLBI of an application core at S or M removes from its TLB, and in the WALK forms from its walk cache,
what its form names, and in a closed domain waits for the other members, each of which applies it, after which it retires; engines raise ILLEGAL.
Each of these is said to complete, with a next state that has its effect: `tlbiVa`, `tlbiVaWalk`, `tlbiAsid`, `tlbiAsidWalk`, `tlbiAll`,
`tlbiAllWalk`, `tlbiBroadcastApply`, `tlbiBroadcastDone`. -/
def Obligations.TranslationMaintenance : Prop :=
  ∀ (s s1 : State) (a : Fin 8) (e : Fin 64) (va asid : Word), s.Issues (.ac a) 2 s1 → 1 ≤ (s.core (.ac a)).lvl → (s.core (.ac a)).sbuf = [] →
    s1.domClosed = false →
    let c : CoreId := .ac a
    let k := s.core c
    let covers : TlbEntry → Bool := fun x =>
      decide (x.vbase ≤ coreVa c k.cur.vhi va ∧ coreVa c k.cur.vhi va < x.vbase + 2 ^ x.log2) && (x.asid == (asid.setWidth 16).toNat || bitOf x.raw 6)
    let mine : TlbEntry → Bool := fun x => x.asid == (asid.setWidth 16).toNat && !bitOf x.raw 6
    let path : WalkEntry → Bool := fun w => w.vbase == coreVa c k.cur.vhi va / 2 ^ leafLog w.level
    (k.Operands [va, asid] →
      (∃ t, exec (.tlbiVa c) s = .next t ∧ (t.core c).tlb = (s1.core c).tlb.filter (fun x => !covers x) ∧ (t.core c).walk = (s1.core c).walk
        ∧ (t.core c).pc = k.pc + 2 ∧ t.mem = s1.mem ∧ t.regs = s1.regs)
      ∧ (∃ t, exec (.tlbiVaWalk c) s = .next t ∧ (t.core c).tlb = (s1.core c).tlb.filter (fun x => !covers x)
        ∧ (t.core c).walk = (s1.core c).walk.filter (fun w => !path w) ∧ (t.core c).pc = k.pc + 2 ∧ t.mem = s1.mem ∧ t.regs = s1.regs))
    ∧ (k.Operands [asid] →
      (∃ t, exec (.tlbiAsid c) s = .next t ∧ (t.core c).tlb = (s1.core c).tlb.filter (fun x => !mine x) ∧ (t.core c).walk = (s1.core c).walk
        ∧ (t.core c).pc = k.pc + 2 ∧ t.mem = s1.mem ∧ t.regs = s1.regs)
      ∧ (∃ t, exec (.tlbiAsidWalk c) s = .next t ∧ (t.core c).tlb = (s1.core c).tlb.filter (fun x => !mine x) ∧ (t.core c).walk = []
        ∧ (t.core c).pc = k.pc + 2 ∧ t.mem = s1.mem ∧ t.regs = s1.regs))
    ∧ (∃ t, exec (.tlbiAll c) s = .next t ∧ (t.core c).tlb = [] ∧ (t.core c).walk = (s1.core c).walk
        ∧ (t.core c).pc = k.pc + 2 ∧ t.mem = s1.mem ∧ t.regs = s1.regs)
    ∧ (∃ t, exec (.tlbiAllWalk c) s = .next t ∧ (t.core c).tlb = [] ∧ (t.core c).walk = []
        ∧ (t.core c).pc = k.pc + 2 ∧ t.mem = s1.mem ∧ t.regs = s1.regs)
    ∧ (∀ u u1 : State, u.Issues c 2 u1 → 1 ≤ (u.core c).lvl → (u.core c).sbuf = [] → u1.domClosed = true → u1.domMembers.testBit a = true →
        u1.bcastTo a ≠ [] →
        ∃ t, exec (.tlbiAll c) u = .next t ∧ (t.core c).tlb = [] ∧ t.bcast = u1.bcast ++ [⟨a, 2, 0, 0, u1.bcastTo a⟩]
          ∧ (t.core c).pc = (u.core c).pc ∧ t.mem = u1.mem ∧ t.regs = u1.regs)
    ∧ (∀ b rest, s.bcast = b :: rest → a ∈ b.left → s.locked c = false →
        ∃ t, exec (.tlbiBroadcastApply a) s = .next t ∧ t.core c = k.tlbi b.form b.asid b.va
          ∧ t.bcast.head? = some { b with left := b.left.filter (fun z => z != a) } ∧ t.mem = s.mem ∧ t.regs = s.regs)
    ∧ (∀ f i v, k.slot = none → k.step1 = false → s.locked c = false → k.running = true →
        exec (.tlbiBroadcastDone a) { s with bcast := [⟨a, f, i, v, []⟩] }
          = .next ({ s with bcast := [] }.modCore c (fun k =>
              { k with lastPc := coreVa c k.fetchHi k.pc, pc := k.pc + 2, entry := none, first := none })))
    ∧ (∀ u u1 : State, u.Issues (.ce e) 2 u1 →
        exec (.tlbiAll (.ce e)) u = .next (u.refuses u1 (.ce e) ⟨1, 0x28D, false⟩))

/-- R21, R23, R58, R213 to R217, R349: WAITS takes the oldest sample, or leaves a cell that the next one fills; PUTD sends a
duty word; FRAMEEND ends the foreground; CKPT copies the named blocks into the free half; TAILGO restarts the tail.
Each of these is said to complete, with a next state that has its effect: `waits`, `putd`, `frameend`, `ckpt`, `tailgo`. -/
def Obligations.FrameInstructions : Prop :=
  ∀ (s s1 : State) (e : Fin 64) (v : Word), s.Issues (.ce e) 1 s1 →
    let c : CoreId := .ce e
    let k := s.core c
    (k.ctx = .fg → k.cur.cells.length < 16 →
      (∀ x l, k.spq = x :: l → exec (.waits c) s = .next (s.retires (s1.modCore c (fun k => { k with spq := l })) c 1
        (fun b => { b with cells := ⟨x.cell, none⟩ :: b.cells })))
      ∧ (k.spq = [] → exec (.waits c) s = .next (s.retiresBy s1 c 1 false (fun k =>
          { k.modCur (fun b => { b with cells := ⟨0, some k.nextId⟩ :: b.cells }) with
            pend := k.pend ++ [⟨k.nextId, none, true⟩], nextId := k.nextId + 1 }))))
    ∧ (k.Operands [v] →
      exec (.putd c) s = .next (s.retires (s1.modPwm (clusterOf e) (fun p =>
        { p with flight := p.flight.set (localOf e) (p.flight[localOf e] ++ [⟨s1.now + nsSteps 15, v, k.ctx == .fg⟩]) })) c 1
          (fun b => { b with cells := b.cells.drop 1 })))
    ∧ (k.ctx = .fg → k.lvl = s.fld (pgCe e) Reg.CE_CTL 1 1 → k.sbuf = [] →
      (∃ t, exec (.ckpt c) s = .next t ∧ (t.core c).ckptNow = true ∧ (t.core c).ckptSel = k.ckptSel ∧ t.mem = s1.mem ∧ t.regs = s1.regs
        ∧ (let d : Ckpt := if k.ckptSel then (t.core c).ckpt0 else (t.core c).ckpt1
           d.fcnt = k.fgFcnt ∧ d.ofs = s1.fld (pgCe e) Reg.CE_CKPT_SRC 14 6 ∧ d.blk = s1.fld (pgCe e) Reg.CE_CKPT_LEN 4 0
            ∧ d.data.length = 64 * d.blk
            ∧ ∀ i < 64 * d.blk, d.data[i]? = some (s1.byteAt (lsramBase e + (64 * d.ofs + i) % 0x8000)))
        ∧ (if k.ckptSel then (t.core c).ckpt1 = k.ckpt1 else (t.core c).ckpt0 = k.ckpt0))
      ∧ (s1.pairs[pairOf c].catchUp = none → k.tailGo = none → k.pre = none →
        ∃ t, exec (.frameend c) s = .next t ∧ (t.core c).ctx = .idle ∧ (t.core c).fgEnded = true ∧ (t.core c).bFg = k.bFg.emptied
          ∧ (t.core c).spq = k.spq.filter (fun x => x.frame != k.fgFcnt) ∧ (t.core c).bTl = k.bTl ∧ t.mem = s1.mem))
    ∧ (k.Operands [v] →
      (k.ctx = .tail → k.bank = .tl →
        ∃ t, exec (.tailgo c) s = .next t ∧ (t.core c).pc = v ∧ (t.core c).bTl = k.bTl.emptied ∧ (t.core c).lvl = b2n (s1.rbit (pgCe e) Reg.CE_CTL 2)
          ∧ (t.core c).ctx = .tail ∧ (t.core c).bank = .tl ∧ (t.core c).sInUse = false ∧ (t.core c).lvlrec = 0 ∧ t.mem = s1.mem ∧ t.regs = s1.regs)
      ∧ ((k.ctx ≠ .tail ∨ k.bank ≠ .tl) →
        exec (.tailgo c) s = .next (s.retires (s1.modCore c (fun k => { k with tailGo := some v })) c 1 (fun b => { b with cells := b.cells.drop 1 }))))
    ∧ (k.ctx ≠ .fg → exec (.waits c) s = .next (s.refuses s1 c ⟨1, 0x4A, false⟩) ∧ exec (.frameend c) s = .next (s.refuses s1 c ⟨1, 0x4C, false⟩)
        ∧ exec (.ckpt c) s = .next (s.refuses s1 c ⟨1, 0x4D, false⟩))

/-- R16, R34: a step carries out the command in front of the queue on the machine with the rest of the queue; with nothing queued one
edge of the time base's clock passes, which is the model's choice (log 1). Every command, of every form, completes in every state:
none stops. -/
def Obligations.StepRunsFrontCommand : Prop :=
  (∀ (c : Instr) (s : State), step { s with pending := c :: s.pending } = exec c s)
    ∧ (∀ (c : Instr) (s : State), ∃ t, exec c s = .next t)
    ∧ (∀ s : State, s.pending = [] → step s = .next (s.edges 1))

/-- R34, R41, R71, R218, R285, R339: after reset no command waits, the stores list nothing and are canonical, the time base is 0, no
carrier runs, every output is inactive, no core runs, and pair 0 of the application cores is locked. -/
def Obligations.ResetState : Prop :=
  State.reset.canonical = true ∧ State.reset.pending = [] ∧ State.reset.mem = [] ∧ State.reset.regs = [] ∧ State.reset.snaps = []
    ∧ State.reset.time.ns = 0 ∧ State.reset.time.frac = 0
    ∧ (∀ c : Fin 8, State.reset.running c = false ∧ State.reset.OutputsOff c)
    ∧ (∀ c : CoreId, (State.reset.core c).running = false ∧ (State.reset.core c).halted = false)
    ∧ (∀ a : Fin 8, (State.reset.core (.ac a)).status = 0x803) ∧ (∀ e : Fin 64, (State.reset.core (.ce e)).status = 1)
    ∧ (∀ k : Fin 36, State.reset.pairs[k].locked = decide (k = 32))

/-- Every step keeps the stores of memory, registers and snapshots in their canonical form: addresses strictly rise, and no entry
holds what an unlisted address reads as. -/
def Obligations.StepKeepsCanonical : Prop :=
  ∀ s t : State, s.canonical = true → step s = .next t → t.canonical = true

/-- R6, R7: in canonical stores a byte, a register and a snapshot read back what was written, and every other one is as it was. -/
def Obligations.StoresReadBack : Prop :=
  ∀ s : State, s.canonical = true →
    (∀ (a : Nat) (bs : List Byte) (b : Nat),
      (s.setBytes a bs).byteAt b = (if a ≤ b ∧ b < a + bs.length then bs.getD (b - a) 0 else s.byteAt b)
        ∧ (s.setBytes a bs).canonical = true)
    ∧ (∀ (p q : PageId) (o o2 : Nat) (v : Word), o < 4096 → o2 < 4096 → p.inst < 256 → q.inst < 256 →
      (s.setReg p o v).reg q o2 = (if q = p ∧ o2 = o then v else s.reg q o2) ∧ (s.setReg p o v).canonical = true
        ∧ (s.clearRegs p 0x40 0x1000).reg q o2 = (if q = p ∧ 0x40 ≤ o2 then regDflt (regKey q o2) else s.reg q o2)
        ∧ (s.clearRegs p 0x40 0x1000).canonical = true)

/-- R7 to R10, R14: each field of a register takes a write as its type says (what the hardware sets in the same cycle stays set, R9), a locked page keeps its RWL fields and records a write
that would have changed one; a page without block logic changes by this alone, and a reserved offset ignores the write.
Said to complete, with a next state that has its effect: `registerWrite`. -/
def Obligations.RegisterWrites : Prop :=
  (∀ (fs : List Field) (locked : Bool) (v mask old : Word), fs.Pairwise (fun f g => f.hi < g.lo ∨ g.hi < f.lo) →
    (∀ f ∈ fs, f.lo ≤ f.hi ∧ f.hi < 32 ∧ f.ty ≠ .ovf) → ∀ f ∈ fs,
      let n := fieldsWrite fs locked v mask old
      let m := maskOf f.hi f.lo
      (f.ty = .rw ∨ f.ty = .rwl ∧ locked = false → n &&& m = ((old &&& ~~~mask) ||| (v &&& mask)) &&& m)
      ∧ (f.ty = .rwl ∧ locked = true ∨ f.ty = .ro ∨ f.ty = .wo ∨ f.ty = .rc → n &&& m = old &&& m)
      ∧ (f.ty = .w1c → n &&& m = old &&& ~~~(v &&& mask) &&& m)
      ∧ (f.ty = .w1s → n &&& m = (old ||| (v &&& mask)) &&& m))
  ∧ (∀ (s : State) (p : PageId) (o : Nat) (w : Word), s.keptBits p o w = (if s.hotBits p o &&& w = 0 then (s, 0)
      else (s.draw, if Config.crossesLater s.free then 0 else s.hotBits p o &&& w)))
  ∧ (∀ (locked : Bool) (v old : Word), fieldsWrite [⟨15, 0, .ro⟩, ⟨16, 16, .ovf⟩] locked v 0xFFFFFFFF old
      = if bitOf v 16 then old &&& ~~~0x1FFFF else old)
  ∧ (∀ (x : Access) (p : PageId) (s s1 : State) (off : Nat) (v mask : Word), s.Reaches x p s1 → p.kind ∈ [.cmd, .str, .cap] → 0x40 ≤ off →
      let o := off / 4 * 4
      (∀ d, regAt p.kind p.inst o = some d →
        let k := s1.keptBits p o (clearMask d.fields v mask)
        (s1.rbit p Reg.PAGE_LOCK 0 = false →
          exec (.registerWrite x p off v mask) s = .next (k.1.setReg p o (fieldsWrite d.fields false v mask (s1.reg p o) ||| k.2)).wrote)
        ∧ (s1.rbit p Reg.PAGE_LOCK 0 = true →
          exec (.registerWrite x p off v mask) s = .next (let u := k.1.setReg p o (fieldsWrite d.fields true v mask (s1.reg p o) ||| k.2)
            if lockHit d.fields v mask (s1.reg p o) then u.stick p Reg.PAGE_STAT 1 else u).wrote))
      ∧ (regAt p.kind p.inst o = none → exec (.registerWrite x p off v mask) s = .next s1.wrote))
  ∧ (∀ (x : Access) (p : PageId) (s : State) (off : Nat) (v mask : Word), s.pageAccess x.by_ p = none → s.pageWaits x.by_ p = false →
      exec (.registerWrite x p off v mask) s = .next { s with resp := busFail x.by_ })

/-- R7, R11 to R14, R589: the common header. Events clear by writing 1 (`FIFO_THR` is
raised again while the result FIFO stands at its threshold, R131) and are raised by `PAGE_IRQ_SET`, identity registers ignore
writes, 0xA5 locks the page, a locked page keeps `PAGE_CTL` and ignores a soft reset, and a soft reset of an unlocked page returns its block
to reset and spares the lock and the identity (which of a block's registers stay is the model's choice, log 61).
Each of these is said to complete, with a next state that has its effect: `pageLockWrite`, `softReset`. -/
def Obligations.PageHeaders : Prop :=
  ∀ (x : Access) (p : PageId) (s s1 : State) (v mask : Word), s.Reaches x p s1 → s1.TakesHeader x p → p.inst < 256 →
    exec (.registerWrite x p Reg.PAGE_IRQ_STAT v mask) s
        = .next (let k := s1.keptBits p Reg.PAGE_IRQ_STAT (v &&& mask)
                 let t := k.1.setReg p Reg.PAGE_IRQ_STAT (s1.reg p Reg.PAGE_IRQ_STAT &&& ~~~(v &&& mask) ||| k.2)
                 if p.kind = .smp then t.fifoThr (clu p.inst) else t).wrote
    ∧ exec (.registerWrite x p Reg.PAGE_IRQ_SET v mask) s
        = .next (s1.setReg p Reg.PAGE_IRQ_STAT (s1.reg p Reg.PAGE_IRQ_STAT ||| (v &&& mask &&& pageEvents p))).wrote
    ∧ exec (.registerWrite x p Reg.PAGE_IRQ_EN v mask) s
        = .next (s1.setReg p Reg.PAGE_IRQ_EN ((s1.reg p Reg.PAGE_IRQ_EN &&& ~~~mask) ||| (v &&& pageEvents p &&& mask))).wrote
    ∧ exec (.registerWrite x p Reg.PAGE_ID v mask) s = .next s1.wrote ∧ exec (.registerWrite x p Reg.PAGE_CAP v mask) s = .next s1.wrote
    ∧ exec (.pageLockWrite x p) s = .next (s1.setBit p Reg.PAGE_LOCK 0 true).wrote
    ∧ (s1.Open p → bitOf (v &&& mask) 1 = false →
        exec (.registerWrite x p Reg.PAGE_CTL v mask) s
          = .next (let t := if s1.holdsEn x p v mask then (s1.raise p 1).ctlSet p (v ||| 1) mask else s1.ctlSet p v mask
                   if p.kind = .pwg0 then
                     (let u := t.settleAll (clu p.inst) t.now; if bitOf (v &&& mask) 2 then u.freezeHalted (clu p.inst) else u)
                   else t).wrote)
    ∧ (¬ s1.Open p → p.kind ≠ .pwg0 → s1.holdsEn x p v mask = false →
        bitOf (v &&& mask) 1 = false → exec (.registerWrite x p Reg.PAGE_CTL v mask) s
          = .next (if (s1.reg p Reg.PAGE_CTL ^^^ v) &&& mask &&& 5 = 0 then s1 else s1.stick p Reg.PAGE_STAT 1).wrote)
    ∧ (¬ s1.Open p → p.kind ≠ .pwg0 → s1.holdsEn x p (v ||| 2) 0xFFFFFFFF = false → (s1.reg p Reg.PAGE_CTL ^^^ v) &&& 5 = 0 →
        exec (.softReset x p v) s = .next (s1.stick p Reg.PAGE_STAT 1).wrote)
    ∧ (s1.Open p → p.kind ∈ [.mmu, .cxl, .cmd, .str, .strCommon, .rst, .pwr, .sec] →
        ∃ t, exec (.softReset x p v) s = .next t ∧ t.reg p Reg.PAGE_LOCK = s1.reg p Reg.PAGE_LOCK
          ∧ t.reg p Reg.PAGE_ID = s1.reg p Reg.PAGE_ID ∧ t.reg p Reg.PAGE_CAP = s1.reg p Reg.PAGE_CAP ∧ t.mem = s1.mem
          ∧ (p.kind ∈ [.mmu, .cmd, .str, .strCommon] → ∀ o < 4096, 0x40 ≤ o → t.reg p o = regDflt (regKey p o))
          ∧ (p.kind = .mmu → (t.core (.ac (clu p.inst))).tlb = [] ∧ (t.core (.ac (clu p.inst))).walk = [])
          ∧ (p.kind = .cmd → t.cmd = CmdUnit.init) ∧ (p.kind = .strCommon → t.fab = { Fabric.init with strap := s1.fab.strap })
          ∧ (p.kind = .rst → ∀ o ∈ [Reg.RST_CAUSE, Reg.RST_MON, Reg.RST_BOOT, Reg.RST_BRG_STAT], t.reg p o = s1.reg p o)
          ∧ (p.kind = .pwr → (∀ d < 148, t.domState d = s1.domState d) ∧ t.power.queue = [])
          ∧ (p.kind = .sec → t.sec.signing = none ∧ t.sec.ext = none))

/-- R13, R591 to R596: a soft reset of an unlocked page with block logic. The time base refuses it while a carrier runs and keeps
`TLOST` and itself; a running carrier stops at the next valley first; the generator's page 0 keeps polarities, safe causes and,
with a carrier that runs, the half-period, its outputs go inactive, and a channel is safe where a cause stands; its page 1 ends latches and windows; the sample page empties
its tables and FIFO; the comparators go off, their thresholds return to reset and settle again, and the readback ends.
Each of these is said to complete, with a next state that has its effect: `dtbSoftReset`, `frmSoftReset`, `pwgPage0SoftReset`, `pwgPage1SoftReset`,
`smpSoftReset`, `cmpSoftReset`. -/
def Obligations.BlockSoftResets : Prop :=
  ∀ (x : Access) (s s1 : State) (c : Fin 8) (v : Word),
    (s.Reaches x pgDtb s1 → s1.Open pgDtb →
      (s1.carRun = true → exec (.dtbSoftReset x v) s = .next ((s1.ctlSet pgDtb v 5).raise pgDtb 2).wrote)
      ∧ (s1.carRun = false → ∃ t, exec (.dtbSoftReset x v) s = .next t ∧ t.rbit pgDtb Reg.DTB_STAT 3 = s1.rbit pgDtb Reg.DTB_STAT 3
          ∧ t.rbit pgDtb Reg.DTB_STAT 1 = false ∧ t.rbit pgDtb Reg.DTB_STAT 2 = false ∧ t.time.ns = s1.time.ns ∧ t.time.frac = s1.time.frac
          ∧ t.time.mfn = s1.time.mfn ∧ t.time.mft = s1.time.mft ∧ t.time.loadPend = false ∧ t.time.ptmOfs = 0 ∧ t.mem = s1.mem ∧ t.clusters = s1.clusters
          ∧ ∀ o < 4096, 0x40 ≤ o → o ≠ Reg.DTB_STAT → t.reg pgDtb o = regDflt (regKey pgDtb o)))
    ∧ (s.Reaches x (pgFrm c) s1 → s1.Open (pgFrm c) →
      (s1.counting c = true → ∃ t, exec (.frmSoftReset x c v) s = .next t
          ∧ t.car c = { s1.car c with stopPend := true, restart := none, srstPend := true } ∧ t.rbit (pgFrm c) Reg.PAGE_STAT 2 = true
          ∧ t.rbit (pgFrm c) Reg.FRM_CTL 0 = false ∧ t.mem = s1.mem ∧ t.cores = s1.cores)
      ∧ (s1.counting c = false → ∃ t, exec (.frmSoftReset x c v) s = .next t ∧ (t.car c).phase = .stopped
          ∧ (t.car c).tickDtb = 0 ∧ (t.car c).tickFcnt = 0 ∧ (t.car c).tickMfn = 0 ∧ t.mem = s1.mem
          ∧ t.rbit (pgFrm c) Reg.PAGE_STAT 2 = false ∧ ∀ o < 4096, 0x40 ≤ o → t.reg (pgFrm c) o = regDflt (regKey (pgFrm c) o)))
    ∧ (s.Reaches x (pgPwg0 c) s1 → s1.Open (pgPwg0 c) →
      ∃ t, exec (.pwgPage0SoftReset x c v) s = .next t ∧ t.OutputsOff c ∧ t.mem = s1.mem ∧ t.cores = s1.cores
        ∧ t.reg (pgPwg0 c) Reg.PWG_SAFE_CAUSE = s1.reg (pgPwg0 c) Reg.PWG_SAFE_CAUSE
        ∧ t.reg (pgPwg0 c) Reg.PWG_PER_ACT = (if s1.running c then s1.reg (pgPwg0 c) Reg.PWG_PER_ACT else regDflt (regKey (pgPwg0 c) Reg.PWG_PER_ACT))
        ∧ (t.pwm c).tokBus = 0 ∧ (t.pwm c).perWait = false
        ∧ ∀ k : Fin 18, (t.ch c k).shU = 0x7FFFFF ∧ (t.ch c k).shD = 0x7FFFFF ∧ (t.ch c k).safe = s1.safeCaused c
            ∧ (t.ch c k).newU = none ∧ (t.ch c k).newD = none
            ∧ (t.ch c k).polH = (s1.ch c k).polH ∧ (t.ch c k).polL = (s1.ch c k).polL
            ∧ t.chCtl c k 6 5 = b2n (s1.ch c k).polH + 2 * b2n (s1.ch c k).polL ∧ t.chCtl c k 0 0 = 0)
    ∧ (s.Reaches x (pgPwg1 c) s1 → s1.Open (pgPwg1 c) →
      ∃ t, exec (.pwgPage1SoftReset x c v) s = .next t ∧ t.mem = s1.mem ∧ t.cores = s1.cores
        ∧ (∀ u : Fin 4, (t.pwm c).blk[u] = none) ∧ (∀ k : Fin 18, (t.ch c k).latched = false ∧ (t.ch c k).cbc = false ∧ t.reg (pgPwg1 c) (Reg.PWG_CH_TRIPMODE k) = 0))
    ∧ (s.Reaches x (pgSmp c) s1 → s1.Open (pgSmp c) →
      ∃ t, exec (.smpSoftReset x c v) s = .next t ∧ t.mem = s1.mem ∧ t.cores = s1.cores ∧ t.clusters[c].adc = s1.clusters[c].adc
        ∧ t.clusters[c].smp.bank = false ∧ t.clusters[c].smp.bank0 = Vector.replicate 64 (0, 0)
        ∧ t.clusters[c].smp.bank1 = Vector.replicate 64 (0, 0) ∧ t.clusters[c].smp.chk = none ∧ t.clusters[c].smp.armed = none
        ∧ t.clusters[c].smp.fifo = [] ∧ t.clusters[c].smp.subst = none ∧ t.clusters[c].smp.undOff = false
        ∧ ∀ o < 4096, 0x40 ≤ o → t.reg (pgSmp c) o = regDflt (regKey (pgSmp c) o))
    ∧ (s.Reaches x (pgCmp c) s1 → s1.Open (pgCmp c) → s1.pagePowered (pgCmp c) = true →
      ∃ t, exec (.cmpSoftReset x c v) s = .next t ∧ t.mem = s1.mem ∧ t.cores = s1.cores
        ∧ (∀ m : Fin 12, t.reg (pgCmp c) (Reg.CMP_CTL m) = regDflt (regKey (pgCmp c) (Reg.CMP_CTL m))
            ∧ t.reg (pgCmp c) (Reg.CMP_THR_ACT m) = regDflt (regKey (pgCmp c) (Reg.CMP_THR_ACT m))
            ∧ t.clusters[c].cmp[m].ready = false ∧ t.clusters[c].cmp[m].thrPend = none
            ∧ t.rbit (pgCmp c) (Reg.CMP_ST m) 7 = (s1.rbit (pgCmp c) (Reg.CMP_ST m) 7 || s1.reg (pgCmp c) (Reg.CMP_THR_ACT m) != regDflt (regKey (pgCmp c) (Reg.CMP_THR_ACT m))))
        ∧ t.clusters[c].rb.pend = none ∧ t.clusters[c].rb.running = false)

/-- R17 to R20, R98: a unit that fails its CRC is replayed and counted; after four failures in succession the bridge retrains, while
traffic waits, after three failed retrainings it is declared down, which holds until the hold time drives every output to its safe vector; idle lanes
sleep, and a unit wakes them.
Each of these is said to complete, with a next state that has its effect: `bridgeCrcFail`, `bridgeReplayDone`, `bridgeRetrainDone`,
`bridgeHoldExpiry`, `bridgeLaneSleep`, `bridgeLaneWake`. -/
def Obligations.BridgeEvents : Prop :=
  ∀ s : State,
    (s.bridgeIsDown = false → exec .bridgeCrcFail s
      = .next ((s.modBridge (fun _ => { s.bridge with asleep := false, lastUnit := s.time.clk, replays := 0 })).count pgRst Reg.RST_BRG_REPLAY 15 0))
    ∧ (s.bridgeIsDown = false → s.rbit pgRst Reg.RST_BRG_STAT 1 = false →
        exec (.bridgeReplayDone true) s = .next (s.modBridge (fun b => { b with replays := 0 }))
        ∧ (s.bridge.replays < 3 → exec (.bridgeReplayDone false) s
            = .next ((s.modBridge (fun b => { b with replays := b.replays + 1 })).count pgRst Reg.RST_BRG_REPLAY 15 0))
        ∧ (3 ≤ s.bridge.replays → exec (.bridgeReplayDone false) s
            = .next (((s.modBridge (fun b => { b with replays := 0, retrains := 0 })).setBit pgRst Reg.RST_BRG_STAT 1 true).count pgRst Reg.RST_BRG_RETRAIN 15 0)))
    ∧ (s.bridgeIsDown = false → s.rbit pgRst Reg.RST_BRG_STAT 1 = true →
        (s.bridge.waiting = [] →
          exec (.bridgeRetrainDone true) s = .next ((s.setBit pgRst Reg.RST_BRG_STAT 1 false).modBridge (fun b => { b with retrains := 0 })))
        ∧ (s.bridge.waiting ≠ [] → (∀ w ∈ s.bridge.waiting, ∃ u, w = .stop u) → s.canonical = true → ∃ t, exec (.bridgeRetrainDone true) s = .next t
            ∧ t.bridge = { s.bridge with retrains := 0, asleep := false, lastUnit := s.time.clk, waiting := [] }
            ∧ (∀ c : Fin 8, s.domOn (66 + 5 * c.val) = true → (∀ k : Fin 18, (t.ch c k).safe = true) ∧ t.rbit (pgPwg0 c) Reg.PWG_SAFE_CAUSE 0 = true)
            ∧ t.mem = s.mem ∧ t.cores = s.cores)
        ∧ (s.bridge.retrains < 2 → exec (.bridgeRetrainDone false) s
            = .next (((s.modBridge (fun b => { b with retrains := b.retrains + 1 })).setBit pgRst Reg.RST_BRG_STAT 1 true).count pgRst Reg.RST_BRG_RETRAIN 15 0))
        ∧ (2 ≤ s.bridge.retrains → s.canonical = true → ∃ t, exec (.bridgeRetrainDone false) s = .next t ∧ t.bridgeIsDown = true
            ∧ t.bridge.hold = some (s.time.clk + 1600 * min 1000 (s.fld pgRst Reg.RST_BRG_HOLD 9 0)) ∧ t.mem = s.mem ∧ t.cores = s.cores ∧ t.clusters = s.clusters))
    ∧ (s.bridgeIsDown = true → exec .bridgeCrcFail s = .next s ∧ (∀ ok, exec (.bridgeReplayDone ok) s = .next s ∧ exec (.bridgeRetrainDone ok) s = .next s)
        ∧ exec .bridgeLaneWake s = .next s)
    ∧ (∀ h, s.bridge.hold = some h → s.canonical = true → ∃ t, exec .bridgeHoldExpiry s = .next t ∧ t.bridge.hold = none ∧ max s.time.clk h = t.time.clk
        ∧ (∀ c : Fin 8, s.domOn (66 + 5 * c.val) = true → (∀ k : Fin 18, (t.ch c k).safe = true) ∧ t.rbit (pgPwg0 c) Reg.PWG_SAFE_CAUSE 2 = true) ∧ t.mem = s.mem ∧ t.cores = s.cores)
    ∧ (s.bridge.hold = none → exec .bridgeHoldExpiry s = .next s)
    ∧ (s.bridgeTrains = true → exec .bridgeLaneSleep s = .next s)
    ∧ (s.bridge.asleep = false → s.bridgeTrains = false → ∃ t, exec .bridgeLaneSleep s = .next t ∧ t.bridge = { s.bridge with asleep := true }
        ∧ t.time.clk = max s.time.clk (s.bridge.lastUnit + 16000) ∧ t.mem = s.mem ∧ t.cores = s.cores ∧ t.clusters = s.clusters)
    ∧ (s.bridgeIsDown = false → exec .bridgeLaneWake s = .next (s.modBridge (fun b => { b with asleep := false, lastUnit := s.time.clk })))

/-- R36: while the fabric or the host disciplines the time base, a write of `DTB_INC` changes nothing and records no lock hit; a read
always answers with the increment in use.
Said to complete, with a next state that has its effect: `dtbIncWrite`. -/
def Obligations.IncrementOwned : Prop :=
  ∀ (x : Access) (s s1 : State) (v mask : Word), s.Reaches x pgDtb s1 →
    (s1.fld pgDtb Reg.DTB_CTL 1 0 = 1 ∨ s1.fld pgDtb Reg.DTB_CTL 1 0 = 2 → exec (.dtbIncWrite x v mask) s = .next s1.wrote)
    ∧ (s.regRead x.by_ x.m pgDtb Reg.DTB_INC).resp = .data ((s1.reg pgDtb Reg.DTB_INC).setWidth 64)

/-- R35, R37, R40, R51, R64, R65, R67: writes to the time base. The increment is held to its range; LOAD, STEP and MFLOAD act only
while no carrier runs; TLCLR needs `TLOCK`; a dialog starts only where the host allows it; a change of `SRC` begins discipline
afresh; the machine frame period is held to its range, and the root of a fabric applies a new one no sooner than 100 µs later (R561).
Each of these is said to complete, with a next state that has its effect: `dtbIncWrite`, `dtbCmdLoad`, `dtbCmdStep`, `dtbCmdMfload`, `dtbCmdTlclr`,
`dtbCmdPtmreq`, `dtbCtlWrite`, `dtbMfpWrite`. -/
def Obligations.TimeBaseWrites : Prop :=
  ∀ (x : Access) (s s1 : State) (v mask : Word), s.Reaches x pgDtb s1 →
    (let w := ((s1.reg pgDtb Reg.DTB_INC &&& ~~~mask) ||| (v &&& mask)).toNat
     s1.src = 0 →
      (0x9FEB851F ≤ w → w ≤ 0xA0147AE1 → exec (.dtbIncWrite x v mask) s = .next (s1.dtbPast.setReg pgDtb Reg.DTB_INC (w32 w)).wrote)
      ∧ (w < 0x9FEB851F → exec (.dtbIncWrite x v mask) s = .next ((s1.dtbPast.setReg pgDtb Reg.DTB_INC 0x9FEB851F).raise pgDtb 1).wrote)
      ∧ (0xA0147AE1 < w → exec (.dtbIncWrite x v mask) s = .next ((s1.dtbPast.setReg pgDtb Reg.DTB_INC 0xA0147AE1).raise pgDtb 1).wrote))
    ∧ (s1.carRun = true →
        exec (.dtbCmdLoad x) s = .next (s1.raise pgDtb 2).wrote ∧ exec (.dtbCmdStep x) s = .next (s1.raise pgDtb 2).wrote
        ∧ (s1.src ≠ 1 → exec (.dtbCmdMfload x) s = .next (s1.raise pgDtb 2).wrote))
    ∧ (s1.carRun = false →
        exec (.dtbCmdLoad x) s = .next { s1.dtbPast with
          time := { s1.dtbPast.time with ns := s1.reg pgDtb Reg.DTB_SET_HI ++ s1.reg pgDtb Reg.DTB_SET_LO, frac := 0 }, resp := .none }
        ∧ (let n : Int := s1.time.ns.toNat + (s1.reg pgDtb Reg.DTB_STEP).toInt
           exec (.dtbCmdStep x) s = .next (let u := { s1.dtbPast with time := { s1.dtbPast.time with ns := BitVec.ofInt 64 n }, resp := .none }
             if n < 0 ∨ 2 ^ 64 ≤ n then u.raise pgDtb 0 else u))
        ∧ (s1.src ≠ 1 → ∃ t, exec (.dtbCmdMfload x) s = .next t ∧ t.regs = s1.regs ∧ t.mem = s1.mem ∧ t.clusters = s1.clusters
            ∧ t.time = { s1.time with mft := s1.reg pgDtb Reg.DTB_SET_HI ++ s1.reg pgDtb Reg.DTB_SET_LO, mfn := t.time.mfn }
            ∧ t.time.mfn = (s1.reg pgDtb Reg.DTB_MFNSET_HI).setWidth 16 ++ s1.reg pgDtb Reg.DTB_MFNSET_LO))
    ∧ (s1.src = 1 → exec (.dtbCmdMfload x) s = .next s1.wrote)
    ∧ exec (.dtbCmdTlclr x) s = .next (if s1.rbit pgDtb Reg.DTB_STAT 1 then s1.setBit pgDtb Reg.DTB_STAT 3 false else s1.raise pgDtb 2).wrote
    ∧ exec (.dtbCmdPtmreq x) s
        = .next (if s1.rbit pgCxl Reg.CXL_STAT 12 then { s1 with time := { s1.time with ptmBusy := true } } else s1.raise pgDtb 6).wrote
    ∧ (s1.Open pgDtb →
        let old := s1.reg pgDtb Reg.DTB_CTL
        let n := (old &&& ~~~(mask &&& 7)) ||| (v &&& mask &&& 7)
        (bitsOf n 1 0 = bitsOf old 1 0 → exec (.dtbCtlWrite x v mask) s = .next (s1.setReg pgDtb Reg.DTB_CTL n).wrote)
        ∧ (bitsOf n 1 0 ≠ bitsOf old 1 0 → s1.carRun = true →
            exec (.dtbCtlWrite x v mask) s = .next ((s1.setReg pgDtb Reg.DTB_CTL (putBits n 1 0 (bitsOf old 1 0))).raise pgDtb 2).wrote)
        ∧ (bitsOf n 1 0 ≠ bitsOf old 1 0 → s1.carRun = false →
            ∃ t, exec (.dtbCtlWrite x v mask) s = .next t ∧ t.reg pgDtb Reg.DTB_CTL = n
              ∧ t.time = { s1.time with loadPend := decide (bitsOf n 1 0 = 1 ∨ bitsOf n 1 0 = 2), lockRun := 0, lastMsg := s1.time.clk
                                        heldLost := false, ptmFirst := none }
              ∧ t.rbit pgDtb Reg.DTB_STAT 1 = false ∧ t.rbit pgDtb Reg.DTB_STAT 2 = false
              ∧ t.rbit pgDtb Reg.DTB_STAT 3 = s1.rbit pgDtb Reg.DTB_STAT 3 ∧ t.mem = s1.mem ∧ t.clusters = s1.clusters)
        ∧ (let m := (s1.reg pgDtb Reg.DTB_MFP &&& ~~~(mask &&& 0xFFFFFF)) ||| (v &&& mask &&& 0xFFFFFF)
           (s1.src = 1 → exec (.dtbMfpWrite x v mask) s = .next s1.wrote)
           ∧ (s1.src ≠ 1 → exec (.dtbMfpWrite x v mask) s
                = .next (let u := s1.setReg pgDtb Reg.DTB_MFP (putBits m 23 0 (max 10000 (min 10000000 (bitsOf m 23 0))))
                         { u with time := { u.time with mfpDue := if s1.isRoot then s1.time.clk + 160000 else 0 }, resp := .none }))))

/-- R34, R37, R65, R67, R51, R563: what the time base does by itself. It counts on to its wrap; a machine frame's number, start and
period follow on its boundary; without a message for 100 µs it holds over, after 1 ms more the time is lost and every channel goes to
its safe vector; a dialog that is due starts, and its answer gives the offset.
Each of these is said to complete, with a next state that has its effect: `dtbWrap`, `machineFrameBoundary`, `timeHoldover`, `fabricTimeLost`,
`ptmDialogDue`, `ptmResponse`. -/
def Obligations.TimeEvents : Prop :=
  ∀ s : State, s.canonical = true →
    (0x9FEB851F ≤ s.inc → ∃ t, exec .dtbWrap s = .next t ∧ t.rbit pgDtb Reg.PAGE_IRQ_STAT 0 = true ∧ t.dtb < s.inc ∧ t.mem = s.mem
        ∧ t.clusters = s.clusters ∧ t.cores = s.cores
        ∧ s.time.clk ≤ t.time.clk ∧ (s.dtb + (t.time.clk - s.time.clk) * s.inc) % 2 ^ 96 = t.dtb
        ∧ 2 ^ 96 ≤ s.dtb + (t.time.clk - s.time.clk) * s.inc)
    ∧ (∃ t, exec .machineFrameBoundary s = .next t ∧ t.time.mfn = s.time.mfn + 1 ∧ t.time.mft = s.time.mft + BitVec.ofNat 64 s.time.mfp
        ∧ t.time.mfp = (if s.time.mfpDue ≤ t.time.clk then s.fld pgDtb Reg.DTB_MFP 23 0 else s.time.mfp) ∧ t.time.clk = max s.time.clk (s.mfBoundary / 16)
        ∧ (s.time.mfn = 0xFFFFFFFFFFFF → t.rbit pgDtb Reg.PAGE_IRQ_STAT 7 = true) ∧ t.fab.rxHit = 0 ∧ t.fab.txDone = 0
        ∧ t.mem = s.mem ∧ t.clusters = s.clusters ∧ t.cores = s.cores ∧ t.dma = s.dma)
    ∧ (s.src = 1 → s.rbit pgDtb Reg.DTB_STAT 2 = false →
        ∃ t, exec .timeHoldover s = .next t ∧ t.rbit pgDtb Reg.DTB_STAT 2 = true ∧ t.time.clk = max s.time.clk (s.time.lastMsg + 160000) ∧ t.time.reacq = true
          ∧ t.mem = s.mem ∧ t.clusters = s.clusters ∧ t.cores = s.cores ∧ t.reg pgDtb Reg.DTB_INC = s.reg pgDtb Reg.DTB_INC)
    ∧ (s.src ≠ 1 ∨ s.rbit pgDtb Reg.DTB_STAT 2 = true → exec .timeHoldover s = .next s)
    ∧ (s.src = 1 → s.rbit pgDtb Reg.DTB_STAT 2 = true → s.time.heldLost = false →
        ∃ t, exec .fabricTimeLost s = .next t ∧ t.rbit pgDtb Reg.DTB_STAT 3 = true ∧ t.rbit pgDtb Reg.PAGE_IRQ_STAT 3 = true
          ∧ t.time.clk = max s.time.clk (s.time.lastMsg + 1760000) ∧ t.time.heldLost = true
          ∧ (∀ c : Fin 8, s.domOn (66 + 5 * c.val) = true → ∀ k : Fin 18, (t.ch c k).safe = true) ∧ t.mem = s.mem ∧ t.cores = s.cores)
    ∧ (s.src ≠ 1 ∨ s.rbit pgDtb Reg.DTB_STAT 2 = false ∨ s.time.heldLost = true → exec .fabricTimeLost s = .next s)
    ∧ (s.rbit pgDtb Reg.DTB_CTL 2 = false → exec .ptmDialogDue s = .next s)
    ∧ (s.rbit pgDtb Reg.DTB_CTL 2 = true →
        ∃ t, exec .ptmDialogDue s = .next t ∧ t.time.clk = max s.time.clk (s.time.ptmLast + s.fld pgDtb Reg.DTB_PTM_CTL 9 0 * 1600000)
          ∧ t.time.ptmLast = t.time.clk ∧ t.time.ptmBusy = (s.time.ptmBusy || s.rbit pgCxl Reg.CXL_STAT 12)
          ∧ (s.rbit pgCxl Reg.CXL_STAT 12 = false → t.rbit pgDtb Reg.PAGE_IRQ_STAT 6 = true) ∧ t.mem = s.mem ∧ t.clusters = s.clusters ∧ t.cores = s.cores)
    ∧ (∀ o, s.time.ptmBusy = false → exec (.ptmResponse o) s = .next s)
    ∧ (s.time.ptmBusy = true →
        exec (.ptmResponse none) s = .next ({ s with time := { s.time with ptmBusy := false } }.raise pgDtb 6)
        ∧ ∀ h : DWord,
          (s.src ≠ 2 → exec (.ptmResponse (some h)) s
            = .next (({ s with time := { s.time with ptmBusy := false, ptmOfs := h - s.time.ns } }.raise pgDtb 5).count pgDtb Reg.DTB_PTM_CNT 15 0))
          ∧ (s.src = 2 → s.time.ptmFirst = none → s.time.loadPend = true → s.carRun = false →
              ∃ t, exec (.ptmResponse (some h)) s = .next t ∧ t.time.ns = h ∧ t.time.frac = 0 ∧ t.time.ptmFirst = some 0
                ∧ t.time.loadPend = false ∧ t.time.ptmOfs = h - s.time.ns ∧ t.mem = s.mem ∧ t.clusters = s.clusters ∧ t.cores = s.cores)
          ∧ (s.src = 2 → ∀ f, s.time.ptmFirst = some f →
              ∃ t, exec (.ptmResponse (some h)) s = .next t ∧ t.time.ptmOfs = h - s.time.ns ∧ t.time.ns = s.time.ns
                ∧ 0x9FEB851F ≤ t.inc ∧ t.inc ≤ 0xA0147AE1 ∧ t.mem = s.mem ∧ t.clusters = s.clusters ∧ t.cores = s.cores))

/-- R38, R39, R51, R53, R67: a read of a low half answers with it and latches, for this initiator alone, the other parts of the same
value; an engine reads its own cluster's copy of the time 5 ns late.
Each of these is said to complete, with a next state that has its effect: `dtbNsLoRead`, `frmDtbLoRead`, `frmTickDtbLoRead`, `dtbMfnLoRead`,
`dtbPtmOfsLoRead`. -/
def Obligations.TimeReads : Prop :=
  ∀ (x : Access) (s s1 : State) (c : Fin 8),
    (s.Reaches x pgDtb s1 →
      exec (.dtbNsLoRead x) s = .next (((s1.setSnap x.by_ pgDtb Reg.DTB_NS_HI ((s1.time.ns >>> 32).setWidth 32)).setSnap x.by_ pgDtb Reg.DTB_FRAC
        s1.time.frac).answer (s1.time.ns &&& 0xFFFFFFFF))
      ∧ exec (.dtbMfnLoRead x) s = .next ((((s1.setSnap x.by_ pgDtb Reg.DTB_MFN_HI ((s1.time.mfn >>> 32).setWidth 32)).setSnap x.by_ pgDtb Reg.DTB_MFT_LO
        (s1.time.mft.setWidth 32)).setSnap x.by_ pgDtb Reg.DTB_MFT_HI ((s1.time.mft >>> 32).setWidth 32)).answer ((s1.time.mfn.setWidth 32).setWidth 64))
      ∧ exec (.dtbPtmOfsLoRead x) s = .next ((s1.setSnap x.by_ pgDtb Reg.DTB_PTM_OFS_HI ((s1.time.ptmOfs >>> 32).setWidth 32)).answer
        (s1.time.ptmOfs &&& 0xFFFFFFFF)))
    ∧ (s.Reaches x (pgFrm c) s1 →
      exec (.frmTickDtbLoRead x c) s = .next (((((s1.setSnap x.by_ (pgFrm c) Reg.FRM_TICK_DTB_HI (((s1.car c).tickDtb >>> 32).setWidth 32)).setSnap
        x.by_ (pgFrm c) Reg.FRM_TICK_FCNT (s1.car c).tickFcnt).setSnap x.by_ (pgFrm c) Reg.FRM_TICK_MFN_LO ((s1.car c).tickMfn.setWidth 32)).setSnap
        x.by_ (pgFrm c) Reg.FRM_TICK_MFN_HI (((s1.car c).tickMfn >>> 32).setWidth 32)).answer ((s1.car c).tickDtb &&& 0xFFFFFFFF))
      ∧ ((∀ e, x.by_ = .core (.ce e) → clusterOf e ≠ c) →
        exec (.frmDtbLoRead x c) s = .next (((s1.setSnap x.by_ (pgFrm c) Reg.FRM_DTB_HI ((s1.time.ns >>> 32).setWidth 32)).setSnap x.by_ (pgFrm c)
          Reg.FRM_DTB_FRAC s1.time.frac).answer (s1.time.ns &&& 0xFFFFFFFF)))
      ∧ (∀ e, x.by_ = .core (.ce e) → clusterOf e = c →
        let v := s1.dtbBack 8
        (s1.time.past = [] → 8 ≤ s1.time.clk → v = (s1.dtb + 2 ^ 96 - 8 * s1.inc) % 2 ^ 96) ∧
        exec (.frmDtbLoRead x c) s = .next (((s1.setSnap x.by_ (pgFrm c) Reg.FRM_DTB_HI (w32 (v / 2 ^ 64))).setSnap x.by_ (pgFrm c)
          Reg.FRM_DTB_FRAC (w32 v)).answer (BitVec.ofNat 64 (v / 2 ^ 32 % 2 ^ 32)))))

/-- R46 to R50, R52, R54: a start fixes the first valley 1 µs ahead or later, or is refused for its rate; a member of a lock group waits
for its leader; a running carrier keeps its settings, and stops at its next valley; a start that waits is cancelled at once. The
lead time is held to its range and leaves room for a foreground; a running carrier keeps its frame count.
Each of these is said to complete, with a next state that has its effect: `frmRunStart`, `frmRunStop`, `frmLeadWrite`, `frmFcntWrite`. -/
def Obligations.CarrierCommands : Prop :=
  ∀ (x : Access) (c : Fin 8) (s s1 : State) (v mask : Word), s.Reaches x (pgFrm c) s1 → s1.Open (pgFrm c) →
    let p := pgFrm c
    let old := s1.reg p Reg.FRM_CTL
    let u := s1.setReg p Reg.FRM_CTL ((old &&& ~~~0x7F) ||| ((v ||| 1) &&& 0x7F))
    let w := s1.setReg p Reg.FRM_CTL ((old &&& ~~~0x7F) ||| (v &&& 0x7E))
    let τ := (s1.now + 25600 + 127) / 128 * 128
    let same := bitsOf v 2 1 = bitsOf old 2 1 ∧ (if 4 < bitsOf v 5 3 then 0 else bitsOf v 5 3) = bitsOf old 5 3 ∧ bitsOf v 6 6 = bitsOf old 6 6
    (s1.running c = false → bitsOf v 6 3 = 0 →
      (rateOk (u.tmode c) (u.hp c) (u.leadReg c) = true → exec (.frmRunStart x c v) s = .next (u.modCar c (fun k =>
        { k with phase := .starting, ideal := u.dtbAt τ, turn := τ, nextValley := τ, earliest := s1.now + 25600, ticked := false, nextTick := τ
                 lead := u.leadReg c * 128, stopPend := false, restart := none, deadlined := true })).wrote)
      ∧ (rateOk (u.tmode c) (u.hp c) (u.leadReg c) = false → exec (.frmRunStart x c v) s
          = .next (((u.setBit p Reg.FRM_CTL 0 false).raise p 3).modCar c (fun k => { k with phase := .stopped, restart := none })).wrote))
    ∧ (s1.running c = false → bitsOf v 6 6 = 1 → bitsOf v 5 3 = 0 → rateOk (u.tmode c) (u.hp c) (u.leadReg c) = true →
        divides (u.tmode c) (u.hp c) u.mfpReg = false → exec (.frmRunStart x c v) s
          = .next (((u.setBit p Reg.FRM_CTL 0 false).raise p 4).modCar c (fun k => { k with phase := .stopped, restart := none })).wrote)
    ∧ (s1.running c = false → 1 ≤ bitsOf v 5 3 → bitsOf v 5 3 ≤ 4 → u.leaderOf c ≠ c → u.running (u.leaderOf c) = false →
        rateOk (u.tmode c) (u.hp (u.leaderOf c)) (u.leadReg c) = true →
        exec (.frmRunStart x c v) s = .next (u.modCar c (fun k => { k with phase := .waitLeader, restart := none })).wrote)
    ∧ (s1.running c = true → bitsOf old 5 3 ≤ 4 →
        let on := s1.setReg p Reg.FRM_CTL (old ||| 1)
        let kept := if same then on else on.raise p 5
        ((s1.car c).stopPend = false → exec (.frmRunStart x c v) s = .next kept.wrote)
        ∧ ((s1.car c).stopPend = true → exec (.frmRunStart x c v) s
            = .next (kept.modCar c (fun k => { k with restart := some (s1.now + 25600) })).wrote))
    ∧ (s1.running c = false → bitsOf v 5 3 ≤ 4 → exec (.frmRunStop x c v) s = .next w.wrote)
    ∧ (s1.running c = true → bitsOf old 5 3 ≤ 4 →
        let off := s1.setReg p Reg.FRM_CTL (old &&& ~~~1)
        let kept := if same then off else off.raise p 5
        (s1.counting c = true → exec (.frmRunStop x c v) s = .next (kept.modCar c (fun k => { k with stopPend := true, restart := none })).wrote)
        ∧ ((s1.car c).phase = .waitLeader ∨ (s1.car c).phase = .starting → (s1.pwm c).late = [] →
          ∃ t, exec (.frmRunStop x c v) s = .next t ∧ t.car c = { s1.car c with phase := .stopped } ∧ t.regs = kept.regs
            ∧ (∀ k : Fin 18, (t.ch c k).imm = s1.rbit (pgPwg0 c) (Reg.PWG_CH_CTL k) 1) ∧ t.Apart { s1 with resp := .none }
            ∧ ∀ d : Fin 8, d ≠ c → t.car d = (if (s1.car c).phase = .starting ∧ (s1.car d).phase = .starting ∧ s1.leaderOf d = c
              then { s1.car d with phase := .waitLeader } else s1.car d)))
    ∧ (let n := (s1.reg p Reg.FRM_LEAD &&& ~~~(mask &&& 0x3FF)) ||| (v &&& mask &&& 0x3FF)
       let l := min 800 (bitsOf n 9 0)
       ((∀ per, tickPeriod (s1.tmode c) (s1.hp c) = some per → l * 128 + 3584 < per) →
          exec (.frmLeadWrite x c v mask) s = .next (s1.setReg p Reg.FRM_LEAD (putBits n 9 0 l)).wrote)
       ∧ (∀ per, tickPeriod (s1.tmode c) (s1.hp c) = some per → per ≤ l * 128 + 3584 →
          exec (.frmLeadWrite x c v mask) s = .next (s1.raise p 3).wrote))
    ∧ (s1.running c = true → exec (.frmFcntWrite x c v mask) s = .next s1.wrote)
    ∧ (s1.running c = false → exec (.frmFcntWrite x c v mask) s
        = .next (s1.setReg p Reg.FRM_FCNT ((s1.reg p Reg.FRM_FCNT &&& ~~~mask) ||| (v &&& mask))).wrote)

/-- R41 to R43, R47 to R50, R53 to R55, R61, R348: a carrier that starts reaches its first valley, then turns at apex and valley in
turn, each half-period after the last; a stop that is pending ends it at the valley. The tick of a frame counts it and records its
time; the lead window opens t_lead before, the deadline lies 40 ns before that. Each event does nothing where its turn has not come.
Each of these is said to complete, with a next state that has its effect: `carrierFirstValley`, `carrierValley`, `carrierApex`, `leadWindowOpen`,
`frameDeadline`, `catchupDeadline`. -/
def Obligations.CarrierEvents : Prop :=
  ∀ (s : State) (c : Fin 8) (k : Fin 36), s.canonical = true →
    let x := s.car c
    (x.phase ≠ .starting → exec (.carrierFirstValley c) s = .next s) ∧ (x.phase ≠ .down → exec (.carrierValley c) s = .next s)
    ∧ (x.phase ≠ .up → exec (.carrierApex c) s = .next s)
    ∧ ((s.pwm c).late = [] →
      (x.phase = .starting → ∃ t, exec (.carrierFirstValley c) s = .next t ∧ (t.car c).phase = .up ∧ (t.car c).valley = x.turn
          ∧ (t.car c).turn = x.turn + t.hp c ∧ (t.car c).ideal = x.ideal ∧ max s.time.clk (x.turn / 128 * 8) ≤ t.time.clk ∧ t.mem = s.mem
          ∧ (s.tmode c ≠ 0 → (t.car c).ticked = true ∧ (t.car c).tickFcnt = s.nextFcnt c ∧ t.reg (pgFrm c) Reg.FRM_FCNT = s.nextFcnt c
              ∧ t.rbit (pgFrm c) Reg.PAGE_IRQ_STAT 0 = true ∧ (t.car c).tick = x.turn / 128 * 128 ∧ t.rbit (pgFrm c) Reg.FRM_STAT 3 = false)
          ∧ (s.tmode c = 0 → (t.car c).ticked = x.ticked ∧ t.reg (pgFrm c) Reg.FRM_FCNT = s.reg (pgFrm c) Reg.FRM_FCNT))
      ∧ (x.phase = .down → x.stopPend = true → x.restart = none → x.srstPend = false →
          s.ticking c = false ∨ (x.ticked = false ∨ x.deadlined = true) ∧ s.leadIsOpen c = true →
          ∃ t, exec (.carrierValley c) s = .next t ∧ (t.car c).phase = .stopped ∧ t.running c = false ∧ t.mem = s.mem
            ∧ t.reg (pgFrm c) Reg.FRM_FCNT = s.reg (pgFrm c) Reg.FRM_FCNT ∧ (t.car c).tick = x.tick
            ∧ (∀ k : Fin 18, (t.ch c k).mode = .stopped ∧ (t.ch c k).imm = s.rbit (pgPwg0 c) (Reg.PWG_CH_CTL k) 1))
      ∧ (x.phase = .down → x.stopPend = false → s.tmode c = 0 →
          ∃ t, exec (.carrierValley c) s = .next t ∧ (t.car c).phase = .up ∧ (t.car c).valley = x.turn ∧ (t.car c).turn = x.turn + t.hp c
            ∧ (t.car c).ideal = (x.ideal + 2 * s.hp c * Config.stepFrac) % 2 ^ 96 ∧ t.mem = s.mem
            ∧ t.reg (pgFrm c) Reg.FRM_FCNT = s.reg (pgFrm c) Reg.FRM_FCNT)
      ∧ (x.phase = .up → s.tmode c ≠ 2 →
          ∃ t, exec (.carrierApex c) s = .next t ∧ (t.car c).phase = .down ∧ (t.car c).turn = x.nextValley ∧ (t.car c).nextTick = x.nextValley / 128 * 128
            ∧ (t.car c).valley = x.valley ∧ (t.car c).ticked = x.ticked ∧ t.time.clk = max s.time.clk (x.turn / 128 * 8)
            ∧ (s.tmode c = 1 → t.reg (pgPwg0 c) Reg.PWG_PER_ACT = s.reg (pgPwg0 c) Reg.PWG_PER_ACT) ∧ t.mem = s.mem ∧ t.cores = s.cores))
    ∧ (s.ticking c = false ∨ s.leadIsOpen c = true → exec (.leadWindowOpen c) s = .next s)
    ∧ (s.ticking c = true → s.leadIsOpen c = false →
        ∃ t, exec (.leadWindowOpen c) s = .next t ∧ (t.smp c).frame.map (fun f => (f.tick, f.fcnt, f.apex)) = some (x.nextTick, s.nextFcnt c, s.tmode c == 2 && x.phase == .up)
          ∧ (∀ f, (t.smp c).frame = some f → ∀ e : Fin 64, f.acted.getLsbD e = true → entEn ((t.smp c).entry false e).1 = true)
          ∧ t.time.clk = max s.time.clk ((x.nextTick - x.lead) / 16) ∧ t.car c = x ∧ t.mem = s.mem ∧ t.cores = s.cores)
    ∧ (s.ticking c = false ∨ x.ticked = false ∨ x.deadlined = true → exec (.frameDeadline c) s = .next s)
    ∧ (s.ticking c = true → x.ticked = true → x.deadlined = false →
        ∃ t, exec (.frameDeadline c) s = .next t ∧ t.car c = { x with deadlined := true } ∧ t.time.clk = max s.time.clk ((x.nextTick - x.lead - 1024) / 16)
          ∧ (∀ n : Fin 6, ∀ f, (s.fb c n).xfer = some f → f.entry.isSome = true → f.frame = x.tickFcnt → (t.fb c n).xfer = none)
          ∧ (∀ i : Fin 8, s.overdue c i = true → t.rbit (pgFrm c) Reg.FRM_FOVR_CE i = true)
          ∧ ((∀ i : Fin 8, s.overdue c i = false) → t.reg (pgFrm c) Reg.FRM_FOVR_CE = s.reg (pgFrm c) Reg.FRM_FOVR_CE ∧ t.cores = s.cores))
    ∧ (s.pairs[k].catchUp = none → exec (.catchupDeadline k) s = .next s)
    ∧ (∀ u, s.pairs[k].catchUp = some u → (s.core (masterOf k)).ctx ≠ .fg →
        exec (.catchupDeadline k) s = .next ((s.advance u.limit).modPair k (fun p => { p with catchUp := none })))
    ∧ (∀ u, s.pairs[k].catchUp = some u → (s.core (masterOf k)).ctx = .fg →
        ∃ t, exec (.catchupDeadline k) s = .next t ∧ t.pairs[k].catchUp = none ∧ t.rbit (pairPage k) Reg.PAGE_IRQ_STAT 6 = true
          ∧ t.rbit (pgFrm (pairCluster k)) Reg.FRM_FOVR_CE (masterLocal k) = true)

/-- R21 to R23, R72, R81 to R86, R91, R94, R96: writes to the generator. A shadow compare waits for its token, one of an IMMEDIATE-SAFE
channel that does not count acts at once, and the duty port wins the cycle; the period shadow belongs to the leader; tokens gather;
polarities of an enabled channel stay. What comes on the clock edge of a turn waits for the turn. A duty word of an owner's foreground
is applied, any other is rejected and counted.
Each of these is said to complete, with a next state that has its effect: `pwgChCtlWrite`, `pwgPerWrite`, `pwgCmpWrite`, `pwgTokenWrite`,
`dutyWordArrival`. -/
def Obligations.PwmWrites : Prop :=
  ∀ (x : Access) (c i : Fin 8) (k : Fin 18) (s s1 : State) (v mask : Word) (isU : Bool), s.Reaches x (pgPwg0 c) s1 →
    let p := pgPwg0 c
    let o := if isU then Reg.PWG_CH_CMPU k else Reg.PWG_CH_CMPD k
    let cv := bitsOf ((s1.reg p o &&& ~~~mask) ||| (v &&& mask)) 22 0
    let pv := bitsOf ((s1.reg p Reg.PWG_PER &&& ~~~mask) ||| (v &&& mask)) 22 0
    (s1.turnFirst c s1.now = true →
      exec (.pwgCmpWrite x c k isU v mask) s = .next (s1.lateAdd c (.bus s1.now o v mask)).wrote
      ∧ exec (.pwgPerWrite x c v mask) s = .next (s1.lateAdd c (.bus s1.now Reg.PWG_PER v mask)).wrote
      ∧ exec (.pwgTokenWrite x c v) s = .next (s1.lateAdd c (.bus s1.now Reg.PWG_TOKEN v 0xFFFFFFFF)).wrote)
    ∧ (s1.turnFirst c s1.now = false →
      (s1.dutyWins c k isU s1.now = false → (s1.ch c k).imm = false →
        exec (.pwgCmpWrite x c k isU v mask) s = .next ((s1.setFld p o 22 0 cv).modCh c k (fun y =>
          { y with shU := if isU then BitVec.ofNat 23 cv else y.shU, shD := if isU then y.shD else BitVec.ofNat 23 cv
                   newU := if isU then some false else y.newU, newD := if isU then y.newD else some false })).wrote)
      ∧ (s1.dutyWins c k isU s1.now = true → exec (.pwgCmpWrite x c k isU v mask) s = .next s1.wrote)
      ∧ ((if isU then (s1.ch c k).portU else (s1.ch c k).portD) = some ((s1.now + 127) / 128 * 128) →
          exec (.pwgCmpWrite x c k isU v mask) s = .next s1.wrote)
      ∧ (s1.dutyWins c k isU s1.now = false → (s1.ch c k).imm = true → s1.counting c = false →
          exec (.pwgCmpWrite x c k isU v mask) s = .next ((s1.setFld p o 22 0 cv).activate c k isU cv).wrote
          ∧ (cv ≤ s1.hp c ∨ cv = 0x7FFFFF → ∃ t, exec (.pwgCmpWrite x c k isU v mask) s = .next t
              ∧ t.fld p (if isU then Reg.PWG_CH_CMPU_ACT k else Reg.PWG_CH_CMPD_ACT k) 22 0 = cv ∧ t.Apart { s1 with resp := .none }))
      ∧ (s1.isMember c = true → exec (.pwgPerWrite x c v mask) s = .next s1.wrote)
      ∧ (s1.isMember c = false → exec (.pwgPerWrite x c v mask) s
          = .next ((s1.setFld p Reg.PWG_PER 22 0 pv).modPwm c (fun q => { q with perWritten := true, perByPort := false })).wrote)
      ∧ exec (.pwgTokenWrite x c v) s = .next (s1.modPwm c (fun q => { q with tokBus := q.tokBus ||| v.setWidth 19 })).wrote)
    ∧ (s1.Open p →
        let co := Reg.PWG_CH_CTL k
        let n := (s1.reg p co &&& ~~~(mask &&& 0x1FFF)) ||| (v &&& mask &&& 0x1FFF)
        (bitOf (s1.reg p co) 0 = true → bitsOf n 6 5 ≠ bitsOf (s1.reg p co) 6 5 →
          ∃ t, exec (.pwgChCtlWrite x c k v mask) s = .next t ∧ t.reg p co = putBits n 6 5 (bitsOf (s1.reg p co) 6 5)
            ∧ t.rbit p Reg.PAGE_IRQ_STAT 8 = true ∧ (t.ch c k).driven = true ∧ t.mem = s1.mem ∧ t.cores = s1.cores)
        ∧ (bitOf (s1.reg p co) 0 = false ∨ bitsOf n 6 5 = bitsOf (s1.reg p co) 6 5 →
          ∃ t, exec (.pwgChCtlWrite x c k v mask) s = .next t ∧ t.reg p co = n ∧ (t.ch c k).driven = true ∧ (t.ch c k).polH = bitOf n 5
            ∧ (t.ch c k).polL = bitOf n 6 ∧ t.mem = s1.mem ∧ t.cores = s1.cores
            ∧ (bitOf n 0 = false → (t.ch c k).mode = .stopped)
            ∧ (bitOf (s1.reg p co) 0 = false → bitOf n 0 = true → s1.safeCaused c = true → (t.ch c k).safe = true)))
    ∧ (∀ u : State, (u.pwm c).flight[i] = [] → exec (.dutyWordArrival c i) u = .next u)
    ∧ (∀ (u : State) (d : DutyWord) (l : List DutyWord), u.canonical = true → (u.pwm c).flight[i] = d :: l → u.trace.armed = false →
        let w := d.word
        let r := (u.advance ((d.at_ + 127) / 128 * 128)).modPwm c (fun q => { q with flight := q.flight.set i l })
        (u.turnFirst c d.at_ = true → exec (.dutyWordArrival c i) u = .next (r.lateAdd c (.duty i d)))
        ∧ (u.turnFirst c d.at_ = false →
          (d.fg = false ∨ (u.pwm c).overrun.getLsbD i = true ∨ bitOf w 23 = true ∨ 6 ≤ bitsOf w 31 29 →
            exec (.dutyWordArrival c i) u = .next ((r.count p Reg.PWG_DPREJ_CNT 15 0).raise p 4))
          ∧ (d.fg = true → (u.pwm c).overrun.getLsbD i = false → bitOf w 23 = false →
            (bitsOf w 31 29 = 0 → ∀ h : bitsOf w 28 24 < 18, u.chCtl c ⟨bitsOf w 28 24, h⟩ 4 2 = i.val → (u.ch c ⟨bitsOf w 28 24, h⟩).imm = false →
              ∃ t, exec (.dutyWordArrival c i) u = .next t ∧ (t.ch c ⟨bitsOf w 28 24, h⟩).shU = BitVec.ofNat 23 (bitsOf w 22 0)
                ∧ (t.ch c ⟨bitsOf w 28 24, h⟩).newU = some true ∧ t.mem = u.mem ∧ t.cores = u.cores)
            ∧ (bitsOf w 31 29 = 3 → BitVec.ofNat 19 (bitsOf w 22 0) &&& u.mayToken c i = BitVec.ofNat 19 (bitsOf w 22 0) →
              exec (.dutyWordArrival c i) u = .next (r.modPwm c (fun q => { q with tokEng := q.tokEng.set i (q.tokEng[i] ||| BitVec.ofNat 19 (bitsOf w 22 0)) })))
            ∧ (bitsOf w 31 29 = 4 → u.mayPeriod c i = false →
              exec (.dutyWordArrival c i) u = .next ((r.count p Reg.PWG_DPREJ_CNT 15 0).raise p 4)))))

/-- R75, R76, R78, R79, R109, R110: where the counter reaches a compare the reference changes, the output that was on goes inactive at once
and the other one waits for its dead time; a dead time that ends turns its output on; a blanking window closes at its end.
Each of these is said to complete, with a next state that has its effect: `compareMatch`, `deadTimeExpiry`, `blankingWindowClose`. -/
def Obligations.PwmEvents : Prop :=
  ∀ (s : State) (c : Fin 8) (k : Fin 18) (u : Fin 4),
    let x := s.ch c k
    let up := (s.car c).valley + s.actU c k
    let dn := (s.car c).valley + 2 * s.hp c - s.actD c k
    ((s.car c).phase ≠ .up ∨ x.doneU = true → exec (.compareMatch c k true) s = .next s)
    ∧ ((s.car c).phase ≠ .down ∨ x.doneD = true ∨ s.actD c k = 0 → exec (.compareMatch c k false) s = .next s)
    ∧ ((s.car c).phase = .up → x.doneU = false → s.actU c k + s.actD c k < 2 * s.hp c → x.ref = false → x.mode = .running → 0 < x.dtr.toNat →
        ∃ t, exec (.compareMatch c k true) s = .next t ∧ (t.ch c k).ref = true ∧ (t.ch c k).doneU = true ∧ (t.ch c k).outH = false
          ∧ (t.ch c k).outL = false ∧ (t.ch c k).dead = some (up + x.dtr.toNat, true) ∧ t.time.clk = max s.time.clk (up / 16)
          ∧ t.mem = s.mem ∧ t.cores = s.cores)
    ∧ ((s.car c).phase = .up → x.doneU = false → 2 * s.hp c ≤ s.actU c k + s.actD c k →
        exec (.compareMatch c k true) s = .next ((s.advance up).modCh c k (fun y => { y with doneU := true })))
    ∧ ((s.car c).phase = .down → x.doneD = false → 0 < s.actD c k → x.ref = true → x.mode = .running → 0 < x.dtf.toNat →
        ∃ t, exec (.compareMatch c k false) s = .next t ∧ (t.ch c k).ref = false ∧ (t.ch c k).doneD = true ∧ (t.ch c k).outH = false
          ∧ (t.ch c k).outL = false ∧ (t.ch c k).dead = some (dn + x.dtf.toNat, false) ∧ t.mem = s.mem ∧ t.cores = s.cores)
    ∧ (x.dead = none → exec (.deadTimeExpiry c k) s = .next s)
    ∧ (∀ d h, x.dead = some (d, h) → ∃ t, exec (.deadTimeExpiry c k) s = .next t
        ∧ t.ch c k = { x with dead := none, outH := h, outL := !h } ∧ t.time.clk = max s.time.clk (d / 16) ∧ t.mem = s.mem ∧ t.cores = s.cores
        ∧ (∀ j : Fin 18, j ≠ k → t.ch c j = s.ch c j))
    ∧ ((s.pwm c).blk[u] = none → exec (.blankingWindowClose c u) s = .next s)
    ∧ (∀ d m, (s.pwm c).blk[u] = some (d, m) →
        (s.reg (pgPwg1 c) Reg.PWG_TRIP_SRC &&& m &&& 0xFFFF = 0 →
          exec (.blankingWindowClose c u) s = .next ((s.advance d).modPwm c (fun q => { q with blk := q.blk.set u none })))
        ∧ (∀ i < 16, s.reg (pgPwg1 c) Reg.PWG_TRIP_SRC &&& m &&& 0xFFFF = 1 <<< i → (∀ w : Fin 4, w ≠ u → s.unitBlanks c w i d = false) →
          s.canonical = true → ∃ t, exec (.blankingWindowClose c u) s = .next t ∧ t.mem = s.mem ∧ t.cores = s.cores
            ∧ ∀ k : Fin 18, (2 ≤ s.tripMode c k i → (t.ch c k).latched = true) ∧ (s.tripMode c k i = 1 → (t.ch c k).cbc = true)))

/-- R95, R97 to R106, R109, R414, R565: the safe vector and the trips. A software request and the falling STOP_N pin put channels into
their safe vectors; a release waits for the next valley and is refused while a cause stands; a cause clears by writing 1 unless its
source persists. An active source that no window blanks trips the channels that select it, and a latch clears on request once no
latched source is active.
Each of these is said to complete, with a next state that has its effect: `pwgSafeSetWrite`, `pwgSafeRelWrite`, `pwgSafeCauseWrite`, `pwgTripSwWrite`,
`pwgTripClrWrite`, `tripSourceActive`, `pwgBlkCtlWrite`, `stopNFall`, `stopNRise`, `tripPinInactive`. -/
def Obligations.SafeAndTrips : Prop :=
  ∀ (x : Access) (c : Fin 8) (s s1 : State) (v mask : Word),
    (s.Reaches x (pgPwg0 c) s1 →
      (∃ t, exec (.pwgSafeSetWrite x c v) s = .next t ∧ t.mem = s1.mem ∧ t.cores = s1.cores
        ∧ ∀ k : Fin 18, ((t.ch c k).safe = ((s1.ch c k).safe || bitOf v k)) ∧ (bitOf v k = false → t.ch c k = s1.ch c k)
          ∧ (bitOf v k = true → (t.ch c k).safeSw = true ∧ (t.ch c k).relPend = false))
      ∧ (s1.safeCaused c = true → (∃ k : Fin 18, bitOf v k = true) → ∃ t, exec (.pwgSafeRelWrite x c v) s = .next t
        ∧ t.rbit (pgPwg0 c) Reg.PAGE_IRQ_STAT 7 = true ∧ t.clusters = s1.clusters ∧ t.Apart { s1 with resp := .none })
      ∧ (s1.safeCaused c = false → ∃ t, exec (.pwgSafeRelWrite x c v) s = .next t ∧ t.regs = s1.regs ∧ t.Apart { s1 with resp := .none }
        ∧ ∀ k : Fin 18, t.ch c k = (if bitOf v k then { s1.ch c k with relPend := (s1.ch c k).safe } else s1.ch c k))
      ∧ (let m := (v &&& mask &&& (if s1.stopLow then 0 else 1)) ||| (v &&& mask &&& (if s1.bridgeIsDown then 0 else 4))
         let k := s1.keptBits (pgPwg0 c) Reg.PWG_SAFE_CAUSE m
         exec (.pwgSafeCauseWrite x c v mask) s
          = .next (k.1.setReg (pgPwg0 c) Reg.PWG_SAFE_CAUSE ((s1.reg (pgPwg0 c) Reg.PWG_SAFE_CAUSE &&& ~~~m) ||| k.2)).wrote))
    ∧ (s.Reaches x (pgPwg1 c) s1 →
      (∃ t, exec (.pwgTripSwWrite x c v mask) s = .next t ∧ t.mem = s1.mem ∧ t.cores = s1.cores
        ∧ t.fld (pgPwg1 c) Reg.PWG_TRIP_SW 1 0 = bitsOf ((s1.reg (pgPwg1 c) Reg.PWG_TRIP_SW &&& ~~~mask) ||| (v &&& mask)) 1 0
        ∧ ∀ b : Fin 2, t.rbit (pgPwg1 c) Reg.PWG_TRIP_SRC (14 + b.val) = t.rbit (pgPwg1 c) Reg.PWG_TRIP_SW b)
      ∧ (∃ t, exec (.pwgTripClrWrite x c v) s = .next t ∧ t.mem = s1.mem ∧ t.cores = s1.cores
        ∧ ∀ k : Fin 18, let hold := (List.range 16).any (fun i => decide (2 ≤ s1.tripMode c k i) && s1.rbit (pgPwg1 c) Reg.PWG_TRIP_SRC i)
          (bitOf v k = true → hold = false → (t.ch c k) = { s1.ch c k with latched := false } ∧ t.reg (pgPwg1 c) (Reg.PWG_CH_TLSRC k) = 0)
          ∧ (bitOf v k = true → hold = true → t.ch c k = s1.ch c k ∧ t.rbit (pgPwg1 c) Reg.PWG_CLR_REF_CH k = true ∧ t.rbit (pgPwg1 c) Reg.PAGE_IRQ_STAT 2 = true)
          ∧ (bitOf v k = false → t.ch c k = s1.ch c k))
      ∧ (s1.Open (pgPwg1 c) → ∀ u : Fin 4, (s1.pwm c).blk[u] = none →
        exec (.pwgBlkCtlWrite x c u false v mask) s = .next (s1.setReg (pgPwg1 c) (Reg.PWG_BLK_CTL u)
          ((s1.reg (pgPwg1 c) (Reg.PWG_BLK_CTL u) &&& ~~~(mask &&& 0xFFFF007F)) ||| (v &&& mask &&& 0xFFFF007F))).wrote
        ∧ exec (.pwgBlkCtlWrite x c u true v mask) s = .next (s1.setReg (pgPwg1 c) (Reg.PWG_BLK_SRC u)
          ((s1.reg (pgPwg1 c) (Reg.PWG_BLK_SRC u) &&& ~~~(mask &&& 0xFFFF)) ||| (v &&& mask &&& 0xFFFF))).wrote)
      ∧ (s1.Open (pgPwg1 c) → ∀ u : Fin 4, let w := s1.reg (pgPwg1 c) (Reg.PWG_BLK_CTL u)
        bitsOf w 6 5 ≠ 0 → bitsOf w 31 16 ≠ 0 → bitsOf w 4 0 < 18 →
        ∃ t, exec (.pwgBlkCtlWrite x c u true v mask) s = .next t ∧ t.clusters = s1.clusters
          ∧ t.reg (pgPwg1 c) (Reg.PWG_BLK_SRC u) = (s1.reg (pgPwg1 c) (Reg.PWG_BLK_SRC u) &&& ~~~(mask &&& 0xFFFF)) ||| (v &&& mask &&& 0xFFFF)))
    ∧ (s.canonical = true → s.domOn (66 + 5 * c.val) = true → ∀ i : Fin 4, s.rbit pgEg (Reg.FIO_SEL c) i = false →
      (∃ t, exec (.tripSourceActive c ⟨i, by omega⟩) s = .next t ∧ t.rbit (pgPwg1 c) Reg.PWG_TRIP_SRC i = true ∧ t.mem = s.mem ∧ t.cores = s.cores
        ∧ (s.rbit (pgPwg1 c) Reg.PWG_TRIP_SRC i = false → s.blanked c i s.now = false →
            (∀ j : Fin 16, j.val ≠ i.val → s.rbit (pgPwg1 c) Reg.PWG_TRIP_SRC j = s.tripLive c j) → ∀ k : Fin 18,
              (2 ≤ s.tripMode c k i → (t.ch c k).latched = true ∧ t.rbit (pgPwg1 c) (Reg.PWG_CH_TLSRC k) i = true)
              ∧ (s.tripMode c k i = 1 → (t.ch c k).cbc = true)))
      ∧ (∃ t, exec (.tripPinInactive c i) s = .next t ∧ t.rbit (pgPwg1 c) Reg.PWG_TRIP_SRC i = false ∧ t.mem = s.mem ∧ t.cores = s.cores))
    ∧ (s.domOn (66 + 5 * c.val) = false → ∀ i : Fin 4,
      (∃ t, exec (.tripSourceActive c ⟨i, by omega⟩) s = .next t ∧ t.regs = s.regs) ∧ (∃ t, exec (.tripPinInactive c i) s = .next t ∧ t.regs = s.regs))
    ∧ (s.canonical = true → s.domOn (66 + 5 * c.val) = true → ∀ j : Fin 16, 4 ≤ j.val → ∃ t, exec (.tripSourceActive c j) s = .next t
        ∧ t.rbit (pgPwg1 c) Reg.PWG_TRIP_SRC j = s.tripLive c j ∧ t.mem = s.mem ∧ t.cores = s.cores)
    ∧ (s.canonical = true → s.NoRecords → ∃ t, exec .stopNFall s = .next t ∧ t.stopLow = true ∧ t.mem = s.mem ∧ t.cores = s.cores
        ∧ (∀ (c : Fin 8), s.domOn (66 + 5 * c.val) = true → t.rbit (pgPwg0 c) Reg.PWG_SAFE_CAUSE 0 = true ∧ ∀ k : Fin 18, (t.ch c k).safe = true)
        ∧ (∀ c : Fin 8, t.safeCaused c = true))
    ∧ exec .stopNRise s = .next { s with stopLow := false }

/-- R21, R116, R117, R121, R123, R127 to R131, R145, R213, R590: an entry that acts in its frame starts its conversion, or is skipped where
its core is not free for it; the conversion's code, within its bounds, reaches every port of its mask 185 ns after its window closed; a
result that arrives fills the waiting WAITS, else joins the queue, else is lost and counted; a FIFO read takes the oldest record.
Each of these is said to complete, with a next state that has its effect: `sampleEntryAct`, `adcConversionEnd`, `samplePortArrival`, `smpFifoLoRead`. -/
def Obligations.Sampling : Prop :=
  ∀ (c j i : Fin 8) (e : Fin 64) (level : Int) (s : State), s.canonical = true →
    ((s.smp c).frame = none ∨ s.tickPer c = none → exec (.sampleEntryAct c e level) s = .next s)
    ∧ (∀ f per, (s.smp c).frame = some f → s.tickPer c = some per →
      let w := ((s.smp c).entry false e).1
      let w1 := ((s.smp c).entry false e).2
      let t := ((f.tick : Int) + entOffset w1).toNat
      (entEn w = false ∨ tselOk w f.apex = false ∨ f.acted.getLsbD e = true ∨ 3 < entKind w → exec (.sampleEntryAct c e level) s = .next s)
      ∧ (entEn w = true → tselOk w f.apex = true → f.acted.getLsbD e = false → entKind w = 0 → (s.smp c).subst = none → entUnit w = j →
          s.domOn (65 + 5 * c.val) = true → (s.adc c j).conv = none →
          let acted := (s.advance t).modSmp c (fun m => { m with frame := some { f with acted := f.acted ||| (1#64 <<< e.val) } })
          let free := (s.adcPlan c j).any (fun d => d.cur && d.entry == e)
          (free = true → exec (.sampleEntryAct c e level) s = .next (acted.draw.modAdc c j (fun a =>
              { a with conv := some ⟨t + 4096, t, acted.inputCode c j (bitsOf w 23 18) level, f.fcnt, .entry e false, w, acted.dtbLo t⟩, busy := t + 4096 })))
          ∧ (free = false → bitOf w 10 = false →
            ∃ u, exec (.sampleEntryAct c e level) s = .next u ∧ u.adc c j = s.adc c j ∧ u.mem = s.mem ∧ u.cores = s.cores
              ∧ u.rbit (pgAdc c j) Reg.PAGE_IRQ_STAT 6 = true ∧ u.rbit (pgSmp c) Reg.PAGE_IRQ_STAT 2 = true
              ∧ (bitsOf w 7 0 = 2 ^ i.val → (s.smp c).flight[(s.smp c).route[i]] = [] →
                  (u.smp c).flight[(s.smp c).route[i]] = [⟨t + 4736, e, s.reg (pgSmp c) Reg.SMP_SKIPVAL, f.fcnt⟩]))
          ∧ (∀ d, s.dueOn c j = [d] → d.entry = e → d.cur = true → free = decide (((s.adc c j).busy : Int) ≤ d.opens))))
    ∧ ((s.adc c j).conv = none → exec (.adcConversionEnd c j) s = .next s)
    ∧ (∀ (v : Conv) (und : Bool), (s.adc c j).conv = some v → v.why = .entry e und → bitOf v.word0 10 = false →
        ∃ t, exec (.adcConversionEnd c j) s = .next t ∧ (t.adc c j) = { s.adc c j with conv := none } ∧ t.time.clk = max s.time.clk (v.endAt / 16)
          ∧ t.mem = s.mem ∧ t.cores = s.cores ∧ t.free = s.free + 1
          ∧ (let code := bitsOf (t.reg (pgAdc c j) Reg.ADC_LAST) 15 0
             (s.rbit (pgAdc c j) Reg.ADC_CTL 0 = false → code = (Config.adcRaw v.nominal s.free).toNat)
             ∧ (s.rbit (pgAdc c j) Reg.ADC_CTL 0 = true → (s.adc c j).own = false →
                 code ≤ v.nominal.toNat + adcBound v.nominal.toNat + 24 ∧ v.nominal.toNat ≤ code + adcBound v.nominal.toNat + 24)
             ∧ (bitsOf v.word0 7 0 = 2 ^ i.val → (s.smp c).flight[(s.smp c).route[i]] = [] →
                 (t.smp c).flight[(s.smp c).route[i]] = [⟨v.tS + 4736, e, sampleCell (entFmt v.word0) e v.frame code, v.frame⟩])))
    ∧ ((s.smp c).flight[i] = [] → exec (.samplePortArrival c i) s = .next s)
    ∧ (∀ a l, (s.smp c).flight[i] = a :: l → s.domOn (engineOf c i) = true → s.locked (.ce (engineOf c i)) = false → (s.smp c).recs = [] →
        let k := s.core (.ce (engineOf c i))
        let u := (s.advance a.at_).modSmp c (fun m => { m with flight := m.flight.set i l })
        (k.fgEnded = true → k.fgFcnt = a.frame → exec (.samplePortArrival c i) s = .next (u.count (pgFrm c) (Reg.FRM_CE_STAT i) 15 8))
        ∧ (k.fgEnded = false ∨ k.fgFcnt ≠ a.frame →
          ∃ t, exec (.samplePortArrival c i) s = .next t ∧ t.mem = s.mem ∧ t.time.clk = max s.time.clk (a.at_ / 16)
            ∧ (k.waiting = false ∨ k.ctx ≠ .fg →
                (k.spq.length < 16 → (t.core (.ce (engineOf c i))).spq = k.spq ++ [a])
                ∧ (16 ≤ k.spq.length → (t.core (.ce (engineOf c i))).spq = k.spq ∧ t.rbit (pgSmp c) Reg.SMP_SPOVF_CE i = true
                    ∧ t.rbit (pgSmp c) Reg.PAGE_IRQ_STAT 3 = true))
            ∧ (∀ n, k.ctx = .fg → k.pend = [⟨n, none, true⟩] →
                (t.core (.ce (engineOf c i))).pend = [⟨n, some a.cell, true⟩] ∧ (t.core (.ce (engineOf c i))).spq = k.spq)))
    ∧ (∀ (x : Access) (s1 : State), s.Reaches x (pgSmp c) s1 → (s1.smp c).recs = [] →
        ((s1.smp c).fifo = [] → exec (.smpFifoLoRead x c false) s = .next ((s1.setSnap x.by_ (pgSmp c) Reg.SMP_FIFO_HI 0).answer 0xFFFFFFFF)
          ∧ exec (.smpFifoLoRead x c true) s = .next ((s1.setSnap x.by_ (pgSmp c) Reg.SMP_FIFO_HI 0).answer 0xFFFFFFFF))
        ∧ (∀ r l, (s1.smp c).fifo = r :: l →
          let u := (s1.modSmp c (fun m => { m with fifo := l })).setSnap x.by_ (pgSmp c) Reg.SMP_FIFO_HI r.2
          exec (.smpFifoLoRead x c false) s = .next (u.answer (r.1.setWidth 64)) ∧ exec (.smpFifoLoRead x c true) s = .next (u.answer (r.2 ++ r.1))))

/-- R119, R125, R126, R131, R142, R143: the commands of the sample page empty the FIFO, disarm a swap and begin a check of the edit bank;
a check that finds a fault records it and arms nothing, else it arms the swap for a frame at least 1 µs off; a swap that is due
exchanges the banks when the lead window opens. The understudy is refused while the table uses its core; a write of
the threshold raises `FIFO_THR` where the level is already there.
Each of these is said to complete, with a next state that has its effect: `smpCmdSwap`, `smpCmdSwapm`, `smpCmdCheck`, `smpCmdFclr`, `smpCmdDisarm`,
`tableCheckDone`, `sampleTableSwap`, `smpCtlWrite`. -/
def Obligations.SampleTables : Prop :=
  ∀ (x : Access) (c : Fin 8) (s s1 : State) (v mask : Word),
    (s.Reaches x (pgSmp c) s1 →
      exec (.smpCmdSwap x c) s = .next (s1.modSmp c (fun m => { m with chk := some .swap })).wrote
      ∧ exec (.smpCmdSwapm x c) s = .next (s1.modSmp c (fun m => { m with chk := some .swapm })).wrote
      ∧ exec (.smpCmdCheck x c) s = .next (s1.modSmp c (fun m => { m with chk := some .check })).wrote
      ∧ exec (.smpCmdFclr x c) s = .next (s1.modSmp c (fun m => { m with fifo := [] })).wrote
      ∧ exec (.smpCmdDisarm x c) s = .next (s1.modSmp c (fun m => { m with armed := none, chk := if m.chk = some .check then some .check else none })).wrote
      ∧ (s1.Open (pgSmp c) →
        let old := s1.reg (pgSmp c) Reg.SMP_CTL
        let n := (old &&& ~~~(mask &&& 0xFF01)) ||| (v &&& mask &&& 0xFF01)
        (bitOf n 0 = bitOf old 0 ∨ bitOf old 0 = false ∧ s1.core7Used c = false ∨ bitOf n 0 = false ∧ (s1.smp c).subst = none →
          exec (.smpCtlWrite x c v mask) s = .next ((s1.setReg (pgSmp c) Reg.SMP_CTL n).fifoThr c).wrote)
        ∧ (bitOf old 0 = false → bitOf n 0 = true → s1.core7Used c = true →
          exec (.smpCtlWrite x c v mask) s = .next (((s1.setReg (pgSmp c) Reg.SMP_CTL (putBits n 0 0 0)).raise (pgSmp c) 6).fifoThr c).wrote)
        ∧ (bitOf old 0 = true → bitOf n 0 = false → (s1.smp c).subst.isSome = true →
          exec (.smpCtlWrite x c v mask) s = .next (((s1.setReg (pgSmp c) Reg.SMP_CTL (putBits n 0 0 1)).modSmp c (fun m => { m with undOff := true })).fifoThr c).wrote)))
    ∧ ((s.smp c).chk = none → exec (.tableCheckDone c) s = .next s)
    ∧ (∀ k, (s.smp c).chk = some k →
      (∀ e r o, s.tableFault c = some (e, r, o) → exec (.tableCheckDone c) s
        = .next (((s.modSmp c (fun m => { m with chk := none, armed := none })).setReg (pgSmp c) Reg.SMP_TBL_ERR
            (w32 (e.val + o * 64 + r * 4096 + 65536))).raise (pgSmp c) 0))
      ∧ (s.tableFault c = none →
        let u := s.setBit (pgSmp c) Reg.SMP_TBL_ERR 16 false
        (k = .check → exec (.tableCheckDone c) s = .next (u.modSmp c (fun m => { m with chk := none })))
        ∧ (k = .swap → exec (.tableCheckDone c) s = .next (u.modSmp c (fun m => { m with chk := none, armed := some (.at_ (s.now + 25600)) })))
        ∧ (k = .swapm →
          let n : BitVec 48 := (s.reg (pgSmp c) Reg.SMP_SWMFN_HI).setWidth 16 ++ s.reg (pgSmp c) Reg.SMP_SWMFN_LO
          exec (.tableCheckDone c) s = .next (u.modSmp c (fun m => { m with chk := none, armed := some (.mfn n (s.now + 25600)) })))))
    ∧ (s.swapDue c = false → exec (.sampleTableSwap c) s = .next s)
    ∧ (s.swapDue c = true → ∃ t, exec (.sampleTableSwap c) s = .next t ∧ t.time.clk = max s.time.clk (s.leadOpen c / 16)
        ∧ t.smp c = { s.smp c with bank := !(s.smp c).bank, armed := none, qprev := Vector.replicate 64 none }
        ∧ t.mem = s.mem ∧ t.cores = s.cores ∧ t.car c = s.car c)

/-- R137 to R144, R158: requests of a core queue up; the oldest one's run begins in a slot, an abort cancels what has not begun; a
calibration leaves coefficients that are in range, a self-test of four steps its largest deviation; 64 ticks starve a request; the
understudy takes over and gives back. Coefficients and deviations are free values (logs 5 to 11).
Each of these is said to complete, with a next state that has its effect: `adcCalCmdCal`, `adcCalCmdTest`, `adcCalCmdAbort`, `calRunStart`,
`calRunDone`, `selfTestStepDone`, `calStarved`, `substStart`, `substEnd`, `backgroundConversion`. -/
def Obligations.Calibration : Prop :=
  ∀ (x : Access) (c j : Fin 8) (s s1 : State),
    (s.Reaches x (pgAdc c j) s1 →
      exec (.adcCalCmdCal x c j) s = .next (s1.modAdc c j (fun a => { a with reqs := a.reqs ++ [⟨false, 0, 0, 0, 0, false, false, false⟩] })).wrote
      ∧ exec (.adcCalCmdTest x c j) s = .next (s1.modAdc c j (fun a => { a with reqs := a.reqs ++ [⟨true, 0, 0, 0, 0, false, false, false⟩] })).wrote
      ∧ (let begun := (s1.adc c j).run.isSome || (s1.adc c j).reqs.head?.any CalReq.begun
         (begun = true → exec (.adcCalCmdAbort x c j) s = .next (s1.modAdc c j (fun a => { a with reqs := a.reqs.take 1 })).wrote)
         ∧ (begun = false → s1.substOf c j = false → exec (.adcCalCmdAbort x c j) s = .next (s1.modAdc c j (fun a => { a with reqs := [] })).wrote)
         ∧ (begun = false → s1.substOf c j = true → exec (.adcCalCmdAbort x c j) s
              = .next ((s1.modAdc c j (fun a => { a with reqs := [] })).modSmp c (fun m => { m with substRan := true })).wrote)))
    ∧ ((s.adc c j).reqs = [] → exec (.calRunStart c j) s = .next s ∧ exec (.calStarved c j) s = .next s)
    ∧ (∀ r l, (s.adc c j).reqs = r :: l →
      ((s.adc c j).run = none → (s.adc c j).conv = none → s.calHeld c j = false → s.busyIn c j s.now (s.now + 30720) = false →
        exec (.calRunStart c j) s = .next (s.modAdc c j (fun a => { a with run := some (s.now + 28160), reqs := { r with begun := true } :: l })))
      ∧ ((s.adc c j).run.isSome = true ∨ (s.adc c j).conv.isSome = true ∨ s.calHeld c j = true ∨ s.busyIn c j s.now (s.now + 30720) = true →
        exec (.calRunStart c j) s = .next s)
      ∧ (∀ e, (s.adc c j).run = some e → r.test = false → s.canonical = true →
        let good := decide ((Config.calOfs s.free).natAbs ≤ 2048) && decide (62260 ≤ Config.calGain s.free) && decide (Config.calGain s.free ≤ 68812)
        ∃ t, exec (.calRunDone c j) s = .next t
          ∧ t.adc c j = { s.adc c j with run := none, reqs := l, own := if good then false else (s.adc c j).own } ∧ t.time.clk = max s.time.clk (e / 16)
          ∧ t.mem = s.mem ∧ t.cores = s.cores ∧ t.rbit (pgAdc c j) Reg.ADC_CAL_STAT 4 = s.substOf c j
          ∧ (s.substOf c j = true → (t.smp c).substRan = true)
          ∧ t.rbit (pgAdc c j) Reg.ADC_CAL_STAT 2 = good ∧ t.rbit (pgAdc c j) Reg.PAGE_IRQ_STAT (if good then 0 else 1) = true
          ∧ (good = true → t.fld (pgAdc c j) Reg.ADC_GAIN 17 0 = Config.calGain s.free)
          ∧ (good = false → t.reg (pgAdc c j) Reg.ADC_GAIN = s.reg (pgAdc c j) Reg.ADC_GAIN ∧ t.reg (pgAdc c j) Reg.ADC_OFS = s.reg (pgAdc c j) Reg.ADC_OFS))
      ∧ (∀ e, (s.adc c j).run = some e → r.test = true → r.gone = false → s.canonical = true → r.steps = 3 →
        ∃ t, exec (.selfTestStepDone c j) s = .next t ∧ t.adc c j = { s.adc c j with run := none, reqs := l }
          ∧ t.rbit (pgAdc c j) Reg.PAGE_IRQ_STAT 3 = true ∧ bitsOf (t.reg (pgAdc c j) Reg.ADC_TEST_RES) 15 0 = max r.dev.toNat (Config.testDev s.free).toNat
          ∧ t.rbit (pgAdc c j) Reg.ADC_CAL_STAT 3 = decide (max r.dev.toNat (Config.testDev s.free).toNat ≤ s.fld (pgAdc c j) Reg.ADC_TEST_LIM 15 0)
          ∧ t.mem = s.mem ∧ t.cores = s.cores)
      ∧ (∀ e, (s.adc c j).run = some e → r.test = true → r.gone = false → r.steps < 3 →
        ∃ t, exec (.selfTestStepDone c j) s = .next t ∧ (t.adc c j).run = none ∧ (t.adc c j).reqs.tail = l
          ∧ (t.adc c j).reqs.head?.map CalReq.steps = some (r.steps + 1)
          ∧ (t.adc c j).reqs.head?.map (fun z => z.dev.toNat) = some (max r.dev.toNat (Config.testDev s.free).toNat) ∧ t.mem = s.mem ∧ t.cores = s.cores)
      ∧ (∀ e, (s.adc c j).run = some e → r.test = true → r.gone = true →
        exec (.selfTestStepDone c j) s = .next ((s.advance e).modAdc c j (fun a =>
          { a with run := none, reqs := { r with gone := false, begun := false } :: l })))
      ∧ ((∀ q ∈ r :: l, q.due = false) → exec (.calStarved c j) s = .next s)
      ∧ (s.canonical = true → ∃ t, exec (.calStarved c j) s = .next t ∧ t.mem = s.mem ∧ t.cores = s.cores
          ∧ (t.adc c j).reqs.map CalReq.starved = (r :: l).map (fun q => q.starved || q.due)
          ∧ (∀ q ∈ r :: l, q.due = true → t.rbit (pgAdc c j) Reg.PAGE_IRQ_STAT (if q.test then 5 else 2) = true)
          ∧ (r.due = true → r.test = true → (t.adc c j).reqs.head? = some (r.starve (s.adc c j).run.isSome))
          ∧ (r.due = true → r.test = false → (t.adc c j).reqs.head? = some { r with starved := true })
          ∧ (∀ z, r.test = true → (r.starve z).starved = true ∧ (r.starve z).steps = 0 ∧ (r.starve z).dev = 0 ∧ (r.starve z).gone = z)))
    ∧ (∀ r : CalReq, r.due = true ↔ r.starved = false ∧ 64 ≤ r.ticks ∧ (r.test = true ∨ r.begun = false))
    ∧ ((s.adc c j).run = none → exec (.calRunDone c j) s = .next s ∧ exec (.selfTestStepDone c j) s = .next s)
    ∧ (s.rbit (pgSmp c) Reg.SMP_CTL 0 = false ∨ (s.smp c).subst.isSome = true ∨ s.leadAhead c = false → exec (.substStart c) s = .next s)
    ∧ (∀ r l, s.rbit (pgSmp c) Reg.SMP_CTL 0 = true → (s.smp c).subst = none → (s.adc c 7).run = none → s.leadAhead c = true → (s.adc c 0).reqs = r :: l →
        r.begun = false → 1 ≤ r.ticks → exec (.substStart c) s
          = .next (((s.advance (s.leadOpen c)).modSmp c (fun m => { m with subst := some 0, substRan := false })).raise (pgSmp c) 7))
    ∧ ((s.smp c).subst = none ∨ (s.smp c).substRan = false ∨ s.ticking c = true ∧ s.leadAhead c = false → exec (.substEnd c) s = .next s)
    ∧ ((s.smp c).subst.isSome = true → (s.smp c).substRan = true → s.ticking c = false ∨ s.leadAhead c = true →
        let u := ((if s.ticking c then s.advance (s.leadOpen c) else s).modSmp c (fun m => { m with subst := none, substRan := false })).raise (pgSmp c) 8
        ((s.smp c).undOff = false → exec (.substEnd c) s = .next u)
        ∧ ((s.smp c).undOff = true → exec (.substEnd c) s = .next ((u.setBit (pgSmp c) Reg.SMP_CTL 0 false).modSmp c (fun m => { m with undOff := false }))))
    ∧ ((s.rb c).pend = none → exec (.backgroundConversion c) s = .next s)
    ∧ (∀ d : Fin 24, (s.rb c).pend = some d → (s.rb c).running = false → s.rbit (pgCmp c) (Reg.CMP_ST (d.val / 2)) 7 = false →
        s.domOn (67 + 5 * c.val) = true → s.domOn (65 + 5 * c.val) = true → s.bgCore c = some j →
        let v : Conv := ⟨s.now + 5120, s.now + 1024, nominalCode (s.dacLevel c (cmpOfDac d) (d.val % 2 == 1)), 0, .readback d, 0, 0⟩
        exec (.backgroundConversion c) s = .next ((s.draw.modAdc c j (fun a => { a with conv := some v, busy := s.now + 5120 })).modRb c (fun r => { r with running := true })))

/-- R132 to R136, R577: an edge of the modulator clock of the selected direction samples the data; the fast value follows every sample and
its window records each activation; after `OSR` samples a result is the filter's output scaled, shifted and saturated; the first ones
after a start are marked; a clock that is lost or returns discards results; a read of the result clears its mark.
Each of these is said to complete, with a next state that has its effect: `sdmResult`, `sdmClockLost`, `sdmClockReturn`, `fastAct`, `sdmResRead`,
`fastWindowInactive`. -/
def Obligations.SigmaDelta : Prop :=
  ∀ (x : Access) (c : Fin 8) (n : Fin 12) (s s1 : State) (e : Bool × BitVec 16) (l : List (Bool × BitVec 16)), s.canonical = true →
    let p := pgSdm c
    let w := s.reg p (Reg.SDM_CTL n)
    let d := s.clusters[c].sdm[n]
    let gen := s.reg pgEg (Reg.FIO_SEL c)
    (exec (.sdmResult c n l) s = exec (.fastAct c n l) s ∧ exec (.fastWindowInactive c n l) s = exec (.fastAct c n l) s)
    ∧ exec (.sdmResult c n []) s = .next s
    ∧ (∃ u, exec (.sdmResult c n [e]) s = .next u ∧ exec (.sdmResult c n (e :: l)) s = exec (.sdmResult c n l) u)
    ∧ (bitOf w 0 = false ∨ s.sdmClock c n = false ∨ bitOf w 1 = true ∧ bitOf gen (16 + n) = true → exec (.sdmResult c n l) s = .next s)
    ∧ (bitOf w 0 = true → s.sdmClock c n = true → bitOf w 1 = false ∨ bitOf gen (16 + n) = false →
        let k : Nat × Bool := if bitOf w 1 then (max s.now d.edgeAt, e.1) else s.ckoNext c d.edgeAt
        let dly := if bitOf w 1 then 0 else bitsOf w 6 3
        let bits := ((if bitOf gen (4 + n) then d.bits.headD false else e.2.getLsbD dly) :: d.bits).take 766
        let f := s.fastOut c n bits
        let full := s.sdmOsr c n ^ s.sdmOrd c n
        let sh : Int := ((2 * sincOut (s.sdmOrd c n) (s.sdmOsr c n) bits : Nat) - (full : Int)) / (2 ^ bitsOf w 22 18 : Nat)
        (k.2 = bitOf w 2 → exec (.sdmResult c n [e]) s = .next (s.modSdm c n (fun y => { y with edgeAt := k.1 })))
        ∧ (k.2 ≠ bitOf w 2 → ∃ t, exec (.sdmResult c n [e]) s = .next t ∧ t.mem = s.mem ∧ t.cores = s.cores
            ∧ t.clusters[c].sdm[n].bits = bits ∧ t.clusters[c].sdm[n].edgeAt = k.1
            ∧ bitsOf (t.reg p (Reg.SDM_FVAL n)) 15 0 = f % 65536 ∧ t.rbit p (Reg.SDM_FVAL n) 16 = s.fastActive c n f
            ∧ (s.fastActive c n f = true → s.rbit p (Reg.SDM_FVAL n) 16 = false →
                t.rbit p Reg.SDM_FASTSEEN n = true ∧ t.rbit p Reg.PAGE_IRQ_STAT 1 = true)
            ∧ t.rbit (pgCmp c) Reg.CMP_OUT n = t.liveOut c n
            ∧ (d.phase + 1 < s.sdmOsr c n → t.clusters[c].sdm[n].phase = d.phase + 1 ∧ t.clusters[c].sdm[n].discard = d.discard
                ∧ t.reg p (Reg.SDM_RES n) = s.reg p (Reg.SDM_RES n) ∧ t.time.clk = max s.time.clk ((k.1 + dly * 128) / 16))
            ∧ (s.sdmOsr c n ≤ d.phase + 1 → t.clusters[c].sdm[n].phase = 0 ∧ t.clusters[c].sdm[n].discard = d.discard - 1
                ∧ t.time.clk = max s.time.clk ((k.1 + dly * 128 + 256) / 16)
                ∧ (-32768 ≤ sh → sh ≤ 32767 → t.reg p (Reg.SDM_RES n) = w32 (wrapInt 16 sh + b2n (d.discard == 0) * 2 ^ 16 + 2 ^ 17))
                ∧ (32767 < sh → bitsOf (t.reg p (Reg.SDM_RES n)) 18 0 = 0x7FFF + b2n (d.discard == 0) * 2 ^ 16 + 0x60000
                    ∧ t.rbit p Reg.SDM_SATSEEN n = true ∧ t.rbit p Reg.PAGE_IRQ_STAT 2 = true)
                ∧ (sh < -32768 → bitsOf (t.reg p (Reg.SDM_RES n)) 15 0 = 0x8000 ∧ t.rbit p Reg.SDM_SATSEEN n = true))))
    ∧ (s.rbit p (Reg.SDM_CTL n) 1 = false ∨ s.rbit p Reg.SDM_CKSTAT n = false → exec (.sdmClockLost c n) s = .next s)
    ∧ (s.rbit p (Reg.SDM_CTL n) 1 = false ∨ s.rbit p Reg.SDM_CKSTAT n = true ∨ bitOf gen (16 + n) = true → exec (.sdmClockReturn c n) s = .next s)
    ∧ (s.rbit p (Reg.SDM_CTL n) 1 = true → s.rbit p Reg.SDM_CKSTAT n = true →
      ∃ t, exec (.sdmClockLost c n) s = .next t ∧ t.rbit p Reg.SDM_CKSTAT n = false ∧ t.rbit p Reg.SDM_CKLOST n = true
        ∧ t.rbit p Reg.PAGE_IRQ_STAT 0 = true ∧ t.clusters[c].sdm[n].discard = s.sdmOrd c n ∧ t.rbit p (Reg.SDM_RES n) 16 = false
        ∧ t.time.clk = max s.time.clk ((d.edgeAt + 25600) / 16) ∧ t.mem = s.mem ∧ t.cores = s.cores)
    ∧ (s.rbit p (Reg.SDM_CTL n) 1 = true → s.rbit p Reg.SDM_CKSTAT n = false → bitOf gen (16 + n) = false →
      ∃ t, exec (.sdmClockReturn c n) s = .next t ∧ t.rbit p Reg.SDM_CKSTAT n = true ∧ t.clusters[c].sdm[n].discard = s.sdmOrd c n
        ∧ t.rbit p (Reg.SDM_RES n) 16 = false ∧ t.mem = s.mem ∧ t.cores = s.cores)
    ∧ (s.Reaches x p s1 → exec (.sdmResRead x c n) s
        = .next ((s1.setBit p (Reg.SDM_RES n) 17 false).answer ((s1.reg p (Reg.SDM_RES n) &&& 0x7FFFF).setWidth 64)))

/-- R149 to R161: every ready comparator on a pin follows its level into its states, its latch and its output; it becomes ready with its
midpoint decision, and a disabled one clears; settings of an enabled one stay; thresholds pass at once or wait for the valley, and the
converter settles; the readback compares the setting with its conversion, walks the enabled comparators and starves after 64 ticks.
Each of these is said to complete, with a next state that has its effect: `cmpStateChange`, `cmpCtlWrite`, `cmpReady`, `cmpThrWrite`, `dacSettled`,
`cmpRbCmdReq`, `rbDone`, `rbWalkStep`, `rbStarved`. -/
def Obligations.Comparators : Prop :=
  ∀ (x : Access) (c : Fin 8) (m : Fin 12) (d : Fin 24) (s s1 : State) (v mask : Word) (level h l y : Int) (brief : Bool),
    let p := pgCmp c
    let pin := s.fld p (Reg.CMP_CTL m) 5 1
    (s.canonical = true → ∃ t, exec (.cmpStateChange c m ⟨level, brief⟩ h l y) s = .next t ∧ t.mem = s.mem ∧ t.cores = s.cores
        ∧ (t.cmpView c m).v = level ∧ (t.cmpU c m).err = ⟨h, l, y⟩
        ∧ (s.rbit p (Reg.CMP_ST m) 7 = false → (t.cmpView c m).hi ≤ s.fld p (Reg.CMP_THR_ACT m) 11 0 * 390625 + thrErr
            ∧ s.fld p (Reg.CMP_THR_ACT m) 11 0 * 390625 - thrErr ≤ (t.cmpView c m).hi)
        ∧ (∀ k : Fin 12, s.fld p (Reg.CMP_CTL k) 5 1 = pin → (s.cmpU c k).ready = true → s.Follows t c k
            ∧ (brief = false → ((t.cmpU c k).sth = true → t.rbit p Reg.CMP_LATH k = true) ∧ ((t.cmpU c k).stl = true → t.rbit p Reg.CMP_LATL k = true)))
        ∧ (∀ k : Fin 12, s.fld p (Reg.CMP_CTL k) 5 1 ≠ pin ∨ (s.cmpU c k).ready = false →
            (t.cmpU c k).sth = (s.cmpU c k).sth ∧ (t.cmpU c k).stl = (s.cmpU c k).stl)
        ∧ (∀ k : Fin 12, brief = true ∨ (t.cmpU c k).sth = false → t.rbit p Reg.CMP_LATH k = s.rbit p Reg.CMP_LATH k))
    ∧ (s.rbit p (Reg.CMP_CTL m) 0 = false ∨ (s.cmpU c m).ready = true ∨ s.domOn (67 + 5 * c.val) = false → exec (.cmpReady c m level h l y) s = .next s)
    ∧ (s.rbit p (Reg.CMP_CTL m) 0 = true → (s.cmpU c m).ready = false → s.domOn (67 + 5 * c.val) = true → s.canonical = true →
        ∃ t, exec (.cmpReady c m level h l y) s = .next t ∧ t.mem = s.mem ∧ t.cores = s.cores ∧ t.rbit p Reg.PAGE_IRQ_STAT 1 = true
          ∧ (let z := t.cmpView c m
             t.cmpU c m = { s.cmpU c m with err := ⟨h, l, y⟩, ready := true, sth := decide (2 * z.hi - z.hyst < 2 * z.v), stl := decide (2 * z.v < 2 * z.lo + z.hyst) }
             ∧ z.v = level
             ∧ t.rbit p Reg.CMP_STARTMID m = (decide (z.hi - z.hyst ≤ z.v ∧ z.v ≤ z.hi) && s.fld p (Reg.CMP_CTL m) 7 6 != 0)
             ∧ t.rbit p Reg.CMP_STARTMID (16 + m) = (decide (z.lo ≤ z.v ∧ z.v ≤ z.lo + z.hyst) && s.fld p (Reg.CMP_CTL m) 7 6 != 0))
          ∧ t.rbit p Reg.CMP_OUT m = t.liveOut c m)
    ∧ (s.Reaches x p s1 → s1.pagePowered p = true → s1.Open p →
        let old := s1.reg p (Reg.CMP_CTL m)
        let n := (old &&& ~~~(mask &&& 0xFFF)) ||| (v &&& mask &&& 0xFFF)
        let th := (s1.reg p (Reg.CMP_THR m) &&& ~~~(mask &&& 0x0FFF0FFF)) ||| (v &&& mask &&& 0x0FFF0FFF)
        let act := s1.reg p (Reg.CMP_THR_ACT m)
        (bitOf old 0 = false → exec (.cmpCtlWrite x c m v mask) s = .next (s1.setReg p (Reg.CMP_CTL m) n).wrote)
        ∧ (bitOf old 0 = true → bitOf n 0 = true → exec (.cmpCtlWrite x c m v mask) s = .next (if bitsOf n 9 1 = bitsOf old 9 1
            then s1.setReg p (Reg.CMP_CTL m) n else (s1.setReg p (Reg.CMP_CTL m) (putBits n 9 1 (bitsOf old 9 1))).raise p 2).wrote)
        ∧ (bitOf old 0 = true → bitOf n 0 = false → ∃ t, exec (.cmpCtlWrite x c m v mask) s = .next t ∧ t.mem = s1.mem ∧ t.cores = s1.cores
            ∧ (t.cmpU c m).ready = false ∧ (t.cmpU c m).sth = false ∧ (t.cmpU c m).stl = false ∧ t.rbit p Reg.CMP_STARTMID m = false
            ∧ t.rbit p Reg.CMP_OUT m = t.liveOut c m)
        ∧ (s1.rbit p (Reg.CMP_CTL m) 11 = true → s1.counting c = true → exec (.cmpThrWrite x c m v mask) s
            = .next ((s1.setReg p (Reg.CMP_THR m) th).modCmp c m (fun u => { u with thrPend := some (s1.time.clk / 8) })).wrote)
        ∧ (s1.rbit p (Reg.CMP_CTL m) 11 = false ∨ s1.counting c = false → exec (.cmpThrWrite x c m v mask) s
            = .next (let u := (s1.setReg p (Reg.CMP_THR m) th).modCmp c m (fun u => { u with thrPend := none })
                if th = act then u
                else ((u.modCmp c m (fun u => { u with from_ := if s1.rbit p (Reg.CMP_ST m) 7 then act :: u.from_ else [act] })).setReg p
                  (Reg.CMP_THR_ACT m) th).setBit p (Reg.CMP_ST m) 7 true).wrote)
        ∧ ((s1.rb c).pend = none → (s1.rb c).running = false → exec (.cmpRbCmdReq x c d) s
            = .next (s1.modRb c (fun r => { r with pend := some d, byWalk := false, ticks := 0, starved := false })).wrote)
        ∧ ((s1.rb c).pend.isSome = true ∨ (s1.rb c).running = true →
          (((s1.rb c).byWalk = false ∨ (s1.rb c).manual.isSome = true → exec (.cmpRbCmdReq x c d) s = .next s1.wrote)
          ∧ ((s1.rb c).byWalk = true → (s1.rb c).manual = none → exec (.cmpRbCmdReq x c d) s
              = .next (s1.modRb c (fun r => { r with manual := some (d, 0, false) })).wrote))))
    ∧ (let u := (s.setBit p (Reg.CMP_ST m) 7 false).modCmp c m (fun u => { u with from_ := [] })
       ((s.cmpU c m).ready = false → (s.cmpU c m).sth = false → (s.cmpU c m).stl = false → exec (.dacSettled c m) s = .next u)
       ∧ (s.canonical = true → ∃ t, exec (.dacSettled c m) s = .next t ∧ t.rbit p (Reg.CMP_ST m) 7 = false ∧ (t.cmpU c m).from_ = []
           ∧ t.mem = s.mem ∧ t.cores = s.cores ∧ ((s.cmpU c m).ready = true → s.Follows t c m)))
    ∧ (s.rbCore c = none → exec (.rbDone c) s = .next s)
    ∧ (∀ j w e, s.rbCore c = some (j, w, e) → s.canonical = true → s.rbit (pgAdc c j) Reg.ADC_CTL 0 = false →
        let code := (Config.adcRaw w.nominal s.free).toNat
        let exp := 16 * s.dacSetting c e
        let fail := decide (s.fld p Reg.CMP_RB_CTL 15 4 < (if code < exp then exp - code else code - exp))
        ∃ t, exec (.rbDone c) s = .next t ∧ (t.adc c j).conv = none ∧ (t.rb c).pend = (s.rb c).manual.map (fun q => q.1)
          ∧ (t.rb c).manual = none ∧ (t.rb c).running = false ∧ (t.rb c).ticks = ((s.rb c).manual.map (fun q => q.2.1)).getD 0
          ∧ t.reg p Reg.CMP_RB_RES = w32 (code + e.val * 2 ^ 16 + b2n fail * 2 ^ 21 + 2 ^ 22) ∧ t.rbit p Reg.PAGE_IRQ_STAT 3 = true
          ∧ (fail = true → t.rbit p Reg.CMP_RB_FAILSEEN e = true ∧ t.rbit p Reg.PAGE_IRQ_STAT 4 = true)
          ∧ t.time.clk = max s.time.clk (w.endAt / 16) ∧ t.mem = s.mem ∧ t.cores = s.cores)
    ∧ (s.rbit p Reg.CMP_RB_CTL 0 = false ∨ s.domOn (67 + 5 * c.val) = false ∨ s.walkDue c = none → exec (.rbWalkStep c) s = .next s)
    ∧ (s.rbit p Reg.CMP_RB_CTL 0 = true → s.domOn (67 + 5 * c.val) = true → (s.rb c).pend = none → (s.rb c).running = false →
        (s.rb c).next = d → s.rbit p (Reg.CMP_CTL (d.val / 2)) 0 = true →
        (s.ticking c = true → max 1 (s.fld p Reg.CMP_RB_CTL 31 16) ≤ (s.rb c).walk → exec (.rbWalkStep c) s = .next (s.modRb c (fun r =>
          { r with walk := 0, walkAt := s.now, pend := some d, byWalk := true, ticks := 0, starved := false, next := d.val + 1 })))
        ∧ (s.ticking c = false →
          let τ := (s.rb c).walkAt + max 1 (s.fld p Reg.CMP_RB_CTL 31 16) * 25600
          exec (.rbWalkStep c) s = .next ((s.advance τ).modRb c (fun r =>
            { r with walk := 0, walkAt := max τ s.now, pend := some d, byWalk := true, ticks := 0, starved := false, next := d.val + 1 }))))
    ∧ ((s.rb c).manual = none →
        ((s.rb c).pend.isSome = true → (s.rb c).running = false → 64 ≤ (s.rb c).ticks → (s.rb c).starved = false →
          exec (.rbStarved c) s = .next (((s.modRb c (fun r => { r with starved := true })).count p Reg.CMP_RB_STARV_CNT 15 0).raise p 5))
        ∧ ((s.rb c).pend = none ∨ (s.rb c).running = true ∨ (s.rb c).ticks < 64 ∨ (s.rb c).starved = true → exec (.rbStarved c) s = .next s))
    ∧ (∀ e n, (s.rb c).manual = some (e, n, false) → 64 ≤ n → (s.rb c).running = true →
        exec (.rbStarved c) s = .next (((s.modRb c (fun r => { r with manual := some (e, n, true) })).count p Reg.CMP_RB_STARV_CNT 15 0).raise p 5))

/-- R165 to R170, R172 to R179: a pin choice of an enabled unit stays; the decoder counts as its mode says and an index loads it, which wins
over a write in its cycle; a capture unit records the selected edge's time, deviating by at most 1 ns on PWM edges, and loses it where its FIFO is full; an encoder
transfer ends with its data, or with the reason it failed, and the port is idle once it has recovered.
Each of these is said to complete, with a next state that has its effect: `qdecPinselWrite`, `qdecCountStep`, `qdecIndex`, `qdecPosWrite`,
`captureEdge`, `capTsLoRead`, `sepTransferEnd`, `sepRecoveryEnd`, `sepCmdReq`, `sepDataLoRead`. -/
def Obligations.PositionFeedback : Prop :=
  ∀ (x : Access) (c : Fin 8) (n g : Fin 6) (s s1 : State) (v mask : Word) (a b rise : Bool) (first held : Nat) (data : DWord) (crc : BitVec 16),
    let q := pgQdec c
    let e := pgSep c
    (s.Reaches x q s1 → s1.Open q → (∀ i : Fin 6, s1.rbit q (Reg.QDEC_CTL i) 0 = false ∧ s1.rbit e (Reg.SEP_CTL i) 0 = false) →
        exec (.qdecPinselWrite x c v mask) s = .next (s1.setReg q Reg.QDEC_PINSEL ((s1.reg q Reg.QDEC_PINSEL &&& ~~~(mask &&& 0x3F)) ||| (v &&& mask &&& 0x3F))).wrote)
    ∧ (s.Reaches x q s1 → s1.Open q → s1.rbit q (Reg.QDEC_CTL n) 0 = true → ∃ t, exec (.qdecPinselWrite x c v mask) s = .next t
        ∧ t.rbit q Reg.QDEC_PINSEL n = s1.rbit q Reg.QDEC_PINSEL n ∧ t.Apart { s1 with resp := .none } ∧ t.clusters = s1.clusters)
    ∧ (s.Reaches x q s1 → exec (.qdecPosWrite x c n v mask) s = .next (if (s1.fb c n).idxAt = some (s1.time.clk / 8) then s1
        else s1.setReg q (Reg.QDEC_POS n) ((s1.reg q (Reg.QDEC_POS n) &&& ~~~mask) ||| (v &&& mask))).wrote)
    ∧ (held ≤ s.fld q (Reg.QDEC_CTL n) 7 4 → exec (.qdecCountStep c n (a, b) held) s = .next s ∧ exec (.qdecIndex c (n, ⟨a, held⟩)) s = .next s)
    ∧ (s.fld q (Reg.QDEC_CTL n) 7 4 < held → s.canonical = true →
        let on := !s.rbit q Reg.QDEC_PINSEL n && s.rbit q (Reg.QDEC_CTL n) 0
        let a0 := (s.fb c n).pins.getLsbD 0
        let b0 := (s.fb c n).pins.getLsbD 1
        let i0 := (s.fb c n).pins.getLsbD 2
        let step := qdecDelta (s.fld q (Reg.QDEC_CTL n) 2 1) a0 b0 a b
        let dir := if s.rbit q (Reg.QDEC_CTL n) 3 then -step else step
        (∃ t, exec (.qdecCountStep c n (a, b) held) s = .next t ∧ s.Apart t ∧ (t.fb c n).pins.getLsbD 0 = a ∧ (t.fb c n).pins.getLsbD 1 = b
          ∧ (t.fb c n).pins.getLsbD 2 = i0
          ∧ (on = false → t.reg q (Reg.QDEC_POS n) = s.reg q (Reg.QDEC_POS n))
          ∧ (on = true → a0 ≠ a → b0 ≠ b → t.reg q (Reg.QDEC_POS n) = s.reg q (Reg.QDEC_POS n) ∧ t.rbit q Reg.PAGE_IRQ_STAT 2 = true)
          ∧ (on = true → a0 = a ∨ b0 = b → (s.fb c n).idxAt ≠ some (s.time.clk / 8) →
              t.reg q (Reg.QDEC_POS n) = s.reg q (Reg.QDEC_POS n) + BitVec.ofInt 32 dir ∧ (dir ≠ 0 → t.rbit q (Reg.QDEC_STAT n) 4 = decide (dir < 0))))
        ∧ (∃ t, exec (.qdecIndex c (n, ⟨a, held⟩)) s = .next t ∧ s.Apart t ∧ (t.fb c n).pins.getLsbD 2 = a
          ∧ (let gate := s.rbit q (Reg.QDEC_CTL n) 10 = false ∨ bitsOf ((s.fb c n).pins.setWidth 32) 1 0 = s.fld q (Reg.QDEC_CTL n) 12 11
             (on = false ∨ a = false ∨ i0 = true ∨ ¬ gate → t.reg q (Reg.QDEC_POS n) = s.reg q (Reg.QDEC_POS n)
               ∧ t.reg q (Reg.QDEC_IDXPOS n) = s.reg q (Reg.QDEC_IDXPOS n))
             ∧ (on = true → a = true → i0 = false → gate → t.reg q (Reg.QDEC_IDXPOS n) = s.reg q (Reg.QDEC_POS n)
               ∧ t.rbit q (Reg.QDEC_STAT n) 3 = true ∧ t.rbit q Reg.PAGE_IRQ_STAT 1 = true
               ∧ t.reg q (Reg.QDEC_POS n) = (if s.fld q (Reg.QDEC_CTL n) 9 8 = 1 ∨ s.fld q (Reg.QDEC_CTL n) 9 8 = 2 ∧ s.rbit q (Reg.QDEC_STAT n) 3 = false
                   then s.reg q (Reg.QDEC_IDXLOAD n) else s.reg q (Reg.QDEC_POS n))))))
    ∧ (let w := s.reg (pgCap c) (Reg.CAP_CTL n)
       let l := (s.fb c g).pins
       (18 ≤ bitsOf w 5 1 → exec (.captureEdge c n ⟨rise, held⟩) s = .next s)
       ∧ (bitsOf w 5 1 = 3 * g.val → exec (.captureEdge c n ⟨rise, held⟩) s = exec (.qdecCountStep c g (rise, l.getLsbD 1) held) s)
       ∧ (bitsOf w 5 1 = 3 * g.val + 1 → exec (.captureEdge c n ⟨rise, held⟩) s = exec (.qdecCountStep c g (l.getLsbD 0, rise) held) s)
       ∧ (bitsOf w 5 1 = 3 * g.val + 2 → exec (.captureEdge c n ⟨rise, held⟩) s = exec (.qdecIndex c (g, ⟨rise, held⟩)) s)
       ∧ (∀ i < 3, bitsOf w 5 1 = 3 * g.val + i → l.getLsbD i ≠ rise → s.fld q (Reg.QDEC_CTL g) 7 4 < held → s.canonical = true →
          ∃ t, exec (.captureEdge c n ⟨rise, held⟩) s = .next t ∧ s.Apart t
            ∧ (bitOf w 0 = false ∨ bitsOf w 7 6 ≠ (if rise then 1 else 2) ∧ bitsOf w 7 6 ≠ 3 → (t.fb c n).cap = (s.fb c n).cap)
            ∧ (bitOf w 0 = true → bitsOf w 7 6 = (if rise then 1 else 2) ∨ bitsOf w 7 6 = 3 →
              (4 ≤ (s.fb c n).cap.length → (t.fb c n).cap = (s.fb c n).cap ∧ t.rbit (pgCap c) Reg.PAGE_IRQ_STAT 1 = true)
              ∧ ((s.fb c n).cap.length < 4 → (t.fb c n).cap.dropLast = (s.fb c n).cap
                ∧ (t.fb c n).cap.getLast?.map (fun r => (r.rise, r.pos))
                    = some (rise, if bitOf w 8 then (if i = 2 then s else t).reg q (Reg.QDEC_POS n) else 0)
                ∧ (t.fb c n).cap.getLast?.map CapRec.ts ∈ [some s.time.ns, some (s.time.ns + 1), some (s.time.ns - 1)]))))
    ∧ (s.Reaches x (pgCap c) s1 →
        let snap (u : State) (ts : DWord) (pos st : Word) : State := ((u.setSnap x.by_ (pgCap c) (Reg.CAP_TS_HI n) ((ts >>> 32).setWidth 32)).setSnap
          x.by_ (pgCap c) (Reg.CAP_POS n) pos).setSnap x.by_ (pgCap c) (Reg.CAP_STAT n) st
        ((s1.fb c n).cap = [] → exec (.capTsLoRead x c n) s = .next ((snap s1 0 0 0).answer 0xFFFFFFFF))
        ∧ (∀ r l, (s1.fb c n).cap = r :: l → r.clk / 2 = s1.time.clk / 2 → exec (.capTsLoRead x c n) s = .next ((snap s1 0 0 0).answer 0xFFFFFFFF))
        ∧ (∀ r l, (s1.fb c n).cap = r :: l → r.clk / 2 ≠ s1.time.clk / 2 → exec (.capTsLoRead x c n) s
            = .next ((snap (s1.modFb c n (fun f => { f with cap := l })) r.ts r.pos (if r.rise then 8 else 0)).answer (r.ts &&& 0xFFFFFFFF))))
    ∧ (s.Reaches x e s1 →
        (s1.sepBusy c n = true → exec (.sepCmdReq x c n) s = .next s1.wrote)
        ∧ (s1.sepBusy c n = false → s1.rbit e (Reg.SEP_CTL n) 0 = true → s1.rbit q Reg.QDEC_PINSEL n = true →
            exec (.sepCmdReq x c n) s = .next ((s1.modFb c n (fun f => { f with xfer := some ⟨none, 0, s1.now, 0, 0, 0⟩ })).setBit e (Reg.SEP_STAT n) 1
              (s1.sepDiv c n).2).wrote)
        ∧ (s1.sepBusy c n = false → s1.rbit e (Reg.SEP_CTL n) 0 = false ∨ s1.rbit q Reg.QDEC_PINSEL n = false →
            exec (.sepCmdReq x c n) s = .next (((s1.setFld e (Reg.SEP_STAT n) 3 2 0).count e (Reg.SEP_ERR_CNT n) 15 0).raise e 1).wrote)
        ∧ exec (.sepDataLoRead x c n) s = .next ((s1.setSnap x.by_ e (Reg.SEP_DATA_HI n) (((s1.fb c n).data >>> 32).setWidth 32)).answer
            ((s1.fb c n).data &&& 0xFFFFFFFF)))
    ∧ ((s.fb c n).xfer = none → exec (.sepTransferEnd c n first data crc) s = .next s)
    ∧ (∀ y, (s.fb c n).xfer = some y → y.entry = none → s.canonical = true → s.rbit e (Reg.SEP_CTL n) 14 = false →
        ∃ t, exec (.sepTransferEnd c n first data crc) s = .next t ∧ (t.fb c n).xfer = none ∧ (t.fb c n).recover.isSome = true ∧ t.mem = s.mem ∧ t.cores = s.cores
          ∧ (t.fb c n).data.toNat = data.toNat % 2 ^ s.sepLen c n
          ∧ (s.sepCrcLen c n = 0 → t.rbit e Reg.PAGE_IRQ_STAT 0 = true ∧ t.reg e (Reg.SEP_ERR_CNT n) = s.reg e (Reg.SEP_ERR_CNT n)))
    ∧ (∀ y, (s.fb c n).xfer = some y → y.entry = none → s.canonical = true → s.rbit e (Reg.SEP_CTL n) 14 = true →
        max 1 (s.fld e (Reg.SEP_TIM n) 15 8) < first →
        ∃ t, exec (.sepTransferEnd c n first data crc) s = .next t ∧ (t.fb c n).xfer = none ∧ t.fld e (Reg.SEP_STAT n) 3 2 = 1
          ∧ t.rbit e Reg.PAGE_IRQ_STAT 1 = true ∧ (t.fb c n).data = (s.fb c n).data ∧ t.mem = s.mem ∧ t.cores = s.cores)
    ∧ (∀ y, (s.fb c n).xfer = some y → s.trace.armed = false → ∃ t, exec (.sepTransferEnd c n first data crc) s = .next t ∧ (t.fb c n).xfer = none
        ∧ (t.fb c n).recover.isSome = true ∧ t.mem = s.mem ∧ t.cores = s.cores)
    ∧ ((s.fb c n).recover = none → exec (.sepRecoveryEnd c n) s = .next s)
    ∧ (∀ z, (s.fb c n).recover = some z → exec (.sepRecoveryEnd c n) s = .next ((s.advance z).modFb c n (fun f => { f with recover := none })))


/-- R218, R225 to R227, R229, R330, R331: `RUN` = 1 starts a core with empty banks at its boot vector, `RUN` = 0 stops it at once; a
locked pair starts as one and ignores its checker's page; only an M-level access starts or stops an application core. The debug port halts,
resumes, steps and inspects cores, but not in FIELD; the boot state that the rules do not name is DESIGN CHOICE (log 13).
Each of these is said to complete, with a next state that has its effect: `ceRunStart`, `ceRunStop`, `acRunStart`, `acRunStop`, `acPcsampLoRead`,
`debugHalt`, `debugResume`, `debugStep`, `debugAccess`. -/
def Obligations.CoreControl : Prop :=
  ∀ (x : Access) (e : Fin 64) (a : Fin 8) (c : CoreId) (s s1 : State) (v w : Word) (b : Fin 4) (i : Nat) (n : BitVec 8),
    (s.Reaches x (pgCe e) s1 → s1.Open (pgCe e) → s1.locked (.ce e) = false →
      let old := s1.reg (pgCe e) Reg.CE_CTL
      let on := s1.setReg (pgCe e) Reg.CE_CTL ((old &&& ~~~ 0xF) ||| ((v ||| 1) &&& 0xF))
      let off := s1.setReg (pgCe e) Reg.CE_CTL ((old &&& ~~~ 0xF) ||| (v &&& 0xE))
      (bitOf old 0 = false → exec (.ceRunStart x e v) s
          = .next ((on.modCore (.ce e) (fun k => k.startCe (s1.reg (pgCe e) Reg.CE_BOOTVEC))).forceRegions e).wrote
        ∧ exec (.ceRunStop x e v) s = .next off.wrote)
      ∧ (bitOf old 0 = true → exec (.ceRunStart x e v) s = .next on.wrote
        ∧ exec (.ceRunStop x e v) s = .next (off.modCore (.ce e) Core.stop).wrote))
    ∧ (∀ (q : Core) (pc : Word), let z := q.startCe pc
        z.running = true ∧ z.pc = pc ∧ z.ctx = .tail ∧ z.bank = .tl ∧ z.lvl = 1 ∧ z.bFg = q.bFg.emptied ∧ z.bTl = q.bTl.emptied ∧ z.bS = q.bS.emptied
          ∧ z.bM = q.bM.emptied ∧ z.sbuf = q.sbuf ∧ q.stop.running = false ∧ q.stop.ctx = .idle ∧ q.stop.sbuf = q.sbuf ∧ q.stop.bFg = q.bFg)
    ∧ (s.canonical = true → ∀ o < 0x100, o % 4 = 0 →
        (s.forceRegions e).reg (pgCe e) (forceOff (0x100 + o)) = s.reg (pgCe e) (0x100 + o))
    ∧ (s.Reaches x (pgCe e) s1 → s1.locked (.ce e) = true →
      (isChecker (.ce e) = true → exec (.ceRunStart x e v) s = .next s1.wrote ∧ exec (.ceRunStop x e v) s = .next s1.wrote)
      ∧ (isChecker (.ce e) = false → s1.rbit (pgCe e) Reg.CE_CTL 0 = false →
          s1.rbit (corePage (checkerOf (pairOf (.ce e)))) Reg.CE_CTL 0 = false →
          ∃ t, exec (.ceRunStart x e v) s = .next t ∧ (t.core (.ce e)).running = true ∧ (t.core (checkerOf (pairOf (.ce e)))).running = true
            ∧ t.mem = s1.mem ∧ t.pairs = s1.pairs))
    ∧ (s.Reaches x (pgAc a) s1 → x.m = false → exec (.acRunStart x a v) s = .next (s1.raise (pgAc a) 2).wrote
        ∧ exec (.acRunStop x a v) s = .next (s1.raise (pgAc a) 2).wrote)
    ∧ (s.Reaches x (pgAc a) s1 → x.m = true → s1.locked (.ac a) = false → 2 ≤ a.val →
      let old := s1.reg (pgAc a) Reg.AC_CTL
      let on := s1.setReg (pgAc a) Reg.AC_CTL ((old &&& ~~~ 3) ||| ((v ||| 1) &&& 3))
      (bitOf old 0 = false → ∃ t, exec (.acRunStart x a v) s = .next t ∧ (t.core (.ac a)).running = true
          ∧ (t.core (.ac a)).pc = s1.reg (pgAc a) Reg.AC_BOOTVEC_LO ∧ (t.core (.ac a)).bank = .m ∧ (t.core (.ac a)).status = 0x803
          ∧ (t.core (.ac a)).bM.cells = [] ∧ (t.core (.ac a)).tlb = [] ∧ t.mem = s1.mem ∧ t.pairs = s1.pairs
          ∧ t.reg (pgMmu a) (forceOff Reg.MMU_CTL) = s1.reg (pgMmu a) Reg.MMU_CTL)
      ∧ (bitOf old 0 = true → exec (.acRunStart x a v) s = .next on.wrote)
      ∧ (bitOf old 0 = true → ∃ t, exec (.acRunStop x a v) s = .next t ∧ t.core (.ac a) = (s1.core (.ac a)).stop
          ∧ t.rbit (pgAc a) Reg.AC_CTL 0 = false ∧ t.mem = s1.mem ∧ t.pairs = s1.pairs))
    ∧ (s.Reaches x (pgAc a) s1 → exec (.acPcsampLoRead x a) s
        = .next ((s1.setSnap x.by_ (pgAc a) Reg.AC_PCSAMP_HI (w32 ((s1.core (.ac a)).lastPc / 2 ^ 32))).answerW (w32 (s1.core (.ac a)).lastPc)))
    ∧ (s.lifecycle = 2 → exec (.debugHalt c) s = .next s ∧ exec (.debugResume c) s = .next s ∧ exec (.debugStep c) s = .next s
        ∧ exec (.debugAccess c (.cell b i none)) s = .next s ∧ exec (.debugAccess c (.mem i 4 none)) s = .next s)
    ∧ (s.lifecycle ≠ 2 →
      ((s.core c).halted = true ∨ (s.core c).running = false → s.locked c = false → exec (.debugHalt c) s = .next s)
      ∧ ((s.core (.ac a)).halted = false → (s.core (.ac a)).running = true → s.locked (.ac a) = false → exec (.debugHalt (.ac a)) s
          = .next ((s.modCore (.ac a) (fun k => { k with halted := true, step1 := false })).raise (pgAc a) 1))
      ∧ ((s.core (.ce e)).halted = false → (s.core (.ce e)).running = true → s.locked (.ce e) = false →
          (s.rbit (pgPwg0 (clusterOf e)) Reg.PAGE_CTL 2 = false → exec (.debugHalt (.ce e)) s
            = .next (s.modCore (.ce e) (fun k => { k with halted := true, step1 := false })))
          ∧ (s.rbit (pgPwg0 (clusterOf e)) Reg.PAGE_CTL 2 = true → ∃ t, exec (.debugHalt (.ce e)) s = .next t ∧ (t.core (.ce e)).halted = true
            ∧ t.mem = s.mem ∧ ∀ k : Fin 18, (t.ch (clusterOf e) k).safe
                = ((s.ch (clusterOf e) k).safe || s.chCtl (clusterOf e) k 4 2 == (localOf e).val)))
      ∧ ((s.core c).halted = false → exec (.debugResume c) s = .next s ∧ exec (.debugStep c) s = .next s)
      ∧ ((s.core c).halted = true → s.locked c = false → (s.core c).ovrPend = none →
          exec (.debugResume c) s = .next (s.modCore c (fun k => { k with halted := false, step1 := false }))
          ∧ exec (.debugStep c) s = .next (s.modCore c (fun k => { k with halted := false, step1 := true })))
      ∧ ((s.core c).halted = false → exec (.debugAccess c (.cell b i (some w))) s = .next s ∧ exec (.debugAccess c (.ret b i none)) s = .next s
          ∧ exec (.debugAccess c (.csr b n (some w))) s = .next s)
      ∧ ((s.core c).halted = true → s.locked c = false → (s.core c).pend = [] → i < ((s.core c).bankOf (dbgBank b)).cells.length →
          (∀ z, ((s.core c).bankOf (dbgBank b)).cells[i]? = some z →
            exec (.debugAccess c (.cell b i none)) s = .next (if z.pend = none then s.answerW z.val else s.dbgUnfilled))
          ∧ ∃ t, exec (.debugAccess c (.cell b i (some w))) s = .next t
            ∧ ((t.core c).bankOf (dbgBank b)).cells = ((s.core c).bankOf (dbgBank b)).cells.set i ⟨w, none⟩ ∧ (t.core c).pc = (s.core c).pc
            ∧ t.mem = s.mem ∧ t.regs = s.regs)
      ∧ ((s.core c).halted = true → s.locked c = false → (s.core c).pend = [] →
          exec (.debugAccess c (.ret b i none)) s = .next (s.answerW (((s.core c).bankOf (dbgBank b)).rets.getD i 0))
          ∧ (((s.core c).bankOf (dbgBank b)).accLo = none → ((s.core c).bankOf (dbgBank b)).accHi = none →
              exec (.debugAccess c (.csr b n none)) s = .next (s.answerW ((s.modCore c (fun k => { k with bank := dbgBank b })).csrRead c n.toNat))))
      ∧ (∀ j y, (s.core c).halted = true → s.locked c = false → (s.core c).pend = [⟨j, some y, false⟩] →
          ((s.core c).bankOf (dbgBank b)).cells[i]? = some ⟨0, some j⟩ →
          ∃ t, exec (.debugAccess c (.cell b i none)) s = .next t ∧ t.resp = .data (y.setWidth 64))
      ∧ (∀ s2 l, s.physRead .debug false i 4 = (s2, .data l) → exec (.debugAccess c (.mem i 4 none)) s = .next { s2 with resp := .bytes l }))

/-- R309 to R325, R449: an edge makes an enabled edge source pend, or sets its latch while the controller's clock stands still, which may wake
domains; a level source follows its input unless it is active or its completion is not resampled. A claim takes the best source that
qualifies, highest priority first, then the lowest number; a completion ends exactly the service of its own context, any other is stray.
Each of these is said to complete, with a next state that has its effect: `sourceEdge`, `sourceLevelChange`, `edgeLatchPass`, `ctxClaimRead`,
`ctxCmplWrite`, `completionResample`, `swsetWrite`, `ctxCtlWrite`, `srcCfgWrite`. -/
def Obligations.InterruptSources : Prop :=
  ∀ (x : Access) (i : Fin 9) (n : Fin 1024) (k : Fin 16) (s s1 : State) (v mask : Word),
    let w := s.srcCfg i n
    let inDom := match srcDomain i n with | some d => s.domOn d | none => true
    let known := x.m = true ∨ ctxM k = false
    (s.power.queue = [] →
      (srcExists i n = false ∨ srcIsEdge i n = false ∨ bitOf w 8 = false ∨ inDom = false → exec (.sourceEdge i n) s = .next s)
      ∧ (srcExists i n = true → srcIsEdge i n = true → bitOf w 8 = true → inDom = true →
        (s.irqClock i = true → ∃ t, exec (.sourceEdge i n) s = .next t ∧ t.regs = (s.setSrc i n 16 16 1).regs ∧ s.Apart t
          ∧ t.irq.resample = s.irq.resample
          ∧ (bitOf w 16 = true → t.irq = s.irq) ∧ (bitOf w 16 = false → t.irq.pendAt.head? = some ((i : Nat) * 1024 + (n : Nat), s.time.clk)))
        ∧ (s.irqClock i = false → s.srcWake i n = false → exec (.sourceEdge i n) s = .next (s.setSrc i n 18 18 1)))
      ∧ (srcExists i n = false ∨ srcIsEdge i n = true → exec (.sourceLevelChange i n) s = .next s)
      ∧ (s.srcCut i n = true → exec (.sourceLevelChange i n) s = .next s)
      ∧ (s.irqClock i = true → srcExists i n = true → srcIsEdge i n = false →
        (bitOf w 17 = true ∨ s.resampling i n = true → exec (.sourceLevelChange i n) s = .next s)
        ∧ (bitOf w 17 = false → s.resampling i n = false → s.srcCut i n = false → ∃ t, exec (.sourceLevelChange i n) s = .next t
            ∧ t.regs = (s.setSrc i n 16 16 (b2n (bitOf w 8 && s.srcInput i n))).regs ∧ s.Apart t ∧ t.irq.resample = s.irq.resample))
      ∧ (s.irqClock i = false → s.srcInput i n = false → exec (.sourceLevelChange i n) s = .next s))
    ∧ (s.irqClock i = false ∨ bitOf w 18 = false → exec (.edgeLatchPass i n) s = .next s)
    ∧ (s.irqClock i = true → bitOf w 18 = true → s.canonical = true → ∃ t, exec (.edgeLatchPass i n) s = .next t
        ∧ bitOf (t.srcCfg i n) 18 = false ∧ bitOf (t.srcCfg i n) 16 = (bitOf w 16 || bitOf w 8) ∧ s.Apart t ∧ t.irq.resample = s.irq.resample)
    ∧ (s.Reaches x (irqPage i) s1 → ctxM k = true → x.m = false →
        exec (.ctxClaimRead x i k) s = .next ((s1.raise (irqPage i) 1).answerW (w32 (spurious i)))
        ∧ exec (.ctxCmplWrite x i k v) s = .next (s1.raise (irqPage i) 1).wrote
        ∧ exec (.ctxCtlWrite x i k v mask) s = .next (s1.raise (irqPage i) 1).wrote)
    ∧ (s.Reaches x (irqPage i) s1 → known →
        (s1.ctxBest i k = none → exec (.ctxClaimRead x i k) s = .next ((s1.count (irqPage i) Reg.CLAIM_SPUR 15 0).answerW (w32 (spurious i))))
        ∧ (∀ g p, s1.ctxBest i k = some (g, p) → exec (.ctxClaimRead x i k) s
            = .next ((((s1.setSrc i g 16 16 0).setSrc i g 17 17 1).setSrc i g 23 20 k).answerW (w32 (g + p * 65536))))
        ∧ (let z := bitsOf v 9 0 % srcCount i
           (z = 0 ∨ z = spurious i → exec (.ctxCmplWrite x i k v) s = .next s1.wrote)
           ∧ (z ≠ 0 → z ≠ spurious i → srcExists i z = true → bitOf (s1.srcCfg i z) 17 = true → bitsOf (s1.srcCfg i z) 23 20 = k.val →
              ∃ t, exec (.ctxCmplWrite x i k v) s = .next t ∧ t.regs = ((s1.setSrc i z 17 17 0).setSrc i z 23 20 0).regs
                ∧ t.irq.resample = (i.val * 1024 + z, s1.time.clk + 4) :: s1.irq.resample.filter (fun r => r.1 != i.val * 1024 + z) ∧ t.Apart { s1 with resp := .none })
           ∧ (z ≠ 0 → z ≠ spurious i → bitOf (s1.srcCfg i z) 17 = false ∨ bitsOf (s1.srcCfg i z) 23 20 ≠ k.val → exec (.ctxCmplWrite x i k v) s
              = .next (((s1.count (irqPage i) Reg.CMPL_STRAY 15 0).setReg (irqPage i) Reg.STRAY_LAST (w32 (z + k.val * 65536))).raise (irqPage i) 0).wrote))
        ∧ exec (.ctxCtlWrite x i k v mask) s = .next (s1.setReg (irqPage i) (Reg.CTX_CTL k)
            ((s1.reg (irqPage i) (Reg.CTX_CTL k) &&& ~~~(mask &&& 0xF1)) ||| (v &&& mask &&& 0xF1))).wrote)
    ∧ (∀ g p, s.canonical = true → s.ctxBest i k = some (g, p) → s.srcQualifies i k g = true ∧ p = bitsOf (s.srcCfg i g) 3 0
        ∧ (n.val < srcCount i → s.srcQualifies i k n = true → bitsOf w 3 0 < p ∨ bitsOf w 3 0 = p ∧ g ≤ n.val))
    ∧ (s.canonical = true → s.ctxBest i k = none → n.val < srcCount i → s.srcQualifies i k n = false)
    ∧ (s.irq.resample.any (fun r => r.1 == i.val * 1024 + n.val) = false → exec (.completionResample i n) s = .next s)
    ∧ (∀ r, s.irq.resample.find? (fun q => q.1 == i.val * 1024 + n.val) = some r →
        let s2 := s.edges (r.2 - s.time.clk)
        let u := { s2 with irq := { s2.irq with resample := s2.irq.resample.filter (fun q => q.1 != i.val * 1024 + n.val) } }
        (srcIsEdge i n = true → exec (.completionResample i n) s = .next u)
        ∧ (srcIsEdge i n = false → srcExists i n = true → s2.irqClock i = true → bitOf (s2.srcCfg i n) 17 = false → s2.canonical = true →
            s2.srcCut i n = false → s.time.clk ≤ r.2 → ∃ t, exec (.completionResample i n) s = .next t
              ∧ bitOf (t.srcCfg i n) 16 = (bitOf (s2.srcCfg i n) 8 && s2.srcInput i n)
              ∧ t.resampling i n = false ∧ s2.Apart t ∧ t.time.clk = r.2))
    ∧ (s.Reaches x (irqPage i) s1 → s1.power.queue = [] → let z := bitsOf v 9 0 % srcCount i
        (i.val < 8 ∧ (z < 48 ∨ 111 < z) ∨ i = 8 ∧ (z < 960 ∨ 1022 < z) → exec (.swsetWrite x i v) s = .next s1.wrote)
        ∧ (i.val < 8 ∧ 48 ≤ z ∧ z ≤ 111 ∨ i = 8 ∧ 960 ≤ z ∧ z ≤ 1022 → bitOf (s1.srcCfg i z) 8 = true → s1.irqClock i = true →
            ∃ t, exec (.swsetWrite x i v) s = .next t ∧ t.regs = (s1.setSrc i z 16 16 1).regs ∧ s1.Apart t))
    ∧ (s.Reaches x (srcPage i n) s1 → n.val < srcCount i →
        (srcExists i n = false → exec (.srcCfgWrite x i n false v mask) s = .next s1.wrote ∧ exec (.srcCfgWrite x i n true v mask) s = .next s1.wrote)
        ∧ (srcExists i n = true → x.m = false → bitOf (s1.srcCfg i n) 4 = true →
            ∀ tgt, ∃ t, exec (.srcCfgWrite x i n tgt v mask) s = .next t ∧ t.srcCfg i n = s1.srcCfg i n ∧ t.srcTgt i n = s1.srcTgt i n
              ∧ t.rbit (irqPage i) Reg.PAGE_IRQ_STAT 1 = true ∧ t.Apart { s1 with resp := .none } ∧ t.irq = s1.irq)
        ∧ (srcExists i n = true → x.m = true ∨ bitOf (s1.srcCfg i n) 4 = false → s1.Open (srcPage i n) →
            exec (.srcCfgWrite x i n true v mask) s = .next (s1.setReg (srcPage i n) (Reg.SRC_TGT (n % 128))
              ((s1.reg (srcPage i n) (Reg.SRC_TGT (n % 128)) &&& ~~~(mask &&& 0xFF)) ||| (v &&& mask &&& 0xFF))).wrote
            ∧ ∃ t, exec (.srcCfgWrite x i n false v mask) s = .next t ∧ t.Apart { s1 with resp := .none } ∧ t.irq.resample = s1.irq.resample
              ∧ (x.m = true → bitOf mask 4 = true → bitOf (t.srcCfg i n) 4 = bitOf v 4) ∧ (x.m = false → bitOf (t.srcCfg i n) 4 = false)
              ∧ (bitOf mask 8 = true → bitOf (t.srcCfg i n) 8 = bitOf v 8)
              ∧ (bitOf mask 8 = true → bitOf v 8 = false → bitOf (t.srcCfg i n) 16 = false ∧ bitOf (t.srcCfg i n) 18 = false)
              ∧ (mask &&& 0xF = 0xF → bitsOf (t.srcCfg i n) 3 0 = bitsOf v 3 0)))


/-- R336 to R350: requests of a pair and their refusal, the boundary that serves them, the copy a lock makes, and what a mismatch, the
halt after its drain, and the end of a takeover do. The 1 µs before a request's boundary is R336's own.
Each of these is said to complete, with a next state that has its effect: `pairCmdLock`, `pairCmdSplit`, `pairCmdRelease`, `pairCmdCancel`,
`pairLockBoundary`, `lockDone`, `pairSplitBoundary`, `pairMismatchDetect`, `pairHalt`, `takeoverComplete`. -/
def Obligations.CorePairs : Prop :=
  ∀ (x : Access) (k sb : Fin 36) (s s1 : State) (kind : BitVec 3) (drop : Nat),
    (s.Reaches x (pairPage k) s1 →
      let p := s1.pairs[k]
      let free := s1.domOn (coreDomain (masterOf k)) = true ∧ s1.domOn (coreDomain (checkerOf k)) = true ∧ p.halted = false ∧ p.detect = none
        ∧ p.req = none ∧ p.busy = false
      let ask (b : Bool) : Out := .next (s1.modPair k (fun q => { q with req := some ⟨b, s1.now + Config.usSteps⟩ })).wrote
      let no : Out := .next (s1.raise (pairPage k) 5).wrote
      (free ∧ p.locked = false → exec (.pairCmdLock x k) s = ask true)
      ∧ (¬ (free ∧ p.locked = false) → exec (.pairCmdLock x k) s = no)
      ∧ (free ∧ p.locked = true ∧ s1.standby k = false ∧ k ≠ 32 → exec (.pairCmdSplit x k) s = ask false)
      ∧ (¬ (free ∧ p.locked = true ∧ s1.standby k = false ∧ k ≠ 32) → exec (.pairCmdSplit x k) s = no)
      ∧ (p.busy = true → exec (.pairCmdCancel x k) s = .next s1.wrote)
      ∧ (p.busy = false → exec (.pairCmdCancel x k) s = .next (s1.modPair k (fun q => { q with req := none })).wrote)
      ∧ (p.halted = false → exec (.pairCmdRelease x k) s = .next s1.wrote)
      ∧ (p.halted = true → s1.bcast = [] → ∃ t, exec (.pairCmdRelease x k) s = .next t ∧ t.pairs[k] = { p with halted := false, locked := false, present := none }
          ∧ t.core (masterOf k) = (s1.core (masterOf k)).stop ∧ t.core (checkerOf k) = (s1.core (checkerOf k)).stop ∧ t.mem = s1.mem
          ∧ t.clusters = s1.clusters))
    ∧ (s.pairs[k].req = none → exec (.pairLockBoundary k) s = .next s ∧ exec (.lockDone k) s = .next s ∧ exec (.pairSplitBoundary k) s = .next s)
    ∧ (∀ r, s.pairs[k].req = some r →
      (r.lock = false ∨ s.pairs[k].busy = true ∨ s.pairBoundary k r.from_ = none → exec (.pairLockBoundary k) s = .next s)
      ∧ (r.lock = true ∨ s.pairBoundary k r.from_ = none → exec (.pairSplitBoundary k) s = .next s)
      ∧ (∀ b, s.pairBoundary k r.from_ = some b → s.bcast = [] →
        (r.lock = true → s.pairs[k].busy = false → ∃ t, exec (.pairLockBoundary k) s = .next t ∧ t.pairs[k] = { s.pairs[k] with busy := true }
          ∧ (t.core (checkerOf k)).ctx = .idle ∧ (t.core (checkerOf k)).pend = [] ∧ t.core (masterOf k) = s.core (masterOf k)
          ∧ t.time.clk = max s.time.clk (b / 16) ∧ t.mem = s.mem ∧ t.clusters = s.clusters)
        ∧ (r.lock = false → ∃ t, exec (.pairSplitBoundary k) s = .next t ∧ t.pairs[k] = { s.pairs[k] with locked := false, req := none }
          ∧ t.rbit (pairPage k) Reg.PAGE_IRQ_STAT 2 = true ∧ t.time.clk = max s.time.clk (b / 16) ∧ t.mem = s.mem ∧ t.cores = s.cores))
      ∧ (r.lock = false ∨ s.pairs[k].busy = false ∨ (s.core (masterOf k)).sbuf ≠ [] ∨ (s.core (masterOf k)).pend ≠ [] →
          exec (.lockDone k) s = .next s)
      ∧ (r.lock = true → s.pairs[k].busy = true → (s.core (masterOf k)).sbuf = [] → (s.core (masterOf k)).pend = [] → (s.core (masterOf k)).fgDue = false →
          s.canonical = true →
          ∃ t, exec (.lockDone k) s = .next t ∧ t.pairs[k] = { s.pairs[k] with locked := true, busy := false, req := none }
            ∧ t.rbit (pairPage k) Reg.PAGE_IRQ_STAT 1 = true ∧ t.time = s.time ∧ t.clusters = s.clusters
            ∧ t.core (masterOf k) = { s.core (masterOf k) with hist := [], counters := [], targets := [], direct := [], tlb := [], walk := [], icache := [] }
            ∧ (let m := s.core (masterOf k); let c := t.core (checkerOf k)
               c.pc = m.pc ∧ c.status = m.status ∧ c.bank = m.bank ∧ c.bFg = m.bFg ∧ c.bTl = m.bTl ∧ c.bS = m.bS ∧ c.bM = m.bM ∧ c.ctx = m.ctx
                 ∧ c.cause = m.cause ∧ c.epc = m.epc ∧ c.pkeys = m.pkeys ∧ c.spq = [] ∧ c.ckpt0 = (s.core (checkerOf k)).ckpt0)
            ∧ (k.val < 32 → ∀ o < 0x8000, t.byteAt (lsramBase (Fin.ofNat 64 (2 * k + 1)) + o) = s.byteAt (lsramBase (Fin.ofNat 64 (2 * k)) + o))
            ∧ (k.val < 32 → ∀ o < 0x100, t.reg (pgCe (Fin.ofNat 64 (2 * k + 1))) (0x40 + o) = s.reg (pgCe (Fin.ofNat 64 (2 * k))) (0x40 + o))))
    ∧ (s.pairs[k].locked = false ∨ s.pairs[k].halted = true ∨ s.pairs[k].detect.isSome = true ∨ 6 < kind.toNat → exec (.pairMismatchDetect k kind drop) s = .next s)
    ∧ (s.pairs[k].locked = true → s.pairs[k].halted = false → s.pairs[k].detect = none → kind.toNat ≤ 6 →
        let m := s.core (masterOf k)
        let u := (s.modPair k (fun p => { p with detect := some (kind.toNat, w32 m.lastPc,
            (if k.val < 32 then (s.car (pairCluster k)).tickFcnt else s.time.mfn.setWidth 32), s.time.ns.setWidth 32) })).modCore (masterOf k)
          (fun c => { c with sbuf := c.sbuf.take (c.sbuf.length - drop) })
        (32 ≤ k.val → exec (.pairMismatchDetect k kind drop) s = .next u)
        ∧ (k.val < 32 → exec (.pairMismatchDetect k kind drop) s = .next (u.modPwm (pairCluster k) (fun g => { g with
            flight := g.flight.set (masterLocal k) (g.flight[masterLocal k].filter (fun w => decide (w.at_ ≤ s.now + nsSteps 15))) }))))
    ∧ (s.pairs[k].detect = none → exec (.pairHalt k) s = .next s)
    ∧ (∀ kd pc fc ns, s.pairs[k].detect = some (kd, pc, fc, ns) →
      ((s.core (masterOf k)).sbuf ≠ [] → exec (.pairHalt k) s = .next s)
      ∧ ((s.core (masterOf k)).sbuf = [] → s.canonical = true → k ≠ 32 → ∃ t, exec (.pairHalt k) s = .next t ∧ t.mem = s.mem
        ∧ t.rbit (pairPage k) Reg.PAGE_IRQ_STAT 0 = true
        ∧ (s.rbit (pairPage k) Reg.PAIR_MIS_INFO 0 = false → t.reg (pairPage k) Reg.PAIR_MIS_PC = pc ∧ t.reg (pairPage k) Reg.PAIR_MIS_FCNT = fc
            ∧ t.reg (pairPage k) Reg.PAIR_MIS_DTB = ns ∧ bitsOf (t.reg (pairPage k) Reg.PAIR_MIS_INFO) 2 0 = 1 + 2 * pairLocal k)
        ∧ (s.rbit (pairPage k) Reg.PAIR_MIS_INFO 0 = true → t.reg (pairPage k) Reg.PAIR_MIS_PC = s.reg (pairPage k) Reg.PAIR_MIS_PC)
        ∧ (s.standbyOf k = none → t.rbit (pairPage k) Reg.PAGE_IRQ_STAT 4 = true ∧ t.pairs[k] = { s.pairs[k] with halted := true, detect := none, req := none, present := some (w32 (b2n (decide (32 ≤ k.val)) + 2 * (if k.val < 32 then k.val else k.val - 32) + 64 * kd + 1024)) }
            ∧ (k.val < 32 → t.cores = s.cores))
        ∧ (∀ q, s.standbyOf k = some q → t.pairs[q].busy = true ∧ t.pairs[q].takeover.isSome = true ∧ (t.core (masterOf q)).ctx = .idle
            ∧ t.rbit (pairPage k) (Reg.PAIR_PCFG (pairLocal q)) 3 = false
            ∧ (∀ ch : Fin 18, s.chCtl (pairCluster k) ch 4 2 = (masterLocal k).val → t.chCtl (pairCluster k) ch 4 2 = (masterLocal q).val))))
    ∧ (s.canonical = true → s.pairs[32].detect.isSome = true → (s.core (.ac 0)).sbuf = [] → s.pairs[32].halted = false → s.power.resets = [] →
        ∃ t, exec (.pairHalt 32) s = .next t ∧ t.power.resets = [⟨4, 0, false⟩] ∧ t.rbit pgRst Reg.RST_CAUSE 5 = true)
    ∧ (s.pairs[sb].takeover = none → exec (.takeoverComplete sb) s = .next s)
    ∧ (∀ f, s.pairs[sb].takeover = some f → sb.val < 32 → s.canonical = true →
        let fk := s.core (masterOf (pairAt (pairPage sb) f))
        let m := s.core (masterOf sb)
        ∃ t, exec (.takeoverComplete sb) s = .next t ∧ t.rbit (pairPage sb) Reg.PAGE_IRQ_STAT 3 = true ∧ t.time = s.time
          ∧ t.pairs[sb].busy = false ∧ t.pairs[sb].takeover = none ∧ (t.core (masterOf sb)).running = true
          ∧ (t.core (masterOf sb)).spq = fk.replay.filter (fun a => a.frame = (s.car (pairCluster sb)).tickFcnt)
          ∧ (fk.ckptVal = false → t.mem = s.mem)
          ∧ (fk.fgEnded = true → t.pairs[sb].catchUp = s.pairs[sb].catchUp
              ∧ (s.reg (pairPage sb) (Reg.PAIR_SB_TVEC (pairLocal sb)) = 0 → (t.core (masterOf sb)).ctx = .idle)
              ∧ (s.reg (pairPage sb) (Reg.PAIR_SB_TVEC (pairLocal sb)) ≠ 0 → (t.core (masterOf sb)).ctx = .tail
                  ∧ (t.core (masterOf sb)).pc = s.reg (pairPage sb) (Reg.PAIR_SB_TVEC (pairLocal sb))))
          ∧ (fk.fgEnded = false → (s.car (pairCluster sb)).ticked = true → s.rbit (pgFrm (pairCluster sb)) Reg.FRM_CEMASK (masterLocal sb) = true →
              s.locked (masterOf sb) = true → (t.core (masterOf sb)).ctx = .fg
              ∧ (t.core (masterOf sb)).pc = s.reg (pgFrm (pairCluster sb)) (Reg.FRM_CE_FGVEC (masterLocal sb))
              ∧ t.pairs[sb].catchUp = some ⟨s.now + max 1 (s.fld (pairPage sb) Reg.PAIR_TKO_LIM 4 0) * Config.usSteps,
                  (s.car (pairCluster sb)).tickFcnt, false⟩
              ∧ (t.core (masterOf sb)).fgFcnt = (s.car (pairCluster sb)).tickFcnt ∧ (t.core (masterOf sb)).bFg = m.bFg.emptied))

/-- R357 to R361, R364 to R370, R485: errors of stored words and their write-back, the background test region by region, spare rows, the
ends of an initialisation and of a vault wipe.
Each of these is said to complete, with a next state that has its effect: `eccWriteback`, `bgTestRegion`, `bgTestDone`, `sramURemapGo`, `remapDone`,
`sramInitDone`, `vaultWipe`, `vaultWipeDone`, `memoryBitError`. -/
def Obligations.MemoryMaintenance : Prop :=
  ∀ (x : Access) (p : PageId) (u : Fin 32) (r : BitVec 16) (s s1 : State) (key a bit : Nat) (many dirty fail : Bool) (cause : Fin 4),
    let reg := s.fld p (Reg.SRAM_U_STAT u) 31 16
    let next := if reg + 1 < unitRegions p u then reg + 1 else 0
    let at_ := sparseGet (fun _ => 0) s.btAt (unitKey p u)
    (s.mark key < 201 ∨ 300 ≤ s.mark key → exec (.eccWriteback key) s = .next s)
    ∧ (201 ≤ s.mark key → s.mark key < 300 → exec (.eccWriteback key) s = .next (s.setMark key 0))
    ∧ (∀ m, unitOf a = some m → let k := a / m.word * m.word
        exec (.memoryBitError a bit many false dirty) s
          = .next (s.setMark k (if many ∨ s.mark k ≠ 0 then 100 else 1 + min bit (if m.word = 4 then 38 else 71))))
    ∧ (let held := isNormal a = true ∧ s.l2On a = true ∧ (a < 0x4000000000 ∨ s.hostCached = true)
       let k := a / 8 * 8
       (held → exec (.memoryBitError a bit many true dirty) s = .next { s with l2ecc := sparseSet (fun _ => 0) s.l2ecc k (if many ∨ sparseGet (fun _ => 0) s.l2ecc k ≠ 0 then (if dirty then 100 else 300) else 1 + min bit 71) })
       ∧ (¬ held → exec (.memoryBitError a bit many true dirty) s = .next s))
    ∧ (unitOf a = none → a < 0x1000000000 ∨ 0x3000000000 ≤ a → exec (.memoryBitError a bit many false dirty) s = .next s)
    ∧ (unitOf a = none → 0x1000000000 ≤ a → a < 0x3000000000 → ∃ t, exec (.memoryBitError a bit many false dirty) s = .next t ∧ s.Apart t ∧ t.regs = s.regs
        ∧ t.mark (a / 8 * 8) % 1000 = (if many ∨ s.mark (a / 8 * 8) ≠ 0 then 100 else 1))
    ∧ (s.rbit p (Reg.SRAM_U_CTL u) 0 = false ∨ s.rbit p (Reg.SRAM_U_STAT u) 0 = true ∨ s.rbit p (Reg.SRAM_U_STAT u) 1 = true →
        exec (.bgTestRegion p u) s = .next s)
    ∧ (s.rbit p (Reg.SRAM_U_CTL u) 0 = true → s.rbit p (Reg.SRAM_U_STAT u) 0 = false → s.rbit p (Reg.SRAM_U_STAT u) 1 = false → s.canonical = true →
        let s0 := if at_ = 0 then s else s.advance (at_ - 1 + max 1 (s.fld p (Reg.SRAM_U_CTL u) 31 16) * Config.usSteps)
        let s2 := { s0 with btAt := sparseSet (fun _ => 0) s0.btAt (unitKey p u) (s0.now + 1) }
        (∀ m, unitNo p u = some m → (∀ k ∈ regionWords m reg, s.mark k = 0) → exec (.bgTestRegion p u) s = .next (s2.setBit p (Reg.SRAM_U_STAT u) 0 true))
        ∧ (unitNo p u = none → p.kind = .sramSys → (∀ e ∈ s.l2ecc, l2Slice e.1 + 8 = u.val → e.1 % 0x80000 / 64 ≠ reg) →
            exec (.bgTestRegion p u) s = .next (s2.setBit p (Reg.SRAM_U_STAT u) 0 true))
        ∧ (unitNo p u = none → p.kind = .sramC → s.ckptMarks (clu p.inst) reg = [] →
            exec (.bgTestRegion p u) s = .next (s2.setBit p (Reg.SRAM_U_STAT u) 0 true))
        ∧ (∀ m k, unitNo p u = some m → regionWords m reg = k :: (regionWords m reg).tail → (∀ j ∈ (regionWords m reg).tail, s.mark j = 0) →
            s.mark k = 100 → ∃ t, exec (.bgTestRegion p u) s = .next t ∧ t.fld p (Reg.SRAM_U_STAT u) 31 16 = next
              ∧ t.rbit p (Reg.SRAM_U_STAT u) 0 = false ∧ s2.Apart t))
    ∧ (s.rbit p (Reg.SRAM_U_STAT u) 0 = false → exec (.bgTestDone p u fail) s = .next s)
    ∧ (s.rbit p (Reg.SRAM_U_STAT u) 0 = true → s.canonical = true → u.val < 17 →
        ∃ t, exec (.bgTestDone p u fail) s = .next t ∧ t.rbit p (Reg.SRAM_U_STAT u) 0 = false ∧ t.fld p (Reg.SRAM_U_STAT u) 31 16 = next
          ∧ (s.advance (at_ - 1 + btSteps p u)).Apart t
          ∧ (next = 0 → t.rbit p Reg.PAGE_IRQ_STAT 5 = true)
          ∧ (fail = false → t.reg p (Reg.SRAM_U_BTFAIL u) = s.reg p (Reg.SRAM_U_BTFAIL u) ∧ t.remap = s.remap)
          ∧ (fail = true → t.rbit p Reg.PAGE_IRQ_STAT 2 = true ∧ t.rbit p (Reg.SRAM_U_BTFAIL u) 16 = true ∧ t.fld p (Reg.SRAM_U_BTFAIL u) 15 0 = reg
              ∧ (let spare := s.fld p (Reg.SRAM_U_STAT u) 12 8
                 t.rbit p (Reg.SRAM_U_BTFAIL u) 17 = (s.rbit p (Reg.SRAM_U_CTL u) 1 && spare != 0)
                 ∧ t.fld p (Reg.SRAM_U_STAT u) 12 8 = (if s.rbit p (Reg.SRAM_U_CTL u) 1 then spare - 1 else spare))))
    ∧ (s.Reaches x p s1 → p = pgSramSys ∨ (∃ c : Fin 8, p = pgSramC c) → u.val < (if p.kind = .sramC then 10 else 17) →
        let failed := s1.rbit p (Reg.SRAM_U_BTFAIL u) 16 = true ∧ s1.fld p (Reg.SRAM_U_BTFAIL u) 15 0 = r.toNat ∧ s1.rbit p (Reg.SRAM_U_BTFAIL u) 17 = false
        let testing := s1.rbit p (Reg.SRAM_U_STAT u) 0 = true ∧ s1.fld p (Reg.SRAM_U_STAT u) 31 16 = r.toNat
        let full := unitRegions p u ≤ r.toNat ∨ s1.fld p (Reg.SRAM_U_STAT u) 12 8 = 0 ∨ 0 < s1.remapped p u r.toNat ∧ ¬ failed
        (¬ testing → full → exec (.sramURemapGo x p u r) s = .next (s1.raise p 3).wrote)
        ∧ (testing ∨ ¬ full → exec (.sramURemapGo x p u r) s
            = .next ({ s1 with remapPend := sparseSet (fun _ => 0) s1.remapPend (unitKey p u * 65536 + r.toNat) 1 } : State).wrote))
    ∧ ((∀ e ∈ s.remapPend, e.1 / 65536 = unitKey p u → s.testing p u (e.1 % 65536) = true) → exec (.remapDone p u) s = .next s)
    ∧ (s.remapPend = [(unitKey p u * 65536 + r.toNat, 1)] → s.testing p u r.toNat = false → s.canonical = true → u.val < 17 →
        let spare := s.fld p (Reg.SRAM_U_STAT u) 12 8
        ∃ t, exec (.remapDone p u) s = .next t ∧ s.Apart t ∧ t.remapPend = []
          ∧ (s.remapFull p u r.toNat = true → t.rbit p Reg.PAGE_IRQ_STAT 3 = true ∧ t.remap = s.remap)
          ∧ (s.remapFull p u r.toNat = false → t.fld p (Reg.SRAM_U_STAT u) 12 8 = spare - 1
              ∧ t.remap = sparseSet (fun _ => 0) s.remap (unitKey p u * 65536 + r.toNat) (s.remapped p u r.toNat + 1)))
    ∧ exec (.sramInitDone p u) s = .next (s.setBit p (Reg.SRAM_U_STAT u) 1 false)
    ∧ (s.canonical = true → s.Unqueued → ∃ t, exec (.vaultWipe cause) s = .next t
        ∧ (∀ o < 0x40000, t.byteAt (0x2000000 + o) = 0) ∧ (a < 0x2000000 ∨ 0x2040000 ≤ a → t.byteAt a = s.byteAt a)
        ∧ t.rbit pgSramSys Reg.SRAM_VLT_STAT 0 = true ∧ t.sec.wipeWhy = cause.val ∧ t.rbit pgSec Reg.SEC_LC 2 = false ∧ t.sec.signing = none
        ∧ t.cores = s.cores ∧ t.clusters = s.clusters ∧ t.time = s.time)
    ∧ (s.wiping = false → exec .vaultWipeDone s = .next s)
    ∧ (s.wiping = true → s.canonical = true → s.tamperHeld = none → ∃ t, exec .vaultWipeDone s = .next t
        ∧ t.rbit pgSramSys Reg.SRAM_VLT_STAT 0 = false ∧ t.rbit pgSramSys Reg.SRAM_VLT_STAT 1 = true ∧ t.fld pgSramSys Reg.SRAM_VLT_STAT 6 4 = s.sec.wipeWhy % 8
        ∧ t.rbit pgSramSys Reg.PAGE_IRQ_STAT 6 = true ∧ s.Apart t)

/-- R390 to R395: translation registers are written by their own core at S or M, or by any M-level access, and by the master alone in a
locked pair; the domain closes only if every member can be in it, opens on request, and its membership stands while it is closed.
Each of these is said to complete, with a next state that has its effect: `mmuContextWrite`, `mmuDomctlClose`, `mmuDomctlOpen`, `mmuDommemWrite`. -/
def Obligations.TranslationRegisters : Prop :=
  ∀ (x : Access) (a b : Fin 8) (s s1 : State) (v mask : Word), s.Reaches x (pgMmu a) s1 →
    let own := x.m = true ∨ (x.by_ = .core (.ac a) ∧ 1 ≤ (s1.core (.ac a)).lvl)
    let writes := [((0 : Fin 4), Reg.MMU_CTL, (3 : Word)), (1, Reg.MMU_ROOT_LO, 0xFFFFF000), (2, Reg.MMU_ROOT_HI, 0x3FFF), (3, Reg.MMU_ASID, 0xFFFF)]
    (¬ own → ∀ r : Fin 4, exec (.mmuContextWrite x a r v mask) s = .next (s1.raise (pgMmu a) 1).wrote)
    ∧ (own → s1.Open (pgMmu a) → s1.locked (.ac a) = false → ∀ w ∈ writes, exec (.mmuContextWrite x a w.1 v mask) s
        = .next (s1.setReg (pgMmu a) w.2.1 ((s1.reg (pgMmu a) w.2.1 &&& ~~~(mask &&& w.2.2)) ||| (v &&& mask &&& w.2.2))).wrote)
    ∧ (own → s1.locked (.ac a) = true → isChecker (.ac a) = true → ∀ r : Fin 4, exec (.mmuContextWrite x a r v mask) s = .next s1.wrote)
    ∧ (x.m = false → ∃ t, exec (.mmuDomctlClose x a) s = .next t ∧ exec (.mmuDomctlOpen x a) s = .next t ∧ exec (.mmuDommemWrite x a v mask) s = .next t
        ∧ (∀ b : Fin 8, t.rbit (pgMmu b) Reg.PAGE_IRQ_STAT 3 = true) ∧ t.domClosed = s1.domClosed ∧ t.domMembers = s1.domMembers
        ∧ t.Apart { s1 with resp := .none })
    ∧ (x.m = true →
      ((∃ c : Fin 8, s1.domMembers.testBit c = true ∧ s1.domUnfit c = true) → ∃ t, exec (.mmuDomctlClose x a) s = .next t
          ∧ (∀ b : Fin 8, t.rbit (pgMmu b) Reg.PAGE_IRQ_STAT 3 = true) ∧ t.domClosed = s1.domClosed ∧ t.Apart { s1 with resp := .none })
      ∧ ((∀ c : Fin 8, s1.domMembers.testBit c = true → s1.domUnfit c = false) →
          exec (.mmuDomctlClose x a) s = .next (s1.setBit (pgMmu 0) Reg.MMU_DOMSTAT 0 true).wrote)
      ∧ (s1.bcast = [] → ∃ t, exec (.mmuDomctlOpen x a) s = .next t ∧ t.Apart { s1 with resp := .none })
      ∧ (∃ t, exec (.mmuDomctlOpen x a) s = .next t ∧ t.domClosed = false ∧ t.fld (pgMmu 0) Reg.MMU_DOMSTAT 3 1 = 1 ∧ t.bcast = []
          ∧ (∀ c : Fin 8, t.rbit (pgMmu c) Reg.PAGE_IRQ_STAT 2 = true) ∧ (∀ w ∈ s1.bcast, t.rbit (pgMmu w.issuer) Reg.MMU_STAT 2 = true)
          ∧ t.mem = s1.mem)
      ∧ (s1.domClosed = true → ∃ t, exec (.mmuDommemWrite x a v mask) s = .next t ∧ t.rbit (pgMmu b) Reg.PAGE_IRQ_STAT 3 = true
          ∧ t.domMembers = s1.domMembers)
      ∧ (s1.domClosed = false → exec (.mmuDommemWrite x a v mask) s = .next (s1.setReg (pgMmu 0) Reg.MMU_DOMMEM
          ((s1.reg (pgMmu 0) Reg.MMU_DOMMEM &&& ~~~(mask &&& 0xFF)) ||| (v &&& mask &&& 0xFF))).wrote))
    ∧ (∀ c : Fin 8, s.domUnfit c = false ↔ (s.core (.ac c)).running = true ∧ s.domOn (104 + c) = true ∧ s.pairs[pairOf (.ac c)].halted = false
        ∧ s.pairs[pairOf (.ac c)].busy = false)


/-! ## DMA, flash, power, security (R401 to R485) -/

/-- R402 to R420: starting, aborting and requesting a channel, its descriptor, the grant of a burst slot to the ready channel of
the highest priority, what a burst moves and how it fails, and the confirmation that ends it. Bursts of an increment side stay within 4 KB.
Each of these is said to complete, with a next state that has its effect: `dmaStart`, `dmaAbort`, `dmaSwreq`, `dmaRequest`, `dmaDescriptorRead`,
`dmaBurstGrant`, `dmaBurstDone`, `dmaConfirmDone`. -/
def Obligations.DmaChannels : Prop :=
  ∀ (x : Access) (k : Fin 96) (g : Fin 9) (s s1 : State) (lost before : Nat),
    let p := dmaPage k
    let st := dmaReg Reg.DMA_CH_STAT k
    let d := s.dma[k]
    let srec (u : State) : Bool := u.rbit p (dmaReg Reg.DMA_CH_CFG k) 8
    let ended (t : State) (code err : Nat) : Prop := t.dma[k].phase = .idle ∧ t.dma[k].abort = none ∧ t.fld p st 3 2 = code ∧ t.fld p st 7 4 = err
      ∧ t.rbit p (dmaReg Reg.DMA_CH_EVT k) (code - 1) = true ∧ t.rbit p st 0 = false
    (s.Reaches x p s1 →
      let q := s1.dmaReq k
      (s1.dmaBusy k = true ∨ s1.stopLow = true ∨ 3 < q ∨ k.val < 32 ∧ (q = 1 ∨ q = 2) → exec (.dmaStart x k) s = .next (s1.dmaEvt k 5).wrote)
      ∧ (s1.dmaBusy k = false → s1.stopLow = false → q = 0 ∨ q = 3 ∨ 32 ≤ k.val ∧ q ≤ 3 →
          let a := (s1.reg p (dmaReg Reg.DMA_CH_DESC_LO k)).toNat + s1.fld p (dmaReg Reg.DMA_CH_DESC_HI k) 13 0 * 2 ^ 32
          ∃ t, exec (.dmaStart x k) s = .next t ∧ t.dma[k] = { DmaCh.init with phase := .fetch, cdesc := a / 32 * 32, len := 1 }
            ∧ t.rbit p st 0 = true ∧ t.fld p st 3 2 = 0 ∧ t.mem = s1.mem ∧ t.cores = s1.cores ∧ t.clusters = s1.clusters)
      ∧ (s1.dmaBusy k = false → exec (.dmaAbort x k) s = .next s1.wrote ∧ exec (.dmaSwreq x k) s = .next s1.wrote)
      ∧ (s1.dma[k].phase = .run ∨ s1.dma[k].phase = .fetch → srec s1 = false → ∃ t, exec (.dmaAbort x k) s = .next t ∧ ended t 2 0
          ∧ t.mem = s1.mem ∧ t.cores = s1.cores ∧ t.clusters = s1.clusters)
      ∧ (s1.dma[k].phase = .burst → s1.dma[k].isLast = false ∨ s1.dma[k].burst ≠ s1.dma[k].left →
          exec (.dmaAbort x k) s = .next (s1.modDma k (fun y => { y with abort := some false })).wrote)
      ∧ (q ≠ 3 → exec (.dmaSwreq x k) s = .next s1.wrote)
      ∧ (s1.dmaBusy k = true → q = 3 → s1.dma[k].req = true → exec (.dmaSwreq x k) s = .next (s1.dmaEvt k 4).wrote)
      ∧ (s1.dmaBusy k = true → q = 3 → s1.dma[k].req = false →
          exec (.dmaSwreq x k) s = .next ((s1.modDma k (fun y => { y with req := true })).dmaStat k).wrote))
    ∧ (s.canonical = true → ∀ b : Fin 6, (s.dmaEvt k b).rbit p (dmaReg Reg.DMA_CH_EVT k) b = true
        ∧ (s.rbit p (dmaReg Reg.DMA_CH_IEN k) b = true → (s.dmaEvt k b).rbit p Reg.PAGE_IRQ_STAT (dmaLocal k) = true))
    ∧ (s.dmaReq k = 2 → s.dmaBusy k = true → d.req = true → exec (.dmaRequest k) s = .next (s.dmaEvt k 4))
    ∧ (s.dmaReq k = 2 → s.dmaBusy k = true → d.req = false → exec (.dmaRequest k) s = .next ((s.modDma k (fun y => { y with req := true })).dmaStat k))
    ∧ (s.dmaReq k = 2 → s.dmaBusy k = false → exec (.dmaRequest k) s = .next s)
    ∧ (s.dmaReq k ≠ 2 → exec (.dmaRequest k) s = .next (s.dmaStat k))
    ∧ (d.phase ≠ .fetch → exec (.dmaDescriptorRead k) s = .next s)
    ∧ (d.phase = .fetch → s.canonical = true → ∀ s2 bs, s.physRead (dmaInit k) false d.cdesc 32 = (s2, .data bs) → s2.canonical = true →
        ((d.load bs).bad (descReserved bs) = false → ∃ t, exec (.dmaDescriptorRead k) s = .next t ∧ t.dma[k] = d.load bs ∧ t.mem = s2.mem)
        ∧ ((d.load bs).bad (descReserved bs) = true → srec s2 = false → ∃ t, exec (.dmaDescriptorRead k) s = .next t ∧ ended t 3 1 ∧ t.mem = s2.mem))
    ∧ (d.phase = .fetch → s.canonical = true → ∀ s2, s.physRead (dmaInit k) false d.cdesc 32 = (s2, .busError) → s2.canonical = true → srec s2 = false →
        ∃ t, exec (.dmaDescriptorRead k) s = .next t ∧ ended t 3 2 ∧ t.mem = s2.mem)
    ∧ (s.dmaPick g = none → exec (.dmaBurstGrant g) s = .next s)
    ∧ (∀ j, s.dmaPick g = some j → dmaEngine j = g.val ∧ s.dmaReady j = true ∧ s.dma[j].abort = none
        ∧ (dmaEngine k = g.val → s.dmaReady k = true → d.abort = none →
            s.fld p (dmaReg Reg.DMA_CH_CFG k) 1 0 ≤ s.fld (dmaPage j) (dmaReg Reg.DMA_CH_CFG j) 1 0)
        ∧ ∃ t, exec (.dmaBurstGrant g) s = .next t ∧ t.dma[j] = { s.dma[j] with phase := .burst, burst := s.dma[j].burstLen, req := false }
          ∧ t.mem = s.mem ∧ t.cores = s.cores ∧ t.clusters = s.clusters
          ∧ t.dmaGrant.lookup (g.val * 4 + s.fld (dmaPage j) (dmaReg Reg.DMA_CH_CFG j) 1 0) = some j.val)
    ∧ (d.srcSide.mode = 0 → d.src % 4096 + d.burstLen ≤ 4096) ∧ (d.dstSide.mode = 0 → d.dst % 4096 + d.burstLen ≤ 4096)
    ∧ (d.len ≠ 0 → d.burstLen ≤ d.left)
    ∧ (d.phase ≠ .burst → exec (.dmaBurstDone k lost before) s = .next s)
    ∧ (d.phase = .burst → d.got = [] → d.put = 0 → (∀ s2 l r, State.dmaReads (dmaInit k) d.srcSide d.esz (d.burst / d.esz) s d.src [] = (s2, l, some (some r)) →
          s2.canonical = true → srec s2 = false → r < 16 →
          ∃ t, exec (.dmaBurstDone k lost before) s = .next t ∧ ended t 3 r ∧ t.mem = s2.mem)
        ∧ (∀ s2 s3 bs j r, lost = 0 → State.dmaReads (dmaInit k) d.srcSide d.esz (d.burst / d.esz) s d.src [] = (s2, bs, none) →
          State.dmaWrites (dmaInit k) d.dstSide d.esz (d.burst / d.esz) s2 d.dst bs = (s3, j, some (some r)) → s3.canonical = true → srec s3 = false →
          r < 16 → ∃ t, exec (.dmaBurstDone k lost before) s = .next t ∧ ended t 3 r ∧ t.mem = s3.mem)
        ∧ (∀ s2 s3 bs j, lost = 0 → State.dmaReads (dmaInit k) d.srcSide d.esz (d.burst / d.esz) s d.src [] = (s2, bs, none) →
          State.dmaWrites (dmaInit k) d.dstSide d.esz (d.burst / d.esz) s2 d.dst bs = (s3, j, none) → s3.dma[k] = d → s3.canonical = true → srec s3 = false →
          d.abort = none → d.len ≠ 0 →
          ∃ t, exec (.dmaBurstDone k lost before) s = .next t ∧ t.mem = s3.mem ∧ t.cores = s3.cores ∧ t.clusters = s3.clusters
            ∧ t.dma[k].dst = d.dstSide.step d.dst d.burst ∧ t.dma[k].src = d.srcSide.step d.src d.burst
            ∧ (d.left ≠ d.burst → d.burst ≤ d.left → t.dma[k].phase = .run ∧ t.dma[k].left = d.left - d.burst)
            ∧ (d.left = d.burst → bitOf d.w0 17 = true → t.dma[k].phase = .confirm ∧ t.dma[k].left = 0)
            ∧ (d.left = d.burst → bitOf d.w0 17 = false → d.isLast = true → ended t 1 0)
            ∧ (d.left = d.burst → bitOf d.w0 17 = false → d.isLast = false → t.dma[k].phase = .fetch ∧ t.dma[k].cdesc = d.next)))
    ∧ (d.phase ≠ .confirm → exec (.dmaConfirmDone k) s = .next s)
    ∧ (d.phase = .confirm → d.isLast = true → d.abort = none → (∀ s2 ans, s.physRead (dmaInit k) false
          (if isRegPage d.lastDst then d.lastDst / 4096 * 4096 else d.lastDst) (if isRegPage d.lastDst then 4 else d.esz) = (s2, ans) → ans ≠ .wait →
          s2.canonical = true → s2.dma[k] = d → srec s2 = false → ∃ t, exec (.dmaConfirmDone k) s = .next t ∧ t.mem = s2.mem
            ∧ (if ans = .busError then ended t 3 3 else if ans = .uncorr then ended t 3 5 else ended t 1 0)))

/-- R424 to R436: commands to a bank and their refusal; PROG clears no word that is programmed and leaves the buffer's bytes in the words it
programs, ERASE returns a sector to ones, protected words are kept; SUSPEND, RESUME, fallback and bit errors.
Each of these is said to complete, with a next state that has its effect: `flsCmdProg`, `flsCmdErase`, `flsCmdSuspend`, `flsCmdResume`, `flashOpEnd`,
`flashSuspended`, `flashFallbackDone`, `flashBitError`. -/
def Obligations.FlashMemory : Prop :=
  ∀ (x : Access) (b : Fin 5) (words : BitVec 3) (s s1 : State) (vf : Option Nat) (o n : Nat),
    let f := s.flash[b]
    let busy (t : State) (op : Nat) : Prop := t.flash[b].op = op ∧ t.rbit pgFls Reg.FLS_STAT b = decide (op ≠ 0) ∧ t.mem = s1.mem ∧ t.cores = s1.cores
      ∧ t.flsMark = s1.flsMark
    (s.Reaches x pgFls s1 →
      let f1 := s1.flash[b]
      let no : Out := .next (s1.raise pgFls 6).wrote
      let addr := s1.fld pgFls (Reg.FLS_B_ADDR b) 22 0
      (s1.bankOn b = false → exec (.flsCmdProg x b words) s = no ∧ exec (.flsCmdErase x b) s = no ∧ exec (.flsCmdSuspend x b) s = no ∧ exec (.flsCmdResume x b) s = no)
      ∧ (f1.op ≠ 0 → exec (.flsCmdProg x b words) s = no ∧ exec (.flsCmdErase x b) s = no ∧ exec (.flsCmdResume x b) s = no)
      ∧ (f1.susp.isSome = true → exec (.flsCmdErase x b) s = no) ∧ (f1.op ≠ 2 → exec (.flsCmdSuspend x b) s = no)
      ∧ (f1.susp = none → exec (.flsCmdResume x b) s = no)
      ∧ (s1.bankOn b = true → f1.op = 0 → ∃ t, exec (.flsCmdProg x b words) s = .next t ∧ busy t 1 ∧ t.flash[b].addr = addr
          ∧ t.flash[b].words = words.toNat + 1 ∧ t.flash[b].susp = f1.susp)
      ∧ (s1.bankOn b = true → f1.op = 0 → f1.susp = none → ∃ t, exec (.flsCmdErase x b) s = .next t ∧ busy t 2 ∧ t.flash[b].addr = addr)
      ∧ (s1.bankOn b = true → f1.op = 2 → exec (.flsCmdSuspend x b) s = .next (s1.modBank b (fun y => { y with suspReq := true })).wrote)
      ∧ (∀ sec, s1.bankOn b = true → f1.op = 0 → f1.susp = some sec → ∃ t, exec (.flsCmdResume x b) s = .next t ∧ busy t 2 ∧ t.flash[b].addr = sec
          ∧ t.flash[b].susp = none ∧ t.flash[b].ran = f1.ran))
    ∧ (f.op ≠ 1 → f.op ≠ 2 → exec (.flashOpEnd b vf) s = .next s)
    ∧ (f.op = 1 → s.canonical = true → ∃ t, exec (.flashOpEnd b vf) s = .next t ∧ t.flash[b].op = 0 ∧ t.cores = s.cores ∧ t.time = s.time
        ∧ (f.words = 1 → vf = none → s.flsWordFault b f.addr = none → t.rbit pgFls Reg.PAGE_IRQ_STAT 0 = true
            ∧ (∀ i < 16, t.byteAt (flashBase + bankBase b + f.addr + i)
                = byteOf (s.reg pgFls (Reg.FLS_B_PBUF (32 * b.val + i / 4))) (i % 4))
            ∧ t.flsWord ((bankBase b + f.addr) / 16) = 1)
        ∧ (∀ r, f.words = 1 → s.flsWordFault b f.addr = some r → t.rbit pgFls Reg.PAGE_IRQ_STAT 1 = true ∧ t.mem = s.mem ∧ t.flsMark = s.flsMark
            ∧ t.fld pgFls (Reg.FLS_B_STAT b) 18 16 = r ∧ t.reg pgFls (Reg.FLS_B_ERRADDR b) = w32 f.addr))
    ∧ (f.op = 2 → s.canonical = true → ∃ t, exec (.flashOpEnd b vf) s = .next t ∧ t.flash[b].op = 0 ∧ t.cores = s.cores ∧ t.time = s.time
        ∧ (f.addr = sectorBase b f.addr → f.addr < bankSize b → s.flsProt b f.addr (f.addr + sectorSize b f.addr - 1) = false → vf = none →
            t.rbit pgFls Reg.PAGE_IRQ_STAT 0 = true
            ∧ (n < sectorSize b f.addr → t.byteAt (flashBase + bankBase b + f.addr + n) = 0xFF)
            ∧ (o < flashBase + bankBase b + f.addr ∨ flashBase + bankBase b + f.addr + sectorSize b f.addr ≤ o → t.byteAt o = s.byteAt o))
        ∧ (f.addr ≠ sectorBase b f.addr → t.mem = s.mem ∧ t.rbit pgFls Reg.PAGE_IRQ_STAT 2 = true ∧ t.fld pgFls (Reg.FLS_B_STAT b) 18 16 = 3)
        ∧ (f.addr = sectorBase b f.addr → f.addr < bankSize b → s.flsProt b f.addr (f.addr + sectorSize b f.addr - 1) = true →
            t.mem = s.mem ∧ t.rbit pgFls Reg.PAGE_IRQ_STAT 2 = true ∧ t.fld pgFls (Reg.FLS_B_STAT b) 18 16 = 4))
    ∧ (f.op ≠ 2 ∨ f.suspReq = false → exec (.flashSuspended b) s = .next s)
    ∧ (f.op = 2 → f.suspReq = true → s.canonical = true → ∃ t, exec (.flashSuspended b) s = .next t ∧ t.flash[b].op = 0 ∧ t.flash[b].susp = some (sectorBase b f.addr)
        ∧ t.flash[b].addr = f.addr ∧ t.rbit pgFls Reg.PAGE_IRQ_STAT 7 = true ∧ t.mem = s.mem ∧ t.flsMark = s.flsMark ∧ t.cores = s.cores)
    ∧ (s.fbPend = [] → exec .flashFallbackDone s = .next s)
    ∧ (∀ a l, s.fbPend = a :: l → exec .flashFallbackDone s = .next (({ s with fbPend := l } : State).flsUncorr a true))
    ∧ (let m := s.flsWord (o / 16)
       (n = 0 ∨ m.testBit 4 = true ∨ m.testBit 5 = true → exec (.flashBitError o n) s = .next s)
       ∧ (n ≠ 0 → m.testBit 4 = false → m.testBit 5 = false →
          (m / 2 % 8 + n ≤ 3 → exec (.flashBitError o n) s = .next (s.setFlsWord (o / 16) (m % 2 + 2 * (m / 2 % 8 + n))))
          ∧ (m / 2 % 8 + n = 4 → exec (.flashBitError o n) s = .next (s.setFlsWord (o / 16) (m % 2 + 16)))
          ∧ (4 < m / 2 % 8 + n → ∃ t, exec (.flashBitError o n) s = .next t
              ∧ t = { s with free := s.free + 1, flsMark := t.flsMark })))


/-- R443 to R450, R485: a request for a domain state is served at once, refused with its reason, or waits its turn; a transition that ends
shows its state and raises `DONE`. A monitor event, a lost clock and an over-temperature reset the part; a power-on reset keeps the flash.
Each of these is said to complete, with a next state that has its effect: `powerDomainRequest`, `powerTransitionDone`, `railMonitorEvent`,
`referenceClockFail`, `pllLockLost`, `tempWarn`, `overTemperature`, `powerOnReset`. -/
def Obligations.PowerDomains : Prop :=
  ∀ (x : Access) (d : Fin 148) (r : BitVec 2) (m : Fin 7) (s s1 : State) (lost : Bool) (hot : Bool) (tcd tsd : BitVec 8) (a : Nat),
    (s.Reaches x pgPwr s1 →
      let old := s1.reg pgPwr (Reg.PWR_DOM d)
      let u := s1.setReg pgPwr (Reg.PWR_DOM d) ((old &&& ~~~ 0xC) ||| w32 (4 * r.toNat))
      (r = 2 → exec (.powerDomainRequest x d r) s = .next s1.wrote)
      ∧ (r ≠ 2 → s1.power.busy.isSome = true → exec (.powerDomainRequest x d r) s
          = .next ({ u with power := { u.power with queue := u.power.queue ++ [(d.val, r.toNat)] } } : State).wrote)
      ∧ (r ≠ 2 → s1.power.busy = none → s1.power.queue = [] → s1.power.waking = [] →
        (s1.domState d = r.toNat → exec (.powerDomainRequest x d r) s = .next (u.raise pgPwr 0).wrote)
        ∧ (∀ why, s1.domState d ≠ r.toNat → s1.domRefusal d r.toNat = some why → ∃ t, exec (.powerDomainRequest x d r) s = .next t ∧ t.domState d = s1.domState d
            ∧ t.rbit pgPwr (Reg.PWR_DOM d) 5 = true ∧ t.fld pgPwr (Reg.PWR_DOM d) 8 6 = why % 8 ∧ t.rbit pgPwr Reg.PAGE_IRQ_STAT 1 = true
            ∧ t.power = s1.power ∧ t.Apart { s1 with resp := .none } ∧ t.clusters = s1.clusters)
        ∧ (s1.domState d ≠ r.toNat → s1.domRefusal d r.toNat = none → ∃ t, exec (.powerDomainRequest x d r) s = .next t
            ∧ t.power.busy = some (d.val, r.toNat, s1.domState d) ∧ t.domState d = 2 ∧ t.rbit pgPwr Reg.PWR_STAT 0 = true ∧ t.time = s1.time
            ∧ (r = 0 → ∀ e : Fin 64, d.val = e.val → (t.core (.ce e)).running = false ∧ (t.core (.ce e)).bTl.cells = []))))
    ∧ (∀ p, domParent d = some p → s.domOn p = false → s.domRefusal d 3 = some 1)
    ∧ (domParent d = none → s.domRefusal d 3 = none)
    ∧ (r ≠ 3 → (∃ e : Fin 148, domParent e = some d.val ∧ s.domOn e = true) → s.domRefusal d r.toNat = some 1)
    ∧ (s.Unqueued → s.power.busy = none → exec .powerTransitionDone s = .next s)
    ∧ (∀ g w, s.Unqueued → s.power.busy = some (d.val, g, w) → s.power.queue = [] → s.power.waking = [] → g < 4 → g ≠ 3 ∨ d ≠ 125 ∧ d ≠ 126 → s.canonical = true →
        ∃ t, exec .powerTransitionDone s = .next t ∧ t.power.busy = none ∧ t.domState d = g ∧ t.rbit pgPwr Reg.PWR_STAT 0 = false
          ∧ t.rbit pgPwr Reg.PAGE_IRQ_STAT 0 = true ∧ t.mem = s.mem ∧ t.cores = s.cores ∧ t.time = s.time
          ∧ (g ≠ 3 ∨ d.val < 64 ∨ 104 ≤ d.val ∨ (d.val - 64) % 5 ≠ 2 → t.clusters = s.clusters))
    ∧ (∀ g w e h l, s.Unqueued → s.power.busy = some (d.val, g, w) → s.power.queue = (e, h) :: l → s.power.waking = [] → g ≠ 3 ∨ d ≠ 125 ∧ d ≠ 126 →
        ∃ t, exec .powerTransitionDone s = .next t ∧ t.power.queue.length ≤ l.length)
    ∧ (s.canonical = true → s.power.resets = [] →
      (∃ t, exec (.railMonitorEvent m lost) s = .next t ∧ t.UnderReset ⟨5, 0, false⟩ 0x81 ∧ t.rbit pgRst Reg.RST_MON m = true
          ∧ t.cores = State.reset.cores ∧ t.pairs = State.reset.pairs ∧ t.time = State.reset.time ∧ t.pending = s.pending)
      ∧ (∃ t, exec (.powerOnReset lost) s = .next t ∧ t.UnderReset ⟨5, 0, false⟩ 1 ∧ t.cores = State.reset.cores ∧ t.pairs = State.reset.pairs
          ∧ t.time = State.reset.time ∧ t.dma = State.reset.dma ∧ t.cmd = State.reset.cmd ∧ t.pending = s.pending
          ∧ (0x4000000 ≤ a → a ≤ 0x57FFFFF → s.flsActive = false → t.byteAt a = s.byteAt a)
          ∧ (a < 0x4000000 ∨ 0x57FFFFF < a → t.byteAt a = 0) ∧ t.lifecycle = s.lifecycle ∧ t.sec.owner = s.sec.owner)
      ∧ (∀ i ∈ [Instr.referenceClockFail, .pllLockLost], ∃ t, exec i s = .next t ∧ t.UnderReset ⟨4, 0, false⟩ 0x80 ∧ t.rbit pgRst Reg.RST_MON 7 = true
          ∧ t.Stopped ∧ (s.rbit pgSec Reg.SEC_TMP_CTL 9 = true → t.wiping = true ∧ t.sec.wipeWhy = 3))
      ∧ (∃ t, exec .overTemperature s = .next t ∧ t.UnderReset ⟨4, 0, false⟩ 0x80 ∧ t.rbit pgRst Reg.RST_MON 8 = true ∧ t.Stopped ∧ t.power.hot = true
          ∧ (s.rbit pgSec Reg.SEC_TMP_CTL 10 = true → t.wiping = true)))
    ∧ (let u := s.setReg pgMon Reg.MON_TEMP (w32 (tcd.toNat + 256 * tsd.toNat))
       let thr := s.fld pgMon Reg.MON_TWARN 7 0
       let cool := if tcd.toNat < thr ∧ tsd.toNat < thr then { u with power := { u.power with hot := false } } else u
       hot = decide (thr < tcd.toNat ∨ thr < tsd.toNat) → exec (.tempWarn tcd tsd) s = .next (if hot then u.raise pgPwr 3 else cool))

/-- R451 to R457: the sources of resets and their scopes, a reset absorbed by one that covers it, the release, kicks and expiries of a
watchdog, and the stages of boot. No reset but that of power-on touches memory; flash operations it breaks off are the exception.
Each of these is said to complete, with a next state that has its effect: `resetNPin`, `rstCmdWrite`, `cxlHotReset`, `resetRelease`, `wdKick`,
`watchdogExpiry`, `bootStageDone`. -/
def Obligations.ResetsAndWatchdogs : Prop :=
  ∀ (x : Access) (w : Fin 4) (scope : Fin 6) (num : Fin 64) (ac : Bool) (s s1 : State) (v : Word),
    let dev : ResetRun := ⟨4, 0, false⟩
    let marked (u : State) (bits : Nat) : State := (u.setReg pgRst Reg.RST_CAUSE (u.reg pgRst Reg.RST_CAUSE ||| w32 bits)).mark9 pgRst Reg.RST_CAUSE (w32 bits)
    (s.power.resets.any (fun r => r.covers dev) = true → exec .resetNPin s = .next (marked s 2))
    ∧ (s.power.resets.any (fun r => r.covers dev) = false → s.canonical = true → ∃ t, exec .resetNPin s = .next t ∧ t.UnderReset dev 2 ∧ t.Stopped
        ∧ t.power.resets.length ≤ s.power.resets.length + 1 ∧ t.time = s.time ∧ t.pending = s.pending
        ∧ ((∀ d < 148, s.domOn d = true) → s.flsActive = false → t.mem = s.mem))
    ∧ (s.Reaches x pgRst s1 → s1.Unqueued →
      (x.m = false ∨ bitsOf v 23 16 ≠ 0x5A ∨ 4 < bitsOf v 2 0 ∨ bitsOf v 2 0 = 1 ∧ 7 < bitsOf v 8 3 ∨ bitsOf v 2 0 = 0 ∧ bitOf v 9 = true ∧ 3 < bitsOf v 8 3 → exec (.rstCmdWrite x v) s = .next (s1.raise pgRst 2).wrote)
      ∧ (x.m = true → bitsOf v 23 16 = 0x5A → s1.power.resets = [] →
        (bitsOf v 2 0 = 4 → ∃ t, exec (.rstCmdWrite x v) s = .next t ∧ t.UnderReset dev 0x10 ∧ t.Stopped)
        ∧ (bitsOf v 2 0 = 2 → ∃ t, exec (.rstCmdWrite x v) s = .next t ∧ t.UnderReset ⟨2, 0, false⟩ 0x10 ∧ t.mem = s1.mem ∧ t.cores = s1.cores
            ∧ t.cxl = { State.reset.cxl with downAt := s1.time.clk } ∧ t.clusters = s1.clusters)
        ∧ (bitsOf v 2 0 = 0 → bitOf v 9 = false → bitsOf v 8 3 = num.val → s1.locked (.ce num) = false → ∃ t, exec (.rstCmdWrite x v) s = .next t
            ∧ t.UnderReset ⟨0, num, false⟩ 0x10 ∧ (t.core (.ce num)).running = false ∧ (t.core (.ce num)).bTl.cells = [] ∧ t.mem = s1.mem
            ∧ t.clusters = s1.clusters ∧ t.rbit (pgCe num) Reg.PAGE_LOCK 0 = false)
        ∧ (bitsOf v 2 0 = 1 → bitsOf v 8 3 < 8 → bitsOf v 8 3 = num.val → ∃ t, exec (.rstCmdWrite x v) s = .next t ∧ t.UnderReset ⟨1, num, false⟩ 0x10
            ∧ t.mem = s1.mem ∧ (∀ i : Fin 8, (t.core (.ce (engineOf (clu num) i))).running = false) ∧ t.car (clu num) = Carrier.init)))
    ∧ (s.canonical = true → s.power.resets = [] → s.fld pgRst Reg.RST_CFG 1 0 = 0 → ∃ t, exec .cxlHotReset s = .next t ∧ t.UnderReset ⟨2, 0, false⟩ 4
        ∧ t.mem = s.mem ∧ t.cores = s.cores ∧ t.clusters = s.clusters)
    ∧ (s.canonical = true → s.power.resets = [] → 1 < s.fld pgRst Reg.RST_CFG 1 0 → ∃ t, exec .cxlHotReset s = .next t ∧ t.UnderReset dev 4)
    ∧ (s.Unqueued → (s.power.resets.contains ⟨scope, num, ac⟩ = false → exec (.resetRelease scope num ac) s = .next s)
        ∧ (s.power.resets.contains ⟨scope, num, ac⟩ = true → scope = 4 → s.power.hot = true → exec (.resetRelease scope num ac) s = .next s)
        ∧ (s.power.resets.contains ⟨scope, num, ac⟩ = true → scope ≠ 3 → scope ≠ 4 ∨ s.power.hot = false → exec (.resetRelease scope num ac) s
            = .next { s with power := { s.power with resets := s.power.resets.filter (fun r => r != ⟨scope, num, ac⟩) } })
        ∧ (s.power.resets.contains ⟨3, num, ac⟩ = true → s.canonical = true → ∃ t, exec (.resetRelease 3 num ac) s = .next t ∧ t.bridgeIsDown = false
            ∧ t.power.resets = s.power.resets.filter (fun r => r != ⟨3, num, ac⟩) ∧ t.mem = s.mem ∧ t.cores = s.cores))
    ∧ (s.Reaches x pgRst s1 →
        (bitsOf v 15 0 ≠ 0x6B3A ∨ s1.rbit pgRst (Reg.WD_CTL w) 0 = false → exec (.wdKick x w v) s = .next s1.wrote)
        ∧ (bitsOf v 15 0 = 0x6B3A → s1.rbit pgRst (Reg.WD_CTL w) 0 = true → ∃ t, exec (.wdKick x w v) s = .next t
            ∧ t.power.wdAt[w] = s1.time.clk + 1600000 * max 1 (s1.fld pgRst (Reg.WD_CTL w) 31 16) ∧ t.rbit pgRst (Reg.WD_CNT w) 16 = false
            ∧ t.Apart { s1 with resp := .none } ∧ t.clusters = s1.clusters))
    ∧ (s.rbit pgRst (Reg.WD_CTL w) 0 = false → exec (.watchdogExpiry w) s = .next s)
    ∧ (s.rbit pgRst (Reg.WD_CTL w) 0 = true → s.canonical = true →
        (s.rbit pgRst (Reg.WD_CNT w) 16 = false → ∃ t, exec (.watchdogExpiry w) s = .next t ∧ t.rbit pgRst (Reg.WD_CNT w) 16 = true
          ∧ t.rbit pgRst Reg.PAGE_IRQ_STAT 0 = true ∧ t.power.wdAt[w] = s.power.wdAt[w] + 1600000 * max 1 (s.fld pgRst (Reg.WD_CTL w) 31 16)
          ∧ t.time.clk = max s.time.clk s.power.wdAt[w] ∧ t.mem = s.mem ∧ t.cores = s.cores ∧ t.power.resets = s.power.resets)
        ∧ (s.rbit pgRst (Reg.WD_CNT w) 16 = true → s.power.resets = [] →
          let sc := s.fld pgRst (Reg.WD_CTL w) 2 1
          ∃ t, exec (.watchdogExpiry w) s = .next t
            ∧ t.UnderReset (if sc = 0 ∧ w ≠ 0 then ⟨0, w, true⟩ else if sc = 1 then ⟨3, 0, false⟩ else dev) 8
            ∧ (t.core (.ac ⟨2 * w, by omega⟩)).running = false ∧ (t.core (.ac ⟨2 * w + 1, by omega⟩)).running = false))
    ∧ (let st := s.fld pgRst Reg.RST_BOOT 3 0
       let u (n : Nat) : State := s.setFld pgRst Reg.RST_BOOT 3 0 n
       (s.power.resets.any (fun r => decide (3 ≤ r.scope)) = true ∨ 7 ≤ st → exec .bootStageDone s = .next s)
       ∧ (s.power.resets = [] → s.canonical = true →
         (st = 0 → exec .bootStageDone s = .next (u 1))
         ∧ (st = 1 → ∃ t, exec .bootStageDone s = .next t ∧ t.fld pgRst Reg.RST_BOOT 3 0 = 2 ∧ (t.core (.ac 0)).running = true ∧ (t.core (.ac 1)).running = true
             ∧ t.pairs[32].locked = true ∧ t.rbit pgRst (Reg.WD_CTL 0) 0 = true ∧ t.fld pgRst (Reg.WD_CTL 0) 31 16 = 100 ∧ t.mem = s.mem ∧ t.clusters = s.clusters)
         ∧ (st = 2 → ∃ t, exec .bootStageDone s = .next t ∧ t.cores = s.cores ∧ t.clusters = s.clusters
             ∧ (∀ b, b < 0x1000000 ∨ 0x1800000 ≤ b → t.byteAt b = s.byteAt b)
             ∧ (t.fld pgRst Reg.RST_BOOT 3 0 = 3 ∨ t.fld pgRst Reg.RST_BOOT 3 0 = 15 ∧ t.bootFailed = true ∧ t.mem = s.mem))
         ∧ (st = 3 → ∃ t, exec .bootStageDone s = .next t ∧ t.fld pgRst Reg.RST_BOOT 3 0 = 4 ∧ t.rbit pgCxl Reg.PAGE_LOCK 0 = true ∧ t.cores = s.cores
             ∧ t.clusters = s.clusters)
         ∧ (st = 4 → exec .bootStageDone s = .next (u 5))
         ∧ (st = 5 → ∃ t, exec .bootStageDone s = .next t ∧ t.fld pgRst Reg.RST_BOOT 3 0 = 6 ∧ t.rbit pgSec Reg.SEC_MEAS_LOCK 0 = true
             ∧ t.mem = s.mem ∧ t.time = s.time ∧ t.clusters = s.clusters ∧ (∀ e : Fin 64, t.core (.ce e) = s.core (.ce e))
             ∧ ((s.core (.ac 0)).running = true → (t.core (.ac 0)).pc = w32 s.power.fwEntry))
         ∧ (st = 6 → exec .bootStageDone s = .next (u 7))))


/-- R461 to R468, R576: a sample enters the window, and a switched-on guard cuts where the energy or the current passes its limit; the
commands ON, OFF, CLR and CHECK; what a cable check finds; a general I/O pin that is in use keeps its function.
Each of these is said to complete, with a next state that has its effect: `egSample`, `egCmdOn`, `egCmdOff`, `egCmdClr`, `egCmdCheck`, `egCheckDone`,
`egELoRead`, `fioSelWrite`. -/
def Obligations.EnergyGuards : Prop :=
  ∀ (x : Access) (n c : Fin 8) (s s1 : State) (i v : BitVec 12) (live : Bool) (dv tns : Nat) (w mask : Word),
    let st := Reg.EG_ST n
    let prod := v.toNat * i.toNat
    let energy := ((prod :: s.guards[n].win).take (clampNat 10 100000 (s.fld pgEg (Reg.EG_WIN n) 16 0))).sum
    (s.domOn 145 = false → exec (.egSample n i v) s = .next s)
    ∧ (s.domOn 145 = true → s.canonical = true → ∃ t, exec (.egSample n i v) s = .next t ∧ t.guards[n].win = (prod :: s.guards[n].win).take 100000
        ∧ t.reg pgEg (Reg.EG_MEAS n) = w32 (i.toNat + 65536 * v.toNat) ∧ t.mem = s.mem ∧ t.cores = s.cores
        ∧ (∀ z, s.guards[n].samp = some z → t.time.clk = max s.time.clk ((z + 2560) / 16)) ∧ (s.guards[n].samp = none → t.time = s.time)
        ∧ (s.egOn n = false → t.egOn n = false ∧ t.clusters = s.clusters)
        ∧ (s.egOn n = true → s.egElim n < energy → t.egOn n = false ∧ t.rbit pgEg st 1 = true ∧ t.fld pgEg st 4 3 = 1 ∧ t.rbit pgEg Reg.PAGE_IRQ_STAT 0 = true)
        ∧ (s.egOn n = true → energy ≤ s.egElim n → s.fld pgEg (Reg.EG_ILIM n) 11 0 < i.toNat → t.egOn n = false ∧ t.rbit pgEg st 1 = true ∧ t.fld pgEg st 4 3 = 2)
        ∧ (s.egOn n = true → energy ≤ s.egElim n → i.toNat ≤ s.fld pgEg (Reg.EG_ILIM n) 11 0 → t.egOn n = true ∧ t.clusters = s.clusters))
    ∧ (s.Reaches x pgEg s1 →
      (s1.rbit pgEg st 1 = true → exec (.egCmdOn x n) s = .next (s1.raise pgEg 2).wrote)
      ∧ (s1.rbit pgEg st 1 = false → s1.egOn n = true → exec (.egCmdOn x n) s = .next s1.wrote)
      ∧ (s1.rbit pgEg st 1 = false → s1.egOn n = false → s1.rbit pgEg (Reg.EG_CTL n) 0 = false → exec (.egCmdOn x n) s = .next (s1.setBit pgEg st 0 true).wrote)
      ∧ (s1.rbit pgEg st 1 = false → s1.egOn n = false → s1.rbit pgEg (Reg.EG_CTL n) 0 = true →
          exec (.egCmdOn x n) s = .next ((s1.modGuard n (fun g => { g with check := some true })).setBit pgEg st 2 true).wrote)
      ∧ exec (.egCmdOff x n) s = .next ((s1.setBit pgEg st 0 false).modGuard n (fun g => { g with check := g.check.map (fun _ => false) })).wrote
      ∧ (s1.egElim n < s1.egEnergy n → exec (.egCmdClr x n) s = .next (s1.raise pgEg 2).wrote)
      ∧ (s1.egEnergy n ≤ s1.egElim n → ∃ t, exec (.egCmdClr x n) s = .next t ∧ t.rbit pgEg st 1 = false ∧ t.egOn n = s1.egOn n ∧ t.mem = s1.mem
          ∧ t.cores = s1.cores ∧ t.guards = s1.guards)
      ∧ (s1.egOn n = true → exec (.egCmdCheck x n) s = .next s1.wrote)
      ∧ (s1.egOn n = false → s1.guards[n].check = none →
          exec (.egCmdCheck x n) s = .next ((s1.modGuard n (fun g => { g with check := some false })).setBit pgEg st 2 true).wrote)
      ∧ exec (.egELoRead x n) s = .next ((s1.setSnap x.by_ pgEg (Reg.EG_E_HI n) (w32 (s1.egEnergy n / 2 ^ 32))).answerW (w32 (s1.egEnergy n)))
      ∧ (s1.Open pgEg → let old := s1.reg pgEg (Reg.FIO_SEL c)
          ∃ t, exec (.fioSelWrite x c w mask) s = .next t ∧ t.mem = s1.mem ∧ t.cores = s1.cores ∧ t.guards = s1.guards
            ∧ (∀ b : Fin 29, bitOf mask b = true →
                (bitOf w b = true ∧ bitOf old b = false ∧ s1.fioInUse c b = true → t.rbit pgEg (Reg.FIO_SEL c) b = false ∧ t.rbit pgEg Reg.PAGE_IRQ_STAT 3 = true)
                ∧ (¬ (bitOf w b = true ∧ bitOf old b = false ∧ s1.fioInUse c b = true) → t.rbit pgEg (Reg.FIO_SEL c) b = bitOf w b))))
    ∧ (s.guards[n].check = none → exec (.egCheckDone n live dv tns) s = .next s)
    ∧ (∀ on, s.guards[n].check = some on → s.canonical = true →
      let cur := if s.rbit pgEg (Reg.EG_CTL n) 1 then 1000 else 100
      let tch := 1000 * max 1 (s.fld pgEg (Reg.EG_CTL n) 15 8)
      let pf := cur * (if dv < 3840 then tch else min tns tch) * 2560 / (min dv 3840 * 1000)
      let mv := s.fld pgEg (Reg.EG_CCFG n) 15 0
      let nj := pf * (mv * mv) / 2000000000
      ∃ t, exec (.egCheckDone n live dv tns) s = .next t ∧ t.guards[n] = { s.guards[n] with check := none } ∧ t.rbit pgEg st 2 = false ∧ s.Apart t
        ∧ t.clusters = s.clusters
        ∧ (live = true → t.fld pgEg st 6 5 = 1 ∧ t.rbit pgEg Reg.PAGE_IRQ_STAT 1 = true ∧ t.egOn n = s.egOn n)
        ∧ (live = false → dv < 16 → t.fld pgEg st 6 5 = 2 ∧ t.rbit pgEg Reg.PAGE_IRQ_STAT 1 = true ∧ t.egOn n = s.egOn n)
        ∧ (live = false → 16 ≤ dv → (s.reg pgEg (Reg.EG_CBUDGET n)).toNat < nj → t.fld pgEg st 6 5 = 3 ∧ t.rbit pgEg Reg.PAGE_IRQ_STAT 1 = true ∧ t.egOn n = s.egOn n)
        ∧ (live = false → 16 ≤ dv → nj ≤ (s.reg pgEg (Reg.EG_CBUDGET n)).toNat → t.fld pgEg st 6 5 = 0 ∧ t.egOn n = (on || s.egOn n)
            ∧ t.reg pgEg (Reg.EG_CAP n) = w32 (min pf 0xFFFFFF) ∧ t.reg pgEg (Reg.EG_ESTORE n) = w32 (min nj 0xFFFFFFFF)))

/-- R370, R473 to R485, R542: only M-level accesses of application-core pair 0 act on the security block; a signature answers with a fresh nonce
(a free value), an extension hashes into its slot, slots 0 to 2 close for good; an enabled tamper input wipes the vault; blown fuses change
the lifecycle, wipe the vault and reset the device.
Each of these is said to complete, with a next state that has its effect: `secSignCmdGo`, `signDone`, `secMeasExtGo`, `measExtDone`, `secMeasLockL02`,
`tamperInput`, `lcFusesBlown`, `tamperInputInactive`. -/
def Obligations.SecurityServices : Prop :=
  ∀ (x : Access) (slot : Fin 8) (k : Fin 4) (s s1 : State), 
    (s.Reaches x pgSec s1 → pair0M x.by_ x.m = false →
      let no : Out := .next (s1.raise pgSec 3).wrote
      exec (.secSignCmdGo x) s = no ∧ exec (.secMeasExtGo x slot) s = no ∧ exec (.secMeasLockL02 x) s = no)
    ∧ (s.Reaches x pgSec s1 → pair0M x.by_ x.m = true →
      let no : Out := .next (s1.raise pgSec 3).wrote
      (s1.sec.signing.isSome = true → exec (.secSignCmdGo x) s = no)
      ∧ (s1.sec.signing = none → s1.keyOk = false → ∃ t, exec (.secSignCmdGo x) s = .next t ∧ t.sec = { s1.sec with signed := false } ∧ t.fld pgSec Reg.SEC_SIGN_STAT 2 1 = 1
          ∧ t.rbit pgSec Reg.PAGE_IRQ_STAT 2 = true ∧ t.Apart { s1 with resp := .none })
      ∧ (s1.sec.signing = none → s1.keyOk = true → ∃ t, exec (.secSignCmdGo x) s = .next t
          ∧ t.sec = { s1.sec with signing := some (s1.secDigest (Reg.SEC_SIGN_DIG 0)), signed := false } ∧ t.rbit pgSec Reg.SEC_SIGN_STAT 0 = true
          ∧ (∀ j : Fin 24, t.reg pgSec (Reg.SEC_SIGN_SR j) = 0) ∧ t.Apart { s1 with resp := .none })
      ∧ (s1.sec.ext.isSome = true ∨ slot.val < 3 ∧ s1.rbit pgSec Reg.SEC_MEAS_LOCK 0 = true → exec (.secMeasExtGo x slot) s = no)
      ∧ (s1.sec.ext = none → 3 ≤ slot.val ∨ s1.rbit pgSec Reg.SEC_MEAS_LOCK 0 = false →
          exec (.secMeasExtGo x slot) s = .next (s1.modSec (fun y => { y with ext := some (slot, s1.secDigest (Reg.SEC_EXT_DIG 0), s1.now) })).wrote)
      ∧ exec (.secMeasLockL02 x) s = .next (s1.setReg pgSec Reg.SEC_MEAS_LOCK (s1.reg pgSec Reg.SEC_MEAS_LOCK ||| 1)).wrote)
    ∧ (s.sec.signing = none → s.Unqueued → exec .signDone s = .next s)
    ∧ (∀ g, s.sec.signing = some g → s.canonical = true → s.Unqueued → ∃ t, exec .signDone s = .next t ∧ t.sec = { s.sec with signing := none, signed := true } ∧ t.free = s.free + 1
        ∧ t.rbit pgSec Reg.SEC_SIGN_STAT 0 = false ∧ t.rbit pgSec Reg.PAGE_IRQ_STAT 1 = true ∧ s.Apart t
        ∧ (∀ j : Fin 24, t.reg pgSec (Reg.SEC_SIGN_SR j) = w32 ((Config.signature g s.free).toNat / 2 ^ (32 * (23 - j.val)))))
    ∧ (s.sec.ext = none → exec .measExtDone s = .next s)
    ∧ (∀ dig t0, s.sec.ext = some (slot, dig, t0) → s.canonical = true → ∃ t, exec .measExtDone s = .next t ∧ t.sec = { s.sec with ext := none }
        ∧ (s.advance (t0 + Config.usSteps)).Apart t
        ∧ t.secDigest (Reg.SEC_MEAS (12 * slot)) = Config.sha384 (digestBytes (s.secDigest (Reg.SEC_MEAS (12 * slot))) ++ digestBytes dig)
        ∧ (∀ j : Fin 8, j ≠ slot → t.secDigest (Reg.SEC_MEAS (12 * j)) = s.secDigest (Reg.SEC_MEAS (12 * j))))
    ∧ (s.rbit pgSec Reg.SEC_TMP_STAT k = true → s.Unqueued → exec (.tamperInput k) s = .next s)
    ∧ (s.canonical = true → s.rbit pgSec Reg.SEC_TMP_STAT k = false → s.Unqueued → ∃ t, exec (.tamperInput k) s = .next t ∧ t.rbit pgSec Reg.SEC_TMP_STAT k = true
        ∧ t.sec.pins.getLsbD k = s.rbit pgSec Reg.SEC_TMP_CTL (4 + k) ∧ t.cores = s.cores ∧ t.clusters = s.clusters
        ∧ (s.rbit pgSec Reg.SEC_TMP_CTL k = false → t.mem = s.mem ∧ t.wiping = s.wiping ∧ t.keyOk = s.keyOk)
        ∧ (s.rbit pgSec Reg.SEC_TMP_CTL k = true → t.wiping = true ∧ t.keyOk = false ∧ t.sec.signing = none ∧ t.sec.wipeWhy = 2
            ∧ t.rbit pgSec Reg.SEC_TMP_STAT (8 + k) = true ∧ t.rbit pgSec Reg.PAGE_IRQ_STAT 0 = true ∧ ∀ o < 0x40000, t.byteAt (0x2000000 + o) = 0))
    ∧ (s.canonical = true → ∃ t, exec (.tamperInputInactive k) s = .next t ∧ t.rbit pgSec Reg.SEC_TMP_STAT k = false
        ∧ t.sec.pins.getLsbD k = !s.rbit pgSec Reg.SEC_TMP_CTL (4 + k) ∧ s.Apart t ∧ t.wiping = s.wiping)
    ∧ (s.sec.lcNext = none → exec .lcFusesBlown s = .next s)
    ∧ (∀ a ow, s.sec.lcNext = some (a, ow) → a < 4 → s.canonical = true → s.Unqueued → s.power.resets = [] →
        ∃ t, exec .lcFusesBlown s = .next t ∧ t.lifecycle = a ∧ t.sec.lcNext = none ∧ t.UnderReset ⟨4, 0, false⟩ 0x10 ∧ t.Stopped ∧ t.wiping = true
          ∧ t.sec.wipeWhy = 1 ∧ (a = 2 → ∀ i : Fin 4, t.sec.owner[i] = ow.getD i none) ∧ (a ≠ 2 → t.sec.owner = s.sec.owner)
          ∧ (a = 1 → t.sec.seed = true) ∧ t.keyOk = false)

/-- R489 to R499, R502 to R505: the link comes up and goes down, and a loss that lasts sets off a stop where it is asked to; the host's
accesses through BAR0 reach the pages that admit them, and a write that is not accepted is counted; a decoder commits or fails, and
CXL.mem reaches DRAM through a committed one; a vector is sent, or pends while it is masked; viral sets off a stop.
Each of these is said to complete, with a next state that has its effect: `cxlLinkUp`, `cxlLinkDown`, `linkDownTimeout`, `hostBar0Write`,
`hostBar0Read`, `hdmCommit`, `cxlMemRead`, `cxlMemWrite`, `hostSnoop`, `viralIn`, `cxlViralCmdRaise`, `cxlMsixSend`, `msixUnmask`, `ptmEnableWrite`,
`cacheEnableWrite`. -/
def Obligations.CxlPort : Prop :=
  ∀ (x : Access) (speed : Fin 5) (width : BitVec 5) (s s1 : State) (off : Nat) (wide full b : Bool) (w : DWord) (d : Fin 2)
    (base size skip ways hpa n : Nat) (bs : List Byte) (v : Fin 64),
    (s.linkUp = true ∨ s.domOn 127 = false ∨ s.domOn 128 = false → exec (.cxlLinkUp speed width) s = .next s)
    ∧ (s.linkUp = false → s.domOn 127 = true → s.domOn 128 = true → s.canonical = true →
        ∃ t, exec (.cxlLinkUp speed width) s = .next t ∧ t.linkUp = true ∧ t.rbit pgCxl Reg.CXL_STAT 1 = decide (2 ≤ speed.val)
          ∧ t.fld pgCxl Reg.CXL_STAT 4 2 = speed + 1 ∧ t.fld pgCxl Reg.CXL_STAT 8 5 = width.toNat % 16
          ∧ t.rbit pgCxl Reg.PAGE_IRQ_STAT 0 = true ∧ s.Apart t ∧ t.clusters = s.clusters)
    ∧ (s.linkUp = false → exec .cxlLinkDown s = .next s)
    ∧ (s.linkUp = true → s.canonical = true → ∃ t, exec .cxlLinkDown s = .next t ∧ t.fld pgCxl Reg.CXL_STAT 8 0 = 0 ∧ s.Apart t
        ∧ t.cxl = { s.cxl with downAt := s.time.clk, ldDone := false } ∧ t.rbit pgCxl Reg.PAGE_IRQ_STAT 1 = true ∧ t.clusters = s.clusters
        ∧ (s.frozen pgCxl = false → s.fld pgCxl Reg.CXL_LINKDN_CNT 15 0 < 65535 →
            t.fld pgCxl Reg.CXL_LINKDN_CNT 15 0 = s.fld pgCxl Reg.CXL_LINKDN_CNT 15 0 + 1))
    ∧ (s.NoAborts → s.linkUp = true ∨ s.rbit pgCxl Reg.CXL_CTL 1 = false ∨ s.cxl.ldDone = true → exec .linkDownTimeout s = .next s)
    ∧ (s.linkUp = false → s.rbit pgCxl Reg.CXL_CTL 1 = true → s.cxl.ldDone = false → s.canonical = true → s.NoRecords →
        ∃ t, exec .linkDownTimeout s = .next t ∧ s.StopActs t true ∧ t.cxl.ldDone = true
          ∧ t.time.clk = max s.time.clk (s.cxl.downAt + msClks (max 1 (s.fld pgCxl Reg.CXL_CTL 15 8))))
    ∧ (let m := if wide then 8 else 4
       let no : State := { s with resp := .abort }
       (off % m ≠ 0 ∨ bar0Page off = none → exec (.hostBar0Write off wide w full) s = .next no ∧ exec (.hostBar0Read off wide) s = .next no)
       ∧ (∀ p, bar0Page off = some p → s.pageOpen p = false →
          exec (.hostBar0Write off wide w full) s = .next no ∧ exec (.hostBar0Read off wide) s = .next no)
       ∧ (∀ p, bar0Page off = some p → off % m = 0 → s.pageOpen p = true →
          (s.rbit pgCxl Reg.CXL_CTL 0 = false ∨ p.kind = .cxl ∨ p.kind = .sec ∨ p.kind = .rst ∨ full = true →
            exec (.hostBar0Write off wide w full) s = .next ((s.count pgCxl Reg.CXL_B0DROP 15 0).raise pgCxl 4).wrote)
          ∧ (s.pageWaits .host p = false → s.rbit pgCxl Reg.CXL_CTL 0 = true → p.kind ≠ .cxl → p.kind ≠ .sec → p.kind ≠ .rst → full = false → wide = false →
            exec (.hostBar0Write off wide w full) s = exec (.registerWrite ⟨.host, false⟩ p (off % 4096) (w.setWidth 32) 0xFFFFFFFF) s)
          ∧ (s.pageWaits .host p = false → s.pageAccess .host p = some s1 → s.rbit pgCxl Reg.CXL_CTL 0 = true → p.kind ≠ .cxl → p.kind ≠ .sec → p.kind ≠ .rst → full = false → wide = true →
            exec (.hostBar0Write off wide w full) s = .next ((s1.pageWrite .host false p (off % 4096) (w.setWidth 32) 0xFFFFFFFF).pageWrite .host false p
              (off % 4096 + 4) ((w >>> 32).setWidth 32) 0xFFFFFFFF).dmaSettle.wrote)
          ∧ (s.pageWaits .host p = false → s.pageAccess .host p = some s1 → wide = false → exec (.hostBar0Read off wide) s
              = .next ((s1.pageRead .host false p (off % 4096)).1.answerW (s1.pageRead .host false p (off % 4096)).2)))
       ∧ (∀ p, bar0Page off = some p → off % m = 0 → s.pageOpen p = true → s.pageWaits .host p = false → s.pageAccess .host p = none →
          exec (.hostBar0Read off wide) s = .next no))
    ∧ (let unit := 0x10000000
       let lo := s.fld pgCxl Reg.CXL_HDM_AVAIL 9 0 * unit
       let hi := (s.fld pgCxl Reg.CXL_HDM_AVAIL 25 16 + 1) * unit
       let h0 := s.cxl.hdm[(0 : Fin 2)]
       let dpa := if d = 0 then lo else (match h0.dpa with | some y => y + h0.size | none => lo) + skip
       let overlap := ∃ k : Fin 2, k ≠ d ∧ s.cxl.hdm[k].dpa.any (fun y => decide (y < dpa + size ∧ dpa < y + s.cxl.hdm[k].size)) = true
       let bad := size % unit ≠ 0 ∨ s.rbit pgCxl Reg.CXL_HDM_AVAIL 31 = false ∨ dpa < lo ∨ hi < dpa + size ∨ overlap ∨ ways ≠ 1 ∨ s.cxlMode = false
       let set (h : Hdm) : State := s.modCxl (fun y => { y with hdm := y.hdm.set d h })
       (bad → exec (.hdmCommit d true base size skip ways) s = .next (set ⟨base, size, skip, ways, none, true⟩))
       ∧ (¬ bad → exec (.hdmCommit d true base size skip ways) s = .next ((set ⟨base, size, skip, ways, some dpa, false⟩).raise pgCxl 5))
       ∧ (s.cxl.hdm[d].dpa = none → exec (.hdmCommit d false base size skip ways) s = .next s)
       ∧ (s.cxl.hdm[d].dpa ≠ none → exec (.hdmCommit d false base size skip ways) s
            = .next ((set { s.cxl.hdm[d] with dpa := none, err := false }).raise pgCxl 5)))
    ∧ (s.hdmAddr hpa n = none → exec (.cxlMemRead hpa n) s = .next { s with resp := .abort })
    ∧ (s.hdmAddr hpa bs.length = none → exec (.cxlMemWrite hpa bs) s = .next { s with resp := .abort })
    ∧ (∀ y, s.cxlMode = true → s.cxl.hdm[d].dpa = some y → s.cxl.hdm[d].base ≤ hpa →
        (∀ k : Fin 2, k ≠ d → s.cxl.hdm[k].dpa = none) → s.expOn (0x1000000000 + y + (hpa - s.cxl.hdm[d].base)) = true →
        let a := 0x1000000000 + y + (hpa - s.cxl.hdm[d].base)
        (hpa + n ≤ s.cxl.hdm[d].base + s.cxl.hdm[d].size → (s.eccRead .host a n).2 = false →
          exec (.cxlMemRead hpa n) s = .next { (s.eccRead .host a n).1 with resp := .bytes (s.bytesAt a n) })
        ∧ (hpa + n ≤ s.cxl.hdm[d].base + s.cxl.hdm[d].size → (s.eccRead .host a n).2 = true →
          ∃ t, exec (.cxlMemRead hpa n) s = .next t ∧ t.resp = .poison ∧ (s.cxl.logs[(2 : Fin 4)].recs.length < 32 →
            t.cxl.logs[(2 : Fin 4)].recs = s.cxl.logs[(2 : Fin 4)].recs ++ [⟨s.cxl.handle, 1, a - 0x1000000000, s.time.ns⟩]))
        ∧ (hpa + bs.length ≤ s.cxl.hdm[d].base + s.cxl.hdm[d].size →
          exec (.cxlMemWrite hpa bs) s = .next (s.eccWrite .host a bs).1.wrote))
    ∧ (let a := hostBase + hpa / 64 * 64
       (isHostMem (a + 63) = false → exec (.hostSnoop hpa bs) s = .next { s with resp := .abort })
       ∧ (isHostMem (a + 63) = true → exec (.hostSnoop hpa bs) s = .next { s.setBytes a (bs.take 64) with resp := if s.hostCached then .bytes (s.bytesAt a 64) else .none }))
    ∧ (s.canonical = true → s.NoRecords → ∃ t, exec .viralIn s = .next t ∧ t.viral = true ∧ t.rbit pgCxl Reg.PAGE_IRQ_STAT 2 = true ∧ s.StopActs t true
        ∧ (s.msixMasked 2 = true → t.cxl.pend.getLsbD 2 = true ∧ t.msixOut = s.msixOut) ∧ (s.msixMasked 2 = false → t.msixOut = 2 :: s.msixOut))
    ∧ (s.Reaches x pgCxl s1 →
        exec (.cxlViralCmdRaise x) s = .next (if s1.rbit pgCxl Reg.CXL_CTL 2 then { s1 with viralOut := s1.viralOut + 1 } else s1).wrote
        ∧ (s1.msixMasked v = true → exec (.cxlMsixSend x v) s = .next (s1.modCxl (fun y => { y with pend := y.pend ||| (1#64 <<< v.val) })).wrote)
        ∧ (s1.msixMasked v = false → exec (.cxlMsixSend x v) s = .next ({ s1 with msixOut := v :: s1.msixOut } : State).wrote))
    ∧ (s.canonical = true → ∃ t, exec (.msixUnmask (some v)) s = .next t ∧ t.rbit pgMsix (16 * v.val + 12) 0 = false ∧ s.Apart t
        ∧ (s.cxl.fnMask = false → s.cxl.pend.getLsbD v = true → t.cxl.pend.getLsbD v = false ∧ v.val ∈ t.msixOut)
        ∧ (s.cxl.fnMask = true → t.cxl = s.cxl ∧ t.msixOut = s.msixOut))
    ∧ (∃ t, exec (.msixUnmask none) s = .next t ∧ t.cxl.fnMask = false ∧ t.regs = s.regs ∧ s.Apart t
        ∧ (∀ j : Fin 64, s.cxl.pend.getLsbD j = true → s.rbit pgMsix (16 * j.val + 12) 0 = false → t.cxl.pend.getLsbD j = false ∧ j.val ∈ t.msixOut)
        ∧ (∀ j : Fin 64, s.rbit pgMsix (16 * j.val + 12) 0 = true → t.cxl.pend.getLsbD j = s.cxl.pend.getLsbD j))
    ∧ exec (.ptmEnableWrite b) s = .next (s.setBit pgCxl Reg.CXL_STAT 12 b)
    ∧ (s.canonical = true → ∃ t, exec (.cacheEnableWrite b) s = .next t ∧ t.rbit pgCxl Reg.CXL_STAT 9 = b ∧ s.Apart t)

/-- R500, R501: the mailbox. A command that nothing serves only raises its event; one that is served answers with its code and its data and
sends vector 0. Records leave their log only in order; a transfer takes a slot that does not run, in whole units of 128 bytes, and is
programmed; an activation is checked, places the image of slot 2 in the primary region, and is never online.
Each of these is said to complete, with a next state that has its effect: `mboxGetEventRecords`, `mboxClearEventRecords`, `mboxGetFwInfo`,
`mboxTransferFw`, `mboxActivateFw`, `mboxGetSupportedLogs`, `mboxGetLog`. -/
def Obligations.CxlMailbox : Prop :=
  ∀ (s : State) (log : Fin 4) (handles : List Nat) (slot ofs : Nat) (first online : Bool) (bs : List Byte) (bad : Option Nat),
    let rung : Out := .next (s.raise pgCxl 6)
    let answer (t : State) (code : Nat) (out : List Byte) (recs : List EvRec) : State :=
      let u := (t.modCxl (fun y => { y with code := code, out := out, recs := recs })).raise pgCxl 6
      if u.msixMasked 0 then u.modCxl (fun y => { y with pend := y.pend ||| 1 }) else { u with msixOut := 0 :: u.msixOut }
    let l := s.cxl.logs[log]
    let put (l : EvLog) : State := s.modCxl (fun y => { y with logs := y.logs.set log l })
    (s.fwUp = false → s.bootFailed = false → exec (.mboxGetEventRecords log) s = rung ∧ exec (.mboxClearEventRecords log first handles) s = rung ∧ exec .mboxGetFwInfo s = rung
        ∧ exec .mboxGetSupportedLogs s = rung ∧ exec .mboxGetLog s = rung
        ∧ exec (.mboxTransferFw slot ofs first bs bad) s = rung ∧ exec (.mboxActivateFw slot online bad) s = rung)
    ∧ (s.fwUp = false → s.bootFailed = true → let no : Out := .next (answer s 3 [] [])
        exec (.mboxGetEventRecords log) s = no ∧ exec (.mboxClearEventRecords log first handles) s = no ∧ exec .mboxGetFwInfo s = no
        ∧ exec .mboxGetSupportedLogs s = no ∧ exec .mboxGetLog s = no)
    ∧ (s.fwUp = true →
        exec (.mboxGetEventRecords log) s = .next (answer s 0 [BitVec.ofNat 8 ((if l.ovf then 1 else 0) + (if 31 < l.recs.length then 2 else 0))] (l.recs.take 31))
        ∧ exec (.mboxClearEventRecords log true handles) s = .next (answer (put ⟨[], false⟩) 0 [] [])
        ∧ ((l.recs.map (fun r => r.handle)).take handles.length = handles →
            exec (.mboxClearEventRecords log false handles) s = .next (answer (put ⟨l.recs.drop handles.length, false⟩) 0 [] []))
        ∧ ((l.recs.map (fun r => r.handle)).take handles.length ≠ handles →
            exec (.mboxClearEventRecords log false handles) s = .next (answer s 14 [] []))
        ∧ exec .mboxGetFwInfo s = .next (answer s 0 [2, BitVec.ofNat 8 s.runSlot, 0] [])
        ∧ exec .mboxGetSupportedLogs s = .next (answer s 0 [1, 0, 28, 0, 0, 0] [])
        ∧ exec .mboxGetLog s = .next (answer s 0 (celOpcodes.flatMap (fun o => leBytes 2 o ++ leBytes 2 (Config.celEffect o).toNat)) []))
    ∧ (s.fwUp = true ∨ s.bootFailed = true →
        let alt := slot == 2
        (slot ≠ 1 ∧ slot ≠ 2 ∨ slot = s.runSlot →
          exec (.mboxTransferFw slot ofs first bs bad) s = .next (answer s 2 [] []) ∧ exec (.mboxActivateFw slot false bad) s = .next (answer s 2 [] []))
        ∧ (bs.length % 128 ≠ 0 ∨ ofs % 128 ≠ 0 ∨ imgSize alt < ofs + bs.length → exec (.mboxTransferFw slot ofs first bs bad) s = .next (answer s 2 [] []))
        ∧ (slot = 1 ∨ slot = 2 → slot ≠ s.runSlot → bs.length % 128 = 0 → ofs % 128 = 0 → ofs + bs.length ≤ imgSize alt →
            let e := s.flsEraseRange 0 (imgBase alt) (imgSize alt)
            let xfer (t : State) : State := t.modCxl (fun y => { y with xfer := some (slot, ofs + bs.length) })
            let code (r : Option (Nat × Nat)) : Nat := if r.isSome then 4 else 0
            let p := s.flsPut 0 (imgBase alt + ofs) bs bad
            let q := e.1.flsPut 0 (imgBase alt + ofs) bs bad
            (first = false → exec (.mboxTransferFw slot ofs first bs bad) s = .next (answer (xfer p.1) (code p.2) [] []))
            ∧ (first = true → e.2 = none → exec (.mboxTransferFw slot ofs first bs bad) s = .next (answer (xfer q.1) (code q.2) [] []))
            ∧ (first = true → e.2.isSome = true → exec (.mboxTransferFw slot ofs first bs bad) s = .next (answer (xfer e.1) 4 [] [])))
        ∧ exec (.mboxActivateFw slot true bad) s = .next (answer s 3 [] [])
        ∧ (slot = 1 ∨ slot = 2 → slot ≠ s.runSlot →
            ((s.imageOk alt).2 = none → exec (.mboxActivateFw slot false bad) s = .next (answer (s.imageOk alt).1 2 [] []))
            ∧ (∀ img, (s.imageOk alt).2 = some img →
                (slot = 1 ∨ s.runSlot ≠ 1 → exec (.mboxActivateFw slot false bad) s = .next (answer (s.imageOk alt).1 0 [] []))
                ∧ (slot = 2 → s.runSlot = 1 → let z := (s.imageOk alt).1.placeImage img bad
                    exec (.mboxActivateFw slot false bad) s = .next (answer z.1 (if z.2.isSome then 4 else 0) [] [])))))

/-- R507 to R509, R511 to R520: the urgent stop, its release and its end; the queues. A queue is enabled with its indices at zero and
cleared of its error when it is disabled; its ring's settings hold while it is enabled; a doorbell out of range stops it. The device fetches
from the queue of the highest priority; a descriptor read that fails stops the queue; a command alone in its queue starts, or completes with
the status of what forbids it. A completion is written at the completion tail, which advances and turns the phase where it wraps.
Each of these is said to complete, with a next state that has its effect: `urgStopAll`, `urgRelease`, `urgentDone`, `qcCtlWrite`, `dbSqtWrite`,
`dbCqhWrite`, `descriptorFetch`. -/
def Obligations.QueuesAndStops : Prop :=
  ∀ (x : Access) (q : Fin 64) (s s1 s2 : State) (v mask : Word) (bs : List Byte) (c : Cmd) (status r0 r1 : Nat),
    (s.canonical = true → s.NoRecords → ∃ t, exec .urgStopAll s = .next t ∧ s.StopActs t true ∧ t.time = s.time
        ∧ t.fld pgDvsec Reg.URG_STAT 1 0 = 1 ∧ t.rbit pgCxl Reg.PAGE_IRQ_STAT 3 = true
        ∧ t.reg pgDvsec Reg.URG_LAST_LO = w32 s.time.ns.toNat ∧ t.reg pgDvsec Reg.URG_LAST_HI = w32 (s.time.ns.toNat / 2 ^ 32)
        ∧ (s.frozen pgDvsec = false → s.fld pgDvsec Reg.URG_CNT 15 0 < 65535 → t.fld pgDvsec Reg.URG_CNT 15 0 = s.fld pgDvsec Reg.URG_CNT 15 0 + 1)
        ∧ (s.rbit pgStr Reg.STR_CTL 0 = false → t.fab = s.fab))
    ∧ (s.NoAborts →
        (s.stopLow = true ∨ s.bridgeIsDown = true → exec .urgRelease s = .next s)
        ∧ (s.stopLow = false → s.bridgeTrains = true → ∃ t, exec .urgRelease s = .next t ∧ t.regs = s.regs
            ∧ t.bridge.waiting = s.bridge.waiting ++ (List.finRange 8).map (fun (k : Fin 8) => .write .host false (pgPwg0 k) Reg.PWG_SAFE_CAUSE 1 1))
        ∧ (s.stopLow = false → s.bridgeIsDown = false → s.bridgeTrains = false → s.canonical = true → ∃ t, exec .urgRelease s = .next t ∧ s.Apart t
            ∧ t.clusters = s.clusters ∧ ∀ k : Fin 8, t.rbit (pgPwg0 k) Reg.PWG_SAFE_CAUSE 0 = false))
    ∧ (s.rbit pgDvsec Reg.URG_STAT 0 = false ∨ s.dmaIdle = false → exec .urgentDone s = .next s)
    ∧ (s.rbit pgDvsec Reg.URG_STAT 0 = true → s.dmaIdle = true → s.canonical = true → ∃ t, exec .urgentDone s = .next t
        ∧ t.fld pgDvsec Reg.URG_STAT 1 0 = 2 ∧ s.Apart t ∧ t.clusters = s.clusters
        ∧ (s.msixMasked 2 = true → t.cxl.pend.getLsbD 2 = true ∧ t.msixOut = s.msixOut) ∧ (s.msixMasked 2 = false → t.msixOut = 2 :: s.msixOut))
    ∧ (s.Reaches x (pgQc q) s1 →
        let m := mask &&& 0xFFF1 &&& (if s1.qEn q then ~~~0xF0 else 0xFFFFFFFF)
        let w := (s1.reg (pgQc q) Reg.QC_CTL &&& ~~~m) ||| (v &&& m)
        let u := s1.setReg (pgQc q) Reg.QC_CTL w
        (s1.qEn q = bitOf w 0 → exec (.qcCtlWrite x q v mask) s = .next u.wrote)
        ∧ (s1.qEn q = false → bitOf w 0 = true → exec (.qcCtlWrite x q v mask) s
            = .next ((u.modQueue q (fun y => ⟨0, 0, 0, true, y.cmds⟩)).setFld (pgQc q) Reg.QC_STAT 27 16 0).wrote)
        ∧ (s1.qEn q = true → bitOf w 0 = false → exec (.qcCtlWrite x q v mask) s
            = .next ((u.setBit (pgQc q) Reg.QC_STAT 1 false).setFld (pgQc q) Reg.QC_STAT 5 2 0).wrote))
    ∧ (s.Reaches x ⟨.db, q⟩ s1 →
        let n := bitsOf v 11 0
        let qerr := if q.val < 32 then Reg.CMD_QERR_LO else Reg.CMD_QERR_HI
        let halts (o : Out) : Prop := ∃ t, o = .next t ∧ t.qErr q = true ∧ t.rbit pgCmd qerr (q.val % 32) = true ∧ t.rbit pgCmd Reg.PAGE_IRQ_STAT 0 = true
            ∧ t.cmd = (s1.modQueue q (fun y => { y with cmds := y.cmds.filter (fun e => e.started) })).cmd ∧ t.Apart { s1 with resp := .none } ∧ (s1.qErr q = false → t.fld (pgQc q) Reg.QC_STAT 5 2 = 1)
        (s1.qEn q = false → exec (.dbSqtWrite x q v) s = .next s1.wrote ∧ exec (.dbCqhWrite x q v) s = .next s1.wrote)
        ∧ (s1.qEn q = true → n < s1.ring q →
            exec (.dbSqtWrite x q v) s = .next (s1.modQueue q (fun y => { y with tail := n })).wrote
            ∧ exec (.dbCqhWrite x q v) s = .next (s1.modQueue q (fun y => { y with head := n })).wrote)
        ∧ (s1.qEn q = true → s1.ring q ≤ n → halts (exec (.dbSqtWrite x q v) s) ∧ halts (exec (.dbCqhWrite x q v) s)))
    ∧ (s.fwUp = false ∨ s.nextQueue = none → exec .descriptorFetch s = .next s)
    ∧ (s.nextQueue = some q → s.mayFetch q = true
        ∧ ∀ j : Fin 64, s.mayFetch j = true → s.fld (pgQc j) Reg.QC_CTL 9 8 ≤ s.fld (pgQc q) Reg.QC_CTL 9 8)
    ∧ (s.fwUp = true → s.nextQueue = some q →
        let h := s.fld (pgQc q) Reg.QC_STAT 27 16
        let n := (h + 1) % s.ring q
        let a := hostBase + (s.reg (pgQc q) Reg.QC_SQB_LO).toNat + (s.reg (pgQc q) Reg.QC_SQB_HI).toNat * 2 ^ 32 + 64 * h
        let got := (s.modCmd (fun u => { u with last := q.val })).physRead (.sdma 0) false a 64
        let d := parseCmd q n s.time.ns bs
        let taken (z : State) : State := (z.setFld (pgQc q) Reg.QC_STAT 27 16 n).modQueue q (fun y => { y with cmds := [d] })
        ((∀ l, got.2 ≠ .data l) → exec .descriptorFetch s = .next (got.1.qStop q 2))
        ∧ (got = (s2, .data bs) → (s2.queue q).cmds = [] →
            (cmdOpcodes.contains d.opc = false → exec .descriptorFetch s = .next ((taken s2).cmdEnd d 1 0 0))
            ∧ (cmdOpcodes.contains d.opc = true → cmdQueue0 d.opc = true → q.val ≠ 0 → exec .descriptorFetch s = .next ((taken s2).cmdEnd d 4 0 0))
            ∧ (cmdOpcodes.contains d.opc = true → cmdQueue0 d.opc = false ∨ q.val = 0 →
                (∀ o, d.bad = some o → exec .descriptorFetch s = .next ((taken s2).cmdEnd d 2 o 0))
                ∧ (d.bad = none → (taken s2).cmdBusy d = true → exec .descriptorFetch s = .next ((taken s2).cmdEnd d 3 0 0))
                ∧ (d.bad = none → (taken s2).cmdBusy d = false → exec .descriptorFetch s
                    = .next ((taken s2).modQueue q (fun y => { y with cmds := [{ d with started := true }] }))))))
    ∧ (s.qErr c.q = true → (s.queue c.q).cmds = [c] → s.cmdDone c status r0 r1 = s.modQueue c.q (fun y => { y with cmds := [] }))
    ∧ (s.qErr c.q = false → (s.queue c.q).cmds = [c] →
        let y := s.queue c.q
        let a := hostBase + (s.reg (pgQc c.q) Reg.QC_CQB_LO).toNat + (s.reg (pgQc c.q) Reg.QC_CQB_HI).toNat * 2 ^ 32 + 16 * y.ctail
        let w := (s.modQueue c.q (fun y => { y with cmds := [] })).physWrite (.sdma 0) false a (compEntry c y.phase status r0 r1)
        let t := (y.ctail + 1) % s.ring c.q
        let vec := s.fld (pgQc c.q) Reg.QC_CTL 15 10
        (w.2 ≠ .done ∨ s.viral = true → s.cmdDone c status r0 r1 = w.1.qStop c.q 3)
        ∧ (w.2 = .done → s.viral = false → (w.1.queue c.q).cmds = [] →
            let u := (w.1.modQueue c.q (fun y => { y with ctail := t, phase := if t = 0 then !y.phase else y.phase })).count (pgQc c.q) Reg.QC_CNT 15 0
            s.cmdDone c status r0 r1 = (if c.flags % 2 = 1 ∧ 3 ≤ vec then u.msixSend vec else u)))

/-- R517, R523 to R545, R474: what each command does when it runs on its queue. One of which none runs does nothing; a running one completes
with its status and results, changes what its rule says, or waits for the event that completes it.
Each of these is said to complete, with a next state that has its effect: `identify`, `getStatus`, `resetDomain`, `getTemp`, `axisEnable`,
`axisDisable`, `safeState`, `loadRecipe`, `verifyRecipe`, `activateRecipe`, `listRecipes`, `activationTakesEffect`, `activationFinish`, `traceArm`,
`traceTrigger`, `traceStop`, `traceReadIndex`, `traceEventTrigger`, `flashWrite`, `flashErase`, `flashVerify`, `updateImageWrite`,
`updateImageCommit`, `getCertChain`, `attest`, `setLifecycle`, `enumerate`, `setRoute`, `getTopology`, `setDomains`, `getPower`. -/
def Obligations.FirmwareCommands : Prop :=
  ∀ (q : Fin 64) (k : Fin 8) (s : State) (c : Cmd) (bad : Option Nat) (bs : List Byte),
    (s.RunsNone q 0 → exec (.identify q) s = .next s) ∧ (s.RunsNone q 1 → exec (.getStatus q) s = .next s)
    ∧ (s.RunsNone q 2 → exec (.resetDomain q) s = .next s) ∧ (s.RunsNone q 3 → exec (.getTemp q) s = .next s)
    ∧ (s.RunsNone q 0x200 → exec (.axisEnable q) s = .next s) ∧ (s.RunsNone q 0x201 → exec (.axisDisable q) s = .next s)
    ∧ (s.RunsNone q 0x202 → exec (.safeState q) s = .next s) ∧ (s.RunsNone q 0x100 → exec (.loadRecipe q) s = .next s)
    ∧ (s.RunsNone q 0x101 → exec (.verifyRecipe q) s = .next s) ∧ (s.RunsNone q 0x102 → exec (.activateRecipe q) s = .next s)
    ∧ (s.RunsNone q 0x103 → exec (.listRecipes q) s = .next s) ∧ (s.RunsNone q 0x300 → exec (.traceArm q) s = .next s)
    ∧ (s.RunsNone q 0x301 → exec (.traceTrigger q) s = .next s) ∧ (s.RunsNone q 0x302 → exec (.traceStop q) s = .next s)
    ∧ (s.RunsNone q 0x303 → exec (.traceReadIndex q) s = .next s) ∧ (s.RunsNone q 0x400 → exec (.flashWrite q bad) s = .next s)
    ∧ (s.RunsNone q 0x401 → exec (.flashErase q bad) s = .next s) ∧ (s.RunsNone q 0x402 → exec (.flashVerify q) s = .next s)
    ∧ (s.RunsNone q 0x403 → exec (.updateImageWrite q bad) s = .next s ∧ exec (.updateImageCommit q) s = .next s)
    ∧ (s.RunsNone q 0x500 → exec (.getCertChain q) s = .next s) ∧ (s.RunsNone q 0x501 → exec (.attest q) s = .next s)
    ∧ (s.RunsNone q 0x502 → exec (.setLifecycle q) s = .next s) ∧ (s.RunsNone q 0x600 → exec (.enumerate q) s = .next s)
    ∧ (s.RunsNone q 0x601 → exec (.setRoute q) s = .next s) ∧ (s.RunsNone q 0x602 → exec (.getTopology q) s = .next s)
    ∧ (s.RunsNone q 0x700 → exec (.setDomains q) s = .next s) ∧ (s.RunsNone q 0x701 → exec (.getPower q) s = .next s)
    ∧ (let p := fun i => (c.par i).toNat
       let done (t : State) (st r0 r1 : Nat) : Out := .next (t.cmdDone c st r0 r1)
       let answers (t : State) (room : Nat) (l : List Byte) (r0 r1 : Nat) : Out :=
         if (t.bufWrite c room l).2 then done (t.bufWrite c room l).1 0 r0 r1 else done (t.bufWrite c room l).1 5 0 0
       let waits (t : State) : State := t.modRun c (fun d => { d with waits := true })
       -- the device
       (s.Runs q 0 c → exec (.identify q) s = answers s 64 s.identData 0 0 ∧ s.identData.length = 64 ∧ fieldAt s.identData 0 2 = 0x6480
          ∧ fieldAt s.identData 3 1 = s.lifecycle % 256 ∧ fieldAt s.identData 4 16 = s.serial.toNat)
       ∧ (s.Runs q 1 c → exec (.getStatus q) s = done s 0
            (s.fld pgRst Reg.RST_BOOT 3 0 + 16 * s.fld pgRst Reg.RST_BOOT 4 4 + 32 * s.lifecycle + 128 * b2n s.viral + 256 * s.activeSlot + 65536 * s.fabAddr
              + 2 ^ 24 * s.fld pgDtb Reg.DTB_STAT 1 1 + 2 ^ 25 * s.fld pgDtb Reg.DTB_STAT 3 3
              + 2 ^ 26 * b2n ((List.finRange 8).any (fun (j : Fin 8) => s.rbit (pgPwg0 j) Reg.PWG_SAFE_CAUSE 0)))
            ((s.pairs.toList.filter (fun y => y.halted)).length + 256 * s.pendingSlot))
       ∧ (s.Runs q 2 c →
          (c.waits = true → exec (.resetDomain q) s = .next s)
          ∧ (c.waits = false → 2 ≤ p 0 → exec (.resetDomain q) s = .next ((s.cmdDone c 0 0 0).resetNow ⟨p 0, 0, false⟩ 0x10 false))
          ∧ (c.waits = false → p 0 < 2 → exec (.resetDomain q) s
              = .next ((waits s).resetNow ⟨p 0, bitsOf (c.par 1) 5 0, p 0 == 0 && bitOf (c.par 1) 8⟩ 0x10 false).abortWake))
       ∧ (s.Runs q 3 c → exec (.getTemp q) s = done s 0 (s.fld pgMon Reg.MON_TEMP 15 0 + 65536 * s.fld pgMon Reg.MON_TWARN 7 0) 0)
       -- what reaches over the bridge waits while it retrains
       ∧ (s.bridgeTrains = true → exec (.axisEnable q) s = .next s ∧ exec (.axisDisable q) s = .next s ∧ exec (.safeState q) s = .next s
          ∧ exec (.activateRecipe q) s = .next s ∧ exec (.flashWrite q bad) s = .next s ∧ exec (.flashErase q bad) s = .next s
          ∧ exec (.flashVerify q) s = .next s ∧ exec (.updateImageWrite q bad) s = .next s ∧ exec (.getCertChain q) s = .next s
          ∧ (s.NoAborts → exec .activationFinish s = .next s))
       -- axes: axis `a` alone is named
       ∧ (c.par2 0 % 2 ^ 48 = 0 → s.bridgeTrains = false → (s.Runs q 0x200 c → exec (.axisEnable q) s = done s.cross 0 0 0) ∧ (s.Runs q 0x201 c → exec (.axisDisable q) s = done s.cross 0 0 0)
            ∧ (s.Runs q 0x202 c → exec (.safeState q) s = done s.cross 0 0 0))
       ∧ (∀ ax : Fin 48, c.par2 0 % 2 ^ 48 = 2 ^ ax.val → s.bridgeTrains = false →
          let n : Fin 8 := clu (ax.val / 6)
          let chs := axisCh (ax.val % 6)
          let lock := s.rbit (pgPwg0 n) Reg.PAGE_LOCK 0
          let no := done s.cross 0xB (2 ^ ax.val % 2 ^ 32) (2 ^ ax.val / 2 ^ 32)
          (s.axisOpen n = false → (s.Runs q 0x200 c → exec (.axisEnable q) s = no) ∧ (s.Runs q 0x201 c → exec (.axisDisable q) s = no)
              ∧ (s.Runs q 0x202 c → exec (.safeState q) s = no))
          ∧ (s.Runs q 0x200 c → s.safeCaused n = true ∨ lock = true ∧ (∃ j : Fin 18, j ∈ chs ∧ s.rbit (pgPwg0 n) (Reg.PWG_CH_CTL j) 0 = false) → exec (.axisEnable q) s = no)
          ∧ (s.Runs q 0x201 c → lock = true → (∃ j : Fin 18, j ∈ chs ∧ s.rbit (pgPwg0 n) (Reg.PWG_CH_CTL j) 0 = true) → exec (.axisDisable q) s = no)
          ∧ (s.axisOpen n = true → s.Runs q 0x202 c → exec (.safeState q) s = done (chs.foldl (fun t j => t.enterSafe n j false true) s.cross) 0 0 0)
          ∧ (s.axisOpen n = true → lock = false → s.Runs q 0x201 c → exec (.axisDisable q) s = done (chs.foldl (fun t j => t.chCtlWrite n j 0 1) s.cross) 0 0 0)
          ∧ (s.axisOpen n = true → lock = false → s.safeCaused n = false → s.Runs q 0x200 c →
              exec (.axisEnable q) s = done (chs.foldl (fun t j => (t.chCtlWrite n j 1 1).releaseCh n j) s.cross) 0 0 0))
       -- recipes
       ∧ (s.haveDram = false → (s.Runs q 0x100 c → exec (.loadRecipe q) s = done s 6 14 0) ∧ (s.Runs q 0x101 c → exec (.verifyRecipe q) s = done s 6 14 0)
            ∧ (s.Runs q 0x103 c → exec (.listRecipes q) s = done s 6 14 0) ∧ (s.Runs q 0x300 c → exec (.traceArm q) s = done s 6 14 0)
            ∧ (s.Runs q 0x102 c → c.waits = false → s.bridgeTrains = false → exec (.activateRecipe q) s = done s 6 14 0))
       ∧ (s.haveDram = true → s.Runs q 0x100 c →
          let st := (s.cmd.lib[c.slot]).state
          let z := s.bufRead c c.dlen
          (st = 3 ∨ st = 4 → exec (.loadRecipe q) s = done s 6 1 0)
          ∧ (st ≠ 3 → st ≠ 4 → z.2 = none → exec (.loadRecipe q) s = done z.1 5 0 0)
          ∧ (st ≠ 3 → st ≠ 4 → z.2 = some bs → headerOk bs = false → exec (.loadRecipe q) s = done z.1 2 8 0)
          ∧ (st ≠ 3 → st ≠ 4 → z.2 = some bs → headerOk bs = true →
              let b := bs.take (fieldAt bs 8 4)
              (z.1.recipeOk b = false → 2 ≤ z.1.lifecycle → exec (.loadRecipe q) s = done (z.1.modLib c.slot (fun _ => ⟨0, 0, 0, 0, 0, false⟩)) 7 0 0)
              ∧ (z.1.recipeOk b = true ∨ z.1.lifecycle < 2 →
                  let u := (z.1.eccWrite (.sdma 0) (libAddr c.slot) b).1.modLib c.slot
                    (fun _ => ⟨1, w32 (fieldAt b 12 4), w32 (fieldAt b 16 4), b.length, bundleDigest b, z.1.recipeOk b⟩)
                  exec (.loadRecipe q) s = done (u.measExtend 3 (u.recipeMeas b)) 0 0 0)))
       ∧ (s.haveDram = true → s.Runs q 0x101 c →
          (∀ r n, s.recipeFault c.slot = some (r, n) → exec (.verifyRecipe q) s = done s 6 r n)
          ∧ (s.recipeFault c.slot = none → exec (.verifyRecipe q) s = done (s.modLib c.slot (fun y => { y with state := max y.state 2 })) 0 0 0))
       ∧ (s.haveDram = true → s.Runs q 0x103 c → exec (.listRecipes q) s = answers s 256 (s.cmd.lib.toList.flatMap (fun y =>
            leBytes 4 y.rid.toNat ++ leBytes 4 y.rver.toNat ++ leBytes 4 y.len ++ leBytes 4 y.state)) 0 0)
       -- activation
       ∧ (s.Runs q 0x102 c →
          (c.waits = true → exec (.activateRecipe q) s = .next s)
          ∧ (c.waits = false → s.bridgeTrains = false → s.haveDram = true → (s.cmd.lib[c.slot]).state ≠ 2 → exec (.activateRecipe q) s = done s 6 8 0)
          ∧ (∀ st r0 r1, c.waits = false → s.bridgeTrains = false → s.haveDram = true → s.stageFault c (s.libBytes c.slot) = some (st, r0, r1) →
              exec (.activateRecipe q) s = done s st r0 r1)
          ∧ (c.waits = false → s.bridgeTrains = false → s.haveDram = true → s.stageFault c (s.libBytes c.slot) = none →
              (∀ y ∈ sectionsOf (s.libBytes c.slot), y.type ≠ 3) →
              ∃ t, exec (.activateRecipe q) s = .next t ∧ t.cmd.lib[c.slot].state = 3
                ∧ t.cmd.staged = some ⟨c.slot, c.par2 1 % 2 ^ 48, bundleMask (s.libBytes c.slot), 0, none⟩))
       ∧ (s.cmd.staged = none → exec (.activationTakesEffect k) s = .next s)
       ∧ (∀ a, s.cmd.staged = some a →
          (a.mask.getLsbD k = false ∨ a.done.getLsbD k = true ∨ (s.car k).ticked = false ∨ (s.car k).tickMfn.toNat < a.mfn →
            exec (.activationTakesEffect k) s = .next s)
          ∧ (a.mask.getLsbD k = true → a.done.getLsbD k = false → (s.car k).ticked = true → a.mfn ≤ (s.car k).tickMfn.toNat →
            exec (.activationTakesEffect k) s = .next (s.modCmd (fun u => { u with staged := some { a with
              done := a.done ||| (1#8 <<< k.val), first := some (a.first.getD (s.car k).tickDtb) } })))
          ∧ (s.NoAborts → a.done &&& a.mask ≠ a.mask → exec .activationFinish s = .next s)
          ∧ (s.fwUp = true → s.bridgeTrains = false → a.done &&& a.mask = a.mask → ∃ t, exec .activationFinish s = .next t ∧ t.cmd.staged = none ∧ (t.cmd.lib[a.slot]).state = 4
              ∧ ∀ j : Fin 16, j ≠ a.slot → (t.cmd.lib[j]).state = (if (s.cmd.lib[j]).state = 4 then 2 else (s.cmd.lib[j]).state)))
       ∧ (s.NoAborts → s.fwUp = false ∨ s.cmd.staged = none ∧ s.Unqueued → exec .activationFinish s = .next s)
       -- trace
       ∧ (s.haveDram = true → s.Runs q 0x300 c →
          let base := bufAddr (c.par2 0)
          let fits := isHostMem base = true ∧ isHostMem (base + 2 ^ p 2 - 1) = true ∨ s.ringInHdm base (2 ^ p 2) = true
          (¬ fits → exec (.traceArm q) s = done s 2 0x18 0)
          ∧ (fits → s.domOn 147 = false → exec (.traceArm q) s = done s 0xB 147 0)
          ∧ (fits → s.domOn 147 = true → exec (.traceArm q) s
              = done ((s.modTrace (fun _ => ⟨true, base, p 2, c.par 3, p 4, p 5, c.par2 6, 0, none, none, 0, 0⟩)).traceMark 1 0) 0 0 0))
       ∧ (s.Runs q 0x301 c → (s.tracing = false → exec (.traceTrigger q) s = done s 6 9 0)
          ∧ (s.tracing = true → exec (.traceTrigger q) s = done s.traceTrigger 0 (s.time.ns.toNat % 2 ^ 32) (s.time.ns.toNat / 2 ^ 32)))
       ∧ (s.Runs q 0x302 c → (s.tracing = false → exec (.traceStop q) s = done s 0 (s.trace.next % 2 ^ 32) 0)
          ∧ (s.tracing = true → exec (.traceStop q) s = done s.traceEnd 0 ((s.trace.next + 1) % 2 ^ 32) 0 ∧ s.traceEnd.trace.armed = false))
       ∧ (s.Runs q 0x303 c → (s.tracing = false → exec (.traceReadIndex q) s = done s 6 9 0)
          ∧ (s.tracing = true → s.trace.trig = none → exec (.traceReadIndex q) s = done s 0 (s.trace.next % 2 ^ 32) 0xFFFFFFFF)
          ∧ (∀ n, s.tracing = true → s.trace.trig = some n → exec (.traceReadIndex q) s = done s 0 (s.trace.next % 2 ^ 32) (n % 2 ^ 32)))
       ∧ (let hit := s.trace.kind = 1 ∧ (s.srcInput ird s.trace.arg = true ∨ bitOf (s.srcCfg ird s.trace.arg) 16 = true)
            ∨ s.trace.kind = 2 ∧ s.trace.arg ≤ s.time.mfn.toNat
          (¬ hit ∨ s.tracing = false ∨ s.trace.trig.isSome = true → exec .traceEventTrigger s = .next s)
          ∧ (hit → s.tracing = true → s.trace.trig = none → ∃ t, exec .traceEventTrigger s = .next t ∧ t.cmd = s.cmd ∧ t.cores = s.cores
              ∧ t.trace.trig = some s.trace.next ∧ (s.trace.post = 0 → t.trace.armed = false ∧ t.trace.next = s.trace.next + 2)
              ∧ (s.trace.post ≠ 0 → t.trace.armed = true ∧ t.trace.left = some s.trace.post ∧ t.trace.next = s.trace.next + 1)))
       -- flash
       ∧ (let b := c.bank
          let fls (opc : Nat) (i : Fin 5) (cmd : Instr) : Prop := s.Runs q opc c →
            (s.bankOn i = false → s.bridgeTrains = false → exec cmd s = done s 0xB (140 + i.val) 0) ∧ (s.bankOn i = true → s.flash[i].op ≠ 0 → exec cmd s = .next s)
          let free (opc : Nat) (i : Fin 5) : Prop := s.Runs q opc c ∧ s.bankOn i = true ∧ s.flash[i].op = 0 ∧ s.bridgeTrains = false
          let ends (i : Fin 5) (erase : Bool) (y : State × Option (Nat × Nat)) : Out := match y.2 with
            | some (why, o) => done (y.1.flsFail i erase why o) 0xA why o
            | none => done (y.1.raise pgFls 0) 0 0 0
          fls 0x400 b (.flashWrite q bad) ∧ fls 0x401 b (.flashErase q bad) ∧ fls 0x402 b (.flashVerify q) ∧ fls 0x403 0 (.updateImageWrite q bad)
          ∧ (free 0x400 b → s.flsWritable b (p 1) c.dlen = false → exec (.flashWrite q bad) s = done s 6 10 0)
          ∧ (free 0x400 b → s.flsWritable b (p 1) c.dlen = true → let z := s.bufRead c c.dlen
              (z.2 = none → exec (.flashWrite q bad) s = done z.1 5 0 0)
              ∧ (z.2 = some bs → exec (.flashWrite q bad) s = ends b false (z.1.flsPut b (p 1) bs bad)))
          ∧ (free 0x401 b → 256 < p 2 → exec (.flashErase q bad) s = done s 6 10 0)
          ∧ (free 0x401 b → p 2 = 1 → let n := sectorSize b (p 1)
              (s.flsWritable b (p 1) n = false → exec (.flashErase q bad) s = done s 6 10 0)
              ∧ (s.flsWritable b (p 1) n = true → s.flash[b].susp.isSome = true → exec (.flashErase q bad) s = ends b true (s, some (5, p 1)))
              ∧ (s.flsWritable b (p 1) n = true → s.flash[b].susp = none → bad = none → exec (.flashErase q bad) s = ends b true (s.flsEraseRange b (p 1) n)))
          ∧ (free 0x402 b → let z := s.bufRead c 48
              let worst := (eccWords (bankBase b + p 1) (p 2) 16).foldl (fun a j => max a (s.flsWord (j / 16) / 2 % 8)) 0
              (z.2 = none → exec (.flashVerify q) s = done z.1 5 0 0)
              ∧ (∀ want l, z.2 = some want → (z.1.flsBytes (bankBase b + p 1) (p 2)).2 = some l →
                  (digestBytes (Config.sha384 l) = want → exec (.flashVerify q) s = done (z.1.flsBytes (bankBase b + p 1) (p 2)).1 0 0 worst)
                  ∧ (digestBytes (Config.sha384 l) ≠ want → exec (.flashVerify q) s = done (z.1.flsBytes (bankBase b + p 1) (p 2)).1 7 0 worst)))
          ∧ (free 0x403 0 → c.par 0 = 0 → let z := s.bufRead c c.dlen
              (z.2 = none → exec (.updateImageWrite q bad) s = done z.1 5 0 0)
              ∧ (z.2 = some bs → z.1.imageFault bs (imgSize false) = 1 → exec (.updateImageWrite q bad) s = done z.1 7 0 0)
              ∧ (z.2 = some bs → z.1.imageFault bs (imgSize false) = 2 → exec (.updateImageWrite q bad) s = done z.1 0xC 0 0)
              ∧ (z.2 = some bs → z.1.imageFault bs (imgSize false) = 0 → exec (.updateImageWrite q bad) s = ends 0 false (z.1.placeImage bs bad)))
          ∧ (free 0x403 0 → c.par 0 ≠ 0 → exec (.updateImageWrite q bad) s = .next s))
       ∧ (s.Runs q 0x403 c → (c.par 0 ≠ 1 → exec (.updateImageCommit q) s = .next s)
          ∧ (c.par 0 = 1 → s.runSlot ≠ 1 → exec (.updateImageCommit q) s = done s 6 11 0)
          ∧ (c.par 0 = 1 → s.runSlot = 1 → exec (.updateImageCommit q) s
              = done (s.setFld pgSec Reg.SEC_SVN_FW 6 0 (max s.power.svn (s.fld pgSec Reg.SEC_SVN_FW 6 0))) 0 0 0))
       -- security
       ∧ (s.Runs q 0x500 c → s.bridgeTrains = false → let z := s.flsBytes 0x1C000 0x4000
          (z.2 = none → exec (.getCertChain q) s = done z.1 0xA 0 0x1C000)
          ∧ (z.2 = some bs → exec (.getCertChain q) s = answers z.1 16384 bs (16 * ((List.range 1024).find? (fun j =>
              (slice bs (16 * j) 16).all (fun y => y == 0xFF))).getD 1024) 0))
       ∧ (s.Runs q 0x501 c → let head := s.reportHead c
          let go := (s.putDigest (Reg.SEC_SIGN_DIG 0) 12 (Config.sha384 head).toNat).signGo
          let sig (t : State) : List Byte := (List.range 24).flatMap (fun w => (leBytes 4 (t.reg pgSec (Reg.SEC_SIGN_SR 0 + 4 * w)).toNat).reverse)
          (s.sec.signing.isSome = true → exec (.attest q) s = .next s)
          ∧ (s.sec.signing = none → c.waits = true → s.sec.signed = false → exec (.attest q) s = done s 6 12 0)
          ∧ (s.sec.signing = none → c.waits = true → s.sec.signed = true →
              exec (.attest q) s = answers s (c.data.length + 96) (c.data ++ sig s) (c.data.length + 96) 0)
          ∧ (s.sec.signing = none → c.waits = false → c.dlen < head.length + 96 → exec (.attest q) s = done s 5 0 0)
          ∧ (s.sec.signing = none → c.waits = false → head.length + 96 ≤ c.dlen → s.keyOk = false → exec (.attest q) s = done go 6 12 0)
          ∧ (s.sec.signing = none → c.waits = false → head.length + 96 ≤ c.dlen → s.keyOk = true →
              exec (.attest q) s = .next (go.modRun c (fun d => { d with waits := true, data := head })) ∧ go.sec.signing.isSome = true))
       ∧ (s.Runs q 0x502 c → let lc (t : State) (own : List (Option (BitVec 384))) : Out := .next (waits (t.modSec (fun y => { y with lcNext := some (p 0, own) })))
          let z := s.bufRead c 0x1A0
          (c.waits = true → exec (.setLifecycle q) s = .next s)
          ∧ (c.waits = false → lcAllowed s.lifecycle (p 0) = false → exec (.setLifecycle q) s = done s 6 13 0)
          ∧ (c.waits = false → lcAllowed s.lifecycle (p 0) = true → p 0 ≠ 2 → exec (.setLifecycle q) s = lc s [])
          ∧ (c.waits = false → lcAllowed s.lifecycle (p 0) = true → p 0 = 2 → z.2 = none → exec (.setLifecycle q) s = done z.1 5 0 0)
          ∧ (c.waits = false → lcAllowed s.lifecycle (p 0) = true → p 0 = 2 → z.2 = some bs →
              (z.1.tokenOk bs = true → exec (.setLifecycle q) s = lc z.1 (tokenOwners bs))
              ∧ (z.1.tokenOk bs = false → exec (.setLifecycle q) s = done z.1 7 0 0)))
       -- fabric and power
       ∧ (s.Runs q 0x600 c →
          let start := waits ((s.modFab (fun y => { y with result := none })).enumerate (bitOf (c.par 0) 0))
          (c.waits = false → s.fab.disc = none →
            (start.fab.disc.isSome = true → exec (.enumerate q) s = .next start)
            ∧ (∀ r n, start.fab.disc = none → start.fab.result = some (r, n) → exec (.enumerate q) s = (if r = 0 then done start 0 n 0 else done start 0xD r 0)))
          ∧ (s.fab.disc.isSome = true → exec (.enumerate q) s = .next s))
       ∧ (s.Runs q 0x601 c → let y := s.setRoute (p 0) (p 1 % 16) (p 1 / 16 % 16)
          (y.2 = true → exec (.setRoute q) s = done y.1 0 0 0) ∧ (y.2 = false → exec (.setRoute q) s = done y.1 0xD 5 0))
       ∧ (s.Runs q 0x602 c → exec (.getTopology q) s = answers s (16 * s.fab.devs.length) (s.fab.devs.flatMap (fun d => s.topoRecord d)) 0 0)
       ∧ (s.Runs q 0x700 c →
          let w := c.par c.prog
          let d := bitsOf w 7 0
          let r := bitsOf w 9 8
          (s.power.busy.isSome = true ∨ s.power.queue ≠ [] → exec (.setDomains q) s = .next s)
          ∧ (s.power.busy = none → s.power.queue = [] → 8 ≤ c.prog ∨ w = 0xFFFF → exec (.setDomains q) s = done s 0 c.prog 0)
          ∧ (∀ why, s.power.busy = none → s.power.queue = [] → c.prog < 8 → w ≠ 0xFFFF → s.domState d ≠ r → s.domRefusal d r = some why →
              exec (.setDomains q) s = done (s.pwrRequest d r) 0xB c.prog (d + 256 * why))
          ∧ (s.power.busy = none → s.power.queue = [] → c.prog < 8 → w ≠ 0xFFFF → s.domState d = r ∨ s.domRefusal d r = none →
              (s.pwrRequest d r).power.busy.isSome = true → exec (.setDomains q) s = .next ((s.pwrRequest d r).modRun c (fun y => { y with prog := c.prog + 1 }))))
       ∧ (s.Runs q 0x701 c → let mw := (List.range 7).map (fun r => (Config.measured r s.free &&& 0xFFFF).toNat)
          exec (.getPower q) s = answers { s with free := s.free + 1 } 28 (mw.flatMap (fun v => leBytes 4 v)) mw.sum 0))

/-- R549 to R570: the String fabric. Links come up and are lost, with the alternates, the time parent and the flood that follow; a frame that
arrives on a port is taken only where the port is up and its class and CRC are right, is forwarded where another device is its destination, and
otherwise has the effect of its type; discovery, time, cyclic slots, fabric stops, retries and the exported region act at their instants.
Each of these is said to complete, with a next state that has its effect: `stringLinkUp`, `stringLinkLost`, `stopFrame`, `syncFrame`, `delayFrame`,
`linkdownFrame`, `cyclicFrame`, `writeFrame`, `readFrame`, `respFrame`, `discFrame`, `discrFrame`, `topoFrame`, `discTimeout`, `delayExchangeDue`,
`syncInterval`, `cyclicTx`, `txLate`, `strStopCmdGo`, `stopResend`, `tc2RetryTimeout`, `strExpWrite`. -/
def Obligations.StringFabric : Prop :=
  ∀ (x : Access) (p nbrPort : Fin 4) (nbr : BitVec 8) (s s1 : State) (h : FrameHead) (k : Fin 16) (i n : Nat) (bs : List Byte) (w mask : Word)
    (off20 : BitVec 20) (hi ok : Bool) (l : FabLink) (ch : BitVec 16) (mfn : BitVec 48) (ns corr mft : DWord) (frac mfp hops : Word)
    (serial : BitVec 128) (dport : Fin 4) (ups kids : BitVec 4) (run strap : Bool) (adr : BitVec 8) (ta th tp : Nat) (ls : List FabLink)
    (rts : List (Nat × Nat × Nat × Nat)),
    let st := Reg.STR_P_STAT
    let own := s.fabAddr
    let taken (b : FrameBody) : Prop := s.portUp p = true ∧ h.tc = frameClass b ∧ h.good = true ∧ (own ≠ 0 ∨ frameType b < 5 ∨ 8 < frameType b)
    let fwd (b : FrameBody) : Out := let f := h.frame b
      .next (if h.hops ≤ 1 ∨ h.dst = 0 ∨ 250 < h.dst then s.routeDrop
        else match s.routePort h.dst with | some r => s.sendOn r { f with hops := h.hops - 1 } | none => s.routeDrop)
    -- links
    (s.domOn (120 + p) = false ∨ s.portUp p = true ∨ nbr ≠ 0 ∧ nbr.toNat = own → exec (.stringLinkUp p nbr nbrPort) s = .next s)
    ∧ (s.domOn (120 + p) = true → s.portUp p = false → nbr = 0 ∨ nbr.toNat ≠ own → s.canonical = true → ∃ t, exec (.stringLinkUp p nbr nbrPort) s = .next t
        ∧ t.portUp p = true ∧ t.fld (pgPort p) st 15 8 = nbr.toNat % 251 ∧ t.fld (pgPort p) st 17 16 = nbrPort.val ∧ t.fab = { s.fab with delayAt := s.fab.delayAt.set p none } ∧ s.Apart t
        ∧ t.rbit (pgPort p) Reg.PAGE_IRQ_STAT 0 = true
        ∧ (nbr = 0 → s.rbit pgStr Reg.STR_STAT 9 = true → t.rbit (pgPort p) Reg.PAGE_IRQ_STAT 2 = true))
    ∧ (s.portUp p = false → exec (.stringLinkLost p) s = .next s ∧ exec (.delayExchangeDue p) s = .next s)
    ∧ (s.portUp p = true → s.canonical = true → ∃ t, exec (.stringLinkLost p) s = .next t ∧ t.portUp p = false ∧ t.fab.delay[p] = none ∧ t.mem = s.mem ∧ t.cores = s.cores
        ∧ t.time = { s.time with reacq := t.time.reacq } ∧ (s.parentPort = p.val → t.parentPort < 4 → t.time.reacq = true)
        ∧ t.rbit (pgPort p) Reg.PAGE_IRQ_STAT 1 = true ∧ (s.parentPort ≠ p.val → t.parentPort = s.parentPort)
        ∧ (s.parentPort = p.val → t.parentPort ≠ p.val)
        ∧ (∀ d : Fin 256, let e := s.reg pgStr (Reg.STR_RT d)
            t.reg pgStr (Reg.STR_RT d) = (if bitOf e 8 = true ∧ bitsOf e 3 0 = p.val ∧ bitsOf e 7 4 ≠ 15 then e ||| 0x200 else e))
        ∧ (∀ r : Fin 4, r ≠ p → s.portUp r = true → (r.val, (⟨0, 255, own, 32, s.fab.seq[(4 : Fin 16)],
            .linkdown ⟨own, p, s.fld (pgPort p) st 15 8, s.fld (pgPort p) st 17 16⟩, true⟩ : Frame)) ∈ t.fab.sent))
    ∧ (s.portUp p = true →
        let v := match s.fab.delayAt[p] with | some c => s.advance ((c + 160000) * Config.stepsPerClk) | none => s
        let u := v.modFab (fun z => { z with delayAt := z.delayAt.set p (some v.time.clk) })
        let y := u.newFrame (u.fld (pgPort p) st 15 8) (.delay none)
        exec (.delayExchangeDue p) s = .next ((y.1.sendOn p y.2).modFab (fun z => { z with delay := z.delay.set p (some u.time.clk) })))
    -- frames that are not taken
    ∧ (s.NoAborts → s.portUp p = false ∨ h.tc ≠ 0 → exec (.stopFrame p h) s = .next s ∧ exec (.linkdownFrame p h l) s = .next s
        ∧ exec (.syncFrame p h ns frac corr mfn mft mfp hops) s = .next s ∧ exec (.delayFrame p h none) s = .next s)
    ∧ (own = 0 → exec (.cyclicFrame p h ch mfn bs) s = .next s ∧ exec (.writeFrame p h off20 bs) s = .next s ∧ exec (.readFrame p h off20 n) s = .next s
        ∧ exec (.respFrame p h ok bs) s = .next s)
    ∧ (s.portUp p = false ∨ h.tc ≠ 1 → exec (.cyclicFrame p h ch mfn bs) s = .next s)
    ∧ (s.portUp p = false ∨ h.tc ≠ 2 → s.Unqueued → exec (.writeFrame p h off20 bs) s = .next s ∧ exec (.readFrame p h off20 n) s = .next s
        ∧ exec (.respFrame p h ok bs) s = .next s ∧ exec (.discFrame p h n) s = .next s ∧ exec (.topoFrame p h ta th tp kids ls rts) s = .next s
        ∧ exec (.discrFrame p h serial dport ups run strap adr) s = .next s)
    ∧ (s.portUp p = true → h.tc = 2 → h.good = false → let c : Out := .next (s.count (pgPort p) Reg.STR_P_CRC_CNT 15 0)
        (own ≠ 0 → exec (.writeFrame p h off20 bs) s = c ∧ exec (.readFrame p h off20 n) s = c ∧ exec (.respFrame p h ok bs) s = c) ∧ exec (.discFrame p h n) s = c
        ∧ exec (.topoFrame p h ta th tp kids ls rts) s = c)
    -- stops
    ∧ (taken .stop → let f := h.frame .stop
        (s.NoAborts → s.isNew f = false → exec (.stopFrame p h) s = .next s)
        ∧ (s.NoAborts → s.isNew f = true → s.rbit pgStr Reg.STR_CTL 1 = false → exec (.stopFrame p h) s = .next ((s.markSeen f).flood p f))
        ∧ (s.NoRecords → s.canonical = true → s.isNew f = true → s.rbit pgStr Reg.STR_CTL 1 = true → ∃ t, exec (.stopFrame p h) s = .next t ∧ s.StopActs t false
            ∧ t.reg pgStr Reg.STR_STOP_LAST = w32 (h.src % 256 + 65536 * h.seq) ∧ t.rbit pgStr Reg.PAGE_IRQ_STAT 0 = true
            ∧ t.fab = ((s.markSeen f).flood p f).fab))
    ∧ (s.Reaches x pgStr s1 → (w &&& 0x1FF ≠ 0x1C3 → exec (.strStopCmdGo x w) s = .next s1.wrote)
        ∧ (w &&& 0x1FF = 0x1C3 → s1.NoRecords → ∃ t, exec (.strStopCmdGo x w) s = .next t
            ∧ t.fab.stop = some (s1.fab.seq[(1 : Fin 16)], 2, s1.time.clk)
            ∧ (∀ r : Fin 4, s1.portUp r = true → (r.val, (⟨0, 255, s1.fabAddr, 32, s1.fab.seq[(1 : Fin 16)], .stop, true⟩ : Frame)) ∈ t.fab.sent)
            ∧ (s1.rbit pgStr Reg.STR_CTL 1 = true → s1.StopActs t false) ∧ (s1.rbit pgStr Reg.STR_CTL 1 = false → t.clusters = s1.clusters ∧ t.dma = s1.dma)))
    ∧ (s.fab.stop = none → exec .stopResend s = .next s)
    ∧ (∀ seq m c, s.fab.stop = some (seq, m, c) → ∃ t, exec .stopResend s = .next t ∧ t.time.clk = max s.time.clk (c + 16000)
        ∧ t.fab.stop = (if m ≤ 1 then none else some (seq, m - 1, c + 16000)) ∧ t.clusters = s.clusters ∧ t.mem = s.mem
        ∧ (∀ r : Fin 4, s.portUp r = true → (r.val, (⟨0, 255, own, 32, seq, .stop, true⟩ : Frame)) ∈ t.fab.sent))
    -- time
    ∧ (taken (.delay none) → let y := s.newFrame h.src (.delay (some (Config.turnaround s.free)))
        exec (.delayFrame p h none) s = .next (({ y.1 with free := s.free + 1 } : State).sendOn p y.2))
    ∧ (∀ turn, taken (.delay (some turn)) → (s.fab.delay[p] = none → exec (.delayFrame p h (some turn)) s = .next s)
        ∧ (∀ c, s.fab.delay[p] = some c → s.canonical = true → ∃ t, exec (.delayFrame p h (some turn)) s = .next t ∧ t.fab.delay[p] = none ∧ s.Apart t
            ∧ t.reg (pgPort p) Reg.STR_P_DELAY = w32 (((s.time.clk - c) * 10 - turn) / 2 % 2 ^ 24) ∧ t.rbit (pgPort p) st 2 = true))
    ∧ (taken (.sync ns frac corr mfn mft mfp hops) → 
        let res := clampNat 9830400 11796480 (Config.residence s.free)
        let down : Frame := ⟨0, h.dst, h.src, h.hops - 1, h.seq, .sync ns frac (corr + BitVec.ofNat 64 res) mfn mft mfp (hops + 1), true⟩
        let out := ({ s with free := s.free + 1 } : State).sendKids (fun r => r != p.val) down
        let off := ((s.time.mft.toNat : Int) + ((mfn.toNat : Int) - (s.time.mfn.toNat : Int)) * s.time.mfp - (mft.toNat : Int)).natAbs
        (p.val ≠ s.parentPort → exec (.syncFrame p h ns frac corr mfn mft mfp hops) s = .next s)
        ∧ (p.val = s.parentPort → s.src ≠ 1 → exec (.syncFrame p h ns frac corr mfn mft mfp hops) s = .next out)
        ∧ (p.val = s.parentPort → s.src = 1 → s.canonical = true → ∃ t, exec (.syncFrame p h ns frac corr mfn mft mfp hops) s = .next t
            ∧ t.mem = s.mem ∧ t.cores = s.cores ∧ t.fab = out.fab
            ∧ (s.time.reacq = true → s.time.loadPend = false → 1000 < off → t.rbit pgDtb Reg.PAGE_IRQ_STAT 8 = true ∧ t.rbit pgDtb Reg.DTB_STAT 3 = true
                ∧ t.time = { s.time with reacq := false })
            ∧ (s.time.loadPend = true → s.carRun = false → t.time.mfn = mfn ∧ t.time.mft = mft ∧ t.time.mfp = mfp.toNat ∧ t.reg pgDtb Reg.DTB_MFP = mfp)
            ∧ (s.time.loadPend = false → s.time.reacq = false ∨ off ≤ 1000 → t.reg pgDtb Reg.DTB_MFP = mfp ∧ t.time.mfp = s.time.mfp
                ∧ (mfp ≠ s.reg pgDtb Reg.DTB_MFP → s.time.clk ≤ t.time.mfpDue ∧ t.time.mfpDue ≤ s.time.clk + 160000)
                ∧ (s.carRun = false → s.time.reacq = false → t.time.mfn = mfn ∧ t.time.mft = mft)
                ∧ (s.carRun = true ∨ s.time.reacq = true → t.time.mfn = s.time.mfn ∧ t.time.mft = s.time.mft))
            ∧ (s.time.reacq = false ∨ s.time.loadPend = true ∨ off ≤ 1000 → s.bridgeIsDown = false → s.bridgeTrains = false →
                t.time.heldLost = false ∧ t.time.loadPend = false ∧ t.time.lastMsg = s.time.clk)))
    ∧ (s.isRoot = false ∨ s.src = 1 → exec .syncInterval s = .next s)
    ∧ (s.isRoot = true → s.src ≠ 1 → ∃ t, exec .syncInterval s = .next t
        ∧ t.time.clk = max s.time.clk (s.fab.syncAt + 1600 * clampNat 1 50 (s.fld pgStr Reg.STR_CTL 13 8)) ∧ t.fab.syncAt = t.time.clk ∧ t.mem = s.mem
        ∧ (∀ r : Fin 4, s.portUp r = true → s.isChild r = true → (r.val, (⟨0, s.fld (pgPort r) st 15 8, own, 32, s.fab.seq[(2 : Fin 16)],
            .sync t.time.ns t.time.frac 0 t.time.mfn t.time.mft (s.reg pgDtb Reg.DTB_MFP) 0, true⟩ : Frame)) ∈ t.fab.sent))
    -- lost links elsewhere
    ∧ (taken (.linkdown l) → let f := h.frame (.linkdown l)
        (s.isNew f = false → exec (.linkdownFrame p h l) s = .next s)
        ∧ (s.isNew f = true → s.canonical = true → ∃ t, exec (.linkdownFrame p h l) s = .next t ∧ s.Apart t ∧ t.rbit pgStr Reg.PAGE_IRQ_STAT 3 = true
            ∧ t.fab.links = s.fab.links.filter (fun y => y != l && y != ⟨l.b, l.pb, l.a, l.pa⟩) ∧ t.fab.sent = ((s.markSeen f).flood p f).fab.sent
            ∧ ∀ d : Fin 256, let e := s.reg pgStr (Reg.STR_RT d)
              (bitOf e 16 = true → t.reg pgStr (Reg.STR_RT d) = e &&& ~~~0x200)
              ∧ (bitOf e 16 = false → d.val = 0 ∨ 250 < d.val ∨ d.val = own → t.reg pgStr (Reg.STR_RT d) = e)
              ∧ (∀ a b c, bitOf e 16 = false → 0 < d.val → d.val ≤ 250 → d.val ≠ own → routeEntry t.fab.links own d = some (a, b, c) →
                  t.reg pgStr (Reg.STR_RT d) = w32 (a + 16 * b + 256 + 1024 * (c % 64)))))
    -- cyclic data
    ∧ (taken (.cyclic ch.toNat mfn bs) →
        (h.dst ≠ 255 → h.dst ≠ own → exec (.cyclicFrame p h ch mfn bs) s = fwd (.cyclic ch.toNat mfn bs))
        ∧ (let hit (r : Fin 16) : Prop := let g := s.reg pgStr (Reg.STR_RX_CFG r); bitOf g 0 = true ∧ bitsOf g 15 8 = h.src ∧ bitsOf g 23 16 = ch.toNat
           let a := (s.reg pgStr (Reg.STR_RX_DST_LO k)).toNat / 16 * 16 + s.fld pgStr (Reg.STR_RX_DST_HI k) 13 0 * 2 ^ 32
           let s0 := s.modFab (fun y => { y with rxHit := y.rxHit ||| (1#16 <<< k.val) })
           (h.dst = own → own ≠ 255 → (∀ r, ¬ hit r) → exec (.cyclicFrame p h ch mfn bs) s = .next s)
           ∧ (h.dst = own → own ≠ 255 → hit k → (∀ r, r ≠ k → ¬ hit r) → (cyclicMem a 80 && s.cyclicOn a) = false →
              exec (.cyclicFrame p h ch mfn bs) s = .next s0)
           ∧ (h.dst = own → own ≠ 255 → hit k → (∀ r, r ≠ k → ¬ hit r) → (cyclicMem a 80 && s.cyclicOn a) = true →
              exec (.cyclicFrame p h ch mfn bs) s = .next ((s0.eccWrite .fabric a bs).1.eccWrite .fabric (a + 64)
                (leBytes 6 mfn.toNat ++ [0, 0] ++ leBytes 4 s.time.ns.toNat ++ leBytes 2 h.seq ++ [0, 0])).1)))
    ∧ (s.txDue k = none → exec (.cyclicTx k) s = .next s ∧ exec (.txLate k) s = .next s)
    ∧ (∀ due, s.txDue k = some due → let g := s.reg pgStr (Reg.STR_TX_CFG k)
        let a := (s.reg pgStr (Reg.STR_TX_SRC_LO k)).toNat / 4 * 4 + s.fld pgStr (Reg.STR_TX_SRC_HI k) 13 0 * 2 ^ 32
        let s0 := (s.advance due).modFab (fun y => { y with txDone := y.txDone ||| (1#16 <<< k.val) })
        let y := s0.eccRead .fabric a (txLen g)
        let f := y.1.newFrame (bitsOf g 15 8) (.cyclic (bitsOf g 23 16) s.time.mfn (s0.bytesAt a (txLen g)))
        ((cyclicMem a (txLen g) && s.cyclicOn a) = false → exec (.cyclicTx k) s = .next s0)
        ∧ ((cyclicMem a (txLen g) && s.cyclicOn a) = true → y.2 = true → exec (.cyclicTx k) s = .next y.1)
        ∧ (own = 0 → (cyclicMem a (txLen g) && s.cyclicOn a) = true → y.2 = false → exec (.cyclicTx k) s = .next y.1)
        ∧ (own ≠ 0 → (cyclicMem a (txLen g) && s.cyclicOn a) = true → y.2 = false →
            (bitsOf g 15 8 ≠ 255 → exec (.cyclicTx k) s = .next (f.1.sendRoute f.2))
            ∧ (bitsOf g 15 8 = 255 → exec (.cyclicTx k) s = .next (f.1.sendAll (fun r => s.isChild r) f.2)))
        ∧ (s.canonical = true → ∃ t, exec (.txLate k) s = .next t ∧ t.fab.txDone.getLsbD k = true ∧ t.fab.sent = s.fab.sent ∧ t.rbit pgStr Reg.PAGE_IRQ_STAT 5 = true
            ∧ t.time.clk = max s.time.clk ((due + nsSteps 200) / Config.stepsPerClk) ∧ t.mem = s.mem))
    -- remote windows
    ∧ (taken (.write off20.toNat bs) → let y := s.expStore off20.toNat bs
        (h.dst ≠ own → exec (.writeFrame p h off20 bs) s = fwd (.write off20.toNat bs))
        ∧ (h.dst = own → let z := y.1.newFrame h.src (.resp y.2 []); exec (.writeFrame p h off20 bs) s = .next (z.1.sendRoute { z.2 with seq := h.seq })))
    ∧ (taken (.read off20.toNat n) → let y := s.expRead off20.toNat n
        (h.dst ≠ own → exec (.readFrame p h off20 n) s = fwd (.read off20.toNat n))
        ∧ (h.dst = own → let z := y.1.newFrame h.src (.resp y.2.isSome (y.2.getD []))
            exec (.readFrame p h off20 n) s = .next (z.1.sendRoute { z.2 with seq := h.seq })))
    ∧ (taken (.resp ok bs) → (h.dst ≠ own → exec (.respFrame p h ok bs) s = fwd (.resp ok bs))
        ∧ (∀ rq : Tc2, h.dst = own → s.fab.tc2 = [rq] →
            (rq.seq = h.seq → rq.dst = h.src → rq.ans = none → rq.data.isSome = true → exec (.respFrame p h ok bs) s = .next (s.modFab (fun y => { y with tc2 := [] })))
            ∧ (rq.seq = h.seq → rq.dst = h.src → rq.ans = none → rq.data = none →
                exec (.respFrame p h ok bs) s = .next (s.modFab (fun y => { y with tc2 := [{ rq with ans := some (if ok then some bs else none) }] })))
            ∧ (rq.seq ≠ h.seq ∨ rq.dst ≠ h.src ∨ rq.ans.isSome = true → exec (.respFrame p h ok bs) s = .next s)))
    ∧ (s.fab.tc2[i]? = none → exec (.tc2RetryTimeout i) s = .next s)
    ∧ (∀ rq : Tc2, s.fab.tc2[i]? = some rq →
        let s0 := s.advance ((rq.clk + 80000) * Config.stepsPerClk)
        (rq.ans.isSome = true → exec (.tc2RetryTimeout i) s = .next s)
        ∧ (rq.ans = none → rq.tries < 4 → exec (.tc2RetryTimeout i) s
            = .next ((s0.modFab (fun y => { y with tc2 := y.tc2.set i { rq with tries := rq.tries + 1, clk := s0.time.clk } })).sendRoute (rq.frame own)))
        ∧ (rq.ans = none → 4 ≤ rq.tries → rq.data = none →
            exec (.tc2RetryTimeout i) s = .next (s0.modFab (fun y => { y with tc2 := y.tc2.set i { rq with ans := some none } })))
        ∧ (rq.ans = none → 4 ≤ rq.tries → rq.data.isSome = true →
            exec (.tc2RetryTimeout i) s = .next ((s0.modFab (fun y => { y with tc2 := y.tc2.eraseIdx i })).count pgStr Reg.STR_WLOST_CNT 15 0)))
    ∧ (s.Reaches x pgStr s1 → let r := if hi then Reg.STR_EXP_HI else Reg.STR_EXP_LO
        let m := mask &&& (if hi then 0x3FFF else 0xFFF00001)
        let u := s1.setReg pgStr r ((s1.reg pgStr r &&& ~~~m) ||| (w &&& m))
        (u.rbit pgStr Reg.STR_EXP_LO 0 = true → u.expOk u.expBase = false → exec (.strExpWrite x hi w mask) s = .next (s1.raise pgStr 6).wrote)
        ∧ (u.rbit pgStr Reg.STR_EXP_LO 0 = false ∨ u.expOk u.expBase = true → exec (.strExpWrite x hi w mask) s = .next u.wrote))
    -- discovery
    ∧ (taken (.disc n) →
        (h.dst ≠ 0 → h.dst ≠ 255 → h.dst ≠ own → exec (.discFrame p h n) s = fwd (.disc n))
        ∧ (h.dst = own → own ≠ 0 → n < 4 → let z := s.newFrame 0 (.disc n); exec (.discFrame p h n) s = .next (z.1.sendOn n z.2))
        ∧ (h.dst = 0 ∨ h.dst = own ∧ 4 ≤ n → let z := s.newFrame h.src (.discr s.serial p s.upPorts s.carRun s.fab.strap own)
            exec (.discFrame p h n) s = .next (z.1.sendOn p z.2)))
    ∧ (taken (.discr serial dport ups run strap adr.toNat) → s.Unqueued →
        (h.dst ≠ own → h.dst ≠ 0 → exec (.discrFrame p h serial dport ups run strap adr) s = fwd (.discr serial dport ups run strap adr.toNat))
        ∧ (h.dst = own ∨ h.dst = 0 → s.fab.disc = none →
            (own = 0 ∨ s.isRoot = true → exec (.discrFrame p h serial dport ups run strap adr) s = .next s)
            ∧ (own ≠ 0 → s.isRoot = false → exec (.discrFrame p h serial dport ups run strap adr) s = .next (if h.hops ≤ 1 then s.routeDrop
                else match s.routePort 1 with
                  | some r => s.sendOn r { h.frame (.discr serial dport ups run strap adr.toNat) with hops := h.hops - 1, dst := 1 }
                  | none => s.routeDrop)))
        ∧ (∀ (dc : Disc) (a b c : Nat), h.dst = own ∨ h.dst = 0 → s.fab.disc = some dc → dc.probe = some (a, b, c) → b = 9 → run = true →
            ∃ t, exec (.discrFrame p h serial dport ups run strap adr) s = .next t ∧ t.fab.disc = none ∧ t.fab.result = some (7, s.fab.devs.length) ∧ t.mem = s.mem)
        ∧ (∀ (dc : Disc) (a b c : Nat), h.dst = own ∨ h.dst = 0 → s.fab.disc = some dc → dc.probe = some (a, b, c) → b ≠ 9 →
            let depth := ((s.fab.devs.find? (fun e => e.addr == a)).map (fun e => e.hops)).getD 0 + 1
            let same := s.fab.devs.find? (fun e => e.serial == serial && e.addr != 1)
            let other := strap = true ∧ serial ≠ s.serial
            (other → ∃ t, exec (.discrFrame p h serial dport ups run strap adr) s = .next t ∧ t.fab.disc = none
                ∧ t.fab.result = some (4, s.fab.devs.length) ∧ t.fab.devs = s.fab.devs ∧ t.mem = s.mem)
            ∧ (∀ o, ¬ other → adr ≠ 0 ∧ o = adr.toNat ∨ adr = 0 ∧ o ≠ 0 ∧ (∃ e, same = some e ∧ e.addr = o) →
                ∃ t, exec (.discrFrame p h serial dport ups run strap adr) s = .next t ∧ t.fab.devs = s.fab.devs ∧ t.mem = s.mem
                  ∧ (⟨a, b, o, dport.val⟩ ∈ t.fab.links ∨ ⟨o, dport.val, a, b⟩ ∈ t.fab.links))
            ∧ (¬ other → adr = 0 → same = none → dc.next ≤ 250 → depth ≤ 32 → ∃ t, exec (.discrFrame p h serial dport ups run strap adr) s = .next t
                ∧ t.mem = s.mem ∧ t.fab.devs = s.fab.devs ++ [⟨dc.next, depth, a, b, serial⟩] ∧ t.fab.links = s.fab.links ++ [⟨a, b, dc.next, dport⟩])
            ∧ (¬ other → adr = 0 → same = none → 250 < dc.next ∨ 32 < depth → ∃ t, exec (.discrFrame p h serial dport ups run strap adr) s = .next t
                ∧ t.fab.devs = s.fab.devs ∧ t.fab.links = s.fab.links ∧ t.mem = s.mem)))
    ∧ (s.Unqueued → s.fab.disc = none → exec .discTimeout s = .next s)
    ∧ (∀ (dc : Disc) (a b c : Nat), s.Unqueued → s.fab.disc = some dc → dc.probe = some (a, b, c) → b ≠ 9 → s.canonical = true →
        ∃ t, exec .discTimeout s = .next t ∧ t.time.clk = max s.time.clk (c + 32000) ∧ t.fab.devs = s.fab.devs ∧ t.mem = s.mem
          ∧ (dc.todo = [] → t.fab.disc = none ∧ t.fab.result = some (3, s.fab.devs.length) ∧ t.rbit pgStr Reg.PAGE_IRQ_STAT 2 = true)
          ∧ (∀ a2 b2 rest, dc.todo = (a2, b2) :: rest → t.fab.disc = some { dc with todo := rest, probe := some (a2, b2, t.time.clk), fail := 3 }))
    ∧ (taken (.topo ta th tp kids ls rts) →
        (h.dst = 255 → exec (.topoFrame p h ta th tp kids ls rts) s
          = .next (((s.forwardTree p (h.frame (.topo ta th tp kids ls rts))).modFab (fun y => { y with links := ls })).reroute))
        ∧ (own ≠ 0 → h.dst ≠ own → h.dst ≠ 255 → exec (.topoFrame p h ta th tp kids ls rts) s = fwd (.topo ta th tp kids ls rts))
        ∧ (own = 0 ∨ h.dst = own → h.dst ≠ 255 → s.canonical = true → ∃ t, exec (.topoFrame p h ta th tp kids ls rts) s = .next t ∧ s.Apart t
            ∧ t.fabAddr = ta % 256
            ∧ (ta = 0 → t.fab = { s.fab with devs := [], links := [] } ∧ t.parentPort = 15 ∧ ∀ d : Fin 256, t.reg pgStr (Reg.STR_RT d) = 0xFF)
            ∧ (ta ≠ 0 → t.parentPort = tp % 16 ∧ t.fld pgStr Reg.STR_STAT 21 16 = th % 64 ∧ t.rbit pgStr Reg.STR_STAT 9 = !ls.isEmpty
                ∧ (ls = [] → t.fab = s.fab) ∧ (ls ≠ [] → t.fab = { s.fab with links := ls } ∧ t.rbit pgStr Reg.PAGE_IRQ_STAT 1 = true)
                ∧ (∀ d : Fin 256, bitOf (s.reg pgStr (Reg.STR_RT d)) 16 = true → t.reg pgStr (Reg.STR_RT d) = s.reg pgStr (Reg.STR_RT d))
                ∧ (∀ (d : Fin 256) (a b c : Nat), rts = [(d.val, a, b, c)] → bitOf (s.reg pgStr (Reg.STR_RT d)) 16 = false →
                    t.reg pgStr (Reg.STR_RT d) = w32 (a % 16 + 16 * (b % 16) + 256 + 1024 * (c % 64))))))
end

