-- ==== Sys2Proof/Laws/Sparse.lean ====
section
/-! SUPPORT. Sparse stores: read after write, and the canonical form that every operation keeps. -/

namespace Sys2Proof.Machine

variable {α : Type} [DecidableEq α]

@[simp] theorem sparseGet_set_same (d : Nat → α) (l : List (Nat × α)) (k : Nat) (v : α) : l.Pairwise (fun x y => x.1 < y.1) →
    sparseGet d (sparseSet d l k v) k = v := by
  induction l with
  | nil =>
    intro _
    unfold sparseSet
    split <;> simp_all [sparseGet]
  | cons e t ih =>
    intro h
    have ht := (List.pairwise_cons.1 h).2
    have hk := (List.pairwise_cons.1 h).1
    unfold sparseSet
    split
    · rename_i hlt
      split
      · rename_i hv
        have : ∀ l : List (Nat × α), (∀ x ∈ l, k < x.1) → sparseGet d l k = d k := by
          intro l
          induction l with
          | nil => intro _; rfl
          | cons x r ihr =>
            intro hx
            have h1 := hx x (by simp)
            unfold sparseGet
            rw [if_neg (by omega)]
            exact ihr (fun y hy => hx y (by simp [hy]))
        rw [hv]
        refine this (e :: t) ?_
        intro x hx
        rcases List.mem_cons.1 hx with rfl | hx
        · exact hlt
        · exact Nat.lt_trans hlt (hk x hx)
      · simp [sparseGet]
    · split
      · rename_i heq
        split
        · rename_i hv
          have : ∀ l : List (Nat × α), (∀ x ∈ l, k < x.1) → sparseGet d l k = d k := by
            intro l
            induction l with
            | nil => intro _; rfl
            | cons x r ihr =>
              intro hx
              have h1 := hx x (by simp)
              unfold sparseGet
              rw [if_neg (by omega)]
              exact ihr (fun y hy => hx y (by simp [hy]))
          rw [hv]
          exact this t (fun x hx => heq ▸ hk x hx)
        · simp [sparseGet]
      · rename_i h1 h2
        unfold sparseGet
        rw [if_neg h2]
        exact ih ht

/-- A store's other keys are as they were. -/
theorem sparseGet_set_other (d : Nat → α) (l : List (Nat × α)) (k j : Nat) (v : α) (hj : j ≠ k) :
    sparseGet d (sparseSet d l k v) j = sparseGet d l j := by
  induction l with
  | nil => unfold sparseSet; split <;> simp_all [sparseGet]
  | cons e t ih =>
    unfold sparseSet
    split
    · split
      · rfl
      · simp [sparseGet, hj]
    · split
      · rename_i heq
        split
        · simp [sparseGet, ← heq, hj]
        · simp [sparseGet, ← heq, hj]
      · simp [sparseGet, ih]

theorem sparseWf_iff (d : Nat → α) (l : List (Nat × α)) :
    sparseWf d l = true ↔ l.Pairwise (fun x y => x.1 < y.1) ∧ ∀ e ∈ l, e.2 ≠ d e.1 := by
  simp [sparseWf]

theorem sparseSet_mem (d : Nat → α) (l : List (Nat × α)) (k : Nat) (v : α) (e : Nat × α) (h : e ∈ sparseSet d l k v) :
    e ∈ l ∨ (e = (k, v) ∧ v ≠ d k) := by
  induction l with
  | nil =>
    unfold sparseSet at h
    split at h
    · simp at h
    · simp_all
  | cons x t ih =>
    unfold sparseSet at h
    split at h
    · split at h
      · exact .inl h
      · rcases List.mem_cons.1 h with h | h
        · simp_all
        · exact .inl h
    · split at h
      · split at h
        · exact .inl (List.mem_cons_of_mem _ h)
        · rcases List.mem_cons.1 h with h | h
          · simp_all
          · exact .inl (List.mem_cons_of_mem _ h)
      · rcases List.mem_cons.1 h with h | h
        · simp_all
        · rcases ih h with h | h
          · exact .inl (List.mem_cons_of_mem _ h)
          · exact .inr h

/-- A write keeps the canonical form. -/
theorem sparseWf_set (d : Nat → α) (l : List (Nat × α)) (k : Nat) (v : α) (h : sparseWf d l = true) :
    sparseWf d (sparseSet d l k v) = true := by
  rw [sparseWf_iff] at h ⊢
  refine ⟨?_, ?_⟩
  · obtain ⟨hp, -⟩ := h
    induction l with
    | nil => unfold sparseSet; split <;> simp
    | cons e t ih =>
      have ⟨h1, h2⟩ := List.pairwise_cons.1 hp
      unfold sparseSet
      split
      · split
        · exact hp
        · rename_i hlt hv
          refine List.pairwise_cons.2 ⟨?_, hp⟩
          intro x hx
          rcases List.mem_cons.1 hx with rfl | hx
          · exact hlt
          · exact Nat.lt_trans hlt (h1 x hx)
      · split
        · rename_i heq
          split
          · exact h2
          · exact List.pairwise_cons.2 ⟨fun x hx => heq ▸ h1 x hx, h2⟩
        · rename_i hn1 hn2
          refine List.pairwise_cons.2 ⟨?_, ih h2⟩
          intro x hx
          rcases sparseSet_mem d t k v x hx with hx | ⟨rfl, -⟩
          · exact h1 x hx
          · show e.1 < k
            omega
  · intro e he
    rcases sparseSet_mem d l k v e he with he | ⟨rfl, hv⟩
    · exact h.2 e he
    · exact hv

/-- Leaving entries out keeps the canonical form. -/
theorem sparseWf_filter (d : Nat → α) (l : List (Nat × α)) (f : Nat × α → Bool) (h : sparseWf d l = true) :
    sparseWf d (l.filter f) = true := by
  rw [sparseWf_iff] at h ⊢
  exact ⟨h.1.filter f, fun e he => h.2 e (List.mem_filter.1 he).1⟩

/-- Clearing a range keeps the canonical form. -/
theorem sparseWf_clear (d : Nat → α) (l : List (Nat × α)) (a b : Nat) (h : sparseWf d l = true) :
    sparseWf d (sparseClear a b l) = true := sparseWf_filter d l _ h

end Sys2Proof.Machine
end

