-- ==== Sys2Proof/Laws/Core.lean ====
section
/-! SUPPORT. What a change of a core, a pair or a register leaves, and what an instruction that issues does. -/

namespace Sys2Proof.Machine

/-! ## Cores -/

@[simp] theorem State.core_modCore (s : State) (c : CoreId) (f : Core → Core) : (s.modCore c f).core c = f (s.core c) := by
  simp [State.core, State.modCore]

theorem coreIdx_inj {c d : CoreId} (h : (coreIdx c).val = (coreIdx d).val) : c = d := by
  cases c with
  | ce e =>
    cases d with
    | ce x => simp only [coreIdx] at h; congr 1; exact Fin.ext h
    | ac a => simp only [coreIdx] at h; have := e.isLt; omega
  | ac a =>
    cases d with
    | ce x => simp only [coreIdx] at h; have := x.isLt; omega
    | ac x => simp only [coreIdx] at h; congr 1; exact Fin.ext (by omega)

theorem State.core_modCore_other (s : State) (c d : CoreId) (f : Core → Core) (h : d ≠ c) : (s.modCore c f).core d = s.core d := by
  have : (coreIdx c).val ≠ (coreIdx d).val := fun e => h (coreIdx_inj e).symm
  simp [State.core, State.modCore, Vector.getElem_set_ne, this]

@[simp] theorem State.modCore_modCore (s : State) (c : CoreId) (f g : Core → Core) :
    (s.modCore c f).modCore c g = s.modCore c (fun k => g (f k)) := by
  simp [State.modCore, State.core]

theorem State.modCore_id (s : State) (c : CoreId) : s.modCore c (fun k => k) = s := by
  simp [State.modCore, State.core]

/-- Only the core as it is matters to a change of it. -/
theorem State.modCore_congr (s : State) (c : CoreId) (f g : Core → Core) (h : f (s.core c) = g (s.core c)) :
    s.modCore c f = s.modCore c g := by
  unfold State.modCore; rw [h]

@[simp] theorem State.locked_modCore (s : State) (c d : CoreId) (f : Core → Core) : (s.modCore c f).locked d = s.locked d := rfl

/-! ## Banks -/

@[simp] theorem Core.bankOf_setBank (k : Core) (b : BankId) (x : Bank) : (k.setBank b x).bankOf b = x := by cases b <;> rfl
@[simp] theorem Core.setBank_bankOf (k : Core) (b : BankId) : k.setBank b (k.bankOf b) = k := by cases b <;> rfl
@[simp] theorem Core.setBank_setBank (k : Core) (b : BankId) (x y : Bank) : (k.setBank b x).setBank b y = k.setBank b y := by
  cases b <;> rfl
@[simp] theorem Core.setBank_bank (k : Core) (b : BankId) (x : Bank) : (k.setBank b x).bank = k.bank := by cases b <;> rfl
@[simp] theorem Core.setBank_pc (k : Core) (b : BankId) (x : Bank) : (k.setBank b x).pc = k.pc := by cases b <;> rfl
@[simp] theorem Core.setBank_slot (k : Core) (b : BankId) (x : Bank) : (k.setBank b x).slot = k.slot := by cases b <;> rfl
@[simp] theorem Core.setBank_step1 (k : Core) (b : BankId) (x : Bank) : (k.setBank b x).step1 = k.step1 := by cases b <;> rfl
@[simp] theorem Core.setBank_pend (k : Core) (b : BankId) (x : Bank) : (k.setBank b x).pend = k.pend := by cases b <;> rfl
@[simp] theorem Core.setBank_status (k : Core) (b : BankId) (x : Bank) : (k.setBank b x).status = k.status := by cases b <;> rfl
@[simp] theorem Core.setBank_nextId (k : Core) (b : BankId) (x : Bank) : (k.setBank b x).nextId = k.nextId := by cases b <;> rfl
@[simp] theorem Core.setBank_first (k : Core) (b : BankId) (x : Bank) : (k.setBank b x).first = k.first := by cases b <;> rfl
@[simp] theorem Core.modCur_bank (k : Core) (f : Bank → Bank) : (k.modCur f).bank = k.bank := by simp [Core.modCur]
@[simp] theorem Core.modCur_pc (k : Core) (f : Bank → Bank) : (k.modCur f).pc = k.pc := by simp [Core.modCur]
@[simp] theorem Core.modCur_slot (k : Core) (f : Bank → Bank) : (k.modCur f).slot = k.slot := by simp [Core.modCur]
@[simp] theorem Core.modCur_step1 (k : Core) (f : Bank → Bank) : (k.modCur f).step1 = k.step1 := by simp [Core.modCur]
@[simp] theorem Core.modCur_pend (k : Core) (f : Bank → Bank) : (k.modCur f).pend = k.pend := by simp [Core.modCur]
@[simp] theorem Core.modCur_status (k : Core) (f : Bank → Bank) : (k.modCur f).status = k.status := by simp [Core.modCur]
@[simp] theorem Core.modCur_cur (k : Core) (f : Bank → Bank) : (k.modCur f).cur = f k.cur := by simp [Core.modCur, Core.cur]
@[simp] theorem Core.modCur_modCur (k : Core) (f g : Bank → Bank) : (k.modCur f).modCur g = k.modCur (fun b => g (f b)) := by
  simp [Core.modCur, Core.cur]
@[simp] theorem Core.modCur_bankOf (k : Core) (f : Bank → Bank) : (k.modCur f).bankOf k.bank = f k.cur := by simp [Core.modCur]
@[simp] theorem Core.modCur_first (k : Core) (f : Bank → Bank) : (k.modCur f).first = k.first := by simp [Core.modCur]
theorem Core.modCur_id (k : Core) : k.modCur (fun b => b) = k := by simp [Core.modCur, Core.cur]

/-! ## Issue -/

@[simp] theorem State.ready_core (s : State) (c : CoreId) : (s.ready c).core c = (s.core c).begun := by simp [State.ready]
@[simp] theorem Core.begun_fresh (k : Core) : k.begun.fresh = k.fresh := rfl
@[simp] theorem Core.begun_slot (k : Core) : k.begun.slot = k.slot := rfl
@[simp] theorem Core.begun_step1 (k : Core) : k.begun.step1 = k.step1 := rfl
@[simp] theorem Core.begun_pc (k : Core) : k.begun.pc = k.pc := rfl
@[simp] theorem Core.begun_cur (k : Core) : k.begun.cur = k.cur := rfl
@[simp] theorem Core.begun_bank (k : Core) : k.begun.bank = k.bank := rfl
@[simp] theorem Core.begun_lvl (k : Core) : k.begun.lvl = k.lvl := rfl
@[simp] theorem Core.begun_fetchHi (k : Core) : k.begun.fetchHi = k.fetchHi := rfl
@[simp] theorem Core.begun_first (k : Core) : k.begun.first = none := rfl
@[simp] theorem Core.begun_det (k : Core) (c : CoreId) : k.begun.det c = k.det c := rfl

/-- The core after the fetch. -/
theorem State.Issues.after {s s1 : State} {c : CoreId} {len : Nat} (h : s.Issues c len s1) :
    (s1.core c).fresh = false ∧ (s1.core c).slot = none ∧ (s1.core c).step1 = false ∧ (s1.core c).pc = (s.core c).pc
      ∧ (s1.core c).cur = (s.core c).cur ∧ (s1.core c).bank = (s.core c).bank ∧ (s1.core c).lvl = (s.core c).lvl
      ∧ (s1.core c).fetchHi = (s.core c).fetchHi ∧ (s1.core c).first = none := by
  obtain ⟨-, -, -, h1, h2, h3, -, -, -, h4, -⟩ := h
  rw [State.ready_core] at h4
  refine ⟨?_, ?_, ?_, ?_, ?_, ?_, ?_, ?_, ?_⟩ <;> rw [h4] <;> first | exact h1 | exact h2 | exact h3 | rfl

/-- It is no locked pair's. -/
theorem State.Issues.unlocked {s s1 : State} {c : CoreId} {len : Nat} (h : s.Issues c len s1) : s1.locked c = false := by
  obtain ⟨-, -, -, -, -, -, -, -, -, -, h⟩ := h; exact h

/-- What a core that issues runs: the instruction's causes of a trap in their order, then what it does. -/
theorem State.Issues.with {s s1 : State} {c : CoreId} {len : Nat} (h : s.Issues c len s1) (noSlot ill : Bool) (lvl bytes : Nat)
    (fin : Core → State → State) (body : State → Res Unit) :
    s.issueWith c len noSlot ill lvl bytes fin body
      = match (if ill then .trap s1 ⟨1, w32 bytes, false⟩ else if (s.core c).lvl < lvl then .trap s1 ⟨2, w32 bytes, false⟩ else body s1 : Res Unit) with
        | .ok s2 _ => fin (s.core c).begun s2
        | .trap s2 t => s.refuses s2 c t
        | .stall s2 => s2.revert c (s.core c) := by
  have f1 := h.after.1
  obtain ⟨g1, g2, g3, g4, g5, g6, g7, g8, g9, -⟩ := h
  have hf : s1.fetched c = s1 := by unfold State.fetched; rw [f1]; rfl
  have hr : s.modCore c (fun _ => (s.core c).begun) = s.ready c := s.modCore_congr c _ Core.begun rfl
  unfold State.issueWith State.refuses
  simp only [g1, g2, g3, g5, hr, g9, Res.bind, hf, State.ready_core, Core.begun_fetchHi, Core.begun_pc, Core.begun_slot, Core.begun_lvl,
    Bool.not_true, Bool.false_eq_true, if_false, Option.isSome_none, Bool.and_false]
  all_goals
    generalize (if ill = true then _ else _ : Res Unit) = r
    cases r <;> rfl

/-- What it notes for a pair with the next instruction (R257). -/
theorem State.leads_of {s : State} {c : CoreId} {k : Core} {own : Bool} (g3 : (s.core c).det c = false) (g5 : (s.core c).slot = none)
    (hk : k.slot = none) (ho : (match k.first with | some (_, o) => o | none => false) = own) :
    k.mayLead c (s.core c).begun (s.pairHere c) = { k with first := s.leads c own } := by
  unfold Core.mayLead State.leads
  rw [Core.begun_det, g3, Core.begun_slot, g5, hk, ← ho]
  cases s.pairHere c <;> rfl

/-- Neither a single step nor a locked pair ends an instruction. -/
theorem State.ends_plain {t : State} {c : CoreId} (a : t.locked c = false) (b : (t.core c).step1 = false) : (t.stepHalt c).mirror c = t := by
  unfold State.stepHalt
  rw [b]
  simp only [Bool.false_eq_true, if_false]
  unfold State.mirror
  rw [a]; rfl

/-- An instruction whose effect is the next state `s2` retires: with `adv` the program counter moves past it. -/
theorem State.issue_ok {s s1 s2 : State} {c : CoreId} {len : Nat} (h : s.Issues c len s1) (noSlot adv : Bool) (lvl bytes : Nat) (own : Bool)
    (body : State → Res Unit) (hl : lvl ≤ (s.core c).lvl) (hb : body s1 = .ok s2 ()) (h1 : (s2.core c).slot = none)
    (h2 : (s2.core c).step1 = false) (h3 : s2.locked c = false)
    (h4 : (match (s2.core c).first with | some (_, o) => o | none => false) = own) :
    s.issue c len noSlot adv false lvl bytes body
      = s2.modCore c (fun k => { k with lastPc := coreVa c (s.core c).fetchHi (s.core c).pc
                                        pc := if adv then k.pc + BitVec.ofNat 32 len else k.pc
                                        first := s.leads c own }) := by
  have g3 := h.2.2.1
  have g5 := h.2.2.2.2.1
  unfold State.issue
  rw [h.with]
  simp only [Bool.false_eq_true, if_false, if_neg (Nat.not_lt.2 hl), hb]
  unfold State.retired State.retireAt
  cases adv with
  | true =>
    simp only [if_true, State.modCore_modCore, Core.begun_fetchHi, Core.begun_pc]
    rw [s2.modCore_congr c _ (fun k : Core => { k with lastPc := coreVa c (s.core c).fetchHi (s.core c).pc
                                                       pc := k.pc + BitVec.ofNat 32 len
                                                       first := s.leads c own }) (by
      simp only [Core.advancePc, h1]
      exact State.leads_of g3 g5 rfl h4)]
    exact State.ends_plain (by simpa using h3) (by rw [State.core_modCore]; exact h2)
  | false =>
    simp only [Bool.false_eq_true, if_false, State.modCore_modCore, Core.begun_fetchHi, Core.begun_pc]
    rw [s2.modCore_congr c _ (fun k : Core => { k with lastPc := coreVa c (s.core c).fetchHi (s.core c).pc
                                                       first := s.leads c own }) (State.leads_of g3 g5 (by exact h1) (by exact h4))]
    exact State.ends_plain (by simpa using h3) (by rw [State.core_modCore]; exact h2)

/-! ## Operands -/

@[simp] theorem State.await_none (s : State) (c : CoreId) : s.await c none = .ok s () := rfl

theorem State.awaitCells_ok (s : State) (c : CoreId) (l : List Nat)
    (h : ∀ i ∈ l, ∀ x, (s.core c).cur.cells[i]? = some x → x.pend = none) : s.awaitCells c l = .ok s () := by
  induction l with
  | nil => rfl
  | cons i t ih =>
    have ht := ih (fun j hj => h j (by simp [hj]))
    unfold State.awaitCells
    cases hx : (s.core c).cur.cells[i]? with
    | none => simpa only [State.await_none, Res.bind] using ht
    | some x =>
      have := h i (by simp) x hx
      simpa only [this, State.await_none, Res.bind] using ht

theorem Core.Operands.length {k : Core} {l : List Word} (h : k.Operands l) : l.length ≤ k.cur.cells.length := by
  have := congrArg List.length h
  simp only [List.length_take, List.length_map] at this
  omega

/-- Cached operands are read. -/
theorem State.readCells_ok (s : State) (c : CoreId) (l : List Word) (h : (s.core c).Operands l) :
    s.readCells c l.length = .ok s l := by
  have hlen := h.length
  unfold State.readCells State.needCells
  simp only [Nat.sub_eq_zero_of_le hlen, State.fillCells, Res.bind]
  rw [State.awaitCells_ok]
  · simp only
    have : ((s.core c).cur.cells.take l.length).map (fun x => x.val) = l := by
      rw [h, List.map_map]; exact List.map_id' l
    rw [this]
  · intro i hi x hx
    have hi' : i < l.length := List.mem_range.1 hi
    have h2 : ((s.core c).cur.cells.take l.length)[i]? = some x := by
      rw [List.getElem?_take, if_pos hi']; exact hx
    rw [h] at h2
    rw [List.getElem?_map] at h2
    cases hl : l[i]? with
    | none => rw [hl] at h2; cases h2
    | some v => rw [hl] at h2; cases h2; rfl

/-- Cached operands are popped. -/
theorem State.popCells_ok (s : State) (c : CoreId) (l : List Word) (h : (s.core c).Operands l) :
    s.popCells c l.length = .ok (s.dropCells c l.length) l := by
  unfold State.popCells
  rw [s.readCells_ok c l h]
  rfl

/-- Results are pushed where they fit into the 16 cached cells. -/
theorem State.pushCells_ok (s : State) (c : CoreId) (l : List Cell) (h : l.length + (s.core c).cur.cells.length ≤ 16) (h0 : 0 < l.length) :
    s.pushCells c l = .ok (s.modCore c (fun k => k.modCur (fun b => { b with cells := l.reverse ++ b.cells }))) () := by
  unfold State.pushCells
  have e : s.modStack c (s.core c).bank (fun x => { x with cells := l.reverse ++ x.cells })
      = s.modCore c (fun k => k.modCur (fun b => { b with cells := l.reverse ++ b.cells })) := by
    unfold State.modStack State.modCore
    rfl
  simp only [e]
  cases hn : l.length with
  | zero => omega
  | succ n =>
    unfold State.spillCells
    have hc : ((s.modCore c (fun k => k.modCur (fun b => { b with cells := l.reverse ++ b.cells }))).core c).bankOf (s.core c).bank
        = { (s.core c).cur with cells := l.reverse ++ (s.core c).cur.cells } := by
      rw [State.core_modCore, Core.modCur_bankOf]
    simp only [hc]
    rw [if_pos]
    simp only [List.length_append, List.length_reverse]
    omega

/-- An operand list is the same after the fetch. -/
theorem State.Issues.operands {s s1 : State} {c : CoreId} {len : Nat} (h : s.Issues c len s1) {l : List Word}
    (ho : (s.core c).Operands l) : (s1.core c).Operands l := by
  unfold Core.Operands at ho ⊢
  rw [h.after.2.2.2.2.1]; exact ho

/-- So is the number of cached cells. -/
theorem State.Issues.cells {s s1 : State} {c : CoreId} {len : Nat} (h : s.Issues c len s1) : (s1.core c).cur.cells.length ≤ 16 := by
  rw [h.after.2.2.2.2.1]; exact h.2.2.2.2.2.2.2.1

/-- An instruction that pops operands and pushes one value. -/
theorem State.operate_ok (s : State) (c : CoreId) (l : List Word) (f : Word → List Word → List Word × Word) (r fl : Word)
    (h : (s.core c).Operands l) (h0 : 0 < l.length) (h16 : (s.core c).cur.cells.length ≤ 16) (hf : f (s.core c).cur.fcsr l = ([r], fl)) :
    s.operate c l.length f = .ok (s.modCore c (fun k => k.modCur (fun b =>
      { b with cells := ⟨r, none⟩ :: b.cells.drop l.length, fcsr := b.fcsr ||| fl }))) () := by
  have hlen := h.length
  unfold State.operate
  rw [s.popCells_ok c l h]
  simp only [Res.bind, State.dropCells, State.core_modCore, Core.modCur_cur, hf, State.addFlags, State.modCore_modCore,
    Core.modCur_modCur, State.pushVals]
  rw [State.pushCells_ok _ _ _ (by
    simp only [State.core_modCore, Core.modCur_cur, List.length_drop, List.length_map, List.length_cons, List.length_nil]
    omega) (by simp)]
  simp

/-- The same as a whole instruction. -/
theorem State.plain_operate_ok {s s1 : State} {c : CoreId} {len : Nat} (h : s.Issues c len s1) (l : List Word)
    (f : Word → List Word → List Word × Word) (r fl : Word) (ho : (s.core c).Operands l) (h0 : 0 < l.length)
    (hf : f (s.core c).cur.fcsr l = ([r], fl)) :
    s.plain c len (fun s => s.operate c l.length f) = s.retires s1 c len (fun b =>
      { b with cells := ⟨r, none⟩ :: b.cells.drop l.length, fcsr := b.fcsr ||| fl }) := by
  have ha := h.after
  unfold State.plain
  rw [State.issue_ok h false true 0 0 false _ (Nat.zero_le _)
    (s1.operate_ok c l f r fl (h.operands ho) h0 h.cells (by rw [ha.2.2.2.2.1]; exact hf)) (by simp [ha.2.1]) (by simp [ha.2.2.1])
    (by simpa using h.unlocked) (by simp [ha.2.2.2.2.2.2.2.2])]
  unfold State.retires State.retiresBy
  rw [State.modCore_modCore]
  refine State.modCore_congr _ _ _ _ ?_
  simp [ha.2.2.2.1, ha.2.2.2.2.2.2.2.1]

end Sys2Proof.Machine
end

