-- ==== Sys2Proof/Laws/Issue.lean ====
section
/-! SUPPORT. What the operand forms of the instructions leave, for a core that issues: one lemma for each form. -/

namespace Sys2Proof.Machine

/-- The retiring instruction's change of its bank depends on the bank alone. -/
theorem State.retires_congr {s s1 : State} {c : CoreId} {len : Nat} (h : s.Issues c len s1) (f g : Bank → Bank)
    (e : f (s.core c).cur = g (s.core c).cur) : s.retires s1 c len f = s.retires s1 c len g := by
  have ha := h.after.2.2.2.2.1
  unfold State.retires State.retiresBy
  refine State.modCore_congr _ _ _ _ ?_
  unfold Core.modCur
  simp only [ha, e]

/-- (a b → c). -/
theorem State.binary_ok {s s1 : State} {c : CoreId} {a b : Word} (h : s.Issues c 1 s1) (ho : (s.core c).Operands [b, a])
    (f : Word → Word → Word) (r : Word) (hr : f a b = r) :
    s.binary c f = s.retires s1 c 1 (fun k => { k with cells := ⟨r, none⟩ :: k.cells.drop 2 }) := by
  refine (State.plain_operate_ok h [b, a] _ r 0 ho (by simp) (by simp [hr])).trans ?_
  simp

/-- (a → c). -/
theorem State.unary_ok {s s1 : State} {c : CoreId} {a : Word} {n : Nat} (h : s.Issues c n s1) (ho : (s.core c).Operands [a])
    (f : Word → Word) (r : Word) (hr : f a = r) :
    s.unary c n f = s.retires s1 c n (fun k => { k with cells := ⟨r, none⟩ :: k.cells.drop 1 }) := by
  refine (State.plain_operate_ok h [a] _ r 0 ho (by simp) (by simp [hr])).trans ?_
  simp

/-- A form without a reserved encoding issues as a plain one. -/
theorem State.issue_plain (s : State) (c : CoreId) (len bytes : Nat) (ill : Bool) (h : ill = false) (body : State → Res Unit) :
    s.issue c len false true ill 0 bytes body = s.plain c len body := by
  rw [h]; rfl

/-- A shift by an immediate. -/
theorem State.shiftImm_ok {s s1 : State} {c : CoreId} {a : Word} {n : BitVec 8} (h : s.Issues c 2 s1) (ho : (s.core c).Operands [a])
    (op : Nat) (f : Word → Nat → Word) (r : Word) (hn : n.toNat < 32) (hr : f a n.toNat = r) :
    s.shiftImm c op n f = s.retires s1 c 2 (fun k => { k with cells := ⟨r, none⟩ :: k.cells.drop 1 }) := by
  unfold State.shiftImm
  rw [State.issue_plain _ _ _ _ _ (by simp; omega)]
  refine (State.plain_operate_ok h [a] _ r 0 ho (by simp) (by simp [hr])).trans ?_
  simp

/-- (a → c) under `FCSR`. -/
theorem State.unaryF_ok {s s1 : State} {c : CoreId} {a : Word} (h : s.Issues c 1 s1) (ho : (s.core c).Operands [a])
    (f : Word → Word → Flagged) :
    s.unaryF c f = s.retires s1 c 1 (fun k => k.results 1 (f k.fcsr a).1 (f k.fcsr a).2) :=
  (State.plain_operate_ok h [a] _ _ _ ho (by simp) rfl).trans (State.retires_congr h _ _ rfl)

/-- (a b → c) under `FCSR`. -/
theorem State.binaryF_ok {s s1 : State} {c : CoreId} {a b : Word} (h : s.Issues c 1 s1) (ho : (s.core c).Operands [b, a])
    (f : Word → Word → Word → Flagged) :
    s.binaryF c f = s.retires s1 c 1 (fun k => k.results 2 (f k.fcsr a b).1 (f k.fcsr a b).2) :=
  (State.plain_operate_ok h [b, a] _ _ _ ho (by simp) rfl).trans (State.retires_congr h _ _ rfl)

/-- (a b c → d) under `FCSR`. -/
theorem State.ternaryF_ok {s s1 : State} {c : CoreId} {x y z : Word} (h : s.Issues c 1 s1) (ho : (s.core c).Operands [z, y, x])
    (f : Word → Word → Word → Word → Flagged) :
    s.ternaryF c f = s.retires s1 c 1 (fun k => k.results 3 (f k.fcsr x y z).1 (f k.fcsr x y z).2) :=
  (State.plain_operate_ok h [z, y, x] _ _ _ ho (by simp) rfl).trans (State.retires_congr h _ _ rfl)

/-- An instruction that only changes the bank in use. -/
theorem State.plain_bank_ok {s s1 : State} {c : CoreId} {len : Nat} (h : s.Issues c len s1) (body : State → Res Unit) (f : Bank → Bank)
    (hb : body s1 = .ok (s1.modCore c (fun k => k.modCur f)) ()) : s.plain c len body = s.retires s1 c len f := by
  have ha := h.after
  unfold State.plain
  rw [State.issue_ok h false true 0 0 false _ (Nat.zero_le _) hb (by simp [ha.2.1]) (by simp [ha.2.2.1]) (by simpa using h.unlocked)
    (by simp [ha.2.2.2.2.2.2.2.2])]
  unfold State.retires State.retiresBy
  rw [State.modCore_modCore]
  refine State.modCore_congr _ _ _ _ ?_
  simp [ha.2.2.2.1, ha.2.2.2.2.2.2.2.1]

/-- No instruction beyond its own fetch. -/
theorem State.plain_nop_ok {s s1 : State} {c : CoreId} {len : Nat} (h : s.Issues c len s1) :
    s.plain c len (fun s => .ok s ()) = s.retires s1 c len id := by
  refine State.plain_bank_ok h _ id ?_
  rw [show (fun k : Core => k.modCur id) = fun k => k from funext Core.modCur_id, State.modCore_id]

/-- Cells that are moved or copied, where the result fits into the cached cells. -/
theorem State.shuffle_ok {s s1 : State} {c : CoreId} {len need bytes : Nat} {ill : Bool} {reads : List Nat} {f : List Cell → List Cell}
    (h : s.Issues c len s1) (hi : ill = false) (hn : need ≤ (s.core c).cur.cells.length) (hf : (f (s.core c).cur.cells).length ≤ 16)
    (hr : ∀ i ∈ reads, ∀ x, (s.core c).cur.cells[i]? = some x → x.pend = none) :
    s.shuffle c len need ill bytes reads f = s.retires s1 c len (fun k => { k with cells := f k.cells }) := by
  have ha := h.after.2.2.2.2.1
  unfold State.shuffle
  rw [State.issue_plain _ _ _ _ _ hi]
  refine State.plain_bank_ok h _ _ ?_
  unfold State.needCells
  simp only [ha, Nat.sub_eq_zero_of_le hn, State.fillCells, Res.bind]
  rw [State.awaitCells_ok _ _ _ (by rw [ha]; exact hr)]
  simp only [State.spillCells]
  rw [if_pos]
  rw [State.core_modCore, Core.modCur_bank, Core.modCur_bankOf, ha]
  exact hf

/-- A literal, where there is room. -/
theorem State.literal_ok {s s1 : State} {c : CoreId} {len : Nat} (h : s.Issues c len s1) (v : Word) (hl : (s.core c).cur.cells.length < 16) :
    s.literal c len v = s.retires s1 c len (fun k => { k with cells := ⟨v, none⟩ :: k.cells }) := by
  have ha := h.after.2.2.2.2.1
  unfold State.literal
  refine State.plain_bank_ok h _ _ ?_
  unfold State.pushVals
  rw [State.pushCells_ok _ _ _ (by rw [ha]; simp only [List.map_cons, List.map_nil, List.length_cons, List.length_nil]; omega) (by simp)]
  simp

/-- An instruction that is refused as it issues. -/
theorem State.issue_illegal {s s1 : State} {c : CoreId} {len : Nat} (h : s.Issues c len s1) (noSlot adv : Bool) (lvl bytes : Nat)
    (body : State → Res Unit) : s.issue c len noSlot adv true lvl bytes body = s.refuses s1 c ⟨1, w32 bytes, false⟩ := by
  unfold State.issue
  rw [h.with]
  rfl

/-- A pending result and the cells above it, where there is room. -/
theorem State.pushPending_ok (s : State) (c : CoreId) (v : Word) (above : List Word) (h : (s.core c).cur.cells.length + 1 + above.length ≤ 16) :
    s.pushPending c v above = .ok (s.modCore c (fun k => { k.modCur (fun b => { b with cells := above.reverse.map (fun a => ⟨a, none⟩) ++ ⟨0, some k.nextId⟩ :: b.cells }) with
      pend := k.pend ++ [⟨k.nextId, some v, false⟩], nextId := k.nextId + 1 })) () := by
  unfold State.pushPending Core.pending
  simp only
  rw [State.pushCells_ok]
  · simp only [State.modCore_modCore]
    congr 1
    refine State.modCore_congr _ _ _ _ ?_
    unfold Core.modCur Core.cur Core.setBank Core.bankOf
    cases (s.core c).bank <;> simp
  · simp only [State.core_modCore, List.length_cons, List.length_map]
    show _ + (s.core c).cur.cells.length ≤ 16
    omega
  · simp

/-- An instruction whose body succeeds without a slot and without a single step retires. -/
theorem State.plain_ok {s s1 s2 : State} {c : CoreId} {len : Nat} (h : s.Issues c len s1) (own : Bool) (body : State → Res Unit)
    (hb : body s1 = .ok s2 ()) (h1 : (s2.core c).slot = none) (h2 : (s2.core c).step1 = false) (h3 : s2.locked c = false)
    (h4 : (match (s2.core c).first with | some (_, o) => o | none => false) = own) :
    s.plain c len body = s2.modCore c (fun k => { k with lastPc := coreVa c (s.core c).fetchHi (s.core c).pc
                                                         pc := k.pc + BitVec.ofNat 32 len
                                                         first := s.leads c own }) := by
  unfold State.plain
  rw [State.issue_ok h false true 0 0 own _ (Nat.zero_le _) hb h1 h2 h3 h4]
  simp

/-- An instruction whose result is on its way. -/
theorem State.pend_ok {s s1 : State} {c : CoreId} (h : s.Issues c 1 s1) (n : Nat) (l : List Word) (hn : l.length = n) (h0 : 0 < n) (ho : (s.core c).Operands l) (f : Word → List Word → Flagged) :
    s.pendingF c n f = s.retiresPending s1 c 1 n (f (s.core c).cur.fcsr l).1 (f (s.core c).cur.fcsr l).2 [] false := by
  subst hn
  have ha := h.after
  have hl := (h.operands ho).length
  unfold State.pendingF
  rw [State.plain_ok h false _ (s2 := (s1.modCore c (fun k => { k.modCur (fun b => { b with cells := ⟨0, some k.nextId⟩ :: b.cells.drop l.length, fcsr := b.fcsr ||| (f (s.core c).cur.fcsr l).2 }) with
      pend := k.pend ++ [⟨k.nextId, some (f (s.core c).cur.fcsr l).1, false⟩], nextId := k.nextId + 1 })))]
  · unfold State.retiresPending State.retiresBy
    rw [State.modCore_modCore]
    refine State.modCore_congr _ _ _ _ ?_
    simp [ha.2.2.2.1, ha.2.2.2.2.2.2.2.1]
  · rw [s1.popCells_ok c l (h.operands ho)]
    simp only [Res.bind, State.dropCells, State.addFlags, State.modCore_modCore, State.core_modCore, Core.modCur_cur, ha.2.2.2.2.1, Core.modCur_modCur]
    rw [State.pushPending_ok]
    · simp only [State.modCore_modCore, Core.modCur_modCur]
      congr 1
      refine State.modCore_congr _ _ _ _ ?_
      unfold Core.modCur Core.cur Core.setBank Core.bankOf
      cases (s1.core c).bank <;> simp
    · have := h.cells; simp; omega
  · simp [ha.2.1]
  · simp [ha.2.2.1]
  · simpa using h.unlocked
  · simp [ha.2.2.2.2.2.2.2.2]

/-- An instruction whose body traps. -/
theorem State.issue_trap {s s1 s2 : State} {c : CoreId} {len : Nat} (h : s.Issues c len s1) (noSlot adv : Bool) (lvl bytes : Nat)
    (body : State → Res Unit) (t : Trap) (hl : lvl ≤ (s.core c).lvl) (hb : body s1 = .trap s2 t) : s.issue c len noSlot adv false lvl bytes body = s.refuses s2 c t := by
  unfold State.issue
  rw [h.with]
  simp only [Bool.false_eq_true, if_false, if_neg (Nat.not_lt.2 hl), hb]

/-- What a refused instruction leaves: the trap is taken from the core as it was before the fetch. -/
theorem State.refuses_core {s s1 : State} {c : CoreId} {len : Nat} (h : s.Issues c len s1) (t : Trap) :
    s.refuses s1 c t = ((s1.revert c (s.core c).begun).syncTrap c t.code t.tval (s.core c).pc t.toM (pbkOf c (s.core c).bank)
      (some ⟨false, none, ((s1.revert c (s.core c).begun).core c).snap⟩)).mirror c := by
  unfold State.refuses State.takeTrap
  rw [State.ready_core]
  have hs : ((s1.revert c (s.core c).begun).core c).slot = none := by
    unfold State.revert; rw [State.core_modCore]; exact h.2.2.2.2.1
  have hp : ((s1.revert c (s.core c).begun).core c).pc = (s.core c).pc := by unfold State.revert; rw [State.core_modCore]; rfl
  have hb : ((s1.revert c (s.core c).begun).core c).bank = (s.core c).bank := by unfold State.revert; rw [State.core_modCore]; rfl
  simp only [hs, hp, hb]

end Sys2Proof.Machine
end

