-- ==== Sys2Proof/Laws/State.lean ====
section
/-! SUPPORT. Each primitive update of the state leaves every field but its own: one lemma per field, true by definition. -/

namespace Sys2Proof.Machine

/-! ### `setReg`: a register is set -/

@[simp] theorem State.setReg_pending (s : State) (p : PageId) (off : Nat) (v : Word) : (s.setReg p off v).pending = s.pending := rfl
@[simp] theorem State.setReg_resp (s : State) (p : PageId) (off : Nat) (v : Word) : (s.setReg p off v).resp = s.resp := rfl
@[simp] theorem State.setReg_free (s : State) (p : PageId) (off : Nat) (v : Word) : (s.setReg p off v).free = s.free := rfl
@[simp] theorem State.setReg_time (s : State) (p : PageId) (off : Nat) (v : Word) : (s.setReg p off v).time = s.time := rfl
@[simp] theorem State.setReg_hot (s : State) (p : PageId) (off : Nat) (v : Word) : (s.setReg p off v).hot = s.hot := rfl
@[simp] theorem State.setReg_snaps (s : State) (p : PageId) (off : Nat) (v : Word) : (s.setReg p off v).snaps = s.snaps := rfl
@[simp] theorem State.setReg_mem (s : State) (p : PageId) (off : Nat) (v : Word) : (s.setReg p off v).mem = s.mem := rfl
@[simp] theorem State.setReg_clusters (s : State) (p : PageId) (off : Nat) (v : Word) : (s.setReg p off v).clusters = s.clusters := rfl
@[simp] theorem State.setReg_cores (s : State) (p : PageId) (off : Nat) (v : Word) : (s.setReg p off v).cores = s.cores := rfl
@[simp] theorem State.setReg_pairs (s : State) (p : PageId) (off : Nat) (v : Word) : (s.setReg p off v).pairs = s.pairs := rfl
@[simp] theorem State.setReg_irq (s : State) (p : PageId) (off : Nat) (v : Word) : (s.setReg p off v).irq = s.irq := rfl
@[simp] theorem State.setReg_ecc (s : State) (p : PageId) (off : Nat) (v : Word) : (s.setReg p off v).ecc = s.ecc := rfl
@[simp] theorem State.setReg_l2ecc (s : State) (p : PageId) (off : Nat) (v : Word) : (s.setReg p off v).l2ecc = s.l2ecc := rfl
@[simp] theorem State.setReg_flsMark (s : State) (p : PageId) (off : Nat) (v : Word) : (s.setReg p off v).flsMark = s.flsMark := rfl
@[simp] theorem State.setReg_flash (s : State) (p : PageId) (off : Nat) (v : Word) : (s.setReg p off v).flash = s.flash := rfl
@[simp] theorem State.setReg_fbPend (s : State) (p : PageId) (off : Nat) (v : Word) : (s.setReg p off v).fbPend = s.fbPend := rfl
@[simp] theorem State.setReg_remap (s : State) (p : PageId) (off : Nat) (v : Word) : (s.setReg p off v).remap = s.remap := rfl
@[simp] theorem State.setReg_remapPend (s : State) (p : PageId) (off : Nat) (v : Word) : (s.setReg p off v).remapPend = s.remapPend := rfl
@[simp] theorem State.setReg_btAt (s : State) (p : PageId) (off : Nat) (v : Word) : (s.setReg p off v).btAt = s.btAt := rfl
@[simp] theorem State.setReg_flsLines (s : State) (p : PageId) (off : Nat) (v : Word) : (s.setReg p off v).flsLines = s.flsLines := rfl
@[simp] theorem State.setReg_thrHit (s : State) (p : PageId) (off : Nat) (v : Word) : (s.setReg p off v).thrHit = s.thrHit := rfl
@[simp] theorem State.setReg_dma (s : State) (p : PageId) (off : Nat) (v : Word) : (s.setReg p off v).dma = s.dma := rfl
@[simp] theorem State.setReg_dmaGrant (s : State) (p : PageId) (off : Nat) (v : Word) : (s.setReg p off v).dmaGrant = s.dmaGrant := rfl
@[simp] theorem State.setReg_bridge (s : State) (p : PageId) (off : Nat) (v : Word) : (s.setReg p off v).bridge = s.bridge := rfl
@[simp] theorem State.setReg_power (s : State) (p : PageId) (off : Nat) (v : Word) : (s.setReg p off v).power = s.power := rfl
@[simp] theorem State.setReg_guards (s : State) (p : PageId) (off : Nat) (v : Word) : (s.setReg p off v).guards = s.guards := rfl
@[simp] theorem State.setReg_bcast (s : State) (p : PageId) (off : Nat) (v : Word) : (s.setReg p off v).bcast = s.bcast := rfl
@[simp] theorem State.setReg_stopLow (s : State) (p : PageId) (off : Nat) (v : Word) : (s.setReg p off v).stopLow = s.stopLow := rfl
@[simp] theorem State.setReg_sec (s : State) (p : PageId) (off : Nat) (v : Word) : (s.setReg p off v).sec = s.sec := rfl
@[simp] theorem State.setReg_cxl (s : State) (p : PageId) (off : Nat) (v : Word) : (s.setReg p off v).cxl = s.cxl := rfl
@[simp] theorem State.setReg_cmd (s : State) (p : PageId) (off : Nat) (v : Word) : (s.setReg p off v).cmd = s.cmd := rfl
@[simp] theorem State.setReg_trace (s : State) (p : PageId) (off : Nat) (v : Word) : (s.setReg p off v).trace = s.trace := rfl
@[simp] theorem State.setReg_fab (s : State) (p : PageId) (off : Nat) (v : Word) : (s.setReg p off v).fab = s.fab := rfl
@[simp] theorem State.setReg_msixOut (s : State) (p : PageId) (off : Nat) (v : Word) : (s.setReg p off v).msixOut = s.msixOut := rfl
@[simp] theorem State.setReg_viralOut (s : State) (p : PageId) (off : Nat) (v : Word) : (s.setReg p off v).viralOut = s.viralOut := rfl

/-! ### `setFld`: a field of a register is set -/

@[simp] theorem State.setFld_pending (s : State) (p : PageId) (off hi lo v : Nat) : (s.setFld p off hi lo v).pending = s.pending := rfl
@[simp] theorem State.setFld_resp (s : State) (p : PageId) (off hi lo v : Nat) : (s.setFld p off hi lo v).resp = s.resp := rfl
@[simp] theorem State.setFld_free (s : State) (p : PageId) (off hi lo v : Nat) : (s.setFld p off hi lo v).free = s.free := rfl
@[simp] theorem State.setFld_time (s : State) (p : PageId) (off hi lo v : Nat) : (s.setFld p off hi lo v).time = s.time := rfl
@[simp] theorem State.setFld_hot (s : State) (p : PageId) (off hi lo v : Nat) : (s.setFld p off hi lo v).hot = s.hot := rfl
@[simp] theorem State.setFld_snaps (s : State) (p : PageId) (off hi lo v : Nat) : (s.setFld p off hi lo v).snaps = s.snaps := rfl
@[simp] theorem State.setFld_mem (s : State) (p : PageId) (off hi lo v : Nat) : (s.setFld p off hi lo v).mem = s.mem := rfl
@[simp] theorem State.setFld_clusters (s : State) (p : PageId) (off hi lo v : Nat) : (s.setFld p off hi lo v).clusters = s.clusters := rfl
@[simp] theorem State.setFld_cores (s : State) (p : PageId) (off hi lo v : Nat) : (s.setFld p off hi lo v).cores = s.cores := rfl
@[simp] theorem State.setFld_pairs (s : State) (p : PageId) (off hi lo v : Nat) : (s.setFld p off hi lo v).pairs = s.pairs := rfl
@[simp] theorem State.setFld_irq (s : State) (p : PageId) (off hi lo v : Nat) : (s.setFld p off hi lo v).irq = s.irq := rfl
@[simp] theorem State.setFld_ecc (s : State) (p : PageId) (off hi lo v : Nat) : (s.setFld p off hi lo v).ecc = s.ecc := rfl
@[simp] theorem State.setFld_l2ecc (s : State) (p : PageId) (off hi lo v : Nat) : (s.setFld p off hi lo v).l2ecc = s.l2ecc := rfl
@[simp] theorem State.setFld_flsMark (s : State) (p : PageId) (off hi lo v : Nat) : (s.setFld p off hi lo v).flsMark = s.flsMark := rfl
@[simp] theorem State.setFld_flash (s : State) (p : PageId) (off hi lo v : Nat) : (s.setFld p off hi lo v).flash = s.flash := rfl
@[simp] theorem State.setFld_fbPend (s : State) (p : PageId) (off hi lo v : Nat) : (s.setFld p off hi lo v).fbPend = s.fbPend := rfl
@[simp] theorem State.setFld_remap (s : State) (p : PageId) (off hi lo v : Nat) : (s.setFld p off hi lo v).remap = s.remap := rfl
@[simp] theorem State.setFld_remapPend (s : State) (p : PageId) (off hi lo v : Nat) : (s.setFld p off hi lo v).remapPend = s.remapPend := rfl
@[simp] theorem State.setFld_btAt (s : State) (p : PageId) (off hi lo v : Nat) : (s.setFld p off hi lo v).btAt = s.btAt := rfl
@[simp] theorem State.setFld_flsLines (s : State) (p : PageId) (off hi lo v : Nat) : (s.setFld p off hi lo v).flsLines = s.flsLines := rfl
@[simp] theorem State.setFld_thrHit (s : State) (p : PageId) (off hi lo v : Nat) : (s.setFld p off hi lo v).thrHit = s.thrHit := rfl
@[simp] theorem State.setFld_dma (s : State) (p : PageId) (off hi lo v : Nat) : (s.setFld p off hi lo v).dma = s.dma := rfl
@[simp] theorem State.setFld_dmaGrant (s : State) (p : PageId) (off hi lo v : Nat) : (s.setFld p off hi lo v).dmaGrant = s.dmaGrant := rfl
@[simp] theorem State.setFld_bridge (s : State) (p : PageId) (off hi lo v : Nat) : (s.setFld p off hi lo v).bridge = s.bridge := rfl
@[simp] theorem State.setFld_power (s : State) (p : PageId) (off hi lo v : Nat) : (s.setFld p off hi lo v).power = s.power := rfl
@[simp] theorem State.setFld_guards (s : State) (p : PageId) (off hi lo v : Nat) : (s.setFld p off hi lo v).guards = s.guards := rfl
@[simp] theorem State.setFld_bcast (s : State) (p : PageId) (off hi lo v : Nat) : (s.setFld p off hi lo v).bcast = s.bcast := rfl
@[simp] theorem State.setFld_stopLow (s : State) (p : PageId) (off hi lo v : Nat) : (s.setFld p off hi lo v).stopLow = s.stopLow := rfl
@[simp] theorem State.setFld_sec (s : State) (p : PageId) (off hi lo v : Nat) : (s.setFld p off hi lo v).sec = s.sec := rfl
@[simp] theorem State.setFld_cxl (s : State) (p : PageId) (off hi lo v : Nat) : (s.setFld p off hi lo v).cxl = s.cxl := rfl
@[simp] theorem State.setFld_cmd (s : State) (p : PageId) (off hi lo v : Nat) : (s.setFld p off hi lo v).cmd = s.cmd := rfl
@[simp] theorem State.setFld_trace (s : State) (p : PageId) (off hi lo v : Nat) : (s.setFld p off hi lo v).trace = s.trace := rfl
@[simp] theorem State.setFld_fab (s : State) (p : PageId) (off hi lo v : Nat) : (s.setFld p off hi lo v).fab = s.fab := rfl
@[simp] theorem State.setFld_msixOut (s : State) (p : PageId) (off hi lo v : Nat) : (s.setFld p off hi lo v).msixOut = s.msixOut := rfl
@[simp] theorem State.setFld_viralOut (s : State) (p : PageId) (off hi lo v : Nat) : (s.setFld p off hi lo v).viralOut = s.viralOut := rfl

/-! ### `setBit`: a bit of a register is set -/

@[simp] theorem State.setBit_pending (s : State) (p : PageId) (off i : Nat) (b : Bool) : (s.setBit p off i b).pending = s.pending := rfl
@[simp] theorem State.setBit_resp (s : State) (p : PageId) (off i : Nat) (b : Bool) : (s.setBit p off i b).resp = s.resp := rfl
@[simp] theorem State.setBit_free (s : State) (p : PageId) (off i : Nat) (b : Bool) : (s.setBit p off i b).free = s.free := rfl
@[simp] theorem State.setBit_time (s : State) (p : PageId) (off i : Nat) (b : Bool) : (s.setBit p off i b).time = s.time := rfl
@[simp] theorem State.setBit_hot (s : State) (p : PageId) (off i : Nat) (b : Bool) : (s.setBit p off i b).hot = s.hot := rfl
@[simp] theorem State.setBit_snaps (s : State) (p : PageId) (off i : Nat) (b : Bool) : (s.setBit p off i b).snaps = s.snaps := rfl
@[simp] theorem State.setBit_mem (s : State) (p : PageId) (off i : Nat) (b : Bool) : (s.setBit p off i b).mem = s.mem := rfl
@[simp] theorem State.setBit_clusters (s : State) (p : PageId) (off i : Nat) (b : Bool) : (s.setBit p off i b).clusters = s.clusters := rfl
@[simp] theorem State.setBit_cores (s : State) (p : PageId) (off i : Nat) (b : Bool) : (s.setBit p off i b).cores = s.cores := rfl
@[simp] theorem State.setBit_pairs (s : State) (p : PageId) (off i : Nat) (b : Bool) : (s.setBit p off i b).pairs = s.pairs := rfl
@[simp] theorem State.setBit_irq (s : State) (p : PageId) (off i : Nat) (b : Bool) : (s.setBit p off i b).irq = s.irq := rfl
@[simp] theorem State.setBit_ecc (s : State) (p : PageId) (off i : Nat) (b : Bool) : (s.setBit p off i b).ecc = s.ecc := rfl
@[simp] theorem State.setBit_l2ecc (s : State) (p : PageId) (off i : Nat) (b : Bool) : (s.setBit p off i b).l2ecc = s.l2ecc := rfl
@[simp] theorem State.setBit_flsMark (s : State) (p : PageId) (off i : Nat) (b : Bool) : (s.setBit p off i b).flsMark = s.flsMark := rfl
@[simp] theorem State.setBit_flash (s : State) (p : PageId) (off i : Nat) (b : Bool) : (s.setBit p off i b).flash = s.flash := rfl
@[simp] theorem State.setBit_fbPend (s : State) (p : PageId) (off i : Nat) (b : Bool) : (s.setBit p off i b).fbPend = s.fbPend := rfl
@[simp] theorem State.setBit_remap (s : State) (p : PageId) (off i : Nat) (b : Bool) : (s.setBit p off i b).remap = s.remap := rfl
@[simp] theorem State.setBit_remapPend (s : State) (p : PageId) (off i : Nat) (b : Bool) : (s.setBit p off i b).remapPend = s.remapPend := rfl
@[simp] theorem State.setBit_btAt (s : State) (p : PageId) (off i : Nat) (b : Bool) : (s.setBit p off i b).btAt = s.btAt := rfl
@[simp] theorem State.setBit_flsLines (s : State) (p : PageId) (off i : Nat) (b : Bool) : (s.setBit p off i b).flsLines = s.flsLines := rfl
@[simp] theorem State.setBit_thrHit (s : State) (p : PageId) (off i : Nat) (b : Bool) : (s.setBit p off i b).thrHit = s.thrHit := rfl
@[simp] theorem State.setBit_dma (s : State) (p : PageId) (off i : Nat) (b : Bool) : (s.setBit p off i b).dma = s.dma := rfl
@[simp] theorem State.setBit_dmaGrant (s : State) (p : PageId) (off i : Nat) (b : Bool) : (s.setBit p off i b).dmaGrant = s.dmaGrant := rfl
@[simp] theorem State.setBit_bridge (s : State) (p : PageId) (off i : Nat) (b : Bool) : (s.setBit p off i b).bridge = s.bridge := rfl
@[simp] theorem State.setBit_power (s : State) (p : PageId) (off i : Nat) (b : Bool) : (s.setBit p off i b).power = s.power := rfl
@[simp] theorem State.setBit_guards (s : State) (p : PageId) (off i : Nat) (b : Bool) : (s.setBit p off i b).guards = s.guards := rfl
@[simp] theorem State.setBit_bcast (s : State) (p : PageId) (off i : Nat) (b : Bool) : (s.setBit p off i b).bcast = s.bcast := rfl
@[simp] theorem State.setBit_stopLow (s : State) (p : PageId) (off i : Nat) (b : Bool) : (s.setBit p off i b).stopLow = s.stopLow := rfl
@[simp] theorem State.setBit_sec (s : State) (p : PageId) (off i : Nat) (b : Bool) : (s.setBit p off i b).sec = s.sec := rfl
@[simp] theorem State.setBit_cxl (s : State) (p : PageId) (off i : Nat) (b : Bool) : (s.setBit p off i b).cxl = s.cxl := rfl
@[simp] theorem State.setBit_cmd (s : State) (p : PageId) (off i : Nat) (b : Bool) : (s.setBit p off i b).cmd = s.cmd := rfl
@[simp] theorem State.setBit_trace (s : State) (p : PageId) (off i : Nat) (b : Bool) : (s.setBit p off i b).trace = s.trace := rfl
@[simp] theorem State.setBit_fab (s : State) (p : PageId) (off i : Nat) (b : Bool) : (s.setBit p off i b).fab = s.fab := rfl
@[simp] theorem State.setBit_msixOut (s : State) (p : PageId) (off i : Nat) (b : Bool) : (s.setBit p off i b).msixOut = s.msixOut := rfl
@[simp] theorem State.setBit_viralOut (s : State) (p : PageId) (off i : Nat) (b : Bool) : (s.setBit p off i b).viralOut = s.viralOut := rfl

/-! ### `raise`: an event is raised -/

@[simp] theorem State.raise_pending (s : State) (p : PageId) (b : Nat) : (s.raise p b).pending = s.pending := rfl
@[simp] theorem State.raise_resp (s : State) (p : PageId) (b : Nat) : (s.raise p b).resp = s.resp := rfl
@[simp] theorem State.raise_free (s : State) (p : PageId) (b : Nat) : (s.raise p b).free = s.free := rfl
@[simp] theorem State.raise_time (s : State) (p : PageId) (b : Nat) : (s.raise p b).time = s.time := rfl
@[simp] theorem State.raise_snaps (s : State) (p : PageId) (b : Nat) : (s.raise p b).snaps = s.snaps := rfl
@[simp] theorem State.raise_mem (s : State) (p : PageId) (b : Nat) : (s.raise p b).mem = s.mem := rfl
@[simp] theorem State.raise_clusters (s : State) (p : PageId) (b : Nat) : (s.raise p b).clusters = s.clusters := rfl
@[simp] theorem State.raise_cores (s : State) (p : PageId) (b : Nat) : (s.raise p b).cores = s.cores := rfl
@[simp] theorem State.raise_pairs (s : State) (p : PageId) (b : Nat) : (s.raise p b).pairs = s.pairs := rfl
@[simp] theorem State.raise_irq (s : State) (p : PageId) (b : Nat) : (s.raise p b).irq = s.irq := rfl
@[simp] theorem State.raise_ecc (s : State) (p : PageId) (b : Nat) : (s.raise p b).ecc = s.ecc := rfl
@[simp] theorem State.raise_l2ecc (s : State) (p : PageId) (b : Nat) : (s.raise p b).l2ecc = s.l2ecc := rfl
@[simp] theorem State.raise_flsMark (s : State) (p : PageId) (b : Nat) : (s.raise p b).flsMark = s.flsMark := rfl
@[simp] theorem State.raise_flash (s : State) (p : PageId) (b : Nat) : (s.raise p b).flash = s.flash := rfl
@[simp] theorem State.raise_fbPend (s : State) (p : PageId) (b : Nat) : (s.raise p b).fbPend = s.fbPend := rfl
@[simp] theorem State.raise_remap (s : State) (p : PageId) (b : Nat) : (s.raise p b).remap = s.remap := rfl
@[simp] theorem State.raise_remapPend (s : State) (p : PageId) (b : Nat) : (s.raise p b).remapPend = s.remapPend := rfl
@[simp] theorem State.raise_btAt (s : State) (p : PageId) (b : Nat) : (s.raise p b).btAt = s.btAt := rfl
@[simp] theorem State.raise_flsLines (s : State) (p : PageId) (b : Nat) : (s.raise p b).flsLines = s.flsLines := rfl
@[simp] theorem State.raise_thrHit (s : State) (p : PageId) (b : Nat) : (s.raise p b).thrHit = s.thrHit := rfl
@[simp] theorem State.raise_dma (s : State) (p : PageId) (b : Nat) : (s.raise p b).dma = s.dma := rfl
@[simp] theorem State.raise_dmaGrant (s : State) (p : PageId) (b : Nat) : (s.raise p b).dmaGrant = s.dmaGrant := rfl
@[simp] theorem State.raise_bridge (s : State) (p : PageId) (b : Nat) : (s.raise p b).bridge = s.bridge := rfl
@[simp] theorem State.raise_power (s : State) (p : PageId) (b : Nat) : (s.raise p b).power = s.power := rfl
@[simp] theorem State.raise_guards (s : State) (p : PageId) (b : Nat) : (s.raise p b).guards = s.guards := rfl
@[simp] theorem State.raise_bcast (s : State) (p : PageId) (b : Nat) : (s.raise p b).bcast = s.bcast := rfl
@[simp] theorem State.raise_stopLow (s : State) (p : PageId) (b : Nat) : (s.raise p b).stopLow = s.stopLow := rfl
@[simp] theorem State.raise_sec (s : State) (p : PageId) (b : Nat) : (s.raise p b).sec = s.sec := rfl
@[simp] theorem State.raise_cxl (s : State) (p : PageId) (b : Nat) : (s.raise p b).cxl = s.cxl := rfl
@[simp] theorem State.raise_cmd (s : State) (p : PageId) (b : Nat) : (s.raise p b).cmd = s.cmd := rfl
@[simp] theorem State.raise_trace (s : State) (p : PageId) (b : Nat) : (s.raise p b).trace = s.trace := rfl
@[simp] theorem State.raise_fab (s : State) (p : PageId) (b : Nat) : (s.raise p b).fab = s.fab := rfl
@[simp] theorem State.raise_msixOut (s : State) (p : PageId) (b : Nat) : (s.raise p b).msixOut = s.msixOut := rfl
@[simp] theorem State.raise_viralOut (s : State) (p : PageId) (b : Nat) : (s.raise p b).viralOut = s.viralOut := rfl

/-! ### `stick`: a bit is set by the hardware -/

@[simp] theorem State.stick_pending (s : State) (p : PageId) (off i : Nat) : (s.stick p off i).pending = s.pending := rfl
@[simp] theorem State.stick_resp (s : State) (p : PageId) (off i : Nat) : (s.stick p off i).resp = s.resp := rfl
@[simp] theorem State.stick_free (s : State) (p : PageId) (off i : Nat) : (s.stick p off i).free = s.free := rfl
@[simp] theorem State.stick_time (s : State) (p : PageId) (off i : Nat) : (s.stick p off i).time = s.time := rfl
@[simp] theorem State.stick_snaps (s : State) (p : PageId) (off i : Nat) : (s.stick p off i).snaps = s.snaps := rfl
@[simp] theorem State.stick_mem (s : State) (p : PageId) (off i : Nat) : (s.stick p off i).mem = s.mem := rfl
@[simp] theorem State.stick_clusters (s : State) (p : PageId) (off i : Nat) : (s.stick p off i).clusters = s.clusters := rfl
@[simp] theorem State.stick_cores (s : State) (p : PageId) (off i : Nat) : (s.stick p off i).cores = s.cores := rfl
@[simp] theorem State.stick_pairs (s : State) (p : PageId) (off i : Nat) : (s.stick p off i).pairs = s.pairs := rfl
@[simp] theorem State.stick_irq (s : State) (p : PageId) (off i : Nat) : (s.stick p off i).irq = s.irq := rfl
@[simp] theorem State.stick_ecc (s : State) (p : PageId) (off i : Nat) : (s.stick p off i).ecc = s.ecc := rfl
@[simp] theorem State.stick_l2ecc (s : State) (p : PageId) (off i : Nat) : (s.stick p off i).l2ecc = s.l2ecc := rfl
@[simp] theorem State.stick_flsMark (s : State) (p : PageId) (off i : Nat) : (s.stick p off i).flsMark = s.flsMark := rfl
@[simp] theorem State.stick_flash (s : State) (p : PageId) (off i : Nat) : (s.stick p off i).flash = s.flash := rfl
@[simp] theorem State.stick_fbPend (s : State) (p : PageId) (off i : Nat) : (s.stick p off i).fbPend = s.fbPend := rfl
@[simp] theorem State.stick_remap (s : State) (p : PageId) (off i : Nat) : (s.stick p off i).remap = s.remap := rfl
@[simp] theorem State.stick_remapPend (s : State) (p : PageId) (off i : Nat) : (s.stick p off i).remapPend = s.remapPend := rfl
@[simp] theorem State.stick_btAt (s : State) (p : PageId) (off i : Nat) : (s.stick p off i).btAt = s.btAt := rfl
@[simp] theorem State.stick_flsLines (s : State) (p : PageId) (off i : Nat) : (s.stick p off i).flsLines = s.flsLines := rfl
@[simp] theorem State.stick_thrHit (s : State) (p : PageId) (off i : Nat) : (s.stick p off i).thrHit = s.thrHit := rfl
@[simp] theorem State.stick_dma (s : State) (p : PageId) (off i : Nat) : (s.stick p off i).dma = s.dma := rfl
@[simp] theorem State.stick_dmaGrant (s : State) (p : PageId) (off i : Nat) : (s.stick p off i).dmaGrant = s.dmaGrant := rfl
@[simp] theorem State.stick_bridge (s : State) (p : PageId) (off i : Nat) : (s.stick p off i).bridge = s.bridge := rfl
@[simp] theorem State.stick_power (s : State) (p : PageId) (off i : Nat) : (s.stick p off i).power = s.power := rfl
@[simp] theorem State.stick_guards (s : State) (p : PageId) (off i : Nat) : (s.stick p off i).guards = s.guards := rfl
@[simp] theorem State.stick_bcast (s : State) (p : PageId) (off i : Nat) : (s.stick p off i).bcast = s.bcast := rfl
@[simp] theorem State.stick_stopLow (s : State) (p : PageId) (off i : Nat) : (s.stick p off i).stopLow = s.stopLow := rfl
@[simp] theorem State.stick_sec (s : State) (p : PageId) (off i : Nat) : (s.stick p off i).sec = s.sec := rfl
@[simp] theorem State.stick_cxl (s : State) (p : PageId) (off i : Nat) : (s.stick p off i).cxl = s.cxl := rfl
@[simp] theorem State.stick_cmd (s : State) (p : PageId) (off i : Nat) : (s.stick p off i).cmd = s.cmd := rfl
@[simp] theorem State.stick_trace (s : State) (p : PageId) (off i : Nat) : (s.stick p off i).trace = s.trace := rfl
@[simp] theorem State.stick_fab (s : State) (p : PageId) (off i : Nat) : (s.stick p off i).fab = s.fab := rfl
@[simp] theorem State.stick_msixOut (s : State) (p : PageId) (off i : Nat) : (s.stick p off i).msixOut = s.msixOut := rfl
@[simp] theorem State.stick_viralOut (s : State) (p : PageId) (off i : Nat) : (s.stick p off i).viralOut = s.viralOut := rfl

/-! ### `mark9`: bits the hardware has set are noted -/

@[simp] theorem State.mark9_pending (s : State) (p : PageId) (off : Nat) (m : Word) : (s.mark9 p off m).pending = s.pending := rfl
@[simp] theorem State.mark9_resp (s : State) (p : PageId) (off : Nat) (m : Word) : (s.mark9 p off m).resp = s.resp := rfl
@[simp] theorem State.mark9_free (s : State) (p : PageId) (off : Nat) (m : Word) : (s.mark9 p off m).free = s.free := rfl
@[simp] theorem State.mark9_time (s : State) (p : PageId) (off : Nat) (m : Word) : (s.mark9 p off m).time = s.time := rfl
@[simp] theorem State.mark9_regs (s : State) (p : PageId) (off : Nat) (m : Word) : (s.mark9 p off m).regs = s.regs := rfl
@[simp] theorem State.mark9_snaps (s : State) (p : PageId) (off : Nat) (m : Word) : (s.mark9 p off m).snaps = s.snaps := rfl
@[simp] theorem State.mark9_mem (s : State) (p : PageId) (off : Nat) (m : Word) : (s.mark9 p off m).mem = s.mem := rfl
@[simp] theorem State.mark9_clusters (s : State) (p : PageId) (off : Nat) (m : Word) : (s.mark9 p off m).clusters = s.clusters := rfl
@[simp] theorem State.mark9_cores (s : State) (p : PageId) (off : Nat) (m : Word) : (s.mark9 p off m).cores = s.cores := rfl
@[simp] theorem State.mark9_pairs (s : State) (p : PageId) (off : Nat) (m : Word) : (s.mark9 p off m).pairs = s.pairs := rfl
@[simp] theorem State.mark9_irq (s : State) (p : PageId) (off : Nat) (m : Word) : (s.mark9 p off m).irq = s.irq := rfl
@[simp] theorem State.mark9_ecc (s : State) (p : PageId) (off : Nat) (m : Word) : (s.mark9 p off m).ecc = s.ecc := rfl
@[simp] theorem State.mark9_l2ecc (s : State) (p : PageId) (off : Nat) (m : Word) : (s.mark9 p off m).l2ecc = s.l2ecc := rfl
@[simp] theorem State.mark9_flsMark (s : State) (p : PageId) (off : Nat) (m : Word) : (s.mark9 p off m).flsMark = s.flsMark := rfl
@[simp] theorem State.mark9_flash (s : State) (p : PageId) (off : Nat) (m : Word) : (s.mark9 p off m).flash = s.flash := rfl
@[simp] theorem State.mark9_fbPend (s : State) (p : PageId) (off : Nat) (m : Word) : (s.mark9 p off m).fbPend = s.fbPend := rfl
@[simp] theorem State.mark9_remap (s : State) (p : PageId) (off : Nat) (m : Word) : (s.mark9 p off m).remap = s.remap := rfl
@[simp] theorem State.mark9_remapPend (s : State) (p : PageId) (off : Nat) (m : Word) : (s.mark9 p off m).remapPend = s.remapPend := rfl
@[simp] theorem State.mark9_btAt (s : State) (p : PageId) (off : Nat) (m : Word) : (s.mark9 p off m).btAt = s.btAt := rfl
@[simp] theorem State.mark9_flsLines (s : State) (p : PageId) (off : Nat) (m : Word) : (s.mark9 p off m).flsLines = s.flsLines := rfl
@[simp] theorem State.mark9_thrHit (s : State) (p : PageId) (off : Nat) (m : Word) : (s.mark9 p off m).thrHit = s.thrHit := rfl
@[simp] theorem State.mark9_dma (s : State) (p : PageId) (off : Nat) (m : Word) : (s.mark9 p off m).dma = s.dma := rfl
@[simp] theorem State.mark9_dmaGrant (s : State) (p : PageId) (off : Nat) (m : Word) : (s.mark9 p off m).dmaGrant = s.dmaGrant := rfl
@[simp] theorem State.mark9_bridge (s : State) (p : PageId) (off : Nat) (m : Word) : (s.mark9 p off m).bridge = s.bridge := rfl
@[simp] theorem State.mark9_power (s : State) (p : PageId) (off : Nat) (m : Word) : (s.mark9 p off m).power = s.power := rfl
@[simp] theorem State.mark9_guards (s : State) (p : PageId) (off : Nat) (m : Word) : (s.mark9 p off m).guards = s.guards := rfl
@[simp] theorem State.mark9_bcast (s : State) (p : PageId) (off : Nat) (m : Word) : (s.mark9 p off m).bcast = s.bcast := rfl
@[simp] theorem State.mark9_stopLow (s : State) (p : PageId) (off : Nat) (m : Word) : (s.mark9 p off m).stopLow = s.stopLow := rfl
@[simp] theorem State.mark9_sec (s : State) (p : PageId) (off : Nat) (m : Word) : (s.mark9 p off m).sec = s.sec := rfl
@[simp] theorem State.mark9_cxl (s : State) (p : PageId) (off : Nat) (m : Word) : (s.mark9 p off m).cxl = s.cxl := rfl
@[simp] theorem State.mark9_cmd (s : State) (p : PageId) (off : Nat) (m : Word) : (s.mark9 p off m).cmd = s.cmd := rfl
@[simp] theorem State.mark9_trace (s : State) (p : PageId) (off : Nat) (m : Word) : (s.mark9 p off m).trace = s.trace := rfl
@[simp] theorem State.mark9_fab (s : State) (p : PageId) (off : Nat) (m : Word) : (s.mark9 p off m).fab = s.fab := rfl
@[simp] theorem State.mark9_msixOut (s : State) (p : PageId) (off : Nat) (m : Word) : (s.mark9 p off m).msixOut = s.msixOut := rfl
@[simp] theorem State.mark9_viralOut (s : State) (p : PageId) (off : Nat) (m : Word) : (s.mark9 p off m).viralOut = s.viralOut := rfl

/-! ### `clearRegs`: registers of a page return to reset -/

@[simp] theorem State.clearRegs_pending (s : State) (p : PageId) (a b : Nat) : (s.clearRegs p a b).pending = s.pending := rfl
@[simp] theorem State.clearRegs_resp (s : State) (p : PageId) (a b : Nat) : (s.clearRegs p a b).resp = s.resp := rfl
@[simp] theorem State.clearRegs_free (s : State) (p : PageId) (a b : Nat) : (s.clearRegs p a b).free = s.free := rfl
@[simp] theorem State.clearRegs_time (s : State) (p : PageId) (a b : Nat) : (s.clearRegs p a b).time = s.time := rfl
@[simp] theorem State.clearRegs_hot (s : State) (p : PageId) (a b : Nat) : (s.clearRegs p a b).hot = s.hot := rfl
@[simp] theorem State.clearRegs_snaps (s : State) (p : PageId) (a b : Nat) : (s.clearRegs p a b).snaps = s.snaps := rfl
@[simp] theorem State.clearRegs_mem (s : State) (p : PageId) (a b : Nat) : (s.clearRegs p a b).mem = s.mem := rfl
@[simp] theorem State.clearRegs_clusters (s : State) (p : PageId) (a b : Nat) : (s.clearRegs p a b).clusters = s.clusters := rfl
@[simp] theorem State.clearRegs_cores (s : State) (p : PageId) (a b : Nat) : (s.clearRegs p a b).cores = s.cores := rfl
@[simp] theorem State.clearRegs_pairs (s : State) (p : PageId) (a b : Nat) : (s.clearRegs p a b).pairs = s.pairs := rfl
@[simp] theorem State.clearRegs_irq (s : State) (p : PageId) (a b : Nat) : (s.clearRegs p a b).irq = s.irq := rfl
@[simp] theorem State.clearRegs_ecc (s : State) (p : PageId) (a b : Nat) : (s.clearRegs p a b).ecc = s.ecc := rfl
@[simp] theorem State.clearRegs_l2ecc (s : State) (p : PageId) (a b : Nat) : (s.clearRegs p a b).l2ecc = s.l2ecc := rfl
@[simp] theorem State.clearRegs_flsMark (s : State) (p : PageId) (a b : Nat) : (s.clearRegs p a b).flsMark = s.flsMark := rfl
@[simp] theorem State.clearRegs_flash (s : State) (p : PageId) (a b : Nat) : (s.clearRegs p a b).flash = s.flash := rfl
@[simp] theorem State.clearRegs_fbPend (s : State) (p : PageId) (a b : Nat) : (s.clearRegs p a b).fbPend = s.fbPend := rfl
@[simp] theorem State.clearRegs_remap (s : State) (p : PageId) (a b : Nat) : (s.clearRegs p a b).remap = s.remap := rfl
@[simp] theorem State.clearRegs_remapPend (s : State) (p : PageId) (a b : Nat) : (s.clearRegs p a b).remapPend = s.remapPend := rfl
@[simp] theorem State.clearRegs_btAt (s : State) (p : PageId) (a b : Nat) : (s.clearRegs p a b).btAt = s.btAt := rfl
@[simp] theorem State.clearRegs_flsLines (s : State) (p : PageId) (a b : Nat) : (s.clearRegs p a b).flsLines = s.flsLines := rfl
@[simp] theorem State.clearRegs_thrHit (s : State) (p : PageId) (a b : Nat) : (s.clearRegs p a b).thrHit = s.thrHit := rfl
@[simp] theorem State.clearRegs_dma (s : State) (p : PageId) (a b : Nat) : (s.clearRegs p a b).dma = s.dma := rfl
@[simp] theorem State.clearRegs_dmaGrant (s : State) (p : PageId) (a b : Nat) : (s.clearRegs p a b).dmaGrant = s.dmaGrant := rfl
@[simp] theorem State.clearRegs_bridge (s : State) (p : PageId) (a b : Nat) : (s.clearRegs p a b).bridge = s.bridge := rfl
@[simp] theorem State.clearRegs_power (s : State) (p : PageId) (a b : Nat) : (s.clearRegs p a b).power = s.power := rfl
@[simp] theorem State.clearRegs_guards (s : State) (p : PageId) (a b : Nat) : (s.clearRegs p a b).guards = s.guards := rfl
@[simp] theorem State.clearRegs_bcast (s : State) (p : PageId) (a b : Nat) : (s.clearRegs p a b).bcast = s.bcast := rfl
@[simp] theorem State.clearRegs_stopLow (s : State) (p : PageId) (a b : Nat) : (s.clearRegs p a b).stopLow = s.stopLow := rfl
@[simp] theorem State.clearRegs_sec (s : State) (p : PageId) (a b : Nat) : (s.clearRegs p a b).sec = s.sec := rfl
@[simp] theorem State.clearRegs_cxl (s : State) (p : PageId) (a b : Nat) : (s.clearRegs p a b).cxl = s.cxl := rfl
@[simp] theorem State.clearRegs_cmd (s : State) (p : PageId) (a b : Nat) : (s.clearRegs p a b).cmd = s.cmd := rfl
@[simp] theorem State.clearRegs_trace (s : State) (p : PageId) (a b : Nat) : (s.clearRegs p a b).trace = s.trace := rfl
@[simp] theorem State.clearRegs_fab (s : State) (p : PageId) (a b : Nat) : (s.clearRegs p a b).fab = s.fab := rfl
@[simp] theorem State.clearRegs_msixOut (s : State) (p : PageId) (a b : Nat) : (s.clearRegs p a b).msixOut = s.msixOut := rfl
@[simp] theorem State.clearRegs_viralOut (s : State) (p : PageId) (a b : Nat) : (s.clearRegs p a b).viralOut = s.viralOut := rfl

/-! ### `setSnap`: a snapshot is latched -/

@[simp] theorem State.setSnap_pending (s : State) (i : Initiator) (p : PageId) (off : Nat) (v : Word) : (s.setSnap i p off v).pending = s.pending := rfl
@[simp] theorem State.setSnap_resp (s : State) (i : Initiator) (p : PageId) (off : Nat) (v : Word) : (s.setSnap i p off v).resp = s.resp := rfl
@[simp] theorem State.setSnap_free (s : State) (i : Initiator) (p : PageId) (off : Nat) (v : Word) : (s.setSnap i p off v).free = s.free := rfl
@[simp] theorem State.setSnap_time (s : State) (i : Initiator) (p : PageId) (off : Nat) (v : Word) : (s.setSnap i p off v).time = s.time := rfl
@[simp] theorem State.setSnap_regs (s : State) (i : Initiator) (p : PageId) (off : Nat) (v : Word) : (s.setSnap i p off v).regs = s.regs := rfl
@[simp] theorem State.setSnap_hot (s : State) (i : Initiator) (p : PageId) (off : Nat) (v : Word) : (s.setSnap i p off v).hot = s.hot := rfl
@[simp] theorem State.setSnap_mem (s : State) (i : Initiator) (p : PageId) (off : Nat) (v : Word) : (s.setSnap i p off v).mem = s.mem := rfl
@[simp] theorem State.setSnap_clusters (s : State) (i : Initiator) (p : PageId) (off : Nat) (v : Word) : (s.setSnap i p off v).clusters = s.clusters := rfl
@[simp] theorem State.setSnap_cores (s : State) (i : Initiator) (p : PageId) (off : Nat) (v : Word) : (s.setSnap i p off v).cores = s.cores := rfl
@[simp] theorem State.setSnap_pairs (s : State) (i : Initiator) (p : PageId) (off : Nat) (v : Word) : (s.setSnap i p off v).pairs = s.pairs := rfl
@[simp] theorem State.setSnap_irq (s : State) (i : Initiator) (p : PageId) (off : Nat) (v : Word) : (s.setSnap i p off v).irq = s.irq := rfl
@[simp] theorem State.setSnap_ecc (s : State) (i : Initiator) (p : PageId) (off : Nat) (v : Word) : (s.setSnap i p off v).ecc = s.ecc := rfl
@[simp] theorem State.setSnap_l2ecc (s : State) (i : Initiator) (p : PageId) (off : Nat) (v : Word) : (s.setSnap i p off v).l2ecc = s.l2ecc := rfl
@[simp] theorem State.setSnap_flsMark (s : State) (i : Initiator) (p : PageId) (off : Nat) (v : Word) : (s.setSnap i p off v).flsMark = s.flsMark := rfl
@[simp] theorem State.setSnap_flash (s : State) (i : Initiator) (p : PageId) (off : Nat) (v : Word) : (s.setSnap i p off v).flash = s.flash := rfl
@[simp] theorem State.setSnap_fbPend (s : State) (i : Initiator) (p : PageId) (off : Nat) (v : Word) : (s.setSnap i p off v).fbPend = s.fbPend := rfl
@[simp] theorem State.setSnap_remap (s : State) (i : Initiator) (p : PageId) (off : Nat) (v : Word) : (s.setSnap i p off v).remap = s.remap := rfl
@[simp] theorem State.setSnap_remapPend (s : State) (i : Initiator) (p : PageId) (off : Nat) (v : Word) : (s.setSnap i p off v).remapPend = s.remapPend := rfl
@[simp] theorem State.setSnap_btAt (s : State) (i : Initiator) (p : PageId) (off : Nat) (v : Word) : (s.setSnap i p off v).btAt = s.btAt := rfl
@[simp] theorem State.setSnap_flsLines (s : State) (i : Initiator) (p : PageId) (off : Nat) (v : Word) : (s.setSnap i p off v).flsLines = s.flsLines := rfl
@[simp] theorem State.setSnap_thrHit (s : State) (i : Initiator) (p : PageId) (off : Nat) (v : Word) : (s.setSnap i p off v).thrHit = s.thrHit := rfl
@[simp] theorem State.setSnap_dma (s : State) (i : Initiator) (p : PageId) (off : Nat) (v : Word) : (s.setSnap i p off v).dma = s.dma := rfl
@[simp] theorem State.setSnap_dmaGrant (s : State) (i : Initiator) (p : PageId) (off : Nat) (v : Word) : (s.setSnap i p off v).dmaGrant = s.dmaGrant := rfl
@[simp] theorem State.setSnap_bridge (s : State) (i : Initiator) (p : PageId) (off : Nat) (v : Word) : (s.setSnap i p off v).bridge = s.bridge := rfl
@[simp] theorem State.setSnap_power (s : State) (i : Initiator) (p : PageId) (off : Nat) (v : Word) : (s.setSnap i p off v).power = s.power := rfl
@[simp] theorem State.setSnap_guards (s : State) (i : Initiator) (p : PageId) (off : Nat) (v : Word) : (s.setSnap i p off v).guards = s.guards := rfl
@[simp] theorem State.setSnap_bcast (s : State) (i : Initiator) (p : PageId) (off : Nat) (v : Word) : (s.setSnap i p off v).bcast = s.bcast := rfl
@[simp] theorem State.setSnap_stopLow (s : State) (i : Initiator) (p : PageId) (off : Nat) (v : Word) : (s.setSnap i p off v).stopLow = s.stopLow := rfl
@[simp] theorem State.setSnap_sec (s : State) (i : Initiator) (p : PageId) (off : Nat) (v : Word) : (s.setSnap i p off v).sec = s.sec := rfl
@[simp] theorem State.setSnap_cxl (s : State) (i : Initiator) (p : PageId) (off : Nat) (v : Word) : (s.setSnap i p off v).cxl = s.cxl := rfl
@[simp] theorem State.setSnap_cmd (s : State) (i : Initiator) (p : PageId) (off : Nat) (v : Word) : (s.setSnap i p off v).cmd = s.cmd := rfl
@[simp] theorem State.setSnap_trace (s : State) (i : Initiator) (p : PageId) (off : Nat) (v : Word) : (s.setSnap i p off v).trace = s.trace := rfl
@[simp] theorem State.setSnap_fab (s : State) (i : Initiator) (p : PageId) (off : Nat) (v : Word) : (s.setSnap i p off v).fab = s.fab := rfl
@[simp] theorem State.setSnap_msixOut (s : State) (i : Initiator) (p : PageId) (off : Nat) (v : Word) : (s.setSnap i p off v).msixOut = s.msixOut := rfl
@[simp] theorem State.setSnap_viralOut (s : State) (i : Initiator) (p : PageId) (off : Nat) (v : Word) : (s.setSnap i p off v).viralOut = s.viralOut := rfl

/-! ### `setByte`: a byte is stored -/

@[simp] theorem State.setByte_pending (s : State) (a : Nat) (b : Byte) : (s.setByte a b).pending = s.pending := rfl
@[simp] theorem State.setByte_resp (s : State) (a : Nat) (b : Byte) : (s.setByte a b).resp = s.resp := rfl
@[simp] theorem State.setByte_free (s : State) (a : Nat) (b : Byte) : (s.setByte a b).free = s.free := rfl
@[simp] theorem State.setByte_time (s : State) (a : Nat) (b : Byte) : (s.setByte a b).time = s.time := rfl
@[simp] theorem State.setByte_regs (s : State) (a : Nat) (b : Byte) : (s.setByte a b).regs = s.regs := rfl
@[simp] theorem State.setByte_hot (s : State) (a : Nat) (b : Byte) : (s.setByte a b).hot = s.hot := rfl
@[simp] theorem State.setByte_snaps (s : State) (a : Nat) (b : Byte) : (s.setByte a b).snaps = s.snaps := rfl
@[simp] theorem State.setByte_clusters (s : State) (a : Nat) (b : Byte) : (s.setByte a b).clusters = s.clusters := rfl
@[simp] theorem State.setByte_cores (s : State) (a : Nat) (b : Byte) : (s.setByte a b).cores = s.cores := rfl
@[simp] theorem State.setByte_pairs (s : State) (a : Nat) (b : Byte) : (s.setByte a b).pairs = s.pairs := rfl
@[simp] theorem State.setByte_irq (s : State) (a : Nat) (b : Byte) : (s.setByte a b).irq = s.irq := rfl
@[simp] theorem State.setByte_ecc (s : State) (a : Nat) (b : Byte) : (s.setByte a b).ecc = s.ecc := rfl
@[simp] theorem State.setByte_l2ecc (s : State) (a : Nat) (b : Byte) : (s.setByte a b).l2ecc = s.l2ecc := rfl
@[simp] theorem State.setByte_flsMark (s : State) (a : Nat) (b : Byte) : (s.setByte a b).flsMark = s.flsMark := rfl
@[simp] theorem State.setByte_flash (s : State) (a : Nat) (b : Byte) : (s.setByte a b).flash = s.flash := rfl
@[simp] theorem State.setByte_fbPend (s : State) (a : Nat) (b : Byte) : (s.setByte a b).fbPend = s.fbPend := rfl
@[simp] theorem State.setByte_remap (s : State) (a : Nat) (b : Byte) : (s.setByte a b).remap = s.remap := rfl
@[simp] theorem State.setByte_remapPend (s : State) (a : Nat) (b : Byte) : (s.setByte a b).remapPend = s.remapPend := rfl
@[simp] theorem State.setByte_btAt (s : State) (a : Nat) (b : Byte) : (s.setByte a b).btAt = s.btAt := rfl
@[simp] theorem State.setByte_flsLines (s : State) (a : Nat) (b : Byte) : (s.setByte a b).flsLines = s.flsLines := rfl
@[simp] theorem State.setByte_thrHit (s : State) (a : Nat) (b : Byte) : (s.setByte a b).thrHit = s.thrHit := rfl
@[simp] theorem State.setByte_dma (s : State) (a : Nat) (b : Byte) : (s.setByte a b).dma = s.dma := rfl
@[simp] theorem State.setByte_dmaGrant (s : State) (a : Nat) (b : Byte) : (s.setByte a b).dmaGrant = s.dmaGrant := rfl
@[simp] theorem State.setByte_bridge (s : State) (a : Nat) (b : Byte) : (s.setByte a b).bridge = s.bridge := rfl
@[simp] theorem State.setByte_power (s : State) (a : Nat) (b : Byte) : (s.setByte a b).power = s.power := rfl
@[simp] theorem State.setByte_guards (s : State) (a : Nat) (b : Byte) : (s.setByte a b).guards = s.guards := rfl
@[simp] theorem State.setByte_bcast (s : State) (a : Nat) (b : Byte) : (s.setByte a b).bcast = s.bcast := rfl
@[simp] theorem State.setByte_stopLow (s : State) (a : Nat) (b : Byte) : (s.setByte a b).stopLow = s.stopLow := rfl
@[simp] theorem State.setByte_sec (s : State) (a : Nat) (b : Byte) : (s.setByte a b).sec = s.sec := rfl
@[simp] theorem State.setByte_cxl (s : State) (a : Nat) (b : Byte) : (s.setByte a b).cxl = s.cxl := rfl
@[simp] theorem State.setByte_cmd (s : State) (a : Nat) (b : Byte) : (s.setByte a b).cmd = s.cmd := rfl
@[simp] theorem State.setByte_trace (s : State) (a : Nat) (b : Byte) : (s.setByte a b).trace = s.trace := rfl
@[simp] theorem State.setByte_fab (s : State) (a : Nat) (b : Byte) : (s.setByte a b).fab = s.fab := rfl
@[simp] theorem State.setByte_msixOut (s : State) (a : Nat) (b : Byte) : (s.setByte a b).msixOut = s.msixOut := rfl
@[simp] theorem State.setByte_viralOut (s : State) (a : Nat) (b : Byte) : (s.setByte a b).viralOut = s.viralOut := rfl

/-! ### `answer`: an access is answered -/

@[simp] theorem State.answer_pending (s : State) (v : DWord) : (s.answer v).pending = s.pending := rfl
@[simp] theorem State.answer_free (s : State) (v : DWord) : (s.answer v).free = s.free := rfl
@[simp] theorem State.answer_time (s : State) (v : DWord) : (s.answer v).time = s.time := rfl
@[simp] theorem State.answer_regs (s : State) (v : DWord) : (s.answer v).regs = s.regs := rfl
@[simp] theorem State.answer_hot (s : State) (v : DWord) : (s.answer v).hot = s.hot := rfl
@[simp] theorem State.answer_snaps (s : State) (v : DWord) : (s.answer v).snaps = s.snaps := rfl
@[simp] theorem State.answer_mem (s : State) (v : DWord) : (s.answer v).mem = s.mem := rfl
@[simp] theorem State.answer_clusters (s : State) (v : DWord) : (s.answer v).clusters = s.clusters := rfl
@[simp] theorem State.answer_cores (s : State) (v : DWord) : (s.answer v).cores = s.cores := rfl
@[simp] theorem State.answer_pairs (s : State) (v : DWord) : (s.answer v).pairs = s.pairs := rfl
@[simp] theorem State.answer_irq (s : State) (v : DWord) : (s.answer v).irq = s.irq := rfl
@[simp] theorem State.answer_ecc (s : State) (v : DWord) : (s.answer v).ecc = s.ecc := rfl
@[simp] theorem State.answer_l2ecc (s : State) (v : DWord) : (s.answer v).l2ecc = s.l2ecc := rfl
@[simp] theorem State.answer_flsMark (s : State) (v : DWord) : (s.answer v).flsMark = s.flsMark := rfl
@[simp] theorem State.answer_flash (s : State) (v : DWord) : (s.answer v).flash = s.flash := rfl
@[simp] theorem State.answer_fbPend (s : State) (v : DWord) : (s.answer v).fbPend = s.fbPend := rfl
@[simp] theorem State.answer_remap (s : State) (v : DWord) : (s.answer v).remap = s.remap := rfl
@[simp] theorem State.answer_remapPend (s : State) (v : DWord) : (s.answer v).remapPend = s.remapPend := rfl
@[simp] theorem State.answer_btAt (s : State) (v : DWord) : (s.answer v).btAt = s.btAt := rfl
@[simp] theorem State.answer_flsLines (s : State) (v : DWord) : (s.answer v).flsLines = s.flsLines := rfl
@[simp] theorem State.answer_thrHit (s : State) (v : DWord) : (s.answer v).thrHit = s.thrHit := rfl
@[simp] theorem State.answer_dma (s : State) (v : DWord) : (s.answer v).dma = s.dma := rfl
@[simp] theorem State.answer_dmaGrant (s : State) (v : DWord) : (s.answer v).dmaGrant = s.dmaGrant := rfl
@[simp] theorem State.answer_bridge (s : State) (v : DWord) : (s.answer v).bridge = s.bridge := rfl
@[simp] theorem State.answer_power (s : State) (v : DWord) : (s.answer v).power = s.power := rfl
@[simp] theorem State.answer_guards (s : State) (v : DWord) : (s.answer v).guards = s.guards := rfl
@[simp] theorem State.answer_bcast (s : State) (v : DWord) : (s.answer v).bcast = s.bcast := rfl
@[simp] theorem State.answer_stopLow (s : State) (v : DWord) : (s.answer v).stopLow = s.stopLow := rfl
@[simp] theorem State.answer_sec (s : State) (v : DWord) : (s.answer v).sec = s.sec := rfl
@[simp] theorem State.answer_cxl (s : State) (v : DWord) : (s.answer v).cxl = s.cxl := rfl
@[simp] theorem State.answer_cmd (s : State) (v : DWord) : (s.answer v).cmd = s.cmd := rfl
@[simp] theorem State.answer_trace (s : State) (v : DWord) : (s.answer v).trace = s.trace := rfl
@[simp] theorem State.answer_fab (s : State) (v : DWord) : (s.answer v).fab = s.fab := rfl
@[simp] theorem State.answer_msixOut (s : State) (v : DWord) : (s.answer v).msixOut = s.msixOut := rfl
@[simp] theorem State.answer_viralOut (s : State) (v : DWord) : (s.answer v).viralOut = s.viralOut := rfl

/-! ### `answerW`: an access is answered with a word -/

@[simp] theorem State.answerW_pending (s : State) (v : Word) : (s.answerW v).pending = s.pending := rfl
@[simp] theorem State.answerW_free (s : State) (v : Word) : (s.answerW v).free = s.free := rfl
@[simp] theorem State.answerW_time (s : State) (v : Word) : (s.answerW v).time = s.time := rfl
@[simp] theorem State.answerW_regs (s : State) (v : Word) : (s.answerW v).regs = s.regs := rfl
@[simp] theorem State.answerW_hot (s : State) (v : Word) : (s.answerW v).hot = s.hot := rfl
@[simp] theorem State.answerW_snaps (s : State) (v : Word) : (s.answerW v).snaps = s.snaps := rfl
@[simp] theorem State.answerW_mem (s : State) (v : Word) : (s.answerW v).mem = s.mem := rfl
@[simp] theorem State.answerW_clusters (s : State) (v : Word) : (s.answerW v).clusters = s.clusters := rfl
@[simp] theorem State.answerW_cores (s : State) (v : Word) : (s.answerW v).cores = s.cores := rfl
@[simp] theorem State.answerW_pairs (s : State) (v : Word) : (s.answerW v).pairs = s.pairs := rfl
@[simp] theorem State.answerW_irq (s : State) (v : Word) : (s.answerW v).irq = s.irq := rfl
@[simp] theorem State.answerW_ecc (s : State) (v : Word) : (s.answerW v).ecc = s.ecc := rfl
@[simp] theorem State.answerW_l2ecc (s : State) (v : Word) : (s.answerW v).l2ecc = s.l2ecc := rfl
@[simp] theorem State.answerW_flsMark (s : State) (v : Word) : (s.answerW v).flsMark = s.flsMark := rfl
@[simp] theorem State.answerW_flash (s : State) (v : Word) : (s.answerW v).flash = s.flash := rfl
@[simp] theorem State.answerW_fbPend (s : State) (v : Word) : (s.answerW v).fbPend = s.fbPend := rfl
@[simp] theorem State.answerW_remap (s : State) (v : Word) : (s.answerW v).remap = s.remap := rfl
@[simp] theorem State.answerW_remapPend (s : State) (v : Word) : (s.answerW v).remapPend = s.remapPend := rfl
@[simp] theorem State.answerW_btAt (s : State) (v : Word) : (s.answerW v).btAt = s.btAt := rfl
@[simp] theorem State.answerW_flsLines (s : State) (v : Word) : (s.answerW v).flsLines = s.flsLines := rfl
@[simp] theorem State.answerW_thrHit (s : State) (v : Word) : (s.answerW v).thrHit = s.thrHit := rfl
@[simp] theorem State.answerW_dma (s : State) (v : Word) : (s.answerW v).dma = s.dma := rfl
@[simp] theorem State.answerW_dmaGrant (s : State) (v : Word) : (s.answerW v).dmaGrant = s.dmaGrant := rfl
@[simp] theorem State.answerW_bridge (s : State) (v : Word) : (s.answerW v).bridge = s.bridge := rfl
@[simp] theorem State.answerW_power (s : State) (v : Word) : (s.answerW v).power = s.power := rfl
@[simp] theorem State.answerW_guards (s : State) (v : Word) : (s.answerW v).guards = s.guards := rfl
@[simp] theorem State.answerW_bcast (s : State) (v : Word) : (s.answerW v).bcast = s.bcast := rfl
@[simp] theorem State.answerW_stopLow (s : State) (v : Word) : (s.answerW v).stopLow = s.stopLow := rfl
@[simp] theorem State.answerW_sec (s : State) (v : Word) : (s.answerW v).sec = s.sec := rfl
@[simp] theorem State.answerW_cxl (s : State) (v : Word) : (s.answerW v).cxl = s.cxl := rfl
@[simp] theorem State.answerW_cmd (s : State) (v : Word) : (s.answerW v).cmd = s.cmd := rfl
@[simp] theorem State.answerW_trace (s : State) (v : Word) : (s.answerW v).trace = s.trace := rfl
@[simp] theorem State.answerW_fab (s : State) (v : Word) : (s.answerW v).fab = s.fab := rfl
@[simp] theorem State.answerW_msixOut (s : State) (v : Word) : (s.answerW v).msixOut = s.msixOut := rfl
@[simp] theorem State.answerW_viralOut (s : State) (v : Word) : (s.answerW v).viralOut = s.viralOut := rfl

/-! ### `wrote`: a write is answered -/

@[simp] theorem State.wrote_pending (s : State) : s.wrote.pending = s.pending := rfl
@[simp] theorem State.wrote_free (s : State) : s.wrote.free = s.free := rfl
@[simp] theorem State.wrote_time (s : State) : s.wrote.time = s.time := rfl
@[simp] theorem State.wrote_regs (s : State) : s.wrote.regs = s.regs := rfl
@[simp] theorem State.wrote_hot (s : State) : s.wrote.hot = s.hot := rfl
@[simp] theorem State.wrote_snaps (s : State) : s.wrote.snaps = s.snaps := rfl
@[simp] theorem State.wrote_mem (s : State) : s.wrote.mem = s.mem := rfl
@[simp] theorem State.wrote_clusters (s : State) : s.wrote.clusters = s.clusters := rfl
@[simp] theorem State.wrote_cores (s : State) : s.wrote.cores = s.cores := rfl
@[simp] theorem State.wrote_pairs (s : State) : s.wrote.pairs = s.pairs := rfl
@[simp] theorem State.wrote_irq (s : State) : s.wrote.irq = s.irq := rfl
@[simp] theorem State.wrote_ecc (s : State) : s.wrote.ecc = s.ecc := rfl
@[simp] theorem State.wrote_l2ecc (s : State) : s.wrote.l2ecc = s.l2ecc := rfl
@[simp] theorem State.wrote_flsMark (s : State) : s.wrote.flsMark = s.flsMark := rfl
@[simp] theorem State.wrote_flash (s : State) : s.wrote.flash = s.flash := rfl
@[simp] theorem State.wrote_fbPend (s : State) : s.wrote.fbPend = s.fbPend := rfl
@[simp] theorem State.wrote_remap (s : State) : s.wrote.remap = s.remap := rfl
@[simp] theorem State.wrote_remapPend (s : State) : s.wrote.remapPend = s.remapPend := rfl
@[simp] theorem State.wrote_btAt (s : State) : s.wrote.btAt = s.btAt := rfl
@[simp] theorem State.wrote_flsLines (s : State) : s.wrote.flsLines = s.flsLines := rfl
@[simp] theorem State.wrote_thrHit (s : State) : s.wrote.thrHit = s.thrHit := rfl
@[simp] theorem State.wrote_dma (s : State) : s.wrote.dma = s.dma := rfl
@[simp] theorem State.wrote_dmaGrant (s : State) : s.wrote.dmaGrant = s.dmaGrant := rfl
@[simp] theorem State.wrote_bridge (s : State) : s.wrote.bridge = s.bridge := rfl
@[simp] theorem State.wrote_power (s : State) : s.wrote.power = s.power := rfl
@[simp] theorem State.wrote_guards (s : State) : s.wrote.guards = s.guards := rfl
@[simp] theorem State.wrote_bcast (s : State) : s.wrote.bcast = s.bcast := rfl
@[simp] theorem State.wrote_stopLow (s : State) : s.wrote.stopLow = s.stopLow := rfl
@[simp] theorem State.wrote_sec (s : State) : s.wrote.sec = s.sec := rfl
@[simp] theorem State.wrote_cxl (s : State) : s.wrote.cxl = s.cxl := rfl
@[simp] theorem State.wrote_cmd (s : State) : s.wrote.cmd = s.cmd := rfl
@[simp] theorem State.wrote_trace (s : State) : s.wrote.trace = s.trace := rfl
@[simp] theorem State.wrote_fab (s : State) : s.wrote.fab = s.fab := rfl
@[simp] theorem State.wrote_msixOut (s : State) : s.wrote.msixOut = s.msixOut := rfl
@[simp] theorem State.wrote_viralOut (s : State) : s.wrote.viralOut = s.viralOut := rfl

/-! ### `draw`: a free value is drawn -/

@[simp] theorem State.draw_pending (s : State) : s.draw.pending = s.pending := rfl
@[simp] theorem State.draw_resp (s : State) : s.draw.resp = s.resp := rfl
@[simp] theorem State.draw_time (s : State) : s.draw.time = s.time := rfl
@[simp] theorem State.draw_regs (s : State) : s.draw.regs = s.regs := rfl
@[simp] theorem State.draw_hot (s : State) : s.draw.hot = s.hot := rfl
@[simp] theorem State.draw_snaps (s : State) : s.draw.snaps = s.snaps := rfl
@[simp] theorem State.draw_mem (s : State) : s.draw.mem = s.mem := rfl
@[simp] theorem State.draw_clusters (s : State) : s.draw.clusters = s.clusters := rfl
@[simp] theorem State.draw_cores (s : State) : s.draw.cores = s.cores := rfl
@[simp] theorem State.draw_pairs (s : State) : s.draw.pairs = s.pairs := rfl
@[simp] theorem State.draw_irq (s : State) : s.draw.irq = s.irq := rfl
@[simp] theorem State.draw_ecc (s : State) : s.draw.ecc = s.ecc := rfl
@[simp] theorem State.draw_l2ecc (s : State) : s.draw.l2ecc = s.l2ecc := rfl
@[simp] theorem State.draw_flsMark (s : State) : s.draw.flsMark = s.flsMark := rfl
@[simp] theorem State.draw_flash (s : State) : s.draw.flash = s.flash := rfl
@[simp] theorem State.draw_fbPend (s : State) : s.draw.fbPend = s.fbPend := rfl
@[simp] theorem State.draw_remap (s : State) : s.draw.remap = s.remap := rfl
@[simp] theorem State.draw_remapPend (s : State) : s.draw.remapPend = s.remapPend := rfl
@[simp] theorem State.draw_btAt (s : State) : s.draw.btAt = s.btAt := rfl
@[simp] theorem State.draw_flsLines (s : State) : s.draw.flsLines = s.flsLines := rfl
@[simp] theorem State.draw_thrHit (s : State) : s.draw.thrHit = s.thrHit := rfl
@[simp] theorem State.draw_dma (s : State) : s.draw.dma = s.dma := rfl
@[simp] theorem State.draw_dmaGrant (s : State) : s.draw.dmaGrant = s.dmaGrant := rfl
@[simp] theorem State.draw_bridge (s : State) : s.draw.bridge = s.bridge := rfl
@[simp] theorem State.draw_power (s : State) : s.draw.power = s.power := rfl
@[simp] theorem State.draw_guards (s : State) : s.draw.guards = s.guards := rfl
@[simp] theorem State.draw_bcast (s : State) : s.draw.bcast = s.bcast := rfl
@[simp] theorem State.draw_stopLow (s : State) : s.draw.stopLow = s.stopLow := rfl
@[simp] theorem State.draw_sec (s : State) : s.draw.sec = s.sec := rfl
@[simp] theorem State.draw_cxl (s : State) : s.draw.cxl = s.cxl := rfl
@[simp] theorem State.draw_cmd (s : State) : s.draw.cmd = s.cmd := rfl
@[simp] theorem State.draw_trace (s : State) : s.draw.trace = s.trace := rfl
@[simp] theorem State.draw_fab (s : State) : s.draw.fab = s.fab := rfl
@[simp] theorem State.draw_msixOut (s : State) : s.draw.msixOut = s.msixOut := rfl
@[simp] theorem State.draw_viralOut (s : State) : s.draw.viralOut = s.viralOut := rfl

/-! ### `modC`: a cluster changes -/

@[simp] theorem State.modC_pending (s : State) (c : Fin 8) (f : Cluster → Cluster) : (s.modC c f).pending = s.pending := rfl
@[simp] theorem State.modC_resp (s : State) (c : Fin 8) (f : Cluster → Cluster) : (s.modC c f).resp = s.resp := rfl
@[simp] theorem State.modC_free (s : State) (c : Fin 8) (f : Cluster → Cluster) : (s.modC c f).free = s.free := rfl
@[simp] theorem State.modC_time (s : State) (c : Fin 8) (f : Cluster → Cluster) : (s.modC c f).time = s.time := rfl
@[simp] theorem State.modC_regs (s : State) (c : Fin 8) (f : Cluster → Cluster) : (s.modC c f).regs = s.regs := rfl
@[simp] theorem State.modC_hot (s : State) (c : Fin 8) (f : Cluster → Cluster) : (s.modC c f).hot = s.hot := rfl
@[simp] theorem State.modC_snaps (s : State) (c : Fin 8) (f : Cluster → Cluster) : (s.modC c f).snaps = s.snaps := rfl
@[simp] theorem State.modC_mem (s : State) (c : Fin 8) (f : Cluster → Cluster) : (s.modC c f).mem = s.mem := rfl
@[simp] theorem State.modC_cores (s : State) (c : Fin 8) (f : Cluster → Cluster) : (s.modC c f).cores = s.cores := rfl
@[simp] theorem State.modC_pairs (s : State) (c : Fin 8) (f : Cluster → Cluster) : (s.modC c f).pairs = s.pairs := rfl
@[simp] theorem State.modC_irq (s : State) (c : Fin 8) (f : Cluster → Cluster) : (s.modC c f).irq = s.irq := rfl
@[simp] theorem State.modC_ecc (s : State) (c : Fin 8) (f : Cluster → Cluster) : (s.modC c f).ecc = s.ecc := rfl
@[simp] theorem State.modC_l2ecc (s : State) (c : Fin 8) (f : Cluster → Cluster) : (s.modC c f).l2ecc = s.l2ecc := rfl
@[simp] theorem State.modC_flsMark (s : State) (c : Fin 8) (f : Cluster → Cluster) : (s.modC c f).flsMark = s.flsMark := rfl
@[simp] theorem State.modC_flash (s : State) (c : Fin 8) (f : Cluster → Cluster) : (s.modC c f).flash = s.flash := rfl
@[simp] theorem State.modC_fbPend (s : State) (c : Fin 8) (f : Cluster → Cluster) : (s.modC c f).fbPend = s.fbPend := rfl
@[simp] theorem State.modC_remap (s : State) (c : Fin 8) (f : Cluster → Cluster) : (s.modC c f).remap = s.remap := rfl
@[simp] theorem State.modC_remapPend (s : State) (c : Fin 8) (f : Cluster → Cluster) : (s.modC c f).remapPend = s.remapPend := rfl
@[simp] theorem State.modC_btAt (s : State) (c : Fin 8) (f : Cluster → Cluster) : (s.modC c f).btAt = s.btAt := rfl
@[simp] theorem State.modC_flsLines (s : State) (c : Fin 8) (f : Cluster → Cluster) : (s.modC c f).flsLines = s.flsLines := rfl
@[simp] theorem State.modC_thrHit (s : State) (c : Fin 8) (f : Cluster → Cluster) : (s.modC c f).thrHit = s.thrHit := rfl
@[simp] theorem State.modC_dma (s : State) (c : Fin 8) (f : Cluster → Cluster) : (s.modC c f).dma = s.dma := rfl
@[simp] theorem State.modC_dmaGrant (s : State) (c : Fin 8) (f : Cluster → Cluster) : (s.modC c f).dmaGrant = s.dmaGrant := rfl
@[simp] theorem State.modC_bridge (s : State) (c : Fin 8) (f : Cluster → Cluster) : (s.modC c f).bridge = s.bridge := rfl
@[simp] theorem State.modC_power (s : State) (c : Fin 8) (f : Cluster → Cluster) : (s.modC c f).power = s.power := rfl
@[simp] theorem State.modC_guards (s : State) (c : Fin 8) (f : Cluster → Cluster) : (s.modC c f).guards = s.guards := rfl
@[simp] theorem State.modC_bcast (s : State) (c : Fin 8) (f : Cluster → Cluster) : (s.modC c f).bcast = s.bcast := rfl
@[simp] theorem State.modC_stopLow (s : State) (c : Fin 8) (f : Cluster → Cluster) : (s.modC c f).stopLow = s.stopLow := rfl
@[simp] theorem State.modC_sec (s : State) (c : Fin 8) (f : Cluster → Cluster) : (s.modC c f).sec = s.sec := rfl
@[simp] theorem State.modC_cxl (s : State) (c : Fin 8) (f : Cluster → Cluster) : (s.modC c f).cxl = s.cxl := rfl
@[simp] theorem State.modC_cmd (s : State) (c : Fin 8) (f : Cluster → Cluster) : (s.modC c f).cmd = s.cmd := rfl
@[simp] theorem State.modC_trace (s : State) (c : Fin 8) (f : Cluster → Cluster) : (s.modC c f).trace = s.trace := rfl
@[simp] theorem State.modC_fab (s : State) (c : Fin 8) (f : Cluster → Cluster) : (s.modC c f).fab = s.fab := rfl
@[simp] theorem State.modC_msixOut (s : State) (c : Fin 8) (f : Cluster → Cluster) : (s.modC c f).msixOut = s.msixOut := rfl
@[simp] theorem State.modC_viralOut (s : State) (c : Fin 8) (f : Cluster → Cluster) : (s.modC c f).viralOut = s.viralOut := rfl

/-! ### `modPwm`: a generator changes -/

@[simp] theorem State.modPwm_pending (s : State) (c : Fin 8) (f : Pwm → Pwm) : (s.modPwm c f).pending = s.pending := rfl
@[simp] theorem State.modPwm_resp (s : State) (c : Fin 8) (f : Pwm → Pwm) : (s.modPwm c f).resp = s.resp := rfl
@[simp] theorem State.modPwm_free (s : State) (c : Fin 8) (f : Pwm → Pwm) : (s.modPwm c f).free = s.free := rfl
@[simp] theorem State.modPwm_time (s : State) (c : Fin 8) (f : Pwm → Pwm) : (s.modPwm c f).time = s.time := rfl
@[simp] theorem State.modPwm_regs (s : State) (c : Fin 8) (f : Pwm → Pwm) : (s.modPwm c f).regs = s.regs := rfl
@[simp] theorem State.modPwm_hot (s : State) (c : Fin 8) (f : Pwm → Pwm) : (s.modPwm c f).hot = s.hot := rfl
@[simp] theorem State.modPwm_snaps (s : State) (c : Fin 8) (f : Pwm → Pwm) : (s.modPwm c f).snaps = s.snaps := rfl
@[simp] theorem State.modPwm_mem (s : State) (c : Fin 8) (f : Pwm → Pwm) : (s.modPwm c f).mem = s.mem := rfl
@[simp] theorem State.modPwm_cores (s : State) (c : Fin 8) (f : Pwm → Pwm) : (s.modPwm c f).cores = s.cores := rfl
@[simp] theorem State.modPwm_pairs (s : State) (c : Fin 8) (f : Pwm → Pwm) : (s.modPwm c f).pairs = s.pairs := rfl
@[simp] theorem State.modPwm_irq (s : State) (c : Fin 8) (f : Pwm → Pwm) : (s.modPwm c f).irq = s.irq := rfl
@[simp] theorem State.modPwm_ecc (s : State) (c : Fin 8) (f : Pwm → Pwm) : (s.modPwm c f).ecc = s.ecc := rfl
@[simp] theorem State.modPwm_l2ecc (s : State) (c : Fin 8) (f : Pwm → Pwm) : (s.modPwm c f).l2ecc = s.l2ecc := rfl
@[simp] theorem State.modPwm_flsMark (s : State) (c : Fin 8) (f : Pwm → Pwm) : (s.modPwm c f).flsMark = s.flsMark := rfl
@[simp] theorem State.modPwm_flash (s : State) (c : Fin 8) (f : Pwm → Pwm) : (s.modPwm c f).flash = s.flash := rfl
@[simp] theorem State.modPwm_fbPend (s : State) (c : Fin 8) (f : Pwm → Pwm) : (s.modPwm c f).fbPend = s.fbPend := rfl
@[simp] theorem State.modPwm_remap (s : State) (c : Fin 8) (f : Pwm → Pwm) : (s.modPwm c f).remap = s.remap := rfl
@[simp] theorem State.modPwm_remapPend (s : State) (c : Fin 8) (f : Pwm → Pwm) : (s.modPwm c f).remapPend = s.remapPend := rfl
@[simp] theorem State.modPwm_btAt (s : State) (c : Fin 8) (f : Pwm → Pwm) : (s.modPwm c f).btAt = s.btAt := rfl
@[simp] theorem State.modPwm_flsLines (s : State) (c : Fin 8) (f : Pwm → Pwm) : (s.modPwm c f).flsLines = s.flsLines := rfl
@[simp] theorem State.modPwm_thrHit (s : State) (c : Fin 8) (f : Pwm → Pwm) : (s.modPwm c f).thrHit = s.thrHit := rfl
@[simp] theorem State.modPwm_dma (s : State) (c : Fin 8) (f : Pwm → Pwm) : (s.modPwm c f).dma = s.dma := rfl
@[simp] theorem State.modPwm_dmaGrant (s : State) (c : Fin 8) (f : Pwm → Pwm) : (s.modPwm c f).dmaGrant = s.dmaGrant := rfl
@[simp] theorem State.modPwm_bridge (s : State) (c : Fin 8) (f : Pwm → Pwm) : (s.modPwm c f).bridge = s.bridge := rfl
@[simp] theorem State.modPwm_power (s : State) (c : Fin 8) (f : Pwm → Pwm) : (s.modPwm c f).power = s.power := rfl
@[simp] theorem State.modPwm_guards (s : State) (c : Fin 8) (f : Pwm → Pwm) : (s.modPwm c f).guards = s.guards := rfl
@[simp] theorem State.modPwm_bcast (s : State) (c : Fin 8) (f : Pwm → Pwm) : (s.modPwm c f).bcast = s.bcast := rfl
@[simp] theorem State.modPwm_stopLow (s : State) (c : Fin 8) (f : Pwm → Pwm) : (s.modPwm c f).stopLow = s.stopLow := rfl
@[simp] theorem State.modPwm_sec (s : State) (c : Fin 8) (f : Pwm → Pwm) : (s.modPwm c f).sec = s.sec := rfl
@[simp] theorem State.modPwm_cxl (s : State) (c : Fin 8) (f : Pwm → Pwm) : (s.modPwm c f).cxl = s.cxl := rfl
@[simp] theorem State.modPwm_cmd (s : State) (c : Fin 8) (f : Pwm → Pwm) : (s.modPwm c f).cmd = s.cmd := rfl
@[simp] theorem State.modPwm_trace (s : State) (c : Fin 8) (f : Pwm → Pwm) : (s.modPwm c f).trace = s.trace := rfl
@[simp] theorem State.modPwm_fab (s : State) (c : Fin 8) (f : Pwm → Pwm) : (s.modPwm c f).fab = s.fab := rfl
@[simp] theorem State.modPwm_msixOut (s : State) (c : Fin 8) (f : Pwm → Pwm) : (s.modPwm c f).msixOut = s.msixOut := rfl
@[simp] theorem State.modPwm_viralOut (s : State) (c : Fin 8) (f : Pwm → Pwm) : (s.modPwm c f).viralOut = s.viralOut := rfl

/-! ### `modCh`: a channel changes -/

@[simp] theorem State.modCh_pending (s : State) (c : Fin 8) (k : Fin 18) (f : PwmCh → PwmCh) : (s.modCh c k f).pending = s.pending := rfl
@[simp] theorem State.modCh_resp (s : State) (c : Fin 8) (k : Fin 18) (f : PwmCh → PwmCh) : (s.modCh c k f).resp = s.resp := rfl
@[simp] theorem State.modCh_free (s : State) (c : Fin 8) (k : Fin 18) (f : PwmCh → PwmCh) : (s.modCh c k f).free = s.free := rfl
@[simp] theorem State.modCh_time (s : State) (c : Fin 8) (k : Fin 18) (f : PwmCh → PwmCh) : (s.modCh c k f).time = s.time := rfl
@[simp] theorem State.modCh_regs (s : State) (c : Fin 8) (k : Fin 18) (f : PwmCh → PwmCh) : (s.modCh c k f).regs = s.regs := rfl
@[simp] theorem State.modCh_hot (s : State) (c : Fin 8) (k : Fin 18) (f : PwmCh → PwmCh) : (s.modCh c k f).hot = s.hot := rfl
@[simp] theorem State.modCh_snaps (s : State) (c : Fin 8) (k : Fin 18) (f : PwmCh → PwmCh) : (s.modCh c k f).snaps = s.snaps := rfl
@[simp] theorem State.modCh_mem (s : State) (c : Fin 8) (k : Fin 18) (f : PwmCh → PwmCh) : (s.modCh c k f).mem = s.mem := rfl
@[simp] theorem State.modCh_cores (s : State) (c : Fin 8) (k : Fin 18) (f : PwmCh → PwmCh) : (s.modCh c k f).cores = s.cores := rfl
@[simp] theorem State.modCh_pairs (s : State) (c : Fin 8) (k : Fin 18) (f : PwmCh → PwmCh) : (s.modCh c k f).pairs = s.pairs := rfl
@[simp] theorem State.modCh_irq (s : State) (c : Fin 8) (k : Fin 18) (f : PwmCh → PwmCh) : (s.modCh c k f).irq = s.irq := rfl
@[simp] theorem State.modCh_ecc (s : State) (c : Fin 8) (k : Fin 18) (f : PwmCh → PwmCh) : (s.modCh c k f).ecc = s.ecc := rfl
@[simp] theorem State.modCh_l2ecc (s : State) (c : Fin 8) (k : Fin 18) (f : PwmCh → PwmCh) : (s.modCh c k f).l2ecc = s.l2ecc := rfl
@[simp] theorem State.modCh_flsMark (s : State) (c : Fin 8) (k : Fin 18) (f : PwmCh → PwmCh) : (s.modCh c k f).flsMark = s.flsMark := rfl
@[simp] theorem State.modCh_flash (s : State) (c : Fin 8) (k : Fin 18) (f : PwmCh → PwmCh) : (s.modCh c k f).flash = s.flash := rfl
@[simp] theorem State.modCh_fbPend (s : State) (c : Fin 8) (k : Fin 18) (f : PwmCh → PwmCh) : (s.modCh c k f).fbPend = s.fbPend := rfl
@[simp] theorem State.modCh_remap (s : State) (c : Fin 8) (k : Fin 18) (f : PwmCh → PwmCh) : (s.modCh c k f).remap = s.remap := rfl
@[simp] theorem State.modCh_remapPend (s : State) (c : Fin 8) (k : Fin 18) (f : PwmCh → PwmCh) : (s.modCh c k f).remapPend = s.remapPend := rfl
@[simp] theorem State.modCh_btAt (s : State) (c : Fin 8) (k : Fin 18) (f : PwmCh → PwmCh) : (s.modCh c k f).btAt = s.btAt := rfl
@[simp] theorem State.modCh_flsLines (s : State) (c : Fin 8) (k : Fin 18) (f : PwmCh → PwmCh) : (s.modCh c k f).flsLines = s.flsLines := rfl
@[simp] theorem State.modCh_thrHit (s : State) (c : Fin 8) (k : Fin 18) (f : PwmCh → PwmCh) : (s.modCh c k f).thrHit = s.thrHit := rfl
@[simp] theorem State.modCh_dma (s : State) (c : Fin 8) (k : Fin 18) (f : PwmCh → PwmCh) : (s.modCh c k f).dma = s.dma := rfl
@[simp] theorem State.modCh_dmaGrant (s : State) (c : Fin 8) (k : Fin 18) (f : PwmCh → PwmCh) : (s.modCh c k f).dmaGrant = s.dmaGrant := rfl
@[simp] theorem State.modCh_bridge (s : State) (c : Fin 8) (k : Fin 18) (f : PwmCh → PwmCh) : (s.modCh c k f).bridge = s.bridge := rfl
@[simp] theorem State.modCh_power (s : State) (c : Fin 8) (k : Fin 18) (f : PwmCh → PwmCh) : (s.modCh c k f).power = s.power := rfl
@[simp] theorem State.modCh_guards (s : State) (c : Fin 8) (k : Fin 18) (f : PwmCh → PwmCh) : (s.modCh c k f).guards = s.guards := rfl
@[simp] theorem State.modCh_bcast (s : State) (c : Fin 8) (k : Fin 18) (f : PwmCh → PwmCh) : (s.modCh c k f).bcast = s.bcast := rfl
@[simp] theorem State.modCh_stopLow (s : State) (c : Fin 8) (k : Fin 18) (f : PwmCh → PwmCh) : (s.modCh c k f).stopLow = s.stopLow := rfl
@[simp] theorem State.modCh_sec (s : State) (c : Fin 8) (k : Fin 18) (f : PwmCh → PwmCh) : (s.modCh c k f).sec = s.sec := rfl
@[simp] theorem State.modCh_cxl (s : State) (c : Fin 8) (k : Fin 18) (f : PwmCh → PwmCh) : (s.modCh c k f).cxl = s.cxl := rfl
@[simp] theorem State.modCh_cmd (s : State) (c : Fin 8) (k : Fin 18) (f : PwmCh → PwmCh) : (s.modCh c k f).cmd = s.cmd := rfl
@[simp] theorem State.modCh_trace (s : State) (c : Fin 8) (k : Fin 18) (f : PwmCh → PwmCh) : (s.modCh c k f).trace = s.trace := rfl
@[simp] theorem State.modCh_fab (s : State) (c : Fin 8) (k : Fin 18) (f : PwmCh → PwmCh) : (s.modCh c k f).fab = s.fab := rfl
@[simp] theorem State.modCh_msixOut (s : State) (c : Fin 8) (k : Fin 18) (f : PwmCh → PwmCh) : (s.modCh c k f).msixOut = s.msixOut := rfl
@[simp] theorem State.modCh_viralOut (s : State) (c : Fin 8) (k : Fin 18) (f : PwmCh → PwmCh) : (s.modCh c k f).viralOut = s.viralOut := rfl

/-! ### `modCar`: a carrier changes -/

@[simp] theorem State.modCar_pending (s : State) (c : Fin 8) (f : Carrier → Carrier) : (s.modCar c f).pending = s.pending := rfl
@[simp] theorem State.modCar_resp (s : State) (c : Fin 8) (f : Carrier → Carrier) : (s.modCar c f).resp = s.resp := rfl
@[simp] theorem State.modCar_free (s : State) (c : Fin 8) (f : Carrier → Carrier) : (s.modCar c f).free = s.free := rfl
@[simp] theorem State.modCar_time (s : State) (c : Fin 8) (f : Carrier → Carrier) : (s.modCar c f).time = s.time := rfl
@[simp] theorem State.modCar_regs (s : State) (c : Fin 8) (f : Carrier → Carrier) : (s.modCar c f).regs = s.regs := rfl
@[simp] theorem State.modCar_hot (s : State) (c : Fin 8) (f : Carrier → Carrier) : (s.modCar c f).hot = s.hot := rfl
@[simp] theorem State.modCar_snaps (s : State) (c : Fin 8) (f : Carrier → Carrier) : (s.modCar c f).snaps = s.snaps := rfl
@[simp] theorem State.modCar_mem (s : State) (c : Fin 8) (f : Carrier → Carrier) : (s.modCar c f).mem = s.mem := rfl
@[simp] theorem State.modCar_cores (s : State) (c : Fin 8) (f : Carrier → Carrier) : (s.modCar c f).cores = s.cores := rfl
@[simp] theorem State.modCar_pairs (s : State) (c : Fin 8) (f : Carrier → Carrier) : (s.modCar c f).pairs = s.pairs := rfl
@[simp] theorem State.modCar_irq (s : State) (c : Fin 8) (f : Carrier → Carrier) : (s.modCar c f).irq = s.irq := rfl
@[simp] theorem State.modCar_ecc (s : State) (c : Fin 8) (f : Carrier → Carrier) : (s.modCar c f).ecc = s.ecc := rfl
@[simp] theorem State.modCar_l2ecc (s : State) (c : Fin 8) (f : Carrier → Carrier) : (s.modCar c f).l2ecc = s.l2ecc := rfl
@[simp] theorem State.modCar_flsMark (s : State) (c : Fin 8) (f : Carrier → Carrier) : (s.modCar c f).flsMark = s.flsMark := rfl
@[simp] theorem State.modCar_flash (s : State) (c : Fin 8) (f : Carrier → Carrier) : (s.modCar c f).flash = s.flash := rfl
@[simp] theorem State.modCar_fbPend (s : State) (c : Fin 8) (f : Carrier → Carrier) : (s.modCar c f).fbPend = s.fbPend := rfl
@[simp] theorem State.modCar_remap (s : State) (c : Fin 8) (f : Carrier → Carrier) : (s.modCar c f).remap = s.remap := rfl
@[simp] theorem State.modCar_remapPend (s : State) (c : Fin 8) (f : Carrier → Carrier) : (s.modCar c f).remapPend = s.remapPend := rfl
@[simp] theorem State.modCar_btAt (s : State) (c : Fin 8) (f : Carrier → Carrier) : (s.modCar c f).btAt = s.btAt := rfl
@[simp] theorem State.modCar_flsLines (s : State) (c : Fin 8) (f : Carrier → Carrier) : (s.modCar c f).flsLines = s.flsLines := rfl
@[simp] theorem State.modCar_thrHit (s : State) (c : Fin 8) (f : Carrier → Carrier) : (s.modCar c f).thrHit = s.thrHit := rfl
@[simp] theorem State.modCar_dma (s : State) (c : Fin 8) (f : Carrier → Carrier) : (s.modCar c f).dma = s.dma := rfl
@[simp] theorem State.modCar_dmaGrant (s : State) (c : Fin 8) (f : Carrier → Carrier) : (s.modCar c f).dmaGrant = s.dmaGrant := rfl
@[simp] theorem State.modCar_bridge (s : State) (c : Fin 8) (f : Carrier → Carrier) : (s.modCar c f).bridge = s.bridge := rfl
@[simp] theorem State.modCar_power (s : State) (c : Fin 8) (f : Carrier → Carrier) : (s.modCar c f).power = s.power := rfl
@[simp] theorem State.modCar_guards (s : State) (c : Fin 8) (f : Carrier → Carrier) : (s.modCar c f).guards = s.guards := rfl
@[simp] theorem State.modCar_bcast (s : State) (c : Fin 8) (f : Carrier → Carrier) : (s.modCar c f).bcast = s.bcast := rfl
@[simp] theorem State.modCar_stopLow (s : State) (c : Fin 8) (f : Carrier → Carrier) : (s.modCar c f).stopLow = s.stopLow := rfl
@[simp] theorem State.modCar_sec (s : State) (c : Fin 8) (f : Carrier → Carrier) : (s.modCar c f).sec = s.sec := rfl
@[simp] theorem State.modCar_cxl (s : State) (c : Fin 8) (f : Carrier → Carrier) : (s.modCar c f).cxl = s.cxl := rfl
@[simp] theorem State.modCar_cmd (s : State) (c : Fin 8) (f : Carrier → Carrier) : (s.modCar c f).cmd = s.cmd := rfl
@[simp] theorem State.modCar_trace (s : State) (c : Fin 8) (f : Carrier → Carrier) : (s.modCar c f).trace = s.trace := rfl
@[simp] theorem State.modCar_fab (s : State) (c : Fin 8) (f : Carrier → Carrier) : (s.modCar c f).fab = s.fab := rfl
@[simp] theorem State.modCar_msixOut (s : State) (c : Fin 8) (f : Carrier → Carrier) : (s.modCar c f).msixOut = s.msixOut := rfl
@[simp] theorem State.modCar_viralOut (s : State) (c : Fin 8) (f : Carrier → Carrier) : (s.modCar c f).viralOut = s.viralOut := rfl

/-! ### `modAdc`: an ADC core changes -/

@[simp] theorem State.modAdc_pending (s : State) (c j : Fin 8) (f : AdcCore → AdcCore) : (s.modAdc c j f).pending = s.pending := rfl
@[simp] theorem State.modAdc_resp (s : State) (c j : Fin 8) (f : AdcCore → AdcCore) : (s.modAdc c j f).resp = s.resp := rfl
@[simp] theorem State.modAdc_free (s : State) (c j : Fin 8) (f : AdcCore → AdcCore) : (s.modAdc c j f).free = s.free := rfl
@[simp] theorem State.modAdc_time (s : State) (c j : Fin 8) (f : AdcCore → AdcCore) : (s.modAdc c j f).time = s.time := rfl
@[simp] theorem State.modAdc_regs (s : State) (c j : Fin 8) (f : AdcCore → AdcCore) : (s.modAdc c j f).regs = s.regs := rfl
@[simp] theorem State.modAdc_hot (s : State) (c j : Fin 8) (f : AdcCore → AdcCore) : (s.modAdc c j f).hot = s.hot := rfl
@[simp] theorem State.modAdc_snaps (s : State) (c j : Fin 8) (f : AdcCore → AdcCore) : (s.modAdc c j f).snaps = s.snaps := rfl
@[simp] theorem State.modAdc_mem (s : State) (c j : Fin 8) (f : AdcCore → AdcCore) : (s.modAdc c j f).mem = s.mem := rfl
@[simp] theorem State.modAdc_cores (s : State) (c j : Fin 8) (f : AdcCore → AdcCore) : (s.modAdc c j f).cores = s.cores := rfl
@[simp] theorem State.modAdc_pairs (s : State) (c j : Fin 8) (f : AdcCore → AdcCore) : (s.modAdc c j f).pairs = s.pairs := rfl
@[simp] theorem State.modAdc_irq (s : State) (c j : Fin 8) (f : AdcCore → AdcCore) : (s.modAdc c j f).irq = s.irq := rfl
@[simp] theorem State.modAdc_ecc (s : State) (c j : Fin 8) (f : AdcCore → AdcCore) : (s.modAdc c j f).ecc = s.ecc := rfl
@[simp] theorem State.modAdc_l2ecc (s : State) (c j : Fin 8) (f : AdcCore → AdcCore) : (s.modAdc c j f).l2ecc = s.l2ecc := rfl
@[simp] theorem State.modAdc_flsMark (s : State) (c j : Fin 8) (f : AdcCore → AdcCore) : (s.modAdc c j f).flsMark = s.flsMark := rfl
@[simp] theorem State.modAdc_flash (s : State) (c j : Fin 8) (f : AdcCore → AdcCore) : (s.modAdc c j f).flash = s.flash := rfl
@[simp] theorem State.modAdc_fbPend (s : State) (c j : Fin 8) (f : AdcCore → AdcCore) : (s.modAdc c j f).fbPend = s.fbPend := rfl
@[simp] theorem State.modAdc_remap (s : State) (c j : Fin 8) (f : AdcCore → AdcCore) : (s.modAdc c j f).remap = s.remap := rfl
@[simp] theorem State.modAdc_remapPend (s : State) (c j : Fin 8) (f : AdcCore → AdcCore) : (s.modAdc c j f).remapPend = s.remapPend := rfl
@[simp] theorem State.modAdc_btAt (s : State) (c j : Fin 8) (f : AdcCore → AdcCore) : (s.modAdc c j f).btAt = s.btAt := rfl
@[simp] theorem State.modAdc_flsLines (s : State) (c j : Fin 8) (f : AdcCore → AdcCore) : (s.modAdc c j f).flsLines = s.flsLines := rfl
@[simp] theorem State.modAdc_thrHit (s : State) (c j : Fin 8) (f : AdcCore → AdcCore) : (s.modAdc c j f).thrHit = s.thrHit := rfl
@[simp] theorem State.modAdc_dma (s : State) (c j : Fin 8) (f : AdcCore → AdcCore) : (s.modAdc c j f).dma = s.dma := rfl
@[simp] theorem State.modAdc_dmaGrant (s : State) (c j : Fin 8) (f : AdcCore → AdcCore) : (s.modAdc c j f).dmaGrant = s.dmaGrant := rfl
@[simp] theorem State.modAdc_bridge (s : State) (c j : Fin 8) (f : AdcCore → AdcCore) : (s.modAdc c j f).bridge = s.bridge := rfl
@[simp] theorem State.modAdc_power (s : State) (c j : Fin 8) (f : AdcCore → AdcCore) : (s.modAdc c j f).power = s.power := rfl
@[simp] theorem State.modAdc_guards (s : State) (c j : Fin 8) (f : AdcCore → AdcCore) : (s.modAdc c j f).guards = s.guards := rfl
@[simp] theorem State.modAdc_bcast (s : State) (c j : Fin 8) (f : AdcCore → AdcCore) : (s.modAdc c j f).bcast = s.bcast := rfl
@[simp] theorem State.modAdc_stopLow (s : State) (c j : Fin 8) (f : AdcCore → AdcCore) : (s.modAdc c j f).stopLow = s.stopLow := rfl
@[simp] theorem State.modAdc_sec (s : State) (c j : Fin 8) (f : AdcCore → AdcCore) : (s.modAdc c j f).sec = s.sec := rfl
@[simp] theorem State.modAdc_cxl (s : State) (c j : Fin 8) (f : AdcCore → AdcCore) : (s.modAdc c j f).cxl = s.cxl := rfl
@[simp] theorem State.modAdc_cmd (s : State) (c j : Fin 8) (f : AdcCore → AdcCore) : (s.modAdc c j f).cmd = s.cmd := rfl
@[simp] theorem State.modAdc_trace (s : State) (c j : Fin 8) (f : AdcCore → AdcCore) : (s.modAdc c j f).trace = s.trace := rfl
@[simp] theorem State.modAdc_fab (s : State) (c j : Fin 8) (f : AdcCore → AdcCore) : (s.modAdc c j f).fab = s.fab := rfl
@[simp] theorem State.modAdc_msixOut (s : State) (c j : Fin 8) (f : AdcCore → AdcCore) : (s.modAdc c j f).msixOut = s.msixOut := rfl
@[simp] theorem State.modAdc_viralOut (s : State) (c j : Fin 8) (f : AdcCore → AdcCore) : (s.modAdc c j f).viralOut = s.viralOut := rfl

/-! ### `modSdm`: an SDM input changes -/

@[simp] theorem State.modSdm_pending (s : State) (c : Fin 8) (n : Fin 12) (f : SdmIn → SdmIn) : (s.modSdm c n f).pending = s.pending := rfl
@[simp] theorem State.modSdm_resp (s : State) (c : Fin 8) (n : Fin 12) (f : SdmIn → SdmIn) : (s.modSdm c n f).resp = s.resp := rfl
@[simp] theorem State.modSdm_free (s : State) (c : Fin 8) (n : Fin 12) (f : SdmIn → SdmIn) : (s.modSdm c n f).free = s.free := rfl
@[simp] theorem State.modSdm_time (s : State) (c : Fin 8) (n : Fin 12) (f : SdmIn → SdmIn) : (s.modSdm c n f).time = s.time := rfl
@[simp] theorem State.modSdm_regs (s : State) (c : Fin 8) (n : Fin 12) (f : SdmIn → SdmIn) : (s.modSdm c n f).regs = s.regs := rfl
@[simp] theorem State.modSdm_hot (s : State) (c : Fin 8) (n : Fin 12) (f : SdmIn → SdmIn) : (s.modSdm c n f).hot = s.hot := rfl
@[simp] theorem State.modSdm_snaps (s : State) (c : Fin 8) (n : Fin 12) (f : SdmIn → SdmIn) : (s.modSdm c n f).snaps = s.snaps := rfl
@[simp] theorem State.modSdm_mem (s : State) (c : Fin 8) (n : Fin 12) (f : SdmIn → SdmIn) : (s.modSdm c n f).mem = s.mem := rfl
@[simp] theorem State.modSdm_cores (s : State) (c : Fin 8) (n : Fin 12) (f : SdmIn → SdmIn) : (s.modSdm c n f).cores = s.cores := rfl
@[simp] theorem State.modSdm_pairs (s : State) (c : Fin 8) (n : Fin 12) (f : SdmIn → SdmIn) : (s.modSdm c n f).pairs = s.pairs := rfl
@[simp] theorem State.modSdm_irq (s : State) (c : Fin 8) (n : Fin 12) (f : SdmIn → SdmIn) : (s.modSdm c n f).irq = s.irq := rfl
@[simp] theorem State.modSdm_ecc (s : State) (c : Fin 8) (n : Fin 12) (f : SdmIn → SdmIn) : (s.modSdm c n f).ecc = s.ecc := rfl
@[simp] theorem State.modSdm_l2ecc (s : State) (c : Fin 8) (n : Fin 12) (f : SdmIn → SdmIn) : (s.modSdm c n f).l2ecc = s.l2ecc := rfl
@[simp] theorem State.modSdm_flsMark (s : State) (c : Fin 8) (n : Fin 12) (f : SdmIn → SdmIn) : (s.modSdm c n f).flsMark = s.flsMark := rfl
@[simp] theorem State.modSdm_flash (s : State) (c : Fin 8) (n : Fin 12) (f : SdmIn → SdmIn) : (s.modSdm c n f).flash = s.flash := rfl
@[simp] theorem State.modSdm_fbPend (s : State) (c : Fin 8) (n : Fin 12) (f : SdmIn → SdmIn) : (s.modSdm c n f).fbPend = s.fbPend := rfl
@[simp] theorem State.modSdm_remap (s : State) (c : Fin 8) (n : Fin 12) (f : SdmIn → SdmIn) : (s.modSdm c n f).remap = s.remap := rfl
@[simp] theorem State.modSdm_remapPend (s : State) (c : Fin 8) (n : Fin 12) (f : SdmIn → SdmIn) : (s.modSdm c n f).remapPend = s.remapPend := rfl
@[simp] theorem State.modSdm_btAt (s : State) (c : Fin 8) (n : Fin 12) (f : SdmIn → SdmIn) : (s.modSdm c n f).btAt = s.btAt := rfl
@[simp] theorem State.modSdm_flsLines (s : State) (c : Fin 8) (n : Fin 12) (f : SdmIn → SdmIn) : (s.modSdm c n f).flsLines = s.flsLines := rfl
@[simp] theorem State.modSdm_thrHit (s : State) (c : Fin 8) (n : Fin 12) (f : SdmIn → SdmIn) : (s.modSdm c n f).thrHit = s.thrHit := rfl
@[simp] theorem State.modSdm_dma (s : State) (c : Fin 8) (n : Fin 12) (f : SdmIn → SdmIn) : (s.modSdm c n f).dma = s.dma := rfl
@[simp] theorem State.modSdm_dmaGrant (s : State) (c : Fin 8) (n : Fin 12) (f : SdmIn → SdmIn) : (s.modSdm c n f).dmaGrant = s.dmaGrant := rfl
@[simp] theorem State.modSdm_bridge (s : State) (c : Fin 8) (n : Fin 12) (f : SdmIn → SdmIn) : (s.modSdm c n f).bridge = s.bridge := rfl
@[simp] theorem State.modSdm_power (s : State) (c : Fin 8) (n : Fin 12) (f : SdmIn → SdmIn) : (s.modSdm c n f).power = s.power := rfl
@[simp] theorem State.modSdm_guards (s : State) (c : Fin 8) (n : Fin 12) (f : SdmIn → SdmIn) : (s.modSdm c n f).guards = s.guards := rfl
@[simp] theorem State.modSdm_bcast (s : State) (c : Fin 8) (n : Fin 12) (f : SdmIn → SdmIn) : (s.modSdm c n f).bcast = s.bcast := rfl
@[simp] theorem State.modSdm_stopLow (s : State) (c : Fin 8) (n : Fin 12) (f : SdmIn → SdmIn) : (s.modSdm c n f).stopLow = s.stopLow := rfl
@[simp] theorem State.modSdm_sec (s : State) (c : Fin 8) (n : Fin 12) (f : SdmIn → SdmIn) : (s.modSdm c n f).sec = s.sec := rfl
@[simp] theorem State.modSdm_cxl (s : State) (c : Fin 8) (n : Fin 12) (f : SdmIn → SdmIn) : (s.modSdm c n f).cxl = s.cxl := rfl
@[simp] theorem State.modSdm_cmd (s : State) (c : Fin 8) (n : Fin 12) (f : SdmIn → SdmIn) : (s.modSdm c n f).cmd = s.cmd := rfl
@[simp] theorem State.modSdm_trace (s : State) (c : Fin 8) (n : Fin 12) (f : SdmIn → SdmIn) : (s.modSdm c n f).trace = s.trace := rfl
@[simp] theorem State.modSdm_fab (s : State) (c : Fin 8) (n : Fin 12) (f : SdmIn → SdmIn) : (s.modSdm c n f).fab = s.fab := rfl
@[simp] theorem State.modSdm_msixOut (s : State) (c : Fin 8) (n : Fin 12) (f : SdmIn → SdmIn) : (s.modSdm c n f).msixOut = s.msixOut := rfl
@[simp] theorem State.modSdm_viralOut (s : State) (c : Fin 8) (n : Fin 12) (f : SdmIn → SdmIn) : (s.modSdm c n f).viralOut = s.viralOut := rfl

/-! ### `modCmp`: a comparator changes -/

@[simp] theorem State.modCmp_pending (s : State) (c : Fin 8) (m : Fin 12) (f : CmpUnit → CmpUnit) : (s.modCmp c m f).pending = s.pending := rfl
@[simp] theorem State.modCmp_resp (s : State) (c : Fin 8) (m : Fin 12) (f : CmpUnit → CmpUnit) : (s.modCmp c m f).resp = s.resp := rfl
@[simp] theorem State.modCmp_free (s : State) (c : Fin 8) (m : Fin 12) (f : CmpUnit → CmpUnit) : (s.modCmp c m f).free = s.free := rfl
@[simp] theorem State.modCmp_time (s : State) (c : Fin 8) (m : Fin 12) (f : CmpUnit → CmpUnit) : (s.modCmp c m f).time = s.time := rfl
@[simp] theorem State.modCmp_regs (s : State) (c : Fin 8) (m : Fin 12) (f : CmpUnit → CmpUnit) : (s.modCmp c m f).regs = s.regs := rfl
@[simp] theorem State.modCmp_hot (s : State) (c : Fin 8) (m : Fin 12) (f : CmpUnit → CmpUnit) : (s.modCmp c m f).hot = s.hot := rfl
@[simp] theorem State.modCmp_snaps (s : State) (c : Fin 8) (m : Fin 12) (f : CmpUnit → CmpUnit) : (s.modCmp c m f).snaps = s.snaps := rfl
@[simp] theorem State.modCmp_mem (s : State) (c : Fin 8) (m : Fin 12) (f : CmpUnit → CmpUnit) : (s.modCmp c m f).mem = s.mem := rfl
@[simp] theorem State.modCmp_cores (s : State) (c : Fin 8) (m : Fin 12) (f : CmpUnit → CmpUnit) : (s.modCmp c m f).cores = s.cores := rfl
@[simp] theorem State.modCmp_pairs (s : State) (c : Fin 8) (m : Fin 12) (f : CmpUnit → CmpUnit) : (s.modCmp c m f).pairs = s.pairs := rfl
@[simp] theorem State.modCmp_irq (s : State) (c : Fin 8) (m : Fin 12) (f : CmpUnit → CmpUnit) : (s.modCmp c m f).irq = s.irq := rfl
@[simp] theorem State.modCmp_ecc (s : State) (c : Fin 8) (m : Fin 12) (f : CmpUnit → CmpUnit) : (s.modCmp c m f).ecc = s.ecc := rfl
@[simp] theorem State.modCmp_l2ecc (s : State) (c : Fin 8) (m : Fin 12) (f : CmpUnit → CmpUnit) : (s.modCmp c m f).l2ecc = s.l2ecc := rfl
@[simp] theorem State.modCmp_flsMark (s : State) (c : Fin 8) (m : Fin 12) (f : CmpUnit → CmpUnit) : (s.modCmp c m f).flsMark = s.flsMark := rfl
@[simp] theorem State.modCmp_flash (s : State) (c : Fin 8) (m : Fin 12) (f : CmpUnit → CmpUnit) : (s.modCmp c m f).flash = s.flash := rfl
@[simp] theorem State.modCmp_fbPend (s : State) (c : Fin 8) (m : Fin 12) (f : CmpUnit → CmpUnit) : (s.modCmp c m f).fbPend = s.fbPend := rfl
@[simp] theorem State.modCmp_remap (s : State) (c : Fin 8) (m : Fin 12) (f : CmpUnit → CmpUnit) : (s.modCmp c m f).remap = s.remap := rfl
@[simp] theorem State.modCmp_remapPend (s : State) (c : Fin 8) (m : Fin 12) (f : CmpUnit → CmpUnit) : (s.modCmp c m f).remapPend = s.remapPend := rfl
@[simp] theorem State.modCmp_btAt (s : State) (c : Fin 8) (m : Fin 12) (f : CmpUnit → CmpUnit) : (s.modCmp c m f).btAt = s.btAt := rfl
@[simp] theorem State.modCmp_flsLines (s : State) (c : Fin 8) (m : Fin 12) (f : CmpUnit → CmpUnit) : (s.modCmp c m f).flsLines = s.flsLines := rfl
@[simp] theorem State.modCmp_thrHit (s : State) (c : Fin 8) (m : Fin 12) (f : CmpUnit → CmpUnit) : (s.modCmp c m f).thrHit = s.thrHit := rfl
@[simp] theorem State.modCmp_dma (s : State) (c : Fin 8) (m : Fin 12) (f : CmpUnit → CmpUnit) : (s.modCmp c m f).dma = s.dma := rfl
@[simp] theorem State.modCmp_dmaGrant (s : State) (c : Fin 8) (m : Fin 12) (f : CmpUnit → CmpUnit) : (s.modCmp c m f).dmaGrant = s.dmaGrant := rfl
@[simp] theorem State.modCmp_bridge (s : State) (c : Fin 8) (m : Fin 12) (f : CmpUnit → CmpUnit) : (s.modCmp c m f).bridge = s.bridge := rfl
@[simp] theorem State.modCmp_power (s : State) (c : Fin 8) (m : Fin 12) (f : CmpUnit → CmpUnit) : (s.modCmp c m f).power = s.power := rfl
@[simp] theorem State.modCmp_guards (s : State) (c : Fin 8) (m : Fin 12) (f : CmpUnit → CmpUnit) : (s.modCmp c m f).guards = s.guards := rfl
@[simp] theorem State.modCmp_bcast (s : State) (c : Fin 8) (m : Fin 12) (f : CmpUnit → CmpUnit) : (s.modCmp c m f).bcast = s.bcast := rfl
@[simp] theorem State.modCmp_stopLow (s : State) (c : Fin 8) (m : Fin 12) (f : CmpUnit → CmpUnit) : (s.modCmp c m f).stopLow = s.stopLow := rfl
@[simp] theorem State.modCmp_sec (s : State) (c : Fin 8) (m : Fin 12) (f : CmpUnit → CmpUnit) : (s.modCmp c m f).sec = s.sec := rfl
@[simp] theorem State.modCmp_cxl (s : State) (c : Fin 8) (m : Fin 12) (f : CmpUnit → CmpUnit) : (s.modCmp c m f).cxl = s.cxl := rfl
@[simp] theorem State.modCmp_cmd (s : State) (c : Fin 8) (m : Fin 12) (f : CmpUnit → CmpUnit) : (s.modCmp c m f).cmd = s.cmd := rfl
@[simp] theorem State.modCmp_trace (s : State) (c : Fin 8) (m : Fin 12) (f : CmpUnit → CmpUnit) : (s.modCmp c m f).trace = s.trace := rfl
@[simp] theorem State.modCmp_fab (s : State) (c : Fin 8) (m : Fin 12) (f : CmpUnit → CmpUnit) : (s.modCmp c m f).fab = s.fab := rfl
@[simp] theorem State.modCmp_msixOut (s : State) (c : Fin 8) (m : Fin 12) (f : CmpUnit → CmpUnit) : (s.modCmp c m f).msixOut = s.msixOut := rfl
@[simp] theorem State.modCmp_viralOut (s : State) (c : Fin 8) (m : Fin 12) (f : CmpUnit → CmpUnit) : (s.modCmp c m f).viralOut = s.viralOut := rfl

/-! ### `modRb`: a readback unit changes -/

@[simp] theorem State.modRb_pending (s : State) (c : Fin 8) (f : Readback → Readback) : (s.modRb c f).pending = s.pending := rfl
@[simp] theorem State.modRb_resp (s : State) (c : Fin 8) (f : Readback → Readback) : (s.modRb c f).resp = s.resp := rfl
@[simp] theorem State.modRb_free (s : State) (c : Fin 8) (f : Readback → Readback) : (s.modRb c f).free = s.free := rfl
@[simp] theorem State.modRb_time (s : State) (c : Fin 8) (f : Readback → Readback) : (s.modRb c f).time = s.time := rfl
@[simp] theorem State.modRb_regs (s : State) (c : Fin 8) (f : Readback → Readback) : (s.modRb c f).regs = s.regs := rfl
@[simp] theorem State.modRb_hot (s : State) (c : Fin 8) (f : Readback → Readback) : (s.modRb c f).hot = s.hot := rfl
@[simp] theorem State.modRb_snaps (s : State) (c : Fin 8) (f : Readback → Readback) : (s.modRb c f).snaps = s.snaps := rfl
@[simp] theorem State.modRb_mem (s : State) (c : Fin 8) (f : Readback → Readback) : (s.modRb c f).mem = s.mem := rfl
@[simp] theorem State.modRb_cores (s : State) (c : Fin 8) (f : Readback → Readback) : (s.modRb c f).cores = s.cores := rfl
@[simp] theorem State.modRb_pairs (s : State) (c : Fin 8) (f : Readback → Readback) : (s.modRb c f).pairs = s.pairs := rfl
@[simp] theorem State.modRb_irq (s : State) (c : Fin 8) (f : Readback → Readback) : (s.modRb c f).irq = s.irq := rfl
@[simp] theorem State.modRb_ecc (s : State) (c : Fin 8) (f : Readback → Readback) : (s.modRb c f).ecc = s.ecc := rfl
@[simp] theorem State.modRb_l2ecc (s : State) (c : Fin 8) (f : Readback → Readback) : (s.modRb c f).l2ecc = s.l2ecc := rfl
@[simp] theorem State.modRb_flsMark (s : State) (c : Fin 8) (f : Readback → Readback) : (s.modRb c f).flsMark = s.flsMark := rfl
@[simp] theorem State.modRb_flash (s : State) (c : Fin 8) (f : Readback → Readback) : (s.modRb c f).flash = s.flash := rfl
@[simp] theorem State.modRb_fbPend (s : State) (c : Fin 8) (f : Readback → Readback) : (s.modRb c f).fbPend = s.fbPend := rfl
@[simp] theorem State.modRb_remap (s : State) (c : Fin 8) (f : Readback → Readback) : (s.modRb c f).remap = s.remap := rfl
@[simp] theorem State.modRb_remapPend (s : State) (c : Fin 8) (f : Readback → Readback) : (s.modRb c f).remapPend = s.remapPend := rfl
@[simp] theorem State.modRb_btAt (s : State) (c : Fin 8) (f : Readback → Readback) : (s.modRb c f).btAt = s.btAt := rfl
@[simp] theorem State.modRb_flsLines (s : State) (c : Fin 8) (f : Readback → Readback) : (s.modRb c f).flsLines = s.flsLines := rfl
@[simp] theorem State.modRb_thrHit (s : State) (c : Fin 8) (f : Readback → Readback) : (s.modRb c f).thrHit = s.thrHit := rfl
@[simp] theorem State.modRb_dma (s : State) (c : Fin 8) (f : Readback → Readback) : (s.modRb c f).dma = s.dma := rfl
@[simp] theorem State.modRb_dmaGrant (s : State) (c : Fin 8) (f : Readback → Readback) : (s.modRb c f).dmaGrant = s.dmaGrant := rfl
@[simp] theorem State.modRb_bridge (s : State) (c : Fin 8) (f : Readback → Readback) : (s.modRb c f).bridge = s.bridge := rfl
@[simp] theorem State.modRb_power (s : State) (c : Fin 8) (f : Readback → Readback) : (s.modRb c f).power = s.power := rfl
@[simp] theorem State.modRb_guards (s : State) (c : Fin 8) (f : Readback → Readback) : (s.modRb c f).guards = s.guards := rfl
@[simp] theorem State.modRb_bcast (s : State) (c : Fin 8) (f : Readback → Readback) : (s.modRb c f).bcast = s.bcast := rfl
@[simp] theorem State.modRb_stopLow (s : State) (c : Fin 8) (f : Readback → Readback) : (s.modRb c f).stopLow = s.stopLow := rfl
@[simp] theorem State.modRb_sec (s : State) (c : Fin 8) (f : Readback → Readback) : (s.modRb c f).sec = s.sec := rfl
@[simp] theorem State.modRb_cxl (s : State) (c : Fin 8) (f : Readback → Readback) : (s.modRb c f).cxl = s.cxl := rfl
@[simp] theorem State.modRb_cmd (s : State) (c : Fin 8) (f : Readback → Readback) : (s.modRb c f).cmd = s.cmd := rfl
@[simp] theorem State.modRb_trace (s : State) (c : Fin 8) (f : Readback → Readback) : (s.modRb c f).trace = s.trace := rfl
@[simp] theorem State.modRb_fab (s : State) (c : Fin 8) (f : Readback → Readback) : (s.modRb c f).fab = s.fab := rfl
@[simp] theorem State.modRb_msixOut (s : State) (c : Fin 8) (f : Readback → Readback) : (s.modRb c f).msixOut = s.msixOut := rfl
@[simp] theorem State.modRb_viralOut (s : State) (c : Fin 8) (f : Readback → Readback) : (s.modRb c f).viralOut = s.viralOut := rfl

/-! ### `modFb`: a feedback unit changes -/

@[simp] theorem State.modFb_pending (s : State) (c : Fin 8) (n : Fin 6) (f : Feedback → Feedback) : (s.modFb c n f).pending = s.pending := rfl
@[simp] theorem State.modFb_resp (s : State) (c : Fin 8) (n : Fin 6) (f : Feedback → Feedback) : (s.modFb c n f).resp = s.resp := rfl
@[simp] theorem State.modFb_free (s : State) (c : Fin 8) (n : Fin 6) (f : Feedback → Feedback) : (s.modFb c n f).free = s.free := rfl
@[simp] theorem State.modFb_time (s : State) (c : Fin 8) (n : Fin 6) (f : Feedback → Feedback) : (s.modFb c n f).time = s.time := rfl
@[simp] theorem State.modFb_regs (s : State) (c : Fin 8) (n : Fin 6) (f : Feedback → Feedback) : (s.modFb c n f).regs = s.regs := rfl
@[simp] theorem State.modFb_hot (s : State) (c : Fin 8) (n : Fin 6) (f : Feedback → Feedback) : (s.modFb c n f).hot = s.hot := rfl
@[simp] theorem State.modFb_snaps (s : State) (c : Fin 8) (n : Fin 6) (f : Feedback → Feedback) : (s.modFb c n f).snaps = s.snaps := rfl
@[simp] theorem State.modFb_mem (s : State) (c : Fin 8) (n : Fin 6) (f : Feedback → Feedback) : (s.modFb c n f).mem = s.mem := rfl
@[simp] theorem State.modFb_cores (s : State) (c : Fin 8) (n : Fin 6) (f : Feedback → Feedback) : (s.modFb c n f).cores = s.cores := rfl
@[simp] theorem State.modFb_pairs (s : State) (c : Fin 8) (n : Fin 6) (f : Feedback → Feedback) : (s.modFb c n f).pairs = s.pairs := rfl
@[simp] theorem State.modFb_irq (s : State) (c : Fin 8) (n : Fin 6) (f : Feedback → Feedback) : (s.modFb c n f).irq = s.irq := rfl
@[simp] theorem State.modFb_ecc (s : State) (c : Fin 8) (n : Fin 6) (f : Feedback → Feedback) : (s.modFb c n f).ecc = s.ecc := rfl
@[simp] theorem State.modFb_l2ecc (s : State) (c : Fin 8) (n : Fin 6) (f : Feedback → Feedback) : (s.modFb c n f).l2ecc = s.l2ecc := rfl
@[simp] theorem State.modFb_flsMark (s : State) (c : Fin 8) (n : Fin 6) (f : Feedback → Feedback) : (s.modFb c n f).flsMark = s.flsMark := rfl
@[simp] theorem State.modFb_flash (s : State) (c : Fin 8) (n : Fin 6) (f : Feedback → Feedback) : (s.modFb c n f).flash = s.flash := rfl
@[simp] theorem State.modFb_fbPend (s : State) (c : Fin 8) (n : Fin 6) (f : Feedback → Feedback) : (s.modFb c n f).fbPend = s.fbPend := rfl
@[simp] theorem State.modFb_remap (s : State) (c : Fin 8) (n : Fin 6) (f : Feedback → Feedback) : (s.modFb c n f).remap = s.remap := rfl
@[simp] theorem State.modFb_remapPend (s : State) (c : Fin 8) (n : Fin 6) (f : Feedback → Feedback) : (s.modFb c n f).remapPend = s.remapPend := rfl
@[simp] theorem State.modFb_btAt (s : State) (c : Fin 8) (n : Fin 6) (f : Feedback → Feedback) : (s.modFb c n f).btAt = s.btAt := rfl
@[simp] theorem State.modFb_flsLines (s : State) (c : Fin 8) (n : Fin 6) (f : Feedback → Feedback) : (s.modFb c n f).flsLines = s.flsLines := rfl
@[simp] theorem State.modFb_thrHit (s : State) (c : Fin 8) (n : Fin 6) (f : Feedback → Feedback) : (s.modFb c n f).thrHit = s.thrHit := rfl
@[simp] theorem State.modFb_dma (s : State) (c : Fin 8) (n : Fin 6) (f : Feedback → Feedback) : (s.modFb c n f).dma = s.dma := rfl
@[simp] theorem State.modFb_dmaGrant (s : State) (c : Fin 8) (n : Fin 6) (f : Feedback → Feedback) : (s.modFb c n f).dmaGrant = s.dmaGrant := rfl
@[simp] theorem State.modFb_bridge (s : State) (c : Fin 8) (n : Fin 6) (f : Feedback → Feedback) : (s.modFb c n f).bridge = s.bridge := rfl
@[simp] theorem State.modFb_power (s : State) (c : Fin 8) (n : Fin 6) (f : Feedback → Feedback) : (s.modFb c n f).power = s.power := rfl
@[simp] theorem State.modFb_guards (s : State) (c : Fin 8) (n : Fin 6) (f : Feedback → Feedback) : (s.modFb c n f).guards = s.guards := rfl
@[simp] theorem State.modFb_bcast (s : State) (c : Fin 8) (n : Fin 6) (f : Feedback → Feedback) : (s.modFb c n f).bcast = s.bcast := rfl
@[simp] theorem State.modFb_stopLow (s : State) (c : Fin 8) (n : Fin 6) (f : Feedback → Feedback) : (s.modFb c n f).stopLow = s.stopLow := rfl
@[simp] theorem State.modFb_sec (s : State) (c : Fin 8) (n : Fin 6) (f : Feedback → Feedback) : (s.modFb c n f).sec = s.sec := rfl
@[simp] theorem State.modFb_cxl (s : State) (c : Fin 8) (n : Fin 6) (f : Feedback → Feedback) : (s.modFb c n f).cxl = s.cxl := rfl
@[simp] theorem State.modFb_cmd (s : State) (c : Fin 8) (n : Fin 6) (f : Feedback → Feedback) : (s.modFb c n f).cmd = s.cmd := rfl
@[simp] theorem State.modFb_trace (s : State) (c : Fin 8) (n : Fin 6) (f : Feedback → Feedback) : (s.modFb c n f).trace = s.trace := rfl
@[simp] theorem State.modFb_fab (s : State) (c : Fin 8) (n : Fin 6) (f : Feedback → Feedback) : (s.modFb c n f).fab = s.fab := rfl
@[simp] theorem State.modFb_msixOut (s : State) (c : Fin 8) (n : Fin 6) (f : Feedback → Feedback) : (s.modFb c n f).msixOut = s.msixOut := rfl
@[simp] theorem State.modFb_viralOut (s : State) (c : Fin 8) (n : Fin 6) (f : Feedback → Feedback) : (s.modFb c n f).viralOut = s.viralOut := rfl

/-! ### `modSmp`: a sample unit changes -/

@[simp] theorem State.modSmp_pending (s : State) (c : Fin 8) (f : Smp → Smp) : (s.modSmp c f).pending = s.pending := rfl
@[simp] theorem State.modSmp_resp (s : State) (c : Fin 8) (f : Smp → Smp) : (s.modSmp c f).resp = s.resp := rfl
@[simp] theorem State.modSmp_free (s : State) (c : Fin 8) (f : Smp → Smp) : (s.modSmp c f).free = s.free := rfl
@[simp] theorem State.modSmp_time (s : State) (c : Fin 8) (f : Smp → Smp) : (s.modSmp c f).time = s.time := rfl
@[simp] theorem State.modSmp_regs (s : State) (c : Fin 8) (f : Smp → Smp) : (s.modSmp c f).regs = s.regs := rfl
@[simp] theorem State.modSmp_hot (s : State) (c : Fin 8) (f : Smp → Smp) : (s.modSmp c f).hot = s.hot := rfl
@[simp] theorem State.modSmp_snaps (s : State) (c : Fin 8) (f : Smp → Smp) : (s.modSmp c f).snaps = s.snaps := rfl
@[simp] theorem State.modSmp_mem (s : State) (c : Fin 8) (f : Smp → Smp) : (s.modSmp c f).mem = s.mem := rfl
@[simp] theorem State.modSmp_cores (s : State) (c : Fin 8) (f : Smp → Smp) : (s.modSmp c f).cores = s.cores := rfl
@[simp] theorem State.modSmp_pairs (s : State) (c : Fin 8) (f : Smp → Smp) : (s.modSmp c f).pairs = s.pairs := rfl
@[simp] theorem State.modSmp_irq (s : State) (c : Fin 8) (f : Smp → Smp) : (s.modSmp c f).irq = s.irq := rfl
@[simp] theorem State.modSmp_ecc (s : State) (c : Fin 8) (f : Smp → Smp) : (s.modSmp c f).ecc = s.ecc := rfl
@[simp] theorem State.modSmp_l2ecc (s : State) (c : Fin 8) (f : Smp → Smp) : (s.modSmp c f).l2ecc = s.l2ecc := rfl
@[simp] theorem State.modSmp_flsMark (s : State) (c : Fin 8) (f : Smp → Smp) : (s.modSmp c f).flsMark = s.flsMark := rfl
@[simp] theorem State.modSmp_flash (s : State) (c : Fin 8) (f : Smp → Smp) : (s.modSmp c f).flash = s.flash := rfl
@[simp] theorem State.modSmp_fbPend (s : State) (c : Fin 8) (f : Smp → Smp) : (s.modSmp c f).fbPend = s.fbPend := rfl
@[simp] theorem State.modSmp_remap (s : State) (c : Fin 8) (f : Smp → Smp) : (s.modSmp c f).remap = s.remap := rfl
@[simp] theorem State.modSmp_remapPend (s : State) (c : Fin 8) (f : Smp → Smp) : (s.modSmp c f).remapPend = s.remapPend := rfl
@[simp] theorem State.modSmp_btAt (s : State) (c : Fin 8) (f : Smp → Smp) : (s.modSmp c f).btAt = s.btAt := rfl
@[simp] theorem State.modSmp_flsLines (s : State) (c : Fin 8) (f : Smp → Smp) : (s.modSmp c f).flsLines = s.flsLines := rfl
@[simp] theorem State.modSmp_thrHit (s : State) (c : Fin 8) (f : Smp → Smp) : (s.modSmp c f).thrHit = s.thrHit := rfl
@[simp] theorem State.modSmp_dma (s : State) (c : Fin 8) (f : Smp → Smp) : (s.modSmp c f).dma = s.dma := rfl
@[simp] theorem State.modSmp_dmaGrant (s : State) (c : Fin 8) (f : Smp → Smp) : (s.modSmp c f).dmaGrant = s.dmaGrant := rfl
@[simp] theorem State.modSmp_bridge (s : State) (c : Fin 8) (f : Smp → Smp) : (s.modSmp c f).bridge = s.bridge := rfl
@[simp] theorem State.modSmp_power (s : State) (c : Fin 8) (f : Smp → Smp) : (s.modSmp c f).power = s.power := rfl
@[simp] theorem State.modSmp_guards (s : State) (c : Fin 8) (f : Smp → Smp) : (s.modSmp c f).guards = s.guards := rfl
@[simp] theorem State.modSmp_bcast (s : State) (c : Fin 8) (f : Smp → Smp) : (s.modSmp c f).bcast = s.bcast := rfl
@[simp] theorem State.modSmp_stopLow (s : State) (c : Fin 8) (f : Smp → Smp) : (s.modSmp c f).stopLow = s.stopLow := rfl
@[simp] theorem State.modSmp_sec (s : State) (c : Fin 8) (f : Smp → Smp) : (s.modSmp c f).sec = s.sec := rfl
@[simp] theorem State.modSmp_cxl (s : State) (c : Fin 8) (f : Smp → Smp) : (s.modSmp c f).cxl = s.cxl := rfl
@[simp] theorem State.modSmp_cmd (s : State) (c : Fin 8) (f : Smp → Smp) : (s.modSmp c f).cmd = s.cmd := rfl
@[simp] theorem State.modSmp_trace (s : State) (c : Fin 8) (f : Smp → Smp) : (s.modSmp c f).trace = s.trace := rfl
@[simp] theorem State.modSmp_fab (s : State) (c : Fin 8) (f : Smp → Smp) : (s.modSmp c f).fab = s.fab := rfl
@[simp] theorem State.modSmp_msixOut (s : State) (c : Fin 8) (f : Smp → Smp) : (s.modSmp c f).msixOut = s.msixOut := rfl
@[simp] theorem State.modSmp_viralOut (s : State) (c : Fin 8) (f : Smp → Smp) : (s.modSmp c f).viralOut = s.viralOut := rfl

/-! ### `modCore`: a core changes -/

@[simp] theorem State.modCore_pending (s : State) (c : CoreId) (f : Core → Core) : (s.modCore c f).pending = s.pending := rfl
@[simp] theorem State.modCore_resp (s : State) (c : CoreId) (f : Core → Core) : (s.modCore c f).resp = s.resp := rfl
@[simp] theorem State.modCore_free (s : State) (c : CoreId) (f : Core → Core) : (s.modCore c f).free = s.free := rfl
@[simp] theorem State.modCore_time (s : State) (c : CoreId) (f : Core → Core) : (s.modCore c f).time = s.time := rfl
@[simp] theorem State.modCore_regs (s : State) (c : CoreId) (f : Core → Core) : (s.modCore c f).regs = s.regs := rfl
@[simp] theorem State.modCore_hot (s : State) (c : CoreId) (f : Core → Core) : (s.modCore c f).hot = s.hot := rfl
@[simp] theorem State.modCore_snaps (s : State) (c : CoreId) (f : Core → Core) : (s.modCore c f).snaps = s.snaps := rfl
@[simp] theorem State.modCore_mem (s : State) (c : CoreId) (f : Core → Core) : (s.modCore c f).mem = s.mem := rfl
@[simp] theorem State.modCore_clusters (s : State) (c : CoreId) (f : Core → Core) : (s.modCore c f).clusters = s.clusters := rfl
@[simp] theorem State.modCore_pairs (s : State) (c : CoreId) (f : Core → Core) : (s.modCore c f).pairs = s.pairs := rfl
@[simp] theorem State.modCore_irq (s : State) (c : CoreId) (f : Core → Core) : (s.modCore c f).irq = s.irq := rfl
@[simp] theorem State.modCore_ecc (s : State) (c : CoreId) (f : Core → Core) : (s.modCore c f).ecc = s.ecc := rfl
@[simp] theorem State.modCore_l2ecc (s : State) (c : CoreId) (f : Core → Core) : (s.modCore c f).l2ecc = s.l2ecc := rfl
@[simp] theorem State.modCore_flsMark (s : State) (c : CoreId) (f : Core → Core) : (s.modCore c f).flsMark = s.flsMark := rfl
@[simp] theorem State.modCore_flash (s : State) (c : CoreId) (f : Core → Core) : (s.modCore c f).flash = s.flash := rfl
@[simp] theorem State.modCore_fbPend (s : State) (c : CoreId) (f : Core → Core) : (s.modCore c f).fbPend = s.fbPend := rfl
@[simp] theorem State.modCore_remap (s : State) (c : CoreId) (f : Core → Core) : (s.modCore c f).remap = s.remap := rfl
@[simp] theorem State.modCore_remapPend (s : State) (c : CoreId) (f : Core → Core) : (s.modCore c f).remapPend = s.remapPend := rfl
@[simp] theorem State.modCore_btAt (s : State) (c : CoreId) (f : Core → Core) : (s.modCore c f).btAt = s.btAt := rfl
@[simp] theorem State.modCore_flsLines (s : State) (c : CoreId) (f : Core → Core) : (s.modCore c f).flsLines = s.flsLines := rfl
@[simp] theorem State.modCore_thrHit (s : State) (c : CoreId) (f : Core → Core) : (s.modCore c f).thrHit = s.thrHit := rfl
@[simp] theorem State.modCore_dma (s : State) (c : CoreId) (f : Core → Core) : (s.modCore c f).dma = s.dma := rfl
@[simp] theorem State.modCore_dmaGrant (s : State) (c : CoreId) (f : Core → Core) : (s.modCore c f).dmaGrant = s.dmaGrant := rfl
@[simp] theorem State.modCore_bridge (s : State) (c : CoreId) (f : Core → Core) : (s.modCore c f).bridge = s.bridge := rfl
@[simp] theorem State.modCore_power (s : State) (c : CoreId) (f : Core → Core) : (s.modCore c f).power = s.power := rfl
@[simp] theorem State.modCore_guards (s : State) (c : CoreId) (f : Core → Core) : (s.modCore c f).guards = s.guards := rfl
@[simp] theorem State.modCore_bcast (s : State) (c : CoreId) (f : Core → Core) : (s.modCore c f).bcast = s.bcast := rfl
@[simp] theorem State.modCore_stopLow (s : State) (c : CoreId) (f : Core → Core) : (s.modCore c f).stopLow = s.stopLow := rfl
@[simp] theorem State.modCore_sec (s : State) (c : CoreId) (f : Core → Core) : (s.modCore c f).sec = s.sec := rfl
@[simp] theorem State.modCore_cxl (s : State) (c : CoreId) (f : Core → Core) : (s.modCore c f).cxl = s.cxl := rfl
@[simp] theorem State.modCore_cmd (s : State) (c : CoreId) (f : Core → Core) : (s.modCore c f).cmd = s.cmd := rfl
@[simp] theorem State.modCore_trace (s : State) (c : CoreId) (f : Core → Core) : (s.modCore c f).trace = s.trace := rfl
@[simp] theorem State.modCore_fab (s : State) (c : CoreId) (f : Core → Core) : (s.modCore c f).fab = s.fab := rfl
@[simp] theorem State.modCore_msixOut (s : State) (c : CoreId) (f : Core → Core) : (s.modCore c f).msixOut = s.msixOut := rfl
@[simp] theorem State.modCore_viralOut (s : State) (c : CoreId) (f : Core → Core) : (s.modCore c f).viralOut = s.viralOut := rfl

/-! ### `modPair`: a pair changes -/

@[simp] theorem State.modPair_pending (s : State) (k : Fin 36) (f : Pair → Pair) : (s.modPair k f).pending = s.pending := rfl
@[simp] theorem State.modPair_resp (s : State) (k : Fin 36) (f : Pair → Pair) : (s.modPair k f).resp = s.resp := rfl
@[simp] theorem State.modPair_free (s : State) (k : Fin 36) (f : Pair → Pair) : (s.modPair k f).free = s.free := rfl
@[simp] theorem State.modPair_time (s : State) (k : Fin 36) (f : Pair → Pair) : (s.modPair k f).time = s.time := rfl
@[simp] theorem State.modPair_regs (s : State) (k : Fin 36) (f : Pair → Pair) : (s.modPair k f).regs = s.regs := rfl
@[simp] theorem State.modPair_hot (s : State) (k : Fin 36) (f : Pair → Pair) : (s.modPair k f).hot = s.hot := rfl
@[simp] theorem State.modPair_snaps (s : State) (k : Fin 36) (f : Pair → Pair) : (s.modPair k f).snaps = s.snaps := rfl
@[simp] theorem State.modPair_mem (s : State) (k : Fin 36) (f : Pair → Pair) : (s.modPair k f).mem = s.mem := rfl
@[simp] theorem State.modPair_clusters (s : State) (k : Fin 36) (f : Pair → Pair) : (s.modPair k f).clusters = s.clusters := rfl
@[simp] theorem State.modPair_cores (s : State) (k : Fin 36) (f : Pair → Pair) : (s.modPair k f).cores = s.cores := rfl
@[simp] theorem State.modPair_irq (s : State) (k : Fin 36) (f : Pair → Pair) : (s.modPair k f).irq = s.irq := rfl
@[simp] theorem State.modPair_ecc (s : State) (k : Fin 36) (f : Pair → Pair) : (s.modPair k f).ecc = s.ecc := rfl
@[simp] theorem State.modPair_l2ecc (s : State) (k : Fin 36) (f : Pair → Pair) : (s.modPair k f).l2ecc = s.l2ecc := rfl
@[simp] theorem State.modPair_flsMark (s : State) (k : Fin 36) (f : Pair → Pair) : (s.modPair k f).flsMark = s.flsMark := rfl
@[simp] theorem State.modPair_flash (s : State) (k : Fin 36) (f : Pair → Pair) : (s.modPair k f).flash = s.flash := rfl
@[simp] theorem State.modPair_fbPend (s : State) (k : Fin 36) (f : Pair → Pair) : (s.modPair k f).fbPend = s.fbPend := rfl
@[simp] theorem State.modPair_remap (s : State) (k : Fin 36) (f : Pair → Pair) : (s.modPair k f).remap = s.remap := rfl
@[simp] theorem State.modPair_remapPend (s : State) (k : Fin 36) (f : Pair → Pair) : (s.modPair k f).remapPend = s.remapPend := rfl
@[simp] theorem State.modPair_btAt (s : State) (k : Fin 36) (f : Pair → Pair) : (s.modPair k f).btAt = s.btAt := rfl
@[simp] theorem State.modPair_flsLines (s : State) (k : Fin 36) (f : Pair → Pair) : (s.modPair k f).flsLines = s.flsLines := rfl
@[simp] theorem State.modPair_thrHit (s : State) (k : Fin 36) (f : Pair → Pair) : (s.modPair k f).thrHit = s.thrHit := rfl
@[simp] theorem State.modPair_dma (s : State) (k : Fin 36) (f : Pair → Pair) : (s.modPair k f).dma = s.dma := rfl
@[simp] theorem State.modPair_dmaGrant (s : State) (k : Fin 36) (f : Pair → Pair) : (s.modPair k f).dmaGrant = s.dmaGrant := rfl
@[simp] theorem State.modPair_bridge (s : State) (k : Fin 36) (f : Pair → Pair) : (s.modPair k f).bridge = s.bridge := rfl
@[simp] theorem State.modPair_power (s : State) (k : Fin 36) (f : Pair → Pair) : (s.modPair k f).power = s.power := rfl
@[simp] theorem State.modPair_guards (s : State) (k : Fin 36) (f : Pair → Pair) : (s.modPair k f).guards = s.guards := rfl
@[simp] theorem State.modPair_bcast (s : State) (k : Fin 36) (f : Pair → Pair) : (s.modPair k f).bcast = s.bcast := rfl
@[simp] theorem State.modPair_stopLow (s : State) (k : Fin 36) (f : Pair → Pair) : (s.modPair k f).stopLow = s.stopLow := rfl
@[simp] theorem State.modPair_sec (s : State) (k : Fin 36) (f : Pair → Pair) : (s.modPair k f).sec = s.sec := rfl
@[simp] theorem State.modPair_cxl (s : State) (k : Fin 36) (f : Pair → Pair) : (s.modPair k f).cxl = s.cxl := rfl
@[simp] theorem State.modPair_cmd (s : State) (k : Fin 36) (f : Pair → Pair) : (s.modPair k f).cmd = s.cmd := rfl
@[simp] theorem State.modPair_trace (s : State) (k : Fin 36) (f : Pair → Pair) : (s.modPair k f).trace = s.trace := rfl
@[simp] theorem State.modPair_fab (s : State) (k : Fin 36) (f : Pair → Pair) : (s.modPair k f).fab = s.fab := rfl
@[simp] theorem State.modPair_msixOut (s : State) (k : Fin 36) (f : Pair → Pair) : (s.modPair k f).msixOut = s.msixOut := rfl
@[simp] theorem State.modPair_viralOut (s : State) (k : Fin 36) (f : Pair → Pair) : (s.modPair k f).viralOut = s.viralOut := rfl

/-! ### `modDma`: a DMA channel changes -/

@[simp] theorem State.modDma_pending (s : State) (k : Fin 96) (f : DmaCh → DmaCh) : (s.modDma k f).pending = s.pending := rfl
@[simp] theorem State.modDma_resp (s : State) (k : Fin 96) (f : DmaCh → DmaCh) : (s.modDma k f).resp = s.resp := rfl
@[simp] theorem State.modDma_free (s : State) (k : Fin 96) (f : DmaCh → DmaCh) : (s.modDma k f).free = s.free := rfl
@[simp] theorem State.modDma_time (s : State) (k : Fin 96) (f : DmaCh → DmaCh) : (s.modDma k f).time = s.time := rfl
@[simp] theorem State.modDma_regs (s : State) (k : Fin 96) (f : DmaCh → DmaCh) : (s.modDma k f).regs = s.regs := rfl
@[simp] theorem State.modDma_hot (s : State) (k : Fin 96) (f : DmaCh → DmaCh) : (s.modDma k f).hot = s.hot := rfl
@[simp] theorem State.modDma_snaps (s : State) (k : Fin 96) (f : DmaCh → DmaCh) : (s.modDma k f).snaps = s.snaps := rfl
@[simp] theorem State.modDma_mem (s : State) (k : Fin 96) (f : DmaCh → DmaCh) : (s.modDma k f).mem = s.mem := rfl
@[simp] theorem State.modDma_clusters (s : State) (k : Fin 96) (f : DmaCh → DmaCh) : (s.modDma k f).clusters = s.clusters := rfl
@[simp] theorem State.modDma_cores (s : State) (k : Fin 96) (f : DmaCh → DmaCh) : (s.modDma k f).cores = s.cores := rfl
@[simp] theorem State.modDma_pairs (s : State) (k : Fin 96) (f : DmaCh → DmaCh) : (s.modDma k f).pairs = s.pairs := rfl
@[simp] theorem State.modDma_irq (s : State) (k : Fin 96) (f : DmaCh → DmaCh) : (s.modDma k f).irq = s.irq := rfl
@[simp] theorem State.modDma_ecc (s : State) (k : Fin 96) (f : DmaCh → DmaCh) : (s.modDma k f).ecc = s.ecc := rfl
@[simp] theorem State.modDma_l2ecc (s : State) (k : Fin 96) (f : DmaCh → DmaCh) : (s.modDma k f).l2ecc = s.l2ecc := rfl
@[simp] theorem State.modDma_flsMark (s : State) (k : Fin 96) (f : DmaCh → DmaCh) : (s.modDma k f).flsMark = s.flsMark := rfl
@[simp] theorem State.modDma_flash (s : State) (k : Fin 96) (f : DmaCh → DmaCh) : (s.modDma k f).flash = s.flash := rfl
@[simp] theorem State.modDma_fbPend (s : State) (k : Fin 96) (f : DmaCh → DmaCh) : (s.modDma k f).fbPend = s.fbPend := rfl
@[simp] theorem State.modDma_remap (s : State) (k : Fin 96) (f : DmaCh → DmaCh) : (s.modDma k f).remap = s.remap := rfl
@[simp] theorem State.modDma_remapPend (s : State) (k : Fin 96) (f : DmaCh → DmaCh) : (s.modDma k f).remapPend = s.remapPend := rfl
@[simp] theorem State.modDma_btAt (s : State) (k : Fin 96) (f : DmaCh → DmaCh) : (s.modDma k f).btAt = s.btAt := rfl
@[simp] theorem State.modDma_flsLines (s : State) (k : Fin 96) (f : DmaCh → DmaCh) : (s.modDma k f).flsLines = s.flsLines := rfl
@[simp] theorem State.modDma_thrHit (s : State) (k : Fin 96) (f : DmaCh → DmaCh) : (s.modDma k f).thrHit = s.thrHit := rfl
@[simp] theorem State.modDma_dmaGrant (s : State) (k : Fin 96) (f : DmaCh → DmaCh) : (s.modDma k f).dmaGrant = s.dmaGrant := rfl
@[simp] theorem State.modDma_bridge (s : State) (k : Fin 96) (f : DmaCh → DmaCh) : (s.modDma k f).bridge = s.bridge := rfl
@[simp] theorem State.modDma_power (s : State) (k : Fin 96) (f : DmaCh → DmaCh) : (s.modDma k f).power = s.power := rfl
@[simp] theorem State.modDma_guards (s : State) (k : Fin 96) (f : DmaCh → DmaCh) : (s.modDma k f).guards = s.guards := rfl
@[simp] theorem State.modDma_bcast (s : State) (k : Fin 96) (f : DmaCh → DmaCh) : (s.modDma k f).bcast = s.bcast := rfl
@[simp] theorem State.modDma_stopLow (s : State) (k : Fin 96) (f : DmaCh → DmaCh) : (s.modDma k f).stopLow = s.stopLow := rfl
@[simp] theorem State.modDma_sec (s : State) (k : Fin 96) (f : DmaCh → DmaCh) : (s.modDma k f).sec = s.sec := rfl
@[simp] theorem State.modDma_cxl (s : State) (k : Fin 96) (f : DmaCh → DmaCh) : (s.modDma k f).cxl = s.cxl := rfl
@[simp] theorem State.modDma_cmd (s : State) (k : Fin 96) (f : DmaCh → DmaCh) : (s.modDma k f).cmd = s.cmd := rfl
@[simp] theorem State.modDma_trace (s : State) (k : Fin 96) (f : DmaCh → DmaCh) : (s.modDma k f).trace = s.trace := rfl
@[simp] theorem State.modDma_fab (s : State) (k : Fin 96) (f : DmaCh → DmaCh) : (s.modDma k f).fab = s.fab := rfl
@[simp] theorem State.modDma_msixOut (s : State) (k : Fin 96) (f : DmaCh → DmaCh) : (s.modDma k f).msixOut = s.msixOut := rfl
@[simp] theorem State.modDma_viralOut (s : State) (k : Fin 96) (f : DmaCh → DmaCh) : (s.modDma k f).viralOut = s.viralOut := rfl

/-! ### `modBridge`: the bridge changes -/

@[simp] theorem State.modBridge_pending (s : State) (f : Bridge → Bridge) : (s.modBridge f).pending = s.pending := rfl
@[simp] theorem State.modBridge_resp (s : State) (f : Bridge → Bridge) : (s.modBridge f).resp = s.resp := rfl
@[simp] theorem State.modBridge_free (s : State) (f : Bridge → Bridge) : (s.modBridge f).free = s.free := rfl
@[simp] theorem State.modBridge_time (s : State) (f : Bridge → Bridge) : (s.modBridge f).time = s.time := rfl
@[simp] theorem State.modBridge_regs (s : State) (f : Bridge → Bridge) : (s.modBridge f).regs = s.regs := rfl
@[simp] theorem State.modBridge_hot (s : State) (f : Bridge → Bridge) : (s.modBridge f).hot = s.hot := rfl
@[simp] theorem State.modBridge_snaps (s : State) (f : Bridge → Bridge) : (s.modBridge f).snaps = s.snaps := rfl
@[simp] theorem State.modBridge_mem (s : State) (f : Bridge → Bridge) : (s.modBridge f).mem = s.mem := rfl
@[simp] theorem State.modBridge_clusters (s : State) (f : Bridge → Bridge) : (s.modBridge f).clusters = s.clusters := rfl
@[simp] theorem State.modBridge_cores (s : State) (f : Bridge → Bridge) : (s.modBridge f).cores = s.cores := rfl
@[simp] theorem State.modBridge_pairs (s : State) (f : Bridge → Bridge) : (s.modBridge f).pairs = s.pairs := rfl
@[simp] theorem State.modBridge_irq (s : State) (f : Bridge → Bridge) : (s.modBridge f).irq = s.irq := rfl
@[simp] theorem State.modBridge_ecc (s : State) (f : Bridge → Bridge) : (s.modBridge f).ecc = s.ecc := rfl
@[simp] theorem State.modBridge_l2ecc (s : State) (f : Bridge → Bridge) : (s.modBridge f).l2ecc = s.l2ecc := rfl
@[simp] theorem State.modBridge_flsMark (s : State) (f : Bridge → Bridge) : (s.modBridge f).flsMark = s.flsMark := rfl
@[simp] theorem State.modBridge_flash (s : State) (f : Bridge → Bridge) : (s.modBridge f).flash = s.flash := rfl
@[simp] theorem State.modBridge_fbPend (s : State) (f : Bridge → Bridge) : (s.modBridge f).fbPend = s.fbPend := rfl
@[simp] theorem State.modBridge_remap (s : State) (f : Bridge → Bridge) : (s.modBridge f).remap = s.remap := rfl
@[simp] theorem State.modBridge_remapPend (s : State) (f : Bridge → Bridge) : (s.modBridge f).remapPend = s.remapPend := rfl
@[simp] theorem State.modBridge_btAt (s : State) (f : Bridge → Bridge) : (s.modBridge f).btAt = s.btAt := rfl
@[simp] theorem State.modBridge_flsLines (s : State) (f : Bridge → Bridge) : (s.modBridge f).flsLines = s.flsLines := rfl
@[simp] theorem State.modBridge_thrHit (s : State) (f : Bridge → Bridge) : (s.modBridge f).thrHit = s.thrHit := rfl
@[simp] theorem State.modBridge_dma (s : State) (f : Bridge → Bridge) : (s.modBridge f).dma = s.dma := rfl
@[simp] theorem State.modBridge_dmaGrant (s : State) (f : Bridge → Bridge) : (s.modBridge f).dmaGrant = s.dmaGrant := rfl
@[simp] theorem State.modBridge_power (s : State) (f : Bridge → Bridge) : (s.modBridge f).power = s.power := rfl
@[simp] theorem State.modBridge_guards (s : State) (f : Bridge → Bridge) : (s.modBridge f).guards = s.guards := rfl
@[simp] theorem State.modBridge_bcast (s : State) (f : Bridge → Bridge) : (s.modBridge f).bcast = s.bcast := rfl
@[simp] theorem State.modBridge_stopLow (s : State) (f : Bridge → Bridge) : (s.modBridge f).stopLow = s.stopLow := rfl
@[simp] theorem State.modBridge_sec (s : State) (f : Bridge → Bridge) : (s.modBridge f).sec = s.sec := rfl
@[simp] theorem State.modBridge_cxl (s : State) (f : Bridge → Bridge) : (s.modBridge f).cxl = s.cxl := rfl
@[simp] theorem State.modBridge_cmd (s : State) (f : Bridge → Bridge) : (s.modBridge f).cmd = s.cmd := rfl
@[simp] theorem State.modBridge_trace (s : State) (f : Bridge → Bridge) : (s.modBridge f).trace = s.trace := rfl
@[simp] theorem State.modBridge_fab (s : State) (f : Bridge → Bridge) : (s.modBridge f).fab = s.fab := rfl
@[simp] theorem State.modBridge_msixOut (s : State) (f : Bridge → Bridge) : (s.modBridge f).msixOut = s.msixOut := rfl
@[simp] theorem State.modBridge_viralOut (s : State) (f : Bridge → Bridge) : (s.modBridge f).viralOut = s.viralOut := rfl

/-! ### `modBank`: a flash bank changes -/

@[simp] theorem State.modBank_pending (s : State) (b : Fin 5) (f : FlashBank → FlashBank) : (s.modBank b f).pending = s.pending := rfl
@[simp] theorem State.modBank_resp (s : State) (b : Fin 5) (f : FlashBank → FlashBank) : (s.modBank b f).resp = s.resp := rfl
@[simp] theorem State.modBank_free (s : State) (b : Fin 5) (f : FlashBank → FlashBank) : (s.modBank b f).free = s.free := rfl
@[simp] theorem State.modBank_time (s : State) (b : Fin 5) (f : FlashBank → FlashBank) : (s.modBank b f).time = s.time := rfl
@[simp] theorem State.modBank_regs (s : State) (b : Fin 5) (f : FlashBank → FlashBank) : (s.modBank b f).regs = s.regs := rfl
@[simp] theorem State.modBank_hot (s : State) (b : Fin 5) (f : FlashBank → FlashBank) : (s.modBank b f).hot = s.hot := rfl
@[simp] theorem State.modBank_snaps (s : State) (b : Fin 5) (f : FlashBank → FlashBank) : (s.modBank b f).snaps = s.snaps := rfl
@[simp] theorem State.modBank_mem (s : State) (b : Fin 5) (f : FlashBank → FlashBank) : (s.modBank b f).mem = s.mem := rfl
@[simp] theorem State.modBank_clusters (s : State) (b : Fin 5) (f : FlashBank → FlashBank) : (s.modBank b f).clusters = s.clusters := rfl
@[simp] theorem State.modBank_cores (s : State) (b : Fin 5) (f : FlashBank → FlashBank) : (s.modBank b f).cores = s.cores := rfl
@[simp] theorem State.modBank_pairs (s : State) (b : Fin 5) (f : FlashBank → FlashBank) : (s.modBank b f).pairs = s.pairs := rfl
@[simp] theorem State.modBank_irq (s : State) (b : Fin 5) (f : FlashBank → FlashBank) : (s.modBank b f).irq = s.irq := rfl
@[simp] theorem State.modBank_ecc (s : State) (b : Fin 5) (f : FlashBank → FlashBank) : (s.modBank b f).ecc = s.ecc := rfl
@[simp] theorem State.modBank_l2ecc (s : State) (b : Fin 5) (f : FlashBank → FlashBank) : (s.modBank b f).l2ecc = s.l2ecc := rfl
@[simp] theorem State.modBank_flsMark (s : State) (b : Fin 5) (f : FlashBank → FlashBank) : (s.modBank b f).flsMark = s.flsMark := rfl
@[simp] theorem State.modBank_fbPend (s : State) (b : Fin 5) (f : FlashBank → FlashBank) : (s.modBank b f).fbPend = s.fbPend := rfl
@[simp] theorem State.modBank_remap (s : State) (b : Fin 5) (f : FlashBank → FlashBank) : (s.modBank b f).remap = s.remap := rfl
@[simp] theorem State.modBank_remapPend (s : State) (b : Fin 5) (f : FlashBank → FlashBank) : (s.modBank b f).remapPend = s.remapPend := rfl
@[simp] theorem State.modBank_btAt (s : State) (b : Fin 5) (f : FlashBank → FlashBank) : (s.modBank b f).btAt = s.btAt := rfl
@[simp] theorem State.modBank_flsLines (s : State) (b : Fin 5) (f : FlashBank → FlashBank) : (s.modBank b f).flsLines = s.flsLines := rfl
@[simp] theorem State.modBank_thrHit (s : State) (b : Fin 5) (f : FlashBank → FlashBank) : (s.modBank b f).thrHit = s.thrHit := rfl
@[simp] theorem State.modBank_dma (s : State) (b : Fin 5) (f : FlashBank → FlashBank) : (s.modBank b f).dma = s.dma := rfl
@[simp] theorem State.modBank_dmaGrant (s : State) (b : Fin 5) (f : FlashBank → FlashBank) : (s.modBank b f).dmaGrant = s.dmaGrant := rfl
@[simp] theorem State.modBank_bridge (s : State) (b : Fin 5) (f : FlashBank → FlashBank) : (s.modBank b f).bridge = s.bridge := rfl
@[simp] theorem State.modBank_power (s : State) (b : Fin 5) (f : FlashBank → FlashBank) : (s.modBank b f).power = s.power := rfl
@[simp] theorem State.modBank_guards (s : State) (b : Fin 5) (f : FlashBank → FlashBank) : (s.modBank b f).guards = s.guards := rfl
@[simp] theorem State.modBank_bcast (s : State) (b : Fin 5) (f : FlashBank → FlashBank) : (s.modBank b f).bcast = s.bcast := rfl
@[simp] theorem State.modBank_stopLow (s : State) (b : Fin 5) (f : FlashBank → FlashBank) : (s.modBank b f).stopLow = s.stopLow := rfl
@[simp] theorem State.modBank_sec (s : State) (b : Fin 5) (f : FlashBank → FlashBank) : (s.modBank b f).sec = s.sec := rfl
@[simp] theorem State.modBank_cxl (s : State) (b : Fin 5) (f : FlashBank → FlashBank) : (s.modBank b f).cxl = s.cxl := rfl
@[simp] theorem State.modBank_cmd (s : State) (b : Fin 5) (f : FlashBank → FlashBank) : (s.modBank b f).cmd = s.cmd := rfl
@[simp] theorem State.modBank_trace (s : State) (b : Fin 5) (f : FlashBank → FlashBank) : (s.modBank b f).trace = s.trace := rfl
@[simp] theorem State.modBank_fab (s : State) (b : Fin 5) (f : FlashBank → FlashBank) : (s.modBank b f).fab = s.fab := rfl
@[simp] theorem State.modBank_msixOut (s : State) (b : Fin 5) (f : FlashBank → FlashBank) : (s.modBank b f).msixOut = s.msixOut := rfl
@[simp] theorem State.modBank_viralOut (s : State) (b : Fin 5) (f : FlashBank → FlashBank) : (s.modBank b f).viralOut = s.viralOut := rfl

/-! ### `modGuard`: an energy guard changes -/

@[simp] theorem State.modGuard_pending (s : State) (n : Fin 8) (f : Guard → Guard) : (s.modGuard n f).pending = s.pending := rfl
@[simp] theorem State.modGuard_resp (s : State) (n : Fin 8) (f : Guard → Guard) : (s.modGuard n f).resp = s.resp := rfl
@[simp] theorem State.modGuard_free (s : State) (n : Fin 8) (f : Guard → Guard) : (s.modGuard n f).free = s.free := rfl
@[simp] theorem State.modGuard_time (s : State) (n : Fin 8) (f : Guard → Guard) : (s.modGuard n f).time = s.time := rfl
@[simp] theorem State.modGuard_regs (s : State) (n : Fin 8) (f : Guard → Guard) : (s.modGuard n f).regs = s.regs := rfl
@[simp] theorem State.modGuard_hot (s : State) (n : Fin 8) (f : Guard → Guard) : (s.modGuard n f).hot = s.hot := rfl
@[simp] theorem State.modGuard_snaps (s : State) (n : Fin 8) (f : Guard → Guard) : (s.modGuard n f).snaps = s.snaps := rfl
@[simp] theorem State.modGuard_mem (s : State) (n : Fin 8) (f : Guard → Guard) : (s.modGuard n f).mem = s.mem := rfl
@[simp] theorem State.modGuard_clusters (s : State) (n : Fin 8) (f : Guard → Guard) : (s.modGuard n f).clusters = s.clusters := rfl
@[simp] theorem State.modGuard_cores (s : State) (n : Fin 8) (f : Guard → Guard) : (s.modGuard n f).cores = s.cores := rfl
@[simp] theorem State.modGuard_pairs (s : State) (n : Fin 8) (f : Guard → Guard) : (s.modGuard n f).pairs = s.pairs := rfl
@[simp] theorem State.modGuard_irq (s : State) (n : Fin 8) (f : Guard → Guard) : (s.modGuard n f).irq = s.irq := rfl
@[simp] theorem State.modGuard_ecc (s : State) (n : Fin 8) (f : Guard → Guard) : (s.modGuard n f).ecc = s.ecc := rfl
@[simp] theorem State.modGuard_l2ecc (s : State) (n : Fin 8) (f : Guard → Guard) : (s.modGuard n f).l2ecc = s.l2ecc := rfl
@[simp] theorem State.modGuard_flsMark (s : State) (n : Fin 8) (f : Guard → Guard) : (s.modGuard n f).flsMark = s.flsMark := rfl
@[simp] theorem State.modGuard_flash (s : State) (n : Fin 8) (f : Guard → Guard) : (s.modGuard n f).flash = s.flash := rfl
@[simp] theorem State.modGuard_fbPend (s : State) (n : Fin 8) (f : Guard → Guard) : (s.modGuard n f).fbPend = s.fbPend := rfl
@[simp] theorem State.modGuard_remap (s : State) (n : Fin 8) (f : Guard → Guard) : (s.modGuard n f).remap = s.remap := rfl
@[simp] theorem State.modGuard_remapPend (s : State) (n : Fin 8) (f : Guard → Guard) : (s.modGuard n f).remapPend = s.remapPend := rfl
@[simp] theorem State.modGuard_btAt (s : State) (n : Fin 8) (f : Guard → Guard) : (s.modGuard n f).btAt = s.btAt := rfl
@[simp] theorem State.modGuard_flsLines (s : State) (n : Fin 8) (f : Guard → Guard) : (s.modGuard n f).flsLines = s.flsLines := rfl
@[simp] theorem State.modGuard_thrHit (s : State) (n : Fin 8) (f : Guard → Guard) : (s.modGuard n f).thrHit = s.thrHit := rfl
@[simp] theorem State.modGuard_dma (s : State) (n : Fin 8) (f : Guard → Guard) : (s.modGuard n f).dma = s.dma := rfl
@[simp] theorem State.modGuard_dmaGrant (s : State) (n : Fin 8) (f : Guard → Guard) : (s.modGuard n f).dmaGrant = s.dmaGrant := rfl
@[simp] theorem State.modGuard_bridge (s : State) (n : Fin 8) (f : Guard → Guard) : (s.modGuard n f).bridge = s.bridge := rfl
@[simp] theorem State.modGuard_power (s : State) (n : Fin 8) (f : Guard → Guard) : (s.modGuard n f).power = s.power := rfl
@[simp] theorem State.modGuard_bcast (s : State) (n : Fin 8) (f : Guard → Guard) : (s.modGuard n f).bcast = s.bcast := rfl
@[simp] theorem State.modGuard_stopLow (s : State) (n : Fin 8) (f : Guard → Guard) : (s.modGuard n f).stopLow = s.stopLow := rfl
@[simp] theorem State.modGuard_sec (s : State) (n : Fin 8) (f : Guard → Guard) : (s.modGuard n f).sec = s.sec := rfl
@[simp] theorem State.modGuard_cxl (s : State) (n : Fin 8) (f : Guard → Guard) : (s.modGuard n f).cxl = s.cxl := rfl
@[simp] theorem State.modGuard_cmd (s : State) (n : Fin 8) (f : Guard → Guard) : (s.modGuard n f).cmd = s.cmd := rfl
@[simp] theorem State.modGuard_trace (s : State) (n : Fin 8) (f : Guard → Guard) : (s.modGuard n f).trace = s.trace := rfl
@[simp] theorem State.modGuard_fab (s : State) (n : Fin 8) (f : Guard → Guard) : (s.modGuard n f).fab = s.fab := rfl
@[simp] theorem State.modGuard_msixOut (s : State) (n : Fin 8) (f : Guard → Guard) : (s.modGuard n f).msixOut = s.msixOut := rfl
@[simp] theorem State.modGuard_viralOut (s : State) (n : Fin 8) (f : Guard → Guard) : (s.modGuard n f).viralOut = s.viralOut := rfl

/-! ### `modSec`: the security block changes -/

@[simp] theorem State.modSec_pending (s : State) (f : Sec → Sec) : (s.modSec f).pending = s.pending := rfl
@[simp] theorem State.modSec_resp (s : State) (f : Sec → Sec) : (s.modSec f).resp = s.resp := rfl
@[simp] theorem State.modSec_free (s : State) (f : Sec → Sec) : (s.modSec f).free = s.free := rfl
@[simp] theorem State.modSec_time (s : State) (f : Sec → Sec) : (s.modSec f).time = s.time := rfl
@[simp] theorem State.modSec_regs (s : State) (f : Sec → Sec) : (s.modSec f).regs = s.regs := rfl
@[simp] theorem State.modSec_hot (s : State) (f : Sec → Sec) : (s.modSec f).hot = s.hot := rfl
@[simp] theorem State.modSec_snaps (s : State) (f : Sec → Sec) : (s.modSec f).snaps = s.snaps := rfl
@[simp] theorem State.modSec_mem (s : State) (f : Sec → Sec) : (s.modSec f).mem = s.mem := rfl
@[simp] theorem State.modSec_clusters (s : State) (f : Sec → Sec) : (s.modSec f).clusters = s.clusters := rfl
@[simp] theorem State.modSec_cores (s : State) (f : Sec → Sec) : (s.modSec f).cores = s.cores := rfl
@[simp] theorem State.modSec_pairs (s : State) (f : Sec → Sec) : (s.modSec f).pairs = s.pairs := rfl
@[simp] theorem State.modSec_irq (s : State) (f : Sec → Sec) : (s.modSec f).irq = s.irq := rfl
@[simp] theorem State.modSec_ecc (s : State) (f : Sec → Sec) : (s.modSec f).ecc = s.ecc := rfl
@[simp] theorem State.modSec_l2ecc (s : State) (f : Sec → Sec) : (s.modSec f).l2ecc = s.l2ecc := rfl
@[simp] theorem State.modSec_flsMark (s : State) (f : Sec → Sec) : (s.modSec f).flsMark = s.flsMark := rfl
@[simp] theorem State.modSec_flash (s : State) (f : Sec → Sec) : (s.modSec f).flash = s.flash := rfl
@[simp] theorem State.modSec_fbPend (s : State) (f : Sec → Sec) : (s.modSec f).fbPend = s.fbPend := rfl
@[simp] theorem State.modSec_remap (s : State) (f : Sec → Sec) : (s.modSec f).remap = s.remap := rfl
@[simp] theorem State.modSec_remapPend (s : State) (f : Sec → Sec) : (s.modSec f).remapPend = s.remapPend := rfl
@[simp] theorem State.modSec_btAt (s : State) (f : Sec → Sec) : (s.modSec f).btAt = s.btAt := rfl
@[simp] theorem State.modSec_flsLines (s : State) (f : Sec → Sec) : (s.modSec f).flsLines = s.flsLines := rfl
@[simp] theorem State.modSec_thrHit (s : State) (f : Sec → Sec) : (s.modSec f).thrHit = s.thrHit := rfl
@[simp] theorem State.modSec_dma (s : State) (f : Sec → Sec) : (s.modSec f).dma = s.dma := rfl
@[simp] theorem State.modSec_dmaGrant (s : State) (f : Sec → Sec) : (s.modSec f).dmaGrant = s.dmaGrant := rfl
@[simp] theorem State.modSec_bridge (s : State) (f : Sec → Sec) : (s.modSec f).bridge = s.bridge := rfl
@[simp] theorem State.modSec_power (s : State) (f : Sec → Sec) : (s.modSec f).power = s.power := rfl
@[simp] theorem State.modSec_guards (s : State) (f : Sec → Sec) : (s.modSec f).guards = s.guards := rfl
@[simp] theorem State.modSec_bcast (s : State) (f : Sec → Sec) : (s.modSec f).bcast = s.bcast := rfl
@[simp] theorem State.modSec_stopLow (s : State) (f : Sec → Sec) : (s.modSec f).stopLow = s.stopLow := rfl
@[simp] theorem State.modSec_cxl (s : State) (f : Sec → Sec) : (s.modSec f).cxl = s.cxl := rfl
@[simp] theorem State.modSec_cmd (s : State) (f : Sec → Sec) : (s.modSec f).cmd = s.cmd := rfl
@[simp] theorem State.modSec_trace (s : State) (f : Sec → Sec) : (s.modSec f).trace = s.trace := rfl
@[simp] theorem State.modSec_fab (s : State) (f : Sec → Sec) : (s.modSec f).fab = s.fab := rfl
@[simp] theorem State.modSec_msixOut (s : State) (f : Sec → Sec) : (s.modSec f).msixOut = s.msixOut := rfl
@[simp] theorem State.modSec_viralOut (s : State) (f : Sec → Sec) : (s.modSec f).viralOut = s.viralOut := rfl

/-! ### `modCxl`: the CXL port changes -/

@[simp] theorem State.modCxl_pending (s : State) (f : Cxl → Cxl) : (s.modCxl f).pending = s.pending := rfl
@[simp] theorem State.modCxl_resp (s : State) (f : Cxl → Cxl) : (s.modCxl f).resp = s.resp := rfl
@[simp] theorem State.modCxl_free (s : State) (f : Cxl → Cxl) : (s.modCxl f).free = s.free := rfl
@[simp] theorem State.modCxl_time (s : State) (f : Cxl → Cxl) : (s.modCxl f).time = s.time := rfl
@[simp] theorem State.modCxl_regs (s : State) (f : Cxl → Cxl) : (s.modCxl f).regs = s.regs := rfl
@[simp] theorem State.modCxl_hot (s : State) (f : Cxl → Cxl) : (s.modCxl f).hot = s.hot := rfl
@[simp] theorem State.modCxl_snaps (s : State) (f : Cxl → Cxl) : (s.modCxl f).snaps = s.snaps := rfl
@[simp] theorem State.modCxl_mem (s : State) (f : Cxl → Cxl) : (s.modCxl f).mem = s.mem := rfl
@[simp] theorem State.modCxl_clusters (s : State) (f : Cxl → Cxl) : (s.modCxl f).clusters = s.clusters := rfl
@[simp] theorem State.modCxl_cores (s : State) (f : Cxl → Cxl) : (s.modCxl f).cores = s.cores := rfl
@[simp] theorem State.modCxl_pairs (s : State) (f : Cxl → Cxl) : (s.modCxl f).pairs = s.pairs := rfl
@[simp] theorem State.modCxl_irq (s : State) (f : Cxl → Cxl) : (s.modCxl f).irq = s.irq := rfl
@[simp] theorem State.modCxl_ecc (s : State) (f : Cxl → Cxl) : (s.modCxl f).ecc = s.ecc := rfl
@[simp] theorem State.modCxl_l2ecc (s : State) (f : Cxl → Cxl) : (s.modCxl f).l2ecc = s.l2ecc := rfl
@[simp] theorem State.modCxl_flsMark (s : State) (f : Cxl → Cxl) : (s.modCxl f).flsMark = s.flsMark := rfl
@[simp] theorem State.modCxl_flash (s : State) (f : Cxl → Cxl) : (s.modCxl f).flash = s.flash := rfl
@[simp] theorem State.modCxl_fbPend (s : State) (f : Cxl → Cxl) : (s.modCxl f).fbPend = s.fbPend := rfl
@[simp] theorem State.modCxl_remap (s : State) (f : Cxl → Cxl) : (s.modCxl f).remap = s.remap := rfl
@[simp] theorem State.modCxl_remapPend (s : State) (f : Cxl → Cxl) : (s.modCxl f).remapPend = s.remapPend := rfl
@[simp] theorem State.modCxl_btAt (s : State) (f : Cxl → Cxl) : (s.modCxl f).btAt = s.btAt := rfl
@[simp] theorem State.modCxl_flsLines (s : State) (f : Cxl → Cxl) : (s.modCxl f).flsLines = s.flsLines := rfl
@[simp] theorem State.modCxl_thrHit (s : State) (f : Cxl → Cxl) : (s.modCxl f).thrHit = s.thrHit := rfl
@[simp] theorem State.modCxl_dma (s : State) (f : Cxl → Cxl) : (s.modCxl f).dma = s.dma := rfl
@[simp] theorem State.modCxl_dmaGrant (s : State) (f : Cxl → Cxl) : (s.modCxl f).dmaGrant = s.dmaGrant := rfl
@[simp] theorem State.modCxl_bridge (s : State) (f : Cxl → Cxl) : (s.modCxl f).bridge = s.bridge := rfl
@[simp] theorem State.modCxl_power (s : State) (f : Cxl → Cxl) : (s.modCxl f).power = s.power := rfl
@[simp] theorem State.modCxl_guards (s : State) (f : Cxl → Cxl) : (s.modCxl f).guards = s.guards := rfl
@[simp] theorem State.modCxl_bcast (s : State) (f : Cxl → Cxl) : (s.modCxl f).bcast = s.bcast := rfl
@[simp] theorem State.modCxl_stopLow (s : State) (f : Cxl → Cxl) : (s.modCxl f).stopLow = s.stopLow := rfl
@[simp] theorem State.modCxl_sec (s : State) (f : Cxl → Cxl) : (s.modCxl f).sec = s.sec := rfl
@[simp] theorem State.modCxl_cmd (s : State) (f : Cxl → Cxl) : (s.modCxl f).cmd = s.cmd := rfl
@[simp] theorem State.modCxl_trace (s : State) (f : Cxl → Cxl) : (s.modCxl f).trace = s.trace := rfl
@[simp] theorem State.modCxl_fab (s : State) (f : Cxl → Cxl) : (s.modCxl f).fab = s.fab := rfl
@[simp] theorem State.modCxl_msixOut (s : State) (f : Cxl → Cxl) : (s.modCxl f).msixOut = s.msixOut := rfl
@[simp] theorem State.modCxl_viralOut (s : State) (f : Cxl → Cxl) : (s.modCxl f).viralOut = s.viralOut := rfl

/-! ### `modCmd`: the command unit changes -/

@[simp] theorem State.modCmd_pending (s : State) (f : CmdUnit → CmdUnit) : (s.modCmd f).pending = s.pending := rfl
@[simp] theorem State.modCmd_resp (s : State) (f : CmdUnit → CmdUnit) : (s.modCmd f).resp = s.resp := rfl
@[simp] theorem State.modCmd_free (s : State) (f : CmdUnit → CmdUnit) : (s.modCmd f).free = s.free := rfl
@[simp] theorem State.modCmd_time (s : State) (f : CmdUnit → CmdUnit) : (s.modCmd f).time = s.time := rfl
@[simp] theorem State.modCmd_regs (s : State) (f : CmdUnit → CmdUnit) : (s.modCmd f).regs = s.regs := rfl
@[simp] theorem State.modCmd_hot (s : State) (f : CmdUnit → CmdUnit) : (s.modCmd f).hot = s.hot := rfl
@[simp] theorem State.modCmd_snaps (s : State) (f : CmdUnit → CmdUnit) : (s.modCmd f).snaps = s.snaps := rfl
@[simp] theorem State.modCmd_mem (s : State) (f : CmdUnit → CmdUnit) : (s.modCmd f).mem = s.mem := rfl
@[simp] theorem State.modCmd_clusters (s : State) (f : CmdUnit → CmdUnit) : (s.modCmd f).clusters = s.clusters := rfl
@[simp] theorem State.modCmd_cores (s : State) (f : CmdUnit → CmdUnit) : (s.modCmd f).cores = s.cores := rfl
@[simp] theorem State.modCmd_pairs (s : State) (f : CmdUnit → CmdUnit) : (s.modCmd f).pairs = s.pairs := rfl
@[simp] theorem State.modCmd_irq (s : State) (f : CmdUnit → CmdUnit) : (s.modCmd f).irq = s.irq := rfl
@[simp] theorem State.modCmd_ecc (s : State) (f : CmdUnit → CmdUnit) : (s.modCmd f).ecc = s.ecc := rfl
@[simp] theorem State.modCmd_l2ecc (s : State) (f : CmdUnit → CmdUnit) : (s.modCmd f).l2ecc = s.l2ecc := rfl
@[simp] theorem State.modCmd_flsMark (s : State) (f : CmdUnit → CmdUnit) : (s.modCmd f).flsMark = s.flsMark := rfl
@[simp] theorem State.modCmd_flash (s : State) (f : CmdUnit → CmdUnit) : (s.modCmd f).flash = s.flash := rfl
@[simp] theorem State.modCmd_fbPend (s : State) (f : CmdUnit → CmdUnit) : (s.modCmd f).fbPend = s.fbPend := rfl
@[simp] theorem State.modCmd_remap (s : State) (f : CmdUnit → CmdUnit) : (s.modCmd f).remap = s.remap := rfl
@[simp] theorem State.modCmd_remapPend (s : State) (f : CmdUnit → CmdUnit) : (s.modCmd f).remapPend = s.remapPend := rfl
@[simp] theorem State.modCmd_btAt (s : State) (f : CmdUnit → CmdUnit) : (s.modCmd f).btAt = s.btAt := rfl
@[simp] theorem State.modCmd_flsLines (s : State) (f : CmdUnit → CmdUnit) : (s.modCmd f).flsLines = s.flsLines := rfl
@[simp] theorem State.modCmd_thrHit (s : State) (f : CmdUnit → CmdUnit) : (s.modCmd f).thrHit = s.thrHit := rfl
@[simp] theorem State.modCmd_dma (s : State) (f : CmdUnit → CmdUnit) : (s.modCmd f).dma = s.dma := rfl
@[simp] theorem State.modCmd_dmaGrant (s : State) (f : CmdUnit → CmdUnit) : (s.modCmd f).dmaGrant = s.dmaGrant := rfl
@[simp] theorem State.modCmd_bridge (s : State) (f : CmdUnit → CmdUnit) : (s.modCmd f).bridge = s.bridge := rfl
@[simp] theorem State.modCmd_power (s : State) (f : CmdUnit → CmdUnit) : (s.modCmd f).power = s.power := rfl
@[simp] theorem State.modCmd_guards (s : State) (f : CmdUnit → CmdUnit) : (s.modCmd f).guards = s.guards := rfl
@[simp] theorem State.modCmd_bcast (s : State) (f : CmdUnit → CmdUnit) : (s.modCmd f).bcast = s.bcast := rfl
@[simp] theorem State.modCmd_stopLow (s : State) (f : CmdUnit → CmdUnit) : (s.modCmd f).stopLow = s.stopLow := rfl
@[simp] theorem State.modCmd_sec (s : State) (f : CmdUnit → CmdUnit) : (s.modCmd f).sec = s.sec := rfl
@[simp] theorem State.modCmd_cxl (s : State) (f : CmdUnit → CmdUnit) : (s.modCmd f).cxl = s.cxl := rfl
@[simp] theorem State.modCmd_trace (s : State) (f : CmdUnit → CmdUnit) : (s.modCmd f).trace = s.trace := rfl
@[simp] theorem State.modCmd_fab (s : State) (f : CmdUnit → CmdUnit) : (s.modCmd f).fab = s.fab := rfl
@[simp] theorem State.modCmd_msixOut (s : State) (f : CmdUnit → CmdUnit) : (s.modCmd f).msixOut = s.msixOut := rfl
@[simp] theorem State.modCmd_viralOut (s : State) (f : CmdUnit → CmdUnit) : (s.modCmd f).viralOut = s.viralOut := rfl

/-! ### `modQueue`: a queue changes -/

@[simp] theorem State.modQueue_pending (s : State) (q : Fin 64) (f : Queue → Queue) : (s.modQueue q f).pending = s.pending := rfl
@[simp] theorem State.modQueue_resp (s : State) (q : Fin 64) (f : Queue → Queue) : (s.modQueue q f).resp = s.resp := rfl
@[simp] theorem State.modQueue_free (s : State) (q : Fin 64) (f : Queue → Queue) : (s.modQueue q f).free = s.free := rfl
@[simp] theorem State.modQueue_time (s : State) (q : Fin 64) (f : Queue → Queue) : (s.modQueue q f).time = s.time := rfl
@[simp] theorem State.modQueue_regs (s : State) (q : Fin 64) (f : Queue → Queue) : (s.modQueue q f).regs = s.regs := rfl
@[simp] theorem State.modQueue_hot (s : State) (q : Fin 64) (f : Queue → Queue) : (s.modQueue q f).hot = s.hot := rfl
@[simp] theorem State.modQueue_snaps (s : State) (q : Fin 64) (f : Queue → Queue) : (s.modQueue q f).snaps = s.snaps := rfl
@[simp] theorem State.modQueue_mem (s : State) (q : Fin 64) (f : Queue → Queue) : (s.modQueue q f).mem = s.mem := rfl
@[simp] theorem State.modQueue_clusters (s : State) (q : Fin 64) (f : Queue → Queue) : (s.modQueue q f).clusters = s.clusters := rfl
@[simp] theorem State.modQueue_cores (s : State) (q : Fin 64) (f : Queue → Queue) : (s.modQueue q f).cores = s.cores := rfl
@[simp] theorem State.modQueue_pairs (s : State) (q : Fin 64) (f : Queue → Queue) : (s.modQueue q f).pairs = s.pairs := rfl
@[simp] theorem State.modQueue_irq (s : State) (q : Fin 64) (f : Queue → Queue) : (s.modQueue q f).irq = s.irq := rfl
@[simp] theorem State.modQueue_ecc (s : State) (q : Fin 64) (f : Queue → Queue) : (s.modQueue q f).ecc = s.ecc := rfl
@[simp] theorem State.modQueue_l2ecc (s : State) (q : Fin 64) (f : Queue → Queue) : (s.modQueue q f).l2ecc = s.l2ecc := rfl
@[simp] theorem State.modQueue_flsMark (s : State) (q : Fin 64) (f : Queue → Queue) : (s.modQueue q f).flsMark = s.flsMark := rfl
@[simp] theorem State.modQueue_flash (s : State) (q : Fin 64) (f : Queue → Queue) : (s.modQueue q f).flash = s.flash := rfl
@[simp] theorem State.modQueue_fbPend (s : State) (q : Fin 64) (f : Queue → Queue) : (s.modQueue q f).fbPend = s.fbPend := rfl
@[simp] theorem State.modQueue_remap (s : State) (q : Fin 64) (f : Queue → Queue) : (s.modQueue q f).remap = s.remap := rfl
@[simp] theorem State.modQueue_remapPend (s : State) (q : Fin 64) (f : Queue → Queue) : (s.modQueue q f).remapPend = s.remapPend := rfl
@[simp] theorem State.modQueue_btAt (s : State) (q : Fin 64) (f : Queue → Queue) : (s.modQueue q f).btAt = s.btAt := rfl
@[simp] theorem State.modQueue_flsLines (s : State) (q : Fin 64) (f : Queue → Queue) : (s.modQueue q f).flsLines = s.flsLines := rfl
@[simp] theorem State.modQueue_thrHit (s : State) (q : Fin 64) (f : Queue → Queue) : (s.modQueue q f).thrHit = s.thrHit := rfl
@[simp] theorem State.modQueue_dma (s : State) (q : Fin 64) (f : Queue → Queue) : (s.modQueue q f).dma = s.dma := rfl
@[simp] theorem State.modQueue_dmaGrant (s : State) (q : Fin 64) (f : Queue → Queue) : (s.modQueue q f).dmaGrant = s.dmaGrant := rfl
@[simp] theorem State.modQueue_bridge (s : State) (q : Fin 64) (f : Queue → Queue) : (s.modQueue q f).bridge = s.bridge := rfl
@[simp] theorem State.modQueue_power (s : State) (q : Fin 64) (f : Queue → Queue) : (s.modQueue q f).power = s.power := rfl
@[simp] theorem State.modQueue_guards (s : State) (q : Fin 64) (f : Queue → Queue) : (s.modQueue q f).guards = s.guards := rfl
@[simp] theorem State.modQueue_bcast (s : State) (q : Fin 64) (f : Queue → Queue) : (s.modQueue q f).bcast = s.bcast := rfl
@[simp] theorem State.modQueue_stopLow (s : State) (q : Fin 64) (f : Queue → Queue) : (s.modQueue q f).stopLow = s.stopLow := rfl
@[simp] theorem State.modQueue_sec (s : State) (q : Fin 64) (f : Queue → Queue) : (s.modQueue q f).sec = s.sec := rfl
@[simp] theorem State.modQueue_cxl (s : State) (q : Fin 64) (f : Queue → Queue) : (s.modQueue q f).cxl = s.cxl := rfl
@[simp] theorem State.modQueue_trace (s : State) (q : Fin 64) (f : Queue → Queue) : (s.modQueue q f).trace = s.trace := rfl
@[simp] theorem State.modQueue_fab (s : State) (q : Fin 64) (f : Queue → Queue) : (s.modQueue q f).fab = s.fab := rfl
@[simp] theorem State.modQueue_msixOut (s : State) (q : Fin 64) (f : Queue → Queue) : (s.modQueue q f).msixOut = s.msixOut := rfl
@[simp] theorem State.modQueue_viralOut (s : State) (q : Fin 64) (f : Queue → Queue) : (s.modQueue q f).viralOut = s.viralOut := rfl

/-! ### `modFab`: the fabric changes -/

@[simp] theorem State.modFab_pending (s : State) (f : Fabric → Fabric) : (s.modFab f).pending = s.pending := rfl
@[simp] theorem State.modFab_resp (s : State) (f : Fabric → Fabric) : (s.modFab f).resp = s.resp := rfl
@[simp] theorem State.modFab_free (s : State) (f : Fabric → Fabric) : (s.modFab f).free = s.free := rfl
@[simp] theorem State.modFab_time (s : State) (f : Fabric → Fabric) : (s.modFab f).time = s.time := rfl
@[simp] theorem State.modFab_regs (s : State) (f : Fabric → Fabric) : (s.modFab f).regs = s.regs := rfl
@[simp] theorem State.modFab_hot (s : State) (f : Fabric → Fabric) : (s.modFab f).hot = s.hot := rfl
@[simp] theorem State.modFab_snaps (s : State) (f : Fabric → Fabric) : (s.modFab f).snaps = s.snaps := rfl
@[simp] theorem State.modFab_mem (s : State) (f : Fabric → Fabric) : (s.modFab f).mem = s.mem := rfl
@[simp] theorem State.modFab_clusters (s : State) (f : Fabric → Fabric) : (s.modFab f).clusters = s.clusters := rfl
@[simp] theorem State.modFab_cores (s : State) (f : Fabric → Fabric) : (s.modFab f).cores = s.cores := rfl
@[simp] theorem State.modFab_pairs (s : State) (f : Fabric → Fabric) : (s.modFab f).pairs = s.pairs := rfl
@[simp] theorem State.modFab_irq (s : State) (f : Fabric → Fabric) : (s.modFab f).irq = s.irq := rfl
@[simp] theorem State.modFab_ecc (s : State) (f : Fabric → Fabric) : (s.modFab f).ecc = s.ecc := rfl
@[simp] theorem State.modFab_l2ecc (s : State) (f : Fabric → Fabric) : (s.modFab f).l2ecc = s.l2ecc := rfl
@[simp] theorem State.modFab_flsMark (s : State) (f : Fabric → Fabric) : (s.modFab f).flsMark = s.flsMark := rfl
@[simp] theorem State.modFab_flash (s : State) (f : Fabric → Fabric) : (s.modFab f).flash = s.flash := rfl
@[simp] theorem State.modFab_fbPend (s : State) (f : Fabric → Fabric) : (s.modFab f).fbPend = s.fbPend := rfl
@[simp] theorem State.modFab_remap (s : State) (f : Fabric → Fabric) : (s.modFab f).remap = s.remap := rfl
@[simp] theorem State.modFab_remapPend (s : State) (f : Fabric → Fabric) : (s.modFab f).remapPend = s.remapPend := rfl
@[simp] theorem State.modFab_btAt (s : State) (f : Fabric → Fabric) : (s.modFab f).btAt = s.btAt := rfl
@[simp] theorem State.modFab_flsLines (s : State) (f : Fabric → Fabric) : (s.modFab f).flsLines = s.flsLines := rfl
@[simp] theorem State.modFab_thrHit (s : State) (f : Fabric → Fabric) : (s.modFab f).thrHit = s.thrHit := rfl
@[simp] theorem State.modFab_dma (s : State) (f : Fabric → Fabric) : (s.modFab f).dma = s.dma := rfl
@[simp] theorem State.modFab_dmaGrant (s : State) (f : Fabric → Fabric) : (s.modFab f).dmaGrant = s.dmaGrant := rfl
@[simp] theorem State.modFab_bridge (s : State) (f : Fabric → Fabric) : (s.modFab f).bridge = s.bridge := rfl
@[simp] theorem State.modFab_power (s : State) (f : Fabric → Fabric) : (s.modFab f).power = s.power := rfl
@[simp] theorem State.modFab_guards (s : State) (f : Fabric → Fabric) : (s.modFab f).guards = s.guards := rfl
@[simp] theorem State.modFab_bcast (s : State) (f : Fabric → Fabric) : (s.modFab f).bcast = s.bcast := rfl
@[simp] theorem State.modFab_stopLow (s : State) (f : Fabric → Fabric) : (s.modFab f).stopLow = s.stopLow := rfl
@[simp] theorem State.modFab_sec (s : State) (f : Fabric → Fabric) : (s.modFab f).sec = s.sec := rfl
@[simp] theorem State.modFab_cxl (s : State) (f : Fabric → Fabric) : (s.modFab f).cxl = s.cxl := rfl
@[simp] theorem State.modFab_cmd (s : State) (f : Fabric → Fabric) : (s.modFab f).cmd = s.cmd := rfl
@[simp] theorem State.modFab_trace (s : State) (f : Fabric → Fabric) : (s.modFab f).trace = s.trace := rfl
@[simp] theorem State.modFab_msixOut (s : State) (f : Fabric → Fabric) : (s.modFab f).msixOut = s.msixOut := rfl
@[simp] theorem State.modFab_viralOut (s : State) (f : Fabric → Fabric) : (s.modFab f).viralOut = s.viralOut := rfl

/-! ### `modTrace`: the trace unit changes -/

@[simp] theorem State.modTrace_pending (s : State) (f : Trace → Trace) : (s.modTrace f).pending = s.pending := rfl
@[simp] theorem State.modTrace_resp (s : State) (f : Trace → Trace) : (s.modTrace f).resp = s.resp := rfl
@[simp] theorem State.modTrace_free (s : State) (f : Trace → Trace) : (s.modTrace f).free = s.free := rfl
@[simp] theorem State.modTrace_time (s : State) (f : Trace → Trace) : (s.modTrace f).time = s.time := rfl
@[simp] theorem State.modTrace_regs (s : State) (f : Trace → Trace) : (s.modTrace f).regs = s.regs := rfl
@[simp] theorem State.modTrace_hot (s : State) (f : Trace → Trace) : (s.modTrace f).hot = s.hot := rfl
@[simp] theorem State.modTrace_snaps (s : State) (f : Trace → Trace) : (s.modTrace f).snaps = s.snaps := rfl
@[simp] theorem State.modTrace_mem (s : State) (f : Trace → Trace) : (s.modTrace f).mem = s.mem := rfl
@[simp] theorem State.modTrace_clusters (s : State) (f : Trace → Trace) : (s.modTrace f).clusters = s.clusters := rfl
@[simp] theorem State.modTrace_cores (s : State) (f : Trace → Trace) : (s.modTrace f).cores = s.cores := rfl
@[simp] theorem State.modTrace_pairs (s : State) (f : Trace → Trace) : (s.modTrace f).pairs = s.pairs := rfl
@[simp] theorem State.modTrace_irq (s : State) (f : Trace → Trace) : (s.modTrace f).irq = s.irq := rfl
@[simp] theorem State.modTrace_ecc (s : State) (f : Trace → Trace) : (s.modTrace f).ecc = s.ecc := rfl
@[simp] theorem State.modTrace_l2ecc (s : State) (f : Trace → Trace) : (s.modTrace f).l2ecc = s.l2ecc := rfl
@[simp] theorem State.modTrace_flsMark (s : State) (f : Trace → Trace) : (s.modTrace f).flsMark = s.flsMark := rfl
@[simp] theorem State.modTrace_flash (s : State) (f : Trace → Trace) : (s.modTrace f).flash = s.flash := rfl
@[simp] theorem State.modTrace_fbPend (s : State) (f : Trace → Trace) : (s.modTrace f).fbPend = s.fbPend := rfl
@[simp] theorem State.modTrace_remap (s : State) (f : Trace → Trace) : (s.modTrace f).remap = s.remap := rfl
@[simp] theorem State.modTrace_remapPend (s : State) (f : Trace → Trace) : (s.modTrace f).remapPend = s.remapPend := rfl
@[simp] theorem State.modTrace_btAt (s : State) (f : Trace → Trace) : (s.modTrace f).btAt = s.btAt := rfl
@[simp] theorem State.modTrace_flsLines (s : State) (f : Trace → Trace) : (s.modTrace f).flsLines = s.flsLines := rfl
@[simp] theorem State.modTrace_thrHit (s : State) (f : Trace → Trace) : (s.modTrace f).thrHit = s.thrHit := rfl
@[simp] theorem State.modTrace_dma (s : State) (f : Trace → Trace) : (s.modTrace f).dma = s.dma := rfl
@[simp] theorem State.modTrace_dmaGrant (s : State) (f : Trace → Trace) : (s.modTrace f).dmaGrant = s.dmaGrant := rfl
@[simp] theorem State.modTrace_bridge (s : State) (f : Trace → Trace) : (s.modTrace f).bridge = s.bridge := rfl
@[simp] theorem State.modTrace_power (s : State) (f : Trace → Trace) : (s.modTrace f).power = s.power := rfl
@[simp] theorem State.modTrace_guards (s : State) (f : Trace → Trace) : (s.modTrace f).guards = s.guards := rfl
@[simp] theorem State.modTrace_bcast (s : State) (f : Trace → Trace) : (s.modTrace f).bcast = s.bcast := rfl
@[simp] theorem State.modTrace_stopLow (s : State) (f : Trace → Trace) : (s.modTrace f).stopLow = s.stopLow := rfl
@[simp] theorem State.modTrace_sec (s : State) (f : Trace → Trace) : (s.modTrace f).sec = s.sec := rfl
@[simp] theorem State.modTrace_cxl (s : State) (f : Trace → Trace) : (s.modTrace f).cxl = s.cxl := rfl
@[simp] theorem State.modTrace_cmd (s : State) (f : Trace → Trace) : (s.modTrace f).cmd = s.cmd := rfl
@[simp] theorem State.modTrace_fab (s : State) (f : Trace → Trace) : (s.modTrace f).fab = s.fab := rfl
@[simp] theorem State.modTrace_msixOut (s : State) (f : Trace → Trace) : (s.modTrace f).msixOut = s.msixOut := rfl
@[simp] theorem State.modTrace_viralOut (s : State) (f : Trace → Trace) : (s.modTrace f).viralOut = s.viralOut := rfl

/-! ### What a view of one component is after a change of it -/

@[simp] theorem State.modC_clusters_get (s : State) (c : Fin 8) (f : Cluster → Cluster) : (s.modC c f).clusters[c] = f s.clusters[c] := by
  simp [State.modC]
@[simp] theorem State.modPair_get (s : State) (k : Fin 36) (f : Pair → Pair) : (s.modPair k f).pairs[k] = f s.pairs[k] := by
  simp [State.modPair]
@[simp] theorem State.modDma_get (s : State) (k : Fin 96) (f : DmaCh → DmaCh) : (s.modDma k f).dma[k] = f s.dma[k] := by
  simp [State.modDma]
@[simp] theorem State.modGuard_get (s : State) (n : Fin 8) (f : Guard → Guard) : (s.modGuard n f).guards[n] = f s.guards[n] := by
  simp [State.modGuard]
@[simp] theorem State.modBank_get (s : State) (b : Fin 5) (f : FlashBank → FlashBank) : (s.modBank b f).flash[b] = f s.flash[b] := by
  simp [State.modBank]
@[simp] theorem State.queue_modQueue (s : State) (q : Fin 64) (f : Queue → Queue) : (s.modQueue q f).queue q = f (s.queue q) := by
  simp [State.modQueue, State.modCmd, State.queue]
@[simp] theorem State.modBridge_bridge (s : State) (f : Bridge → Bridge) : (s.modBridge f).bridge = f s.bridge := rfl
@[simp] theorem State.modSec_sec (s : State) (f : Sec → Sec) : (s.modSec f).sec = f s.sec := rfl
@[simp] theorem State.modCxl_cxl (s : State) (f : Cxl → Cxl) : (s.modCxl f).cxl = f s.cxl := rfl
@[simp] theorem State.modCmd_cmd (s : State) (f : CmdUnit → CmdUnit) : (s.modCmd f).cmd = f s.cmd := rfl
@[simp] theorem State.modFab_fab (s : State) (f : Fabric → Fabric) : (s.modFab f).fab = f s.fab := rfl
@[simp] theorem State.modTrace_trace (s : State) (f : Trace → Trace) : (s.modTrace f).trace = f s.trace := rfl
@[simp] theorem State.draw_free (s : State) : s.draw.free = s.free + 1 := rfl
@[simp] theorem State.wrote_resp (s : State) : s.wrote.resp = .none := rfl
@[simp] theorem State.answer_resp (s : State) (v : DWord) : (s.answer v).resp = .data v := rfl

end Sys2Proof.Machine
end

