-- ==== Sys2Proof/Laws/Stores.lean ====
section
/-! SUPPORT. The stores of registers, snapshots and memory through the named operations: what is read after a write, and that
each operation keeps the canonical form; what a register access that reaches its page does. -/

namespace Sys2Proof.Machine

/-! ## The canonical form -/

theorem State.canonical_iff (s : State) :
    s.canonical = true ↔ sparseWf memDflt s.mem = true ∧ sparseWf regDflt s.regs = true ∧ sparseWf (fun _ => (0 : Word)) s.snaps = true := by
  simp [State.canonical, and_assoc]

/-- A state with the same stores is canonical with it. -/
theorem State.canonical_congr {s t : State} (h : s.canonical = true) (hm : t.mem = s.mem) (hr : t.regs = s.regs) (hs : t.snaps = s.snaps) :
    t.canonical = true := by
  unfold State.canonical at *; rw [hm, hr, hs]; exact h

theorem State.canonical_setReg {s : State} (h : s.canonical = true) (p : PageId) (off : Nat) (v : Word) :
    (s.setReg p off v).canonical = true := by
  rw [State.canonical_iff] at *
  exact ⟨h.1, sparseWf_set _ _ _ _ h.2.1, h.2.2⟩

theorem State.canonical_setFld {s : State} (h : s.canonical = true) (p : PageId) (off hi lo v : Nat) :
    (s.setFld p off hi lo v).canonical = true := State.canonical_setReg h _ _ _

theorem State.canonical_setBit {s : State} (h : s.canonical = true) (p : PageId) (off i : Nat) (b : Bool) :
    (s.setBit p off i b).canonical = true := State.canonical_setReg h _ _ _

theorem State.canonical_raise {s : State} (h : s.canonical = true) (p : PageId) (b : Nat) : (s.raise p b).canonical = true :=
  State.canonical_setReg h _ _ _

theorem State.canonical_raiseIf {s : State} (h : s.canonical = true) (c : Bool) (p : PageId) (b : Nat) :
    (s.raiseIf c p b).canonical = true := by
  unfold State.raiseIf; split
  · exact State.canonical_raise h p b
  · exact h

theorem State.canonical_count {s : State} (h : s.canonical = true) (p : PageId) (off hi lo : Nat) :
    (s.count p off hi lo).canonical = true := by
  unfold State.count; split
  · exact h
  · split
    · exact State.canonical_setBit h _ _ _ _
    · exact State.canonical_setFld h _ _ _ _ _

theorem State.canonical_clearRegs {s : State} (h : s.canonical = true) (p : PageId) (a b : Nat) :
    (s.clearRegs p a b).canonical = true := by
  rw [State.canonical_iff] at *
  exact ⟨h.1, sparseWf_clear _ _ _ _ h.2.1, h.2.2⟩

theorem State.canonical_setSnap {s : State} (h : s.canonical = true) (i : Initiator) (p : PageId) (off : Nat) (v : Word) :
    (s.setSnap i p off v).canonical = true := by
  rw [State.canonical_iff] at *
  exact ⟨h.1, h.2.1, sparseWf_set _ _ _ _ h.2.2⟩

theorem State.canonical_setByte {s : State} (h : s.canonical = true) (a : Nat) (b : Byte) : (s.setByte a b).canonical = true := by
  rw [State.canonical_iff] at *
  exact ⟨sparseWf_set _ _ _ _ h.1, h.2.1, h.2.2⟩

theorem State.canonical_setBytes {s : State} (h : s.canonical = true) (a : Nat) (bs : List Byte) : (s.setBytes a bs).canonical = true := by
  induction bs generalizing s a with
  | nil => exact h
  | cons b t ih => exact ih (State.canonical_setByte h a b) (a + 1)

/-- A loop whose body keeps a property keeps it. -/
theorem foldl_keeps {α β : Type} {P : α → Prop} (f : α → β → α) (l : List β) (a : α) (h : P a) (hf : ∀ x b, P x → P (f x b)) :
    P (l.foldl f a) := by
  induction l generalizing a with
  | nil => exact h
  | cons b t ih => exact ih _ (hf a b h)

theorem State.canonical_mark9 {s : State} (h : s.canonical = true) (p : PageId) (off : Nat) (m : Word) : (s.mark9 p off m).canonical = true := h

theorem State.canonical_stick {s : State} (h : s.canonical = true) (p : PageId) (off i : Nat) : (s.stick p off i).canonical = true :=
  State.canonical_setBit h p off i true

theorem State.canonical_keptBits {s : State} (h : s.canonical = true) (p : PageId) (off : Nat) (m : Word) : (s.keptBits p off m).1.canonical = true := by
  unfold State.keptBits
  simp only
  split
  · exact h
  · exact h

/-- A bus write to a register keeps the canonical form. -/
theorem State.canonical_busReg {s : State} (h : s.canonical = true) (p : PageId) (off : Nat) (v mask : Word) :
    (s.busReg p off v mask).canonical = true := by
  unfold State.busReg; split
  · exact h
  · simp only
    split
    · exact State.canonical_stick (State.canonical_setReg (State.canonical_keptBits h _ _ _) _ _ _) _ _ _
    · exact State.canonical_setReg (State.canonical_keptBits h _ _ _) _ _ _

/-! ## Reading after writing -/

theorem State.reg_setReg_same {s : State} (h : s.canonical = true) (p : PageId) (off : Nat) (v : Word) :
    (s.setReg p off v).reg p off = v :=
  sparseGet_set_same _ _ _ _ ((sparseWf_iff _ _).1 ((State.canonical_iff s).1 h).2.1).1

theorem State.reg_setReg_other (s : State) (p q : PageId) (off o : Nat) (v : Word) (h : regKey q o ≠ regKey p off) :
    (s.setReg p off v).reg q o = s.reg q o := sparseGet_set_other _ _ _ _ _ h

theorem State.reg_setFld_same {s : State} (h : s.canonical = true) (p : PageId) (off hi lo v : Nat) :
    (s.setFld p off hi lo v).reg p off = putBits (s.reg p off) hi lo v := State.reg_setReg_same h p off _

theorem State.reg_setFld_other (s : State) (p q : PageId) (off o hi lo v : Nat) (h : regKey q o ≠ regKey p off) :
    (s.setFld p off hi lo v).reg q o = s.reg q o := State.reg_setReg_other s p q off o _ h

theorem State.reg_setBit_same {s : State} (h : s.canonical = true) (p : PageId) (off i : Nat) (b : Bool) :
    (s.setBit p off i b).reg p off = putBits (s.reg p off) i i (b2n b) := State.reg_setReg_same h p off _

theorem State.reg_setBit_other (s : State) (p q : PageId) (off o i : Nat) (b : Bool) (h : regKey q o ≠ regKey p off) :
    (s.setBit p off i b).reg q o = s.reg q o := State.reg_setReg_other s p q off o _ h

theorem State.byteAt_setByte_same {s : State} (h : s.canonical = true) (a : Nat) (b : Byte) : (s.setByte a b).byteAt a = b :=
  sparseGet_set_same _ _ _ _ ((sparseWf_iff _ _).1 ((State.canonical_iff s).1 h).1).1

theorem State.byteAt_setByte_other (s : State) (a x : Nat) (b : Byte) (h : x ≠ a) : (s.setByte a b).byteAt x = s.byteAt x :=
  sparseGet_set_other _ _ _ _ _ h

/-- Bytes outside a range of stored bytes are as they were. -/
theorem State.byteAt_setBytes_other (s : State) (a x : Nat) (bs : List Byte) (h : x < a ∨ a + bs.length ≤ x) :
    (s.setBytes a bs).byteAt x = s.byteAt x := by
  induction bs generalizing s a with
  | nil => rfl
  | cons b t ih =>
    simp only [List.length_cons] at h
    refine (ih (s.setByte a b) (a + 1) (by omega)).trans (State.byteAt_setByte_other s a x b (by omega))

/-! ## Register accesses -/

/-- With no channel about to end, nothing settles. -/
theorem State.dmaSettle_quiet (s : State) (h : s.dma.toList.any (fun d => d.abort.isSome) = false) : s.dmaSettle = s := by
  unfold State.dmaSettle; rw [h]; rfl

/-- A register write that reaches its page, and asks no channel to end, is what the page does with it. -/
theorem State.regWrite_reaches {s s1 : State} {x : Access} {p : PageId} (h : s.Reaches x p s1) (off : Nat) (v mask : Word)
    (hd : (s1.pageWrite x.by_ x.m p off v mask).dma = s1.dma) :
    s.regWrite x.by_ x.m p off v mask = (s1.pageWrite x.by_ x.m p off v mask).wrote := by
  unfold State.regWrite
  simp only [h.1, h.2.1, Bool.false_eq_true, if_false]
  rw [State.dmaSettle_quiet]
  · rfl
  · rw [hd]; exact h.2.2.1

/-- A register read that reaches its page answers with what the page reads. -/
theorem State.regRead_reaches {s s1 : State} {x : Access} {p : PageId} (h : s.Reaches x p s1) (off : Nat) :
    s.regRead x.by_ x.m p off = (s1.pageRead x.by_ x.m p off).1.answerW (s1.pageRead x.by_ x.m p off).2 := by
  unfold State.regRead; simp only [h.1, h.2.1, Bool.false_eq_true, if_false]

end Sys2Proof.Machine
end

