-- ==== Sys2Proof/WellFormed.lean ====
section
/-! DEFINITION. Well-formed commands: operands that name something the part has. -/

namespace Sys2Proof

/-- How many pages of a kind the part has (Tables: Cluster register pages, System register pages). -/
def PageKind.count : PageKind → Nat
  | .pwr | .sdma | .str => 4
  | .ird => 16
  | .adc | .ce | .qcb | .db => 64
  | .ac | .mmu | .frm | .pwg0 | .pwg1 | .sdm | .smp | .cmp | .qdec | .cap | .sep | .liu | .cdma | .pairC | .sramC => 8
  | .dtb | .rst | .eg | .sec | .fls | .sramSys | .pairSys | .cxl | .cmd | .strCommon | .dvsec | .msix => 1

/-- A page that exists. -/
def PageId.wf (p : PageId) : Bool := decide (p.inst < p.kind.count)

/-- The offset of a register word in its page. -/
def offWf (off : Nat) : Bool := decide (off < 4096 ∧ off % 4 = 0)

/-- Byte lanes: every byte of the mask is whole or empty. -/
def maskWf (m : Word) : Bool := (List.range 4).all (fun i => (m >>> (8 * i)) &&& 0xFF == 0 || (m >>> (8 * i)) &&& 0xFF == 0xFF)

/-- Only a core's access is M-level (R312). -/
def Access.wf (x : Access) : Bool := !x.m || (match x.by_ with | .core _ => true | _ => false)

/-- The DVSEC and the MSI-X table are the host's. -/
def Access.fits (x : Access) (p : PageId) : Bool := !(p.kind == .dvsec || p.kind == .msix) || x.by_ == .host

/-- A page of the memory units (R357). -/
def PageId.sram (p : PageId) : Bool := p.kind == .sramC || p.kind == .sramSys

/-- A source number of a controller: 0 to 127 of a cluster's, 0 to 1023 of the device's (R305, R306). -/
def sourceWf (i : Fin 9) (n : Fin 1024) : Bool := i == 8 || decide (n.val < 128)

/-- The length of an instruction (R209). -/
def lenWf (n : Nat) : Bool := n == 1 || n == 2 || n == 4

/-- A header flit's fields fit (Table: Header flit). -/
def FrameHead.wf (h : FrameHead) : Bool := decide (h.tc < 3 ∧ h.dst < 256 ∧ h.src < 256 ∧ h.hops < 256 ∧ h.seq < 65536)

/-- A payload of a frame (R550). -/
def payloadWf (l : List Byte) : Bool := decide (l.length ≤ 1008)

/-- What the debug port names exists: 16 cells, 8 return entries, up to 8 bytes of memory (R225). -/
def DebugOp.wf : DebugOp → Bool
  | .cell _ i _ => decide (i < 16)
  | .ret _ i _ => decide (i < 8)
  | .csr _ _ _ => true
  | .mem _ n w => decide (n ≤ 8) && (match w with | some l => decide (l.length ≤ 8) | none => true)

/-- A well-formed command. -/
def Instr.wf : Instr → Bool
  | .registerWrite x p off _ mask => x.wf && p.wf && x.fits p && offWf off && maskWf mask
  | .pageLockWrite x p => x.wf && p.wf && x.fits p
  | .softReset x p _ => x.wf && p.wf && x.fits p
  | .dtbSoftReset x _ => x.wf
  | .frmSoftReset x _ _ => x.wf
  | .pwgPage0SoftReset x _ _ => x.wf
  | .pwgPage1SoftReset x _ _ => x.wf
  | .smpSoftReset x _ _ => x.wf
  | .cmpSoftReset x _ _ => x.wf
  | .bridgeCrcFail => true
  | .bridgeReplayDone _ => true
  | .bridgeRetrainDone _ => true
  | .bridgeHoldExpiry => true
  | .bridgeLaneSleep => true
  | .bridgeLaneWake => true
  | .dtbIncWrite x _ mask => x.wf && maskWf mask
  | .dtbCmdLoad x => x.wf
  | .dtbCmdStep x => x.wf
  | .dtbCmdMfload x => x.wf
  | .dtbCmdTlclr x => x.wf
  | .dtbCmdPtmreq x => x.wf
  | .dtbCtlWrite x _ mask => x.wf && maskWf mask
  | .dtbMfpWrite x _ mask => x.wf && maskWf mask
  | .dtbWrap => true
  | .dtbNsLoRead x => x.wf
  | .frmDtbLoRead x _ => x.wf
  | .frmTickDtbLoRead x _ => x.wf
  | .dtbMfnLoRead x => x.wf
  | .dtbPtmOfsLoRead x => x.wf
  | .machineFrameBoundary => true
  | .timeHoldover => true
  | .fabricTimeLost => true
  | .ptmDialogDue => true
  | .ptmResponse _ => true
  | .frmRunStart x _ _ => x.wf
  | .frmRunStop x _ _ => x.wf
  | .frmLeadWrite x _ _ mask => x.wf && maskWf mask
  | .frmFcntWrite x _ _ mask => x.wf && maskWf mask
  | .carrierFirstValley _ => true
  | .carrierValley _ => true
  | .carrierApex _ => true
  | .leadWindowOpen _ => true
  | .frameDeadline _ => true
  | .pwgChCtlWrite x _ _ _ mask => x.wf && maskWf mask
  | .pwgPerWrite x _ _ mask => x.wf && maskWf mask
  | .pwgCmpWrite x _ _ _ _ mask => x.wf && maskWf mask
  | .pwgTokenWrite x _ _ => x.wf
  | .dutyWordArrival _ _ => true
  | .compareMatch _ _ _ => true
  | .deadTimeExpiry _ _ => true
  | .pwgSafeSetWrite x _ _ => x.wf
  | .pwgSafeRelWrite x _ _ => x.wf
  | .pwgSafeCauseWrite x _ _ mask => x.wf && maskWf mask
  | .pwgTripSwWrite x _ _ mask => x.wf && maskWf mask
  | .pwgTripClrWrite x _ _ => x.wf
  | .tripSourceActive _ _ => true
  | .pwgBlkCtlWrite x _ _ _ _ mask => x.wf && maskWf mask
  | .blankingWindowClose _ _ => true
  | .stopNFall => true
  | .sampleEntryAct _ _ _ => true
  | .adcConversionEnd _ _ => true
  | .samplePortArrival _ _ => true
  | .smpFifoLoRead x _ _ => x.wf
  | .smpCmdSwap x _ => x.wf
  | .smpCmdSwapm x _ => x.wf
  | .smpCmdCheck x _ => x.wf
  | .smpCmdFclr x _ => x.wf
  | .smpCmdDisarm x _ => x.wf
  | .tableCheckDone _ => true
  | .sampleTableSwap _ => true
  | .smpCtlWrite x _ _ mask => x.wf && maskWf mask
  | .adcCalCmdCal x _ _ => x.wf
  | .adcCalCmdTest x _ _ => x.wf
  | .adcCalCmdAbort x _ _ => x.wf
  | .calRunStart _ _ => true
  | .calRunDone _ _ => true
  | .selfTestStepDone _ _ => true
  | .calStarved _ _ => true
  | .substStart _ => true
  | .substEnd _ => true
  | .backgroundConversion _ => true
  | .sdmResult _ _ _ => true
  | .sdmClockLost _ _ => true
  | .sdmClockReturn _ _ => true
  | .fastAct _ _ _ => true
  | .sdmResRead x _ _ => x.wf
  | .cmpStateChange _ _ _ _ _ _ => true
  | .cmpCtlWrite x _ _ _ mask => x.wf && maskWf mask
  | .cmpReady _ _ _ _ _ _ => true
  | .cmpThrWrite x _ _ _ mask => x.wf && maskWf mask
  | .dacSettled _ _ => true
  | .cmpRbCmdReq x _ _ => x.wf
  | .rbDone _ => true
  | .rbWalkStep _ => true
  | .rbStarved _ => true
  | .qdecPinselWrite x _ _ mask => x.wf && maskWf mask
  | .qdecCountStep _ _ _ _ => true
  | .qdecIndex _ _ => true
  | .qdecPosWrite x _ _ _ mask => x.wf && maskWf mask
  | .captureEdge _ _ _ => true
  | .capTsLoRead x _ _ => x.wf
  | .sepTransferEnd _ _ _ _ _ => true
  | .sepRecoveryEnd _ _ => true
  | .sepCmdReq x _ _ => x.wf
  | .sepDataLoRead x _ _ => x.wf
  | .pendingCellFill _ _ => true
  | .storeBufferDrain _ _ _ => true
  | .nop _ => true
  | .dup _ => true
  | .drop _ => true
  | .swap _ => true
  | .over _ => true
  | .rot _ => true
  | .nip _ => true
  | .pick _ _ => true
  | .roll _ _ => true
  | .lit8 _ _ => true
  | .lit16Sx _ _ => true
  | .lit16Zx _ _ => true
  | .lit16H _ _ => true
  | .lit16Or _ _ => true
  | .lit32 _ _ => true
  | .add _ => true
  | .sub _ => true
  | .mul _ => true
  | .mulh _ => true
  | .mulhu _ => true
  | .div _ => true
  | .divu _ => true
  | .rem _ => true
  | .remu _ => true
  | .neg _ => true
  | .min _ => true
  | .max _ => true
  | .minu _ => true
  | .maxu _ => true
  | .slt _ => true
  | .sltu _ => true
  | .and _ => true
  | .or _ => true
  | .xor _ => true
  | .not _ => true
  | .shl _ => true
  | .shr _ => true
  | .sar _ => true
  | .ror _ => true
  | .clz _ => true
  | .addi _ _ => true
  | .andi _ _ => true
  | .shli _ _ => true
  | .shri _ _ => true
  | .sari _ _ => true
  | .rori _ _ => true
  | .bperm _ _ => true
  | .bfx _ _ _ => true
  | .bfi _ _ _ => true
  | .qadd _ => true
  | .qsub _ => true
  | .qmul _ => true
  | .qmac _ => true
  | .mac _ => true
  | .macu _ => true
  | .accq _ => true
  | .fadd _ => true
  | .fsub _ => true
  | .fmul _ => true
  | .fma _ => true
  | .fdiv _ => true
  | .fsqrt _ => true
  | .fclamp _ => true
  | .fneg _ => true
  | .fabs _ => true
  | .fmin _ => true
  | .fmax _ => true
  | .feq _ => true
  | .flt _ => true
  | .fle _ => true
  | .f2i _ => true
  | .i2f _ => true
  | .f2q _ => true
  | .q2f _ => true
  | .ldb _ => true
  | .ldbs _ => true
  | .ldh _ => true
  | .ldhs _ => true
  | .ldw _ => true
  | .stb _ => true
  | .sth _ => true
  | .stw _ => true
  | .ldbPi _ => true
  | .ldbsPi _ => true
  | .ldhPi _ => true
  | .ldhsPi _ => true
  | .ldwPi _ => true
  | .stbPi _ => true
  | .sthPi _ => true
  | .stwPi _ => true
  | .stbPd _ => true
  | .sthPd _ => true
  | .stwPd _ => true
  | .ldbX _ _ => true
  | .ldbsX _ _ => true
  | .ldhX _ _ => true
  | .ldhsX _ _ => true
  | .ldwX _ _ => true
  | .stbX _ _ => true
  | .sthX _ _ => true
  | .stwX _ _ => true
  | .cas _ => true
  | .swapm _ => true
  | .bcc _ _ _ _ slotLen => lenWf slotLen
  | .call _ _ slotLen => lenWf slotLen
  | .calli _ slotLen => lenWf slotLen
  | .jmpi _ => true
  | .ret _ => true
  | .rett _ _ => true
  | .fence _ => true
  | .wfi _ => true
  | .wfiWake _ => true
  | .iflush _ => true
  | .pflush _ => true
  | .pbar _ => true
  | .break_ _ => true
  | .save _ => true
  | .restore _ => true
  | .csrr _ _ => true
  | .csrw _ _ => true
  | .pairCtlReqlock _ => true
  | .pairCtlReqsplit _ => true
  | .trap _ _ => true
  | .tlbiVa _ => true
  | .tlbiVaWalk _ => true
  | .tlbiAsid _ => true
  | .tlbiAsidWalk _ => true
  | .tlbiAll _ => true
  | .tlbiAllWalk _ => true
  | .waits _ => true
  | .putd _ => true
  | .frameend _ => true
  | .ckpt _ => true
  | .tailgo _ => true
  | .interruptEntry _ _ => true
  | .ceRunStart x _ _ => x.wf
  | .ceRunStop x _ _ => x.wf
  | .acRunStart x _ _ => x.wf
  | .acRunStop x _ _ => x.wf
  | .acPcsampLoRead x _ => x.wf
  | .debugHalt _ => true
  | .debugResume _ => true
  | .debugStep _ => true
  | .debugAccess _ op => op.wf
  | .sourceEdge i n => sourceWf i n
  | .sourceLevelChange i n => sourceWf i n
  | .edgeLatchPass i n => sourceWf i n
  | .ctxClaimRead x _ _ => x.wf
  | .ctxCmplWrite x _ _ _ => x.wf
  | .completionResample i n => sourceWf i n
  | .swsetWrite x _ _ => x.wf
  | .ctxCtlWrite x _ _ _ mask => x.wf && maskWf mask
  | .srcCfgWrite x i n _ _ mask => x.wf && sourceWf i n && maskWf mask
  | .pairCmdLock x _ => x.wf
  | .pairCmdSplit x _ => x.wf
  | .pairCmdRelease x _ => x.wf
  | .pairCmdCancel x _ => x.wf
  | .pairLockBoundary _ => true
  | .lockDone _ => true
  | .pairSplitBoundary _ => true
  | .pairMismatchDetect _ _ _ => true
  | .pairHalt _ => true
  | .takeoverComplete _ => true
  | .catchupDeadline _ => true
  | .eccWriteback _ => true
  | .bgTestRegion p _ => p.wf && p.sram
  | .bgTestDone p _ _ => p.wf && p.sram
  | .sramURemapGo x p _ _ => x.wf && p.wf && p.sram && x.fits p
  | .remapDone p _ => p.wf && p.sram
  | .sramInitDone p _ => p.wf && p.sram
  | .vaultWipe _ => true
  | .vaultWipeDone => true
  | .mmuContextWrite x _ _ _ mask => x.wf && maskWf mask
  | .mmuDomctlClose x _ => x.wf
  | .mmuDomctlOpen x _ => x.wf
  | .mmuDommemWrite x _ _ mask => x.wf && maskWf mask
  | .tlbiBroadcastApply _ => true
  | .tlbiBroadcastDone _ => true
  | .dmaStart x _ => x.wf
  | .dmaAbort x _ => x.wf
  | .dmaSwreq x _ => x.wf
  | .dmaRequest _ => true
  | .dmaDescriptorRead _ => true
  | .dmaBurstGrant _ => true
  | .dmaBurstDone _ _ _ => true
  | .dmaConfirmDone _ => true
  | .flsCmdProg x _ _ => x.wf
  | .flsCmdErase x _ => x.wf
  | .flsCmdSuspend x _ => x.wf
  | .flsCmdResume x _ => x.wf
  | .flashOpEnd _ _ => true
  | .flashSuspended _ => true
  | .flashFallbackDone => true
  | .powerDomainRequest x _ _ => x.wf
  | .powerTransitionDone => true
  | .railMonitorEvent _ _ => true
  | .referenceClockFail => true
  | .pllLockLost => true
  | .tempWarn _ _ => true
  | .overTemperature => true
  | .powerOnReset _ => true
  | .resetNPin => true
  | .rstCmdWrite x _ => x.wf
  | .cxlHotReset => true
  | .resetRelease _ _ _ => true
  | .wdKick x _ _ => x.wf
  | .watchdogExpiry _ => true
  | .bootStageDone => true
  | .egSample _ _ _ => true
  | .egCmdOn x _ => x.wf
  | .egCmdOff x _ => x.wf
  | .egCmdClr x _ => x.wf
  | .egCmdCheck x _ => x.wf
  | .egCheckDone _ _ _ _ => true
  | .egELoRead x _ => x.wf
  | .fioSelWrite x _ _ mask => x.wf && maskWf mask
  | .secSignCmdGo x => x.wf
  | .signDone => true
  | .secMeasExtGo x _ => x.wf
  | .measExtDone => true
  | .secMeasLockL02 x => x.wf
  | .tamperInput _ => true
  | .lcFusesBlown => true
  | .cxlLinkUp _ width => [1, 2, 4, 8].contains width.toNat
  | .cxlLinkDown => true
  | .linkDownTimeout => true
  | .hostBar0Write _ _ _ _ => true
  | .hostBar0Read _ _ => true
  | .hdmCommit _ _ _ _ _ _ => true
  | .cxlMemRead _ _ => true
  | .cxlMemWrite _ _ => true
  | .hostSnoop _ _ => true
  | .viralIn => true
  | .cxlViralCmdRaise x => x.wf
  | .cxlMsixSend x _ => x.wf
  | .msixUnmask _ => true
  | .mboxGetEventRecords _ => true
  | .mboxClearEventRecords _ _ _ => true
  | .mboxGetFwInfo => true
  | .mboxTransferFw _ _ _ _ _ => true
  | .mboxActivateFw _ _ _ => true
  | .mboxGetSupportedLogs => true
  | .mboxGetLog => true
  | .urgStopAll => true
  | .urgRelease => true
  | .urgentDone => true
  | .qcCtlWrite x _ _ mask => x.wf && maskWf mask
  | .dbSqtWrite x _ _ => x.wf
  | .dbCqhWrite x _ _ => x.wf
  | .descriptorFetch => true
  | .identify _ => true
  | .getStatus _ => true
  | .resetDomain _ => true
  | .getTemp _ => true
  | .axisEnable _ => true
  | .axisDisable _ => true
  | .safeState _ => true
  | .loadRecipe _ => true
  | .verifyRecipe _ => true
  | .activateRecipe _ => true
  | .listRecipes _ => true
  | .activationTakesEffect _ => true
  | .activationFinish => true
  | .traceArm _ => true
  | .traceTrigger _ => true
  | .traceStop _ => true
  | .traceReadIndex _ => true
  | .traceEventTrigger => true
  | .flashWrite _ _ => true
  | .flashErase _ _ => true
  | .flashVerify _ => true
  | .updateImageWrite _ _ => true
  | .updateImageCommit _ => true
  | .getCertChain _ => true
  | .attest _ => true
  | .setLifecycle _ => true
  | .enumerate _ => true
  | .setRoute _ => true
  | .getTopology _ => true
  | .setDomains _ => true
  | .getPower _ => true
  | .stringLinkUp _ _ _ => true
  | .stringLinkLost _ => true
  | .stopFrame _ h => h.wf
  | .syncFrame _ h _ _ _ _ _ _ _ => h.wf
  | .delayFrame _ h _ => h.wf
  | .linkdownFrame _ h _ => h.wf
  | .cyclicFrame _ h _ _ data => h.wf && payloadWf data
  | .writeFrame _ h _ bs => h.wf && payloadWf bs
  | .readFrame _ h _ _ => h.wf
  | .respFrame _ h _ data => h.wf && payloadWf data
  | .discFrame _ h _ => h.wf
  | .discrFrame _ h _ _ _ _ _ _ => h.wf
  | .topoFrame _ h _ _ _ _ _ _ => h.wf
  | .discTimeout => true
  | .delayExchangeDue _ => true
  | .syncInterval => true
  | .cyclicTx _ => true
  | .txLate _ => true
  | .strStopCmdGo x _ => x.wf
  | .stopResend => true
  | .tc2RetryTimeout _ => true
  | .strExpWrite x _ _ mask => x.wf && maskWf mask
  | .stopNRise => true
  | .tripPinInactive _ _ => true
  | .fastWindowInactive _ _ _ => true
  | .tamperInputInactive _ => true
  | .reservedOpcode c bytes => (decodeDsx c 1 bytes).isNone
  | .memoryBitError _ _ _ _ _ => true
  | .flashBitError _ _ => true
  | .ptmEnableWrite _ => true
  | .cacheEnableWrite _ => true

end Sys2Proof
end

