-- ==== Sys2Proof/Tests/Slice0.lean ====
section
/-! SUPPORT. Tests: ill-formed terms that WellFormed refuses, worked examples of the specification, and for each statement a
state and operands that meet its hypotheses. -/

namespace Sys2Proof.Tests

open Sys2Proof Sys2Proof.Machine

set_option Elab.async false

/-! ## Ill-formed commands are refused (WellFormed) -/

/-- Application core 0 at M, engine 0 at M, and the host. -/
def m0 : Access := ⟨.core (.ac 0), true⟩
/-- See `m0`. -/
def me : Access := ⟨.core (.ce 0), true⟩
/-- See `m0`. -/
def hst : Access := ⟨.host, false⟩
/-- A frame header of a class, for an address, with a `SEQ`. -/
def head (tc dst seq : Nat) : FrameHead := ⟨tc, dst, 7, 32, seq, true⟩

theorem test_wf_access : (Instr.registerWrite ⟨.host, true⟩ pgRst 0x40 0 0xFFFFFFFF).wf = false := by decide +kernel
theorem test_wf_page : (Instr.registerWrite m0 ⟨.frm, 8⟩ 0x40 0 0xFFFFFFFF).wf = false := by decide +kernel
theorem test_wf_host_page : (Instr.registerWrite m0 pgDvsec 0x0C 0 0xFFFFFFFF).wf = false := by decide +kernel
theorem test_wf_offset_range : (Instr.registerWrite m0 pgRst 0x1000 0 0xFFFFFFFF).wf = false := by decide +kernel
theorem test_wf_offset_word : (Instr.registerWrite m0 pgRst 0x42 0 0xFFFFFFFF).wf = false := by decide +kernel
theorem test_wf_mask : (Instr.registerWrite m0 pgRst 0x40 0 0x00000FFF).wf = false := by decide +kernel
theorem test_wf_register_write : (Instr.registerWrite m0 pgRst 0x40 0 0x0000FF00).wf = true := by decide +kernel
theorem test_wf_slot_length : (Instr.call (.ce 0) 0 3).wf = false := by decide +kernel
theorem test_wf_debug_cell : (Instr.debugAccess (.ce 0) (.cell 0 16 none)).wf = false := by decide +kernel
theorem test_wf_debug_return : (Instr.debugAccess (.ce 0) (.ret 0 8 none)).wf = false := by decide +kernel
theorem test_wf_debug_memory : (Instr.debugAccess (.ce 0) (.mem 0 9 none)).wf = false := by decide +kernel
theorem test_wf_source : (Instr.sourceEdge 7 128).wf = false ∧ (Instr.sourceEdge 8 128).wf = true := by decide +kernel
theorem test_wf_memory_page : (Instr.bgTestRegion pgRst 3).wf = false := by decide +kernel
theorem test_wf_frame_class : (Instr.discFrame 0 (head 3 0 0) 0).wf = false := by decide +kernel
theorem test_wf_frame_seq : (Instr.discFrame 0 (head 2 0 65536) 0).wf = false := by decide +kernel
theorem test_wf_payload : (Instr.writeFrame 0 (head 2 1 0) 0 (List.replicate 1009 0)).wf = false := by
  simp only [Instr.wf, payloadWf, List.length_replicate]; decide +kernel

/-! ## No row of the table gives bits -/

theorem test_no_word_decodes : decodeTableWord 32 0x12345678 = none := by decide +kernel

/-! ## Instructions whose bytes the specification writes out (09_instruction_reference.md, below R236 and R237) -/

theorem test_decode_branch : decodeDsx (.ce 0) 2 0xFFFF75C0 = some (.bcc (.ce 0) true 2 (-9) 2) := by decide +kernel
theorem test_decode_literal : decodeDsx (.ce 0) 1 0x3F1302C2 = some (.lit16H (.ce 0) 0x3F13)
    ∧ decodeDsx (.ce 0) 1 0xCD3A03C2 = some (.lit16Or (.ce 0) 0xCD3A) := by decide +kernel
theorem test_decode_byte : decodeDsx (.ac 3) 1 0x02 = some (.dup (.ac 3)) ∧ decodeDsx (.ac 3) 1 0x30 = some (.fadd (.ac 3))
    ∧ decodeDsx (.ac 3) 1 0x32 = some (.fmul (.ac 3)) := by decide +kernel
theorem test_decode_shift_count : decodeDsx (.ce 0) 1 0x1F83 = some (.shli (.ce 0) 31) ∧ decodeDsx (.ce 0) 1 0x2083 = none := by decide +kernel

/-! ## Cores that issue -/

/-- A core that runs from `pc` with a status and operand cells. -/
def run (c : CoreId) (pc st : Word) (cells : List Word) : State :=
  State.reset.modCore c (fun k =>
    { k.startCe pc with fresh := false, status := st
                        bTl := { k.bTl with cells := cells.map (fun v => ⟨v, none⟩), rets := [0x40, 0x44] } })

/-- What the fetch of an instruction leaves. -/
def fetch (s : State) (c : CoreId) (n : Nat) : State :=
  match (s.ready c).coreFetch c (s.core c).fetchHi (s.core c).pc n with
  | .ok t _ => t
  | _ => s

/-- The fetch leaves its core as it was, but for the caches. -/
def fetchB (s : State) (c : CoreId) (n : Nat) : Bool :=
  match (s.ready c).coreFetch c (s.core c).fetchHi (s.core c).pc n with
  | .ok t _ => decide (t.core c = { (s.ready c).core c with tlb := (t.core c).tlb, walk := (t.core c).walk, icache := (t.core c).icache })
      && !t.locked c
  | _ => false

/-- `State.Issues` as a Bool. -/
def issuesB (s : State) (c : CoreId) (n : Nat) : Bool :=
  s.canIssue c && (s.before c).isNone && !(s.core c).det c && !(s.core c).fresh && (s.core c).slot.isNone && !(s.core c).step1
    && !s.locked c && decide ((s.core c).cur.cells.length ≤ 16) && fetchB s c n

theorem issues_of {s : State} {c : CoreId} {n : Nat} (h : issuesB s c n = true) : s.Issues c n (fetch s c n) := by
  unfold issuesB fetchB at h
  unfold State.Issues fetch
  revert h
  cases (s.ready c).coreFetch c (s.core c).fetchHi (s.core c).pc n with
  | ok t u => simp [and_assoc]
  | _ => simp

/-- `State.IssuesInSlot` as a Bool. -/
def slotB (s : State) (c : CoreId) (n : Nat) (d : Slot) : Bool :=
  s.canIssue c && (s.before c).isNone && !(s.core c).det c && !(s.core c).fresh && decide ((s.core c).slot = some d) && !(s.core c).step1
    && !s.locked c && fetchB s c n

theorem slot_of {s : State} {c : CoreId} {n : Nat} {d : Slot} (h : slotB s c n d = true) : s.IssuesInSlot c n (fetch s c n) d := by
  unfold slotB fetchB at h
  unfold State.IssuesInSlot fetch
  revert h
  cases (s.ready c).coreFetch c (s.core c).fetchHi (s.core c).pc n with
  | ok t u => simp [and_assoc]
  | _ => simp

/-- `State.SameCore` as a Bool. -/
def sameB (s t : State) (c : CoreId) : Bool :=
  decide (t.core c = { s.core c with sbuf := (t.core c).sbuf, tlb := (t.core c).tlb, walk := (t.core c).walk }) && !t.locked c

theorem loads_of {s : State} {c : CoreId} {a : Word} {n : Nat} {v : Word}
    (h : (match s.coreLoad c (s.core c).lvl .load (s.core c).cur.vhi a n with
      | .ok t w => decide (w = v) && sameB s t c
      | _ => false) = true) : ∃ t, s.Loads c a n t v := by
  unfold State.Loads
  revert h
  cases s.coreLoad c (s.core c).lvl .load (s.core c).cur.vhi a n with
  | ok t w =>
    intro h
    simp only [sameB, Bool.and_eq_true, decide_eq_true_eq, Bool.not_eq_true'] at h
    exact ⟨t, by rw [h.1], h.2.1, h.2.2⟩
  | _ => simp

theorem stores_of {s : State} {c : CoreId} {a : Word} {n : Nat}
    (h : (match s.checkParts c (s.core c).lvl .store (partsOf c (s.core c).cur.vhi a n) with
      | .ok t l => sameB s t c && decide ((t.core c).sbuf.length + l.length ≤ sbSize c)
      | _ => false) = true) : ∃ t l, s.Stores c a n t l := by
  unfold State.Stores
  revert h
  cases s.checkParts c (s.core c).lvl .store (partsOf c (s.core c).cur.vhi a n) with
  | ok t l =>
    intro h
    simp only [sameB, Bool.and_eq_true, decide_eq_true_eq, Bool.not_eq_true'] at h
    exact ⟨t, l, rfl, ⟨h.1.1, h.1.2⟩, h.2⟩
  | _ => simp

/-- An access that reaches its page, as a Bool, and the state it leaves. -/
def reachB (s : State) (x : Access) (p : PageId) : Bool :=
  (s.pageAccess x.by_ p).isSome && !s.pageWaits x.by_ p && !((s.pageAccess x.by_ p).getD s).dma.toList.any (fun d => d.abort.isSome)
    && ((s.pageAccess x.by_ p).getD s).canonical
/-- See `reachB`. -/
def reach (s : State) (x : Access) (p : PageId) : State := (s.pageAccess x.by_ p).getD s

theorem reaches_of {s : State} {x : Access} {p : PageId} (h : reachB s x p = true) : s.Reaches x p (reach s x p) := by
  unfold reachB at h
  unfold State.Reaches reach
  revert h
  cases s.pageAccess x.by_ p <;> simp +contextual

/-! ## Hypotheses that states meet: instructions. Each theorem is named after its statement. -/

/-- Engine 0 and application core 2 at M with cells 7, 5, 3. -/
def M : State := run (.ce 0) 0x100 3 [7, 5, 3]
/-- See `M`. -/
def A : State := run (.ac 2) 0x1000100 3 [7, 5, 3]
/-- Cells that address memory. -/
def M8 : State := run (.ce 0) 0x100 3 [8, 0x10, 0, 3]
/-- A full operand stack but one. -/
def M15 : State := run (.ce 0) 0x100 3 (List.replicate 15 1)

theorem test_hyp_BinaryIntegerInstructions : (M.Issues (.ce 0) 1 (fetch M (.ce 0) 1) ∧ (M.core (.ce 0)).Operands [7, 5])
    ∧ A.Issues (.ac 2) 1 (fetch A (.ac 2) 1) ∧ (A.core (.ac 2)).Operands [7, 5] :=
  ⟨⟨issues_of (by decide +kernel), by unfold Core.Operands; decide +kernel⟩, issues_of (by decide +kernel), by unfold Core.Operands; decide +kernel⟩

theorem test_hyp_UnaryIntegerInstructions : (31 : BitVec 8).toNat < 32 ∧ M.Issues (.ce 0) 1 (fetch M (.ce 0) 1)
    ∧ M.Issues (.ce 0) 2 (fetch M (.ce 0) 2) ∧ M.Issues (.ce 0) 4 (fetch M (.ce 0) 4) ∧ (M.core (.ce 0)).Operands [7, 5]
    ∧ badField 31 1 0x9F = false ∧ badField 0x80 32 0x9F = false ∧ badField 0 32 0x1F = false :=
  ⟨by decide +kernel, issues_of (by decide +kernel), issues_of (by decide +kernel), issues_of (by decide +kernel), by unfold Core.Operands; decide +kernel, by decide +kernel⟩

theorem test_hyp_StackInstructions : (M.Issues (.ce 0) 1 (fetch M (.ce 0) 1) ∧ (M.core (.ce 0)).cur.cells = [⟨7, none⟩, ⟨5, none⟩, ⟨3, none⟩])
    ∧ (M15.Issues (.ce 0) 2 (fetch M15 (.ce 0) 2) ∧ M15.Issues (.ce 0) 4 (fetch M15 (.ce 0) 4) ∧ (M15.core (.ce 0)).cur.cells.length < 16)
    ∧ (15 : BitVec 8).toNat < 16 ∧ (M15.core (.ce 0)).cur.cells[(14 : BitVec 8).toNat]? = some ⟨1, none⟩ :=
  ⟨⟨issues_of (by decide +kernel), by decide +kernel⟩, ⟨issues_of (by decide +kernel), issues_of (by decide +kernel), by decide +kernel⟩, by decide +kernel⟩

theorem test_hyp_ReservedFormsTrap : M.Issues (.ce 0) 2 (fetch M (.ce 0) 2) ∧ 32 ≤ (32 : BitVec 8).toNat ∧ 16 ≤ (16 : BitVec 8).toNat
    ∧ decodeDsx (.ce 0) 1 0 = none ∧ decodeDsx (.ce 0) 1 0xFF = none
    ∧ M.Issues (.ce 0) (opLength ((0 : Word).toNat % 256)) (fetch M (.ce 0) (opLength ((0 : Word).toNat % 256)))
    ∧ M.Issues (.ce 0) (opLength ((0xFF : Word).toNat % 256)) (fetch M (.ce 0) (opLength ((0xFF : Word).toNat % 256))) :=
  ⟨issues_of (by decide +kernel), by decide +kernel, by decide +kernel, by decide +kernel, by decide +kernel,
    issues_of (by decide +kernel), issues_of (by decide +kernel)⟩

theorem test_hyp_FractionalInstructions : M.Issues (.ce 0) 1 (fetch M (.ce 0) 1) ∧ (M.core (.ce 0)).cur.accLo = none
    ∧ (M.core (.ce 0)).cur.accHi = none ∧ (M.core (.ce 0)).Operands [7, 5] ∧ (M.core (.ce 0)).cur.cells.length < 16 :=
  ⟨issues_of (by decide +kernel), by decide +kernel, by decide +kernel, by unfold Core.Operands; decide +kernel, by decide +kernel⟩

theorem test_hyp_FloatInstructions : M.Issues (.ce 0) 1 (fetch M (.ce 0) 1) ∧ (M.core (.ce 0)).Operands [7]
    ∧ (M.core (.ce 0)).Operands [7, 5] ∧ (M.core (.ce 0)).Operands [7, 5, 3] :=
  ⟨issues_of (by decide +kernel), by unfold Core.Operands; decide +kernel, by unfold Core.Operands; decide +kernel, by unfold Core.Operands; decide +kernel⟩

/-- A value on its way to the top cell. -/
def pendS (waits : Bool) : State := M.modCore (.ce 0) (fun k =>
  { k with pend := [⟨9, some 77, waits⟩], bTl := { k.bTl with cells := [⟨0, some 9⟩] } })

theorem test_hyp_PendingResults : (M.Issues (.ce 0) 1 (fetch M (.ce 0) 1) ∧ (M.core (.ce 0)).Operands [7, 5] ∧ (M.core (.ce 0)).Operands [7])
    ∧ (M.Issues (.ce 0) 4 (fetch M (.ce 0) 4)
      ∧ ∃ t, (fetch M (.ce 0) 4).Loads (.ce 0) ((M.core (.ce 0)).pc + (0x40 : BitVec 24).signExtend 32) 4 t 0)
    ∧ ∀ d : Bool, (pendS d).locked (.ce 0) = false ∧ ((pendS d).core (.ce 0)).pend.find? (fun p => p.id == 9) = some ⟨9, some 77, d⟩ :=
  ⟨⟨issues_of (by decide +kernel), by unfold Core.Operands; decide +kernel, by unfold Core.Operands; decide +kernel⟩,
    ⟨issues_of (by decide +kernel), loads_of (by decide +kernel)⟩, by decide +kernel⟩

theorem test_hyp_LoadInstructions : M8.Issues (.ce 0) 1 (fetch M8 (.ce 0) 1) ∧ (M8.core (.ce 0)).Operands [8, 0x10]
    ∧ (∃ t, ((fetch M8 (.ce 0) 1).dropCells (.ce 0) 1).Loads (.ce 0) 8 4 t 0)
    ∧ ∃ t, ((fetch M8 (.ce 0) 1).dropCells (.ce 0) 2).Loads (.ce 0) (0x10 + (8 <<< (3 : Fin 4).val)) 2 t 0 :=
  ⟨issues_of (by decide +kernel), by unfold Core.Operands; decide +kernel, loads_of (by decide +kernel), loads_of (by decide +kernel)⟩

theorem test_hyp_StoreInstructions : M8.Issues (.ce 0) 1 (fetch M8 (.ce 0) 1) ∧ (M8.core (.ce 0)).Operands [8, 0x10, 0]
    ∧ (∃ t l, ((fetch M8 (.ce 0) 1).dropCells (.ce 0) 2).Stores (.ce 0) 8 4 t l)
    ∧ (∃ t l, ((fetch M8 (.ce 0) 1).dropCells (.ce 0) 2).Stores (.ce 0) (8 - 4) 4 t l)
    ∧ ∃ t l, ((fetch M8 (.ce 0) 1).dropCells (.ce 0) 3).Stores (.ce 0) (0x10 + (8 <<< (3 : Fin 4).val)) 1 t l :=
  ⟨issues_of (by decide +kernel), by unfold Core.Operands; decide +kernel, stores_of (by decide +kernel), stores_of (by decide +kernel), stores_of (by decide +kernel)⟩

/-- A store in the buffer. -/
def drain : State := M8.modCore (.ce 0) (fun k => { k with sbuf := [⟨8, 0x8100008, true, [1, 2, 3, 4]⟩] })

theorem test_hyp_OwnMemoryAccess : ((0x7FFC : Word).toNat + 4 ≤ 0x8000 ∧ (0x7FFC : Word).toNat % 4 = 0) ∧ M.OwnMemory 0
    ∧ ((drain.core (.ce 0)).sbuf = [⟨8, lsramBase 0 + (8 : Word).toNat, true, [1, 2, 3, 4]⟩]
      ∧ (drain.modCore (.ce 0) (fun k => { k with sbuf := [] })).OwnMemory 0)
    ∧ M8.Issues (.ce 0) 1 (fetch M8 (.ce 0) 1) ∧ (fetch M8 (.ce 0) 1).OwnMemory 0 ∧ (M8.core (.ce 0)).Operands [8, 0x10]
    ∧ (M8.core (.ce 0)).Operands [8, 0x10, 0] :=
  ⟨by decide +kernel, by unfold State.OwnMemory; decide +kernel, ⟨by decide +kernel, by unfold State.OwnMemory; decide +kernel⟩, issues_of (by decide +kernel),
    by unfold State.OwnMemory; decide +kernel, by unfold Core.Operands; decide +kernel, by unfold Core.Operands; decide +kernel⟩

theorem test_hyp_MisalignedAtomicsTrap : M.Issues (.ce 0) 1 (fetch M (.ce 0) 1) ∧ (7 : Word).toNat % 4 ≠ 0
    ∧ (M.core (.ce 0)).Operands [7, 5] ∧ (M.core (.ce 0)).Operands [7, 5, 3] :=
  ⟨issues_of (by decide +kernel), by decide +kernel, by unfold Core.Operands; decide +kernel, by unfold Core.Operands; decide +kernel⟩

theorem test_hyp_BranchInstructions : M.Issues (.ce 0) 4 (fetch M (.ce 0) 4) ∧ M.Issues (.ce 0) 1 (fetch M (.ce 0) 1)
    ∧ (M.core (.ce 0)).Operands [7] ∧ (M.core (.ce 0)).cur.rets.length < 8 ∧ (M.core (.ce 0)).cur.rets = 0x40 :: [0x44] :=
  ⟨issues_of (by decide +kernel), issues_of (by decide +kernel), by unfold Core.Operands; decide +kernel, by decide +kernel, by decide +kernel⟩

/-- A branch to 0x200 whose slot comes next. -/
def taken : Slot := ⟨0xF0, some 0x200, (M.core (.ce 0)).cur⟩
/-- See `taken`. -/
def inSlot : State := M.modCore (.ce 0) (fun k => { k with slot := some taken })

theorem test_hyp_DelaySlots : inSlot.IssuesInSlot (.ce 0) 1 (fetch inSlot (.ce 0) 1) taken
    ∧ inSlot.IssuesInSlot (.ce 0) 2 (fetch inSlot (.ce 0) 2) taken ∧ inSlot.IssuesInSlot (.ce 0) 4 (fetch inSlot (.ce 0) 4) taken :=
  ⟨slot_of (by decide +kernel), slot_of (by decide +kernel), slot_of (by decide +kernel)⟩

/-! ### Traps and system instructions -/

/-- Core `c` in the handler of a trap, with a status and a level record. -/
def handler (c : CoreId) (st lr : Word) : State :=
  (run c (if isCe c then 0x100 else 0x1000100) st [1]).modCore c (fun k =>
    { k with bank := .s, sInUse := true, lvlrec := lr, epc := 0x150, cause := 4, mframe := ⟨0x60, 3, 2, 0x1F3⟩, evecS := 0x80, evecM := 0x90 })
/-- With both critical bits set. -/
def crit (s : State) (c : CoreId) : State := s.modCore c (fun k => { k with status := k.status ||| 0xC70 })
/-- Engine 0 at S; at U, where region 0 grants its memory. -/
def atS : State := run (.ce 0) 0x100 1 [7, 5, 3]
/-- See `atS`. -/
def atU : State := ((run (.ce 0) 0x100 0 [7, 5, 3]).setReg (pgCe 0) (forceOff (Reg.CE_RGN_BASE 0)) 1).setReg (pgCe 0)
  (forceOff (Reg.CE_RGN_CFG 0)) 0x70F

theorem test_hyp_TrapsEnter : (M.Issues (.ce 0) 2 (fetch M (.ce 0) 2) ∧ (fetch M (.ce 0) 2).dbgBrk (.ce 0) = false)
    ∧ (atS.Issues (.ce 0) 1 (fetch atS (.ce 0) 1) ∧ (fetch atS (.ce 0) 1).dbgBrk (.ce 0) = false)
    ∧ ((atS.core (.ce 0)).lvl ≠ 3 ∧ bitOf (atS.core (.ce 0)).status 10 = false ∧ (atS.core (.ce 0)).sInUse = false)
    ∧ ((crit atU (.ce 0)).Issues (.ce 0) 2 (fetch (crit atU (.ce 0)) (.ce 0) 2) ∧ ((crit atU (.ce 0)).core (.ce 0)).lvl ≠ 3
      ∧ bitOf ((crit atU (.ce 0)).core (.ce 0)).status 10 = true)
    ∧ ((M.core (.ce 0)).lvl = 3 ∧ bitOf (M.core (.ce 0)).status 11 = false)
    ∧ (crit M (.ce 0)).Issues (.ce 0) 2 (fetch (crit M (.ce 0)) (.ce 0) 2) ∧ ((crit M (.ce 0)).core (.ce 0)).lvl = 3
    ∧ bitOf ((crit M (.ce 0)).core (.ce 0)).status 11 = true :=
  ⟨⟨issues_of (by decide +kernel), by decide +kernel⟩, ⟨issues_of (by decide +kernel), by decide +kernel⟩, by decide +kernel, ⟨issues_of (by decide +kernel), by decide +kernel⟩, by decide +kernel,
    issues_of (by decide +kernel), by decide +kernel⟩

/-- An interrupt source of controller `i`, with its configuration word and targets, its page enabled. -/
def source (s : State) (i : IrqCtl) (n : Nat) (v t : Word) : State :=
  ((s.setReg (srcPage i n) (Reg.SRC_CFG (n % 128)) v).setReg (srcPage i n) (Reg.SRC_TGT (n % 128)) t).setReg (irqPage i) Reg.PAGE_CTL 1
/-- In a handler entered from U (with an S interrupt waiting in `retI`), from M, and from S at M; nested M; and a return that fails. -/
def retS : State := handler (.ce 0) 0x421 1
/-- See `retS`. -/
def retA : State := handler (.ac 2) 0x421 1
/-- See `retS`. -/
def retI : State := source retS 0 50 0x10103 1
/-- See `retS`. -/
def retM : State := handler (.ac 2) 0x88F 3
/-- See `retS`. -/
def retMS : State := handler (.ac 2) 0x887 7
/-- See `retS`. -/
def retBad : State := handler (.ce 0) 0x425 2

/-- The core as RETT checks it. -/
def back (s : State) (c : CoreId) : Core := { (fetch s c 1).core c with status := (s.core c).returnStatus }

theorem test_hyp_ReturnFromTrap :
    (atU.Issues (.ce 0) 1 (fetch atU (.ce 0) 1) ∧ (atU.core (.ce 0)).lvl = 0)
    ∧ (retBad.Issues (.ce 0) 1 (fetch retBad (.ce 0) 1) ∧ 1 ≤ (retBad.core (.ce 0)).lvl ∧ bitsOf (retBad.core (.ce 0)).lvlrec 1 0 = 2)
    ∧ (retS.Issues (.ce 0) 1 (fetch retS (.ce 0) 1) ∧ (retS.core (.ce 0)).badReturn = false ∧ (retS.core (.ce 0)).lvl = 1
      ∧ (retS.core (.ce 0)).restores (.ce 0) = false ∧ (fetch retS (.ce 0) 1).takeable (.ce 0) (back retS (.ce 0)) = none
      ∧ (retS.core (.ce 0)).ovrPend = none ∧ (retS.core (.ce 0)).fgDue = false ∧ (retS.core (.ce 0)).pbk = 0)
    ∧ (retA.Issues (.ac 2) 1 (fetch retA (.ac 2) 1) ∧ (retA.core (.ac 2)).badReturn = false ∧ (retA.core (.ac 2)).lvl = 1
      ∧ (retA.core (.ac 2)).restores (.ac 2) = false ∧ (fetch retA (.ac 2) 1).takeable (.ac 2) (back retA (.ac 2)) = none
      ∧ (retA.core (.ac 2)).ovrPend = none ∧ (retA.core (.ac 2)).fgDue = false ∧ (retA.core (.ac 2)).ppl = 0)
    ∧ (retM.Issues (.ac 2) 1 (fetch retM (.ac 2) 1) ∧ (retM.core (.ac 2)).badReturn = false ∧ (retM.core (.ac 2)).lvl = 3
      ∧ (retM.core (.ac 2)).ppl = 3 ∧ (fetch retM (.ac 2) 1).takeable (.ac 2) (back retM (.ac 2)) = none
      ∧ (retM.core (.ac 2)).ovrPend = none ∧ (retM.core (.ac 2)).fgDue = false)
    ∧ (retMS.Issues (.ac 2) 1 (fetch retMS (.ac 2) 1) ∧ (retMS.core (.ac 2)).badReturn = false ∧ (retMS.core (.ac 2)).lvl = 3
      ∧ (retMS.core (.ac 2)).ppl = 1 ∧ (fetch retMS (.ac 2) 1).takeable (.ac 2) (back retMS (.ac 2)) = none
      ∧ (retMS.core (.ac 2)).ovrPend = none ∧ (retMS.core (.ac 2)).fgDue = false)
    ∧ (retI.Issues (.ce 0) 1 (fetch retI (.ce 0) 1) ∧ (retI.core (.ce 0)).badReturn = false ∧ (retI.core (.ce 0)).lvl = 1
      ∧ (fetch retI (.ce 0) 1).takeable (.ce 0) (back retI (.ce 0)) = some (50, 3, false)) :=
  ⟨⟨issues_of (by decide +kernel), by decide +kernel⟩, ⟨issues_of (by decide +kernel), by decide +kernel⟩, ⟨issues_of (by decide +kernel), by decide +kernel⟩,
    ⟨issues_of (by decide +kernel), by decide +kernel⟩, ⟨issues_of (by decide +kernel), by decide +kernel⟩,
    ⟨issues_of (by decide +kernel), by decide +kernel⟩, issues_of (by decide +kernel), by decide +kernel⟩

/-- Engine 0 waits in WFI. -/
def waiting : State := atS.modCore (.ce 0) (fun k => { k with wfi := true })

/-- Engine 0 in an entry for an interrupt of priority 1, at M or S, while one of priority 3 is pending at M. -/
def entering (m : Bool) : State := (source atU 0 50 0x10113 1).modCore (.ce 0) (fun k =>
  { k with entry := some ⟨false, some (1, m), k.snap⟩ })

theorem test_hyp_InterruptsAndWaiting :
    (∀ s ∈ [atU, source atU 0 50 0x10103 1, source waiting 0 50 0x10113 1, entering true, entering false],
      s.locked (.ce 0) = false ∧ s.atBoundary (.ce 0) = true)
    ∧ (∀ s ∈ [atU, source atU 0 50 0x10103 1, source waiting 0 50 0x10113 1], (s.core (.ce 0)).entry = none)
    ∧ atU.takeable (.ce 0) (atU.core (.ce 0)) = none
    ∧ ((source atU 0 50 0x10103 1).takeable (.ce 0) (atU.core (.ce 0)) = some (50, 3, false) ∧ (atU.core (.ce 0)).sInUse = false)
    ∧ (source waiting 0 50 0x10113 1).takeable (.ce 0) (waiting.core (.ce 0)) = some (50, 3, true)
    ∧ (∀ m, ((entering m).core (.ce 0)).entry = some ⟨false, some (1, m), (atU.core (.ce 0)).snap⟩
      ∧ (entering m).coreReq (.ce 0) true = some (50, 3) ∧ (((entering m).core (.ce 0)).undo (atU.core (.ce 0)).snap).takeM = true)
    ∧ M.Issues (.ce 0) 1 (fetch M (.ce 0) 1)
    ∧ ((waiting.core (.ce 0)).wfi = true ∧ (source waiting 0 50 0x10113 1).irqPending (.ce 0) = true) ∧ (M.core (.ce 0)).wfi = false :=
  ⟨by decide +kernel, by decide +kernel, by decide +kernel, by decide +kernel, by decide +kernel, by decide +kernel, issues_of (by decide +kernel),
    by decide +kernel⟩

/-- Engine 0 whose `DBGBRK` is set. -/
def dbg : State := M.setReg (pgCe 0) Reg.CE_CTL 9

theorem same_of {s t : State} {c : CoreId} (h : sameB s t c = true) : s.SameCore t c := by
  simp only [sameB, Bool.and_eq_true, decide_eq_true_eq, Bool.not_eq_true'] at h
  exact ⟨h.1, h.2⟩

theorem test_hyp_SystemInstructions : M.Issues (.ce 0) 1 (fetch M (.ce 0) 1)
    ∧ (((fetch M (.ce 0) 1).drainAll (.ce 0)).2 = true ∧ (fetch M (.ce 0) 1).SameCore ((fetch M (.ce 0) 1).drainAll (.ce 0)).1 (.ce 0)
      ∧ ((fetch M (.ce 0) 1).drainAll (.ce 0)).1.canonical = true)
    ∧ (A.Issues (.ac 2) 1 (fetch A (.ac 2) 1) ∧ ((fetch A (.ac 2) 1).drainAll (.ac 2)).2 = true
      ∧ (fetch A (.ac 2) 1).SameCore ((fetch A (.ac 2) 1).drainAll (.ac 2)).1 (.ac 2))
    ∧ (1 ≤ (M.core (.ce 0)).lvl ∧ (M.core (.ce 0)).Operands [7, 5])
    ∧ (atU.Issues (.ce 0) 1 (fetch atU (.ce 0) 1) ∧ (atU.core (.ce 0)).lvl = 0 ∧ (atU.core (.ce 0)).Operands [7, 5])
    ∧ dbg.Issues (.ce 0) 1 (fetch dbg (.ce 0) 1) ∧ (fetch dbg (.ce 0) 1).dbgBrk (.ce 0) = true :=
  ⟨issues_of (by decide +kernel), ⟨by decide +kernel, same_of (by decide +kernel), by decide +kernel⟩, ⟨issues_of (by decide +kernel), by decide +kernel, same_of (by decide +kernel)⟩,
    ⟨by decide +kernel, by unfold Core.Operands; decide +kernel⟩, ⟨issues_of (by decide +kernel), by decide +kernel, by unfold Core.Operands; decide +kernel⟩,
    issues_of (by decide +kernel), by decide +kernel⟩

/-- Engine 0 with its system stack pointer at an address. -/
def withSsp (v : Word) : State := M.modCore (.ce 0) (fun k => { k with ssp := v })

/-- What a SAVE and, below the top, a RESTORE at an address need. -/
def saveB (v : Word) : Bool :=
  issuesB (withSsp v) (.ce 0) 1 && decide (((withSsp v).core (.ce 0)).ssp.toNat % 64 = 0) && ((withSsp v).core (.ce 0)).bS.cells.all (fun x => x.pend.isNone)
    && ((withSsp v).core (.ce 0)).bS.accLo.isNone && ((withSsp v).core (.ce 0)).bS.accHi.isNone

theorem test_hyp_SaveAndRestore : (saveB 0x80 = true ∧ saveB 0x7F80 = true ∧ saveB 0x8000 = true)
    ∧ (fetch (withSsp 0x80) (.ce 0) 1).OwnMemory 0 ∧ (fetch (withSsp 0x8000) (.ce 0) 1).OwnMemory 0
    ∧ (128 ≤ (0x80 : Word).toNat ∧ (0x8000 : Word).toNat ≤ 0x8000 ∧ (0x7F80 : Word).toNat + 128 ≤ 0x8000) :=
  ⟨by decide +kernel, by unfold State.OwnMemory; decide +kernel, by unfold State.OwnMemory; decide +kernel, by decide +kernel⟩

theorem test_hyp_ControlRegisters : (M.Issues (.ce 0) 2 (fetch M (.ce 0) 2) ∧ (M.core (.ce 0)).cur.cells.length < 16
      ∧ (M.core (.ce 0)).cur.accLo = none ∧ (M.core (.ce 0)).cur.accHi = none ∧ (M.core (.ce 0)).Operands [7]
      ∧ (M.core (.ce 0)).lvl = 3 ∧ (M.core (.ce 0)).sbuf = [])
    ∧ (atU.Issues (.ce 0) 2 (fetch atU (.ce 0) 2) ∧ (atU.core (.ce 0)).Operands [7] ∧ (atU.core (.ce 0)).lvl < 1)
    ∧ (10 ≤ (10 : BitVec 8).toNat ∧ (15 : BitVec 8).toNat < 16) ∧ (0x18 ≤ (0x18 : BitVec 8).toNat ∧ (0x7F : BitVec 8).toNat < 0x80)
    ∧ 0x86 ≤ (0x86 : BitVec 8).toNat :=
  ⟨⟨issues_of (by decide +kernel), by decide +kernel, by decide +kernel, by decide +kernel, by unfold Core.Operands; decide +kernel, by decide +kernel⟩,
    ⟨issues_of (by decide +kernel), by unfold Core.Operands; decide +kernel, by decide +kernel⟩, by decide +kernel⟩

/-- Application core 2 with cells that name an address and a space, and a broadcast on its way to it. -/
def tlbS : State := run (.ac 2) 0x1000100 3 [0x5000, 0x12, 3]
/-- See `tlbS`. -/
def tlbB : State := { tlbS with bcast := [⟨1, 4, 0x12, 0x5000, [2, 3]⟩] }
/-- In a closed domain of cores 2 and 3. -/
def tlbD : State := (tlbS.setReg (pgMmu 0) Reg.MMU_DOMSTAT 1).setReg (pgMmu 0) Reg.MMU_DOMMEM 0xC

theorem test_hyp_TranslationMaintenance : tlbS.Issues (.ac 2) 2 (fetch tlbS (.ac 2) 2) ∧ 1 ≤ (tlbS.core (.ac 2)).lvl
    ∧ (tlbS.core (.ac 2)).sbuf = [] ∧ (fetch tlbS (.ac 2) 2).domClosed = false ∧ (tlbS.core (.ac 2)).Operands [0x5000, 0x12]
    ∧ (tlbS.core (.ac 2)).Operands [0x5000]
    ∧ (tlbB.Issues (.ac 2) 2 (fetch tlbB (.ac 2) 2) ∧ (fetch tlbB (.ac 2) 2).domClosed = false
      ∧ tlbB.bcast = ⟨1, 4, 0x12, 0x5000, [2, 3]⟩ :: [] ∧ (2 : Fin 8) ∈ [(2 : Fin 8), 3] ∧ tlbB.locked (.ac 2) = false)
    ∧ (tlbD.Issues (.ac 2) 2 (fetch tlbD (.ac 2) 2) ∧ 1 ≤ (tlbD.core (.ac 2)).lvl ∧ (tlbD.core (.ac 2)).sbuf = []
      ∧ (fetch tlbD (.ac 2) 2).domClosed = true ∧ (fetch tlbD (.ac 2) 2).domMembers.testBit 2 = true ∧ (fetch tlbD (.ac 2) 2).bcastTo 2 ≠ [])
    ∧ ((tlbS.core (.ac 2)).slot = none ∧ (tlbS.core (.ac 2)).step1 = false ∧ tlbS.locked (.ac 2) = false ∧ (tlbS.core (.ac 2)).running = true)
    ∧ M.Issues (.ce 0) 2 (fetch M (.ce 0) 2) :=
  ⟨issues_of (by decide +kernel), by decide +kernel, by decide +kernel, by decide +kernel, by unfold Core.Operands; decide +kernel, by unfold Core.Operands; decide +kernel,
    ⟨issues_of (by decide +kernel), by decide +kernel⟩, ⟨issues_of (by decide +kernel), by decide +kernel⟩, by decide +kernel, issues_of (by decide +kernel)⟩

/-- Engine 0 in its foreground, with a sample in its port, or none. -/
def fgS (q : List Sample) (st : Word) : State := (run (.ce 0) 0x100 3 [0x12, 3]).modCore (.ce 0) (fun k =>
  { k with ctx := .fg, bank := .fg, status := st, bFg := { k.bFg with cells := [⟨6, none⟩] }, spq := q, ssp := 4 })
/-- With a checkpoint of two blocks set up. -/
def ckS : State := ((fgS [] 0x1001).setReg (pgCe 0) Reg.CE_CTL 3).setReg (pgCe 0) Reg.CE_CKPT_LEN 2

theorem test_hyp_FrameInstructions :
    (∀ q ∈ ([[], [⟨5, 3, 77, 0⟩, ⟨6, 3, 78, 1⟩]] : List (List Sample)), issuesB (fgS q 0x1003) (.ce 0) 1 = true
      ∧ ((fgS q 0x1003).core (.ce 0)).ctx = .fg ∧ ((fgS q 0x1003).core (.ce 0)).cur.cells.length < 16
      ∧ ((fgS q 0x1003).core (.ce 0)).Operands [6] ∧ ((fgS q 0x1003).core (.ce 0)).spq = q)
    ∧ (issuesB ckS (.ce 0) 1 = true ∧ (ckS.core (.ce 0)).ctx = .fg ∧ (ckS.core (.ce 0)).lvl = ckS.fld (pgCe 0) Reg.CE_CTL 1 1
      ∧ (ckS.core (.ce 0)).sbuf = [] ∧ (fetch ckS (.ce 0) 1).pairs[pairOf (.ce 0)].catchUp = none ∧ (ckS.core (.ce 0)).tailGo = none
      ∧ (ckS.core (.ce 0)).pre = none)
    ∧ ((M.core (.ce 0)).ctx = .tail ∧ (M.core (.ce 0)).bank = .tl ∧ (M.core (.ce 0)).Operands [7])
    ∧ (M.core (.ce 0)).ctx ≠ .fg := by
  unfold Core.Operands; decide +kernel
/-! ## Hypotheses that states meet: the machine's stores and pages -/

/-- A register of reset that holds a value. -/
def rset (p : PageId) (off : Nat) (v : Word) : State := State.reset.setReg p off v

theorem test_hyp_StepRunsFrontCommand : State.reset.pending = [] := by decide +kernel

theorem test_hyp_StepKeepsCanonical : M.canonical = true ∧ ({ M with pending := [.bridgeCrcFail] } : State).canonical = true
    ∧ (match step { M with pending := [.bridgeCrcFail] } with | .next _ => true | _ => false) = true := by decide +kernel

theorem test_hyp_StoresReadBack : M.canonical = true ∧ (4095 < 4096 ∧ 255 < 256)
    ∧ (0x1000 ≤ 0x1002 ∧ 0x1002 < 0x1000 + ([1, 0, 3] : List Byte).length) := by decide +kernel

/-- The bridge is down. -/
def bridgeDown : State := rset pgRst Reg.RST_BRG_STAT 1

/-- A stream page with its lock set. -/
def strLocked : State := rset ⟨.str, 1⟩ Reg.PAGE_LOCK 1

theorem test_hyp_RegisterWrites :
    (let fs : List Field := [⟨0, 0, .rwl⟩, ⟨2, 2, .w1c⟩, ⟨8, 4, .rw⟩, ⟨10, 9, .w1s⟩, ⟨31, 31, .ro⟩]
     fs.Pairwise (fun f g => f.hi < g.lo ∨ g.hi < f.lo) ∧ (∀ f ∈ fs, f.lo ≤ f.hi ∧ f.hi < 32 ∧ f.ty ≠ .ovf))
    ∧ (State.reset.Reaches m0 ⟨.str, 1⟩ (reach State.reset m0 ⟨.str, 1⟩) ∧ (reach State.reset m0 ⟨.str, 1⟩).rbit ⟨.str, 1⟩ Reg.PAGE_LOCK 0 = false)
    ∧ (strLocked.Reaches m0 ⟨.str, 1⟩ (reach strLocked m0 ⟨.str, 1⟩) ∧ (reach strLocked m0 ⟨.str, 1⟩).rbit ⟨.str, 1⟩ Reg.PAGE_LOCK 0 = true)
    ∧ ((regAt .str 1 0x40).isSome = true ∧ regAt .str 1 0xFC0 = none)
    ∧ (bridgeDown.pageAccess .host (pgCe 0) = none ∧ bridgeDown.pageWaits .host (pgCe 0) = false) :=
  ⟨by decide +kernel, ⟨reaches_of (by decide +kernel), by decide +kernel⟩, ⟨reaches_of (by decide +kernel), by decide +kernel⟩, by decide +kernel⟩

/-- The DTB's page with its lock set. -/
def dtbLocked : State := rset pgDtb Reg.PAGE_LOCK 1

theorem test_hyp_PageHeaders :
    (∀ p ∈ [pgDtb, pgCxl, pgPwg0 7], State.reset.Reaches m0 p (reach State.reset m0 p))
    ∧ (∀ p ∈ [pgDtb, pgCxl, pgPwg0 7], (reach State.reset m0 p).TakesHeader m0 p ∧ (reach State.reset m0 p).Open p ∧ p.inst < 256)
    ∧ bitOf ((0x3F1 : Word) &&& 0xFFFF) 1 = false
    ∧ (dtbLocked.Reaches m0 pgDtb (reach dtbLocked m0 pgDtb) ∧ (reach dtbLocked m0 pgDtb).TakesHeader m0 pgDtb
      ∧ ¬ (reach dtbLocked m0 pgDtb).Open pgDtb ∧ pgDtb.kind ≠ .pwg0) := by
  refine ⟨?_, ?_, by decide +kernel, reaches_of (by decide +kernel), ?_⟩
  · intro p hp
    simp only [List.mem_cons, List.not_mem_nil, or_false] at hp
    obtain rfl | rfl | rfl := hp <;> exact reaches_of (by decide +kernel)
  · unfold State.TakesHeader State.Open; decide +kernel
  · unfold State.TakesHeader State.Open; decide +kernel

/-- The carrier of cluster 2 in a phase. -/
def phased (ph : CarrierPhase) : State := State.reset.modCar 2 (fun k => { k with phase := ph })

theorem test_hyp_BlockSoftResets :
    (∀ p ∈ [pgDtb, pgFrm 2, pgPwg0 2, pgPwg1 2, pgSmp 2, pgCmp 2], reachB State.reset m0 p = true ∧ (reach State.reset m0 p).Open p)
    ∧ (reach State.reset m0 pgDtb).carRun = false
    ∧ (reachB (phased .up) m0 pgDtb = true ∧ (reach (phased .up) m0 pgDtb).carRun = true)
    ∧ (reachB (phased .up) m0 (pgFrm 2) = true ∧ (reach (phased .up) m0 (pgFrm 2)).counting 2 = true)
    ∧ (reach State.reset m0 (pgFrm 2)).running 2 = false
    ∧ (reachB (phased .starting) m0 (pgFrm 2) = true ∧ ((reach (phased .starting) m0 (pgFrm 2)).car 2).phase = .starting)
    ∧ (reach State.reset m0 (pgCmp 2)).pagePowered (pgCmp 2) = true := by
  unfold State.Open; decide +kernel

/-- The bridge with `RST_BRG_STAT`, replays and retrainings. -/
def bridgeAt (st : Word) (replays retrains : Nat) (hold : Option Nat) : State :=
  (rset pgRst Reg.RST_BRG_STAT st).modBridge (fun b => { b with replays := replays, retrains := retrains, hold := hold })
/-- A stop waits for the end of a retraining. -/
def stopWaits : State := (bridgeAt 2 0 1 none).modBridge (fun b => { b with waiting := [.stop true] })

theorem test_hyp_BridgeEvents :
    (∀ n ∈ [2, 3], (bridgeAt 0 n 0 none).bridgeIsDown = false ∧ (bridgeAt 0 n 0 none).rbit pgRst Reg.RST_BRG_STAT 1 = false
      ∧ (bridgeAt 0 n 0 none).bridge.replays = n)
    ∧ (∀ n ∈ [1, 2], (bridgeAt 2 0 n none).bridgeIsDown = false ∧ (bridgeAt 2 0 n none).rbit pgRst Reg.RST_BRG_STAT 1 = true
      ∧ (bridgeAt 2 0 n none).bridge.retrains = n ∧ (bridgeAt 2 0 n none).canonical = true
      ∧ (bridgeAt 2 0 n none).bridge.waiting = [] ∧ (bridgeAt 2 0 n none).bridgeTrains = true)
    ∧ (stopWaits.bridgeIsDown = false ∧ stopWaits.rbit pgRst Reg.RST_BRG_STAT 1 = true ∧ stopWaits.bridge.waiting = [.stop true] ∧ stopWaits.canonical = true)
    ∧ ((bridgeAt 1 0 0 (some 77)).bridgeIsDown = true ∧ (bridgeAt 1 0 0 (some 77)).bridge.hold = some 77 ∧ (bridgeAt 1 0 0 (some 77)).canonical = true)
    ∧ State.reset.bridge.hold = none ∧ State.reset.bridge.asleep = false ∧ State.reset.bridgeTrains = false := by decide +kernel
/-! ## Hypotheses that states meet: time, carriers and the generator -/

/-- The DTB with `DTB_CTL`, `DTB_STAT` and a time. -/
def timed (ctl st : Word) (t : TimeBase → TimeBase) : State :=
  let s := (rset pgDtb Reg.DTB_CTL ctl).setReg pgDtb Reg.DTB_STAT st
  { s with time := t s.time }

theorem test_hyp_IncrementOwned :
    (reachB (timed 1 0 id) m0 pgDtb = true ∧ (reach (timed 1 0 id) m0 pgDtb).fld pgDtb Reg.DTB_CTL 1 0 = 1)
    ∧ reachB (timed 2 0 id) m0 pgDtb = true ∧ (reach (timed 2 0 id) m0 pgDtb).fld pgDtb Reg.DTB_CTL 1 0 = 2 := by decide +kernel

theorem test_hyp_TimeBaseWrites :
    (reachB State.reset m0 pgDtb = true ∧ (reach State.reset m0 pgDtb).src = 0 ∧ (reach State.reset m0 pgDtb).carRun = false
      ∧ (reach State.reset m0 pgDtb).Open pgDtb ∧ bitsOf ((0 : Word) &&& ~~~(0xFF &&& 7) ||| (1 &&& 0xFF &&& 7)) 1 0 ≠ bitsOf (0 : Word) 1 0)
    ∧ (0x9FEB851F ≤ (0x9FEB851F : Word).toNat ∧ (0xA0147AE1 : Word).toNat ≤ 0xA0147AE1 ∧ (0x9FEB851E : Word).toNat < 0x9FEB851F
      ∧ 0xA0147AE1 < (0xA0147AE2 : Word).toNat)
    ∧ (reachB (phased .up) m0 pgDtb = true ∧ (reach (phased .up) m0 pgDtb).carRun = true ∧ (reach (phased .up) m0 pgDtb).src ≠ 1)
    ∧ (reachB (timed 1 0 id) m0 pgDtb = true ∧ (reach (timed 1 0 id) m0 pgDtb).src = 1) := by
  unfold State.Open; decide +kernel

theorem test_hyp_TimeEvents :
    (State.reset.canonical = true ∧ 0x9FEB851F ≤ State.reset.inc ∧ State.reset.src ≠ 1 ∧ State.reset.rbit pgDtb Reg.DTB_CTL 2 = false
      ∧ State.reset.time.ptmBusy = false)
    ∧ ((timed 1 0 id).canonical = true ∧ (timed 1 0 id).src = 1 ∧ (timed 1 0 id).rbit pgDtb Reg.DTB_STAT 2 = false)
    ∧ ((timed 1 4 id).canonical = true ∧ (timed 1 4 id).src = 1 ∧ (timed 1 4 id).rbit pgDtb Reg.DTB_STAT 2 = true ∧ (timed 1 4 id).time.heldLost = false)
    ∧ ((timed 6 0 id).canonical = true ∧ (timed 6 0 id).rbit pgDtb Reg.DTB_CTL 2 = true ∧ (timed 6 0 id).rbit pgCxl Reg.CXL_STAT 12 = false)
    ∧ (let s := timed 2 0 (fun t => { t with ptmBusy := true, ptmFirst := none, loadPend := true })
       s.canonical = true ∧ s.time.ptmBusy = true ∧ s.src = 2 ∧ s.time.ptmFirst = none ∧ s.time.loadPend = true ∧ s.carRun = false)
    ∧ (let s := timed 2 0 (fun t => { t with ptmBusy := true, ptmFirst := some 44 })
       s.canonical = true ∧ s.time.ptmBusy = true ∧ s.src = 2 ∧ s.time.ptmFirst = some 44) := by decide +kernel

theorem test_hyp_TimeReads : reachB State.reset m0 pgDtb = true ∧ reachB State.reset m0 (pgFrm 3) = true
    ∧ (∀ e, m0.by_ = .core (.ce e) → clusterOf e ≠ 3) ∧ reachB State.reset ⟨.core (.ce 24), true⟩ (pgFrm 3) = true
    ∧ clusterOf 24 = 3
    ∧ (let s := timed 0 0 (fun t => { t with clk := 8 }); s.time.past = [] ∧ 8 ≤ s.time.clk) := by decide +kernel

/-- The carrier of cluster 2 in a phase with `FRM_CTL`. -/
def carrier (ph : CarrierPhase) (ctl : Word) (g : Carrier → Carrier) : State :=
  ((rset (pgFrm 2) Reg.FRM_CTL ctl).setReg (pgFrm 1) Reg.FRM_CTL (ctl &&& 0x38)).modCar 2 (fun k => { g k with phase := ph })
/-- After a write of `FRM_CTL` that starts the carrier. -/
def started (s : State) (v : Word) : State := s.setReg (pgFrm 2) Reg.FRM_CTL ((s.reg (pgFrm 2) Reg.FRM_CTL &&& ~~~0x7F) ||| ((v ||| 1) &&& 0x7F))

theorem test_hyp_CarrierCommands :
    (∀ s ∈ [State.reset, carrier .up 3 id, carrier .up 3 (fun k => { k with stopPend := true }), carrier .waitLeader 3 id, carrier .starting 3 id,
        carrier .stopped 0 id], reachB s m0 (pgFrm 2) = true ∧ (reach s m0 (pgFrm 2)).Open (pgFrm 2))
    ∧ (let s := reach State.reset m0 (pgFrm 2)
       s.running 2 = false ∧ bitsOf (2 : Word) 6 3 = 0
        ∧ rateOk ((started s 2).tmode 2) ((started s 2).hp 2) ((started s 2).leadReg 2) = true
        ∧ tickPeriod (s.tmode 2) (s.hp 2) = none)
    ∧ (let s := reach ((State.reset.setReg (pgPwg0 2) Reg.PWG_PER_ACT 0x100)) m0 (pgFrm 2)
       s.running 2 = false ∧ rateOk ((started s 2).tmode 2) ((started s 2).hp 2) ((started s 2).leadReg 2) = false)
    ∧ (let s := reach (rset pgDtb Reg.DTB_MFP 12345) m0 (pgFrm 2)
       s.running 2 = false ∧ bitsOf (0x42 : Word) 6 6 = 1 ∧ bitsOf (0x42 : Word) 5 3 = 0
        ∧ rateOk ((started s 0x42).tmode 2) ((started s 0x42).hp 2) ((started s 0x42).leadReg 2) = true
        ∧ divides ((started s 0x42).tmode 2) ((started s 0x42).hp 2) (started s 0x42).mfpReg = false)
    ∧ (let s := reach (rset (pgFrm 1) Reg.FRM_CTL 8) m0 (pgFrm 2)
       s.running 2 = false ∧ 1 ≤ bitsOf (0x9 : Word) 5 3 ∧ bitsOf (0x9 : Word) 5 3 ≤ 4 ∧ (started s 9).leaderOf 2 ≠ 2
        ∧ (started s 9).running ((started s 9).leaderOf 2) = false
        ∧ rateOk ((started s 9).tmode 2) ((started s 9).hp ((started s 9).leaderOf 2)) ((started s 9).leadReg 2) = true)
    ∧ (let s := reach (carrier .up 0xB id) m0 (pgFrm 2)
       s.running 2 = true ∧ bitsOf (s.reg (pgFrm 2) Reg.FRM_CTL) 5 3 ≤ 4 ∧ (s.car 2).stopPend = false ∧ s.counting 2 = true)
    ∧ (let s := reach (carrier .down 0x23 (fun k => { k with stopPend := true })) m0 (pgFrm 2)
       s.running 2 = true ∧ bitsOf (s.reg (pgFrm 2) Reg.FRM_CTL) 5 3 = 4 ∧ (s.car 2).stopPend = true)
    ∧ (let s := reach (carrier .waitLeader 3 id) m0 (pgFrm 2); s.running 2 = true ∧ (s.car 2).phase = .waitLeader ∧ (s.pwm 2).late = [])
    ∧ (let s := reach (carrier .starting 3 id) m0 (pgFrm 2); s.running 2 = true ∧ (s.car 2).phase = .starting ∧ (s.pwm 2).late = [])
    ∧ (let s := reach (carrier .stopped 2 id) m0 (pgFrm 2)
       tickPeriod (s.tmode 2) (s.hp 2) = some 128000) := by
  unfold State.Open; decide +kernel

/-- With engine 16, whose foreground runs and which the frame mask names. -/
def busyFg (s : State) : State := (s.setReg (pgFrm 2) Reg.FRM_CEMASK 1).modCore (.ce 16) (fun k =>
  { k with running := true, ctx := .fg, bank := .fg, status := 0x1000 })
/-- A pair catches up. -/
def catching (s : State) : State := s.modPair 8 (fun p => { p with catchUp := some ⟨99999, 3, true⟩ })

theorem test_hyp_CarrierEvents :
    (State.reset.canonical = true ∧ (State.reset.car 2).phase ≠ .starting ∧ (State.reset.car 2).phase ≠ .down ∧ (State.reset.car 2).phase ≠ .up
      ∧ State.reset.ticking 2 = false ∧ State.reset.pairs[(8 : Fin 36)].catchUp = none)
    ∧ ((carrier .starting 3 id).canonical = true ∧ ((carrier .starting 3 id).car 2).phase = .starting ∧ (carrier .starting 3 id).tmode 2 ≠ 0
      ∧ (carrier .starting 3 id).ticking 2 = true ∧ (carrier .starting 3 id).leadIsOpen 2 = false ∧ (carrier .starting 1 id).tmode 2 = 0)
    ∧ (let s := carrier .down 3 (fun k => { k with stopPend := true })
       (s.car 2).phase = .down ∧ (s.car 2).stopPend = true ∧ (s.car 2).restart = none ∧ (s.car 2).srstPend = false ∧ (s.pwm 2).late = []
        ∧ (s.car 2).ticked = false ∧ (s.modSmp 2 (fun m => { m with frame := some ⟨0, 0, false, 0⟩ })).leadIsOpen 2 = true ∧ (carrier .down 1 id).ticking 2 = false)
    ∧ (let s := carrier .down 1 id; (s.car 2).phase = .down ∧ (s.car 2).stopPend = false ∧ s.tmode 2 = 0)
    ∧ (let s := carrier .up 3 id; (s.car 2).phase = .up ∧ s.tmode 2 = 1)
    ∧ (let s := carrier .up 3 (fun k => { k with ticked := true, deadlined := false })
       s.ticking 2 = true ∧ (s.car 2).ticked = true ∧ (s.car 2).deadlined = false ∧ (∀ i : Fin 8, s.overdue 2 i = false)
        ∧ (busyFg s).canonical = true ∧ (busyFg s).overdue 2 0 = true)
    ∧ ((catching State.reset).pairs[(8 : Fin 36)].catchUp = some ⟨99999, 3, true⟩ ∧ ((catching State.reset).core (masterOf 8)).ctx ≠ .fg
      ∧ ((catching (busyFg State.reset)).core (masterOf 8)).ctx = .fg ∧ (catching (busyFg State.reset)).canonical = true) := by
  decide +kernel

/-- Engine 16's duty port carries a word. -/
def duty (w : Word) (fg : Bool) : State := State.reset.modPwm 2 (fun p => { p with flight := p.flight.set 0 [⟨50, w, fg⟩] })

theorem test_hyp_PwmWrites :
    (let s := reach State.reset m0 (pgPwg0 2)
     reachB State.reset m0 (pgPwg0 2) = true ∧ s.Open (pgPwg0 2) ∧ s.turnFirst 2 s.now = false ∧ s.dutyWins 2 3 true s.now = false ∧ (s.ch 2 3).imm = false
      ∧ s.isMember 2 = false ∧ bitOf (s.reg (pgPwg0 2) (Reg.PWG_CH_CTL 3)) 0 = false)
    ∧ (let s := carrier .up 3 id; reachB s m0 (pgPwg0 2) = true ∧ (reach s m0 (pgPwg0 2)).turnFirst 2 (reach s m0 (pgPwg0 2)).now = true)
    ∧ (let s := State.reset.modPwm 2 (fun p => { p with flight := p.flight.set 0 [⟨0, 0x03001234, true⟩] })
       reachB s m0 (pgPwg0 2) = true ∧ (reach s m0 (pgPwg0 2)).dutyWins 2 3 true (reach s m0 (pgPwg0 2)).now = true)
    ∧ (let s := State.reset.modCh 2 3 (fun x => { x with portU := some 0 })
       reachB s m0 (pgPwg0 2) = true ∧ ((reach s m0 (pgPwg0 2)).ch 2 3).portU = some (((reach s m0 (pgPwg0 2)).now + 127) / 128 * 128))
    ∧ (let s := (State.reset.setReg (pgPwg0 2) (Reg.PWG_CH_CTL 3) 1).modCh 2 3 (fun x => { x with imm := true })
       reachB s m0 (pgPwg0 2) = true ∧ ((reach s m0 (pgPwg0 2)).ch 2 3).imm = true ∧ (reach s m0 (pgPwg0 2)).counting 2 = false
        ∧ bitOf ((reach s m0 (pgPwg0 2)).reg (pgPwg0 2) (Reg.PWG_CH_CTL 3)) 0 = true ∧ bitsOf (0x61 : Word) 6 5 ≠ bitsOf (1 : Word) 6 5
        ∧ 0x2000 ≤ (reach s m0 (pgPwg0 2)).hp 2 ∧ (reach s m0 (pgPwg0 2)).dutyWins 2 3 false (reach s m0 (pgPwg0 2)).now = false)
    ∧ (let s := carrier .stopped 0x8 id; reachB s m0 (pgPwg0 2) = true ∧ (reach s m0 (pgPwg0 2)).isMember 2 = true)
    ∧ (State.reset.pwm 2).flight[(0 : Fin 8)] = []
    ∧ (let u := duty 0x83000000 false; u.canonical = true ∧ (u.pwm 2).flight[(0 : Fin 8)] = [⟨50, 0x83000000, false⟩] ∧ u.trace.armed = false ∧ u.turnFirst 2 50 = false)
    ∧ (let u := (carrier .up 3 id).modPwm 2 (fun p => { p with flight := p.flight.set 0 [⟨50, 0x03001234, true⟩] }); u.canonical = true ∧ u.trace.armed = false
       ∧ (u.pwm 2).flight[(0 : Fin 8)] = [⟨50, 0x03001234, true⟩] ∧ u.turnFirst 2 50 = true)
    ∧ (let u := duty 0x03001234 true
       (u.pwm 2).flight[(0 : Fin 8)] = [⟨50, 0x03001234, true⟩] ∧ (u.pwm 2).overrun.getLsbD 0 = false ∧ bitOf (0x03001234 : Word) 23 = false
        ∧ bitsOf (0x03001234 : Word) 31 29 = 0 ∧ u.chCtl 2 ⟨bitsOf (0x03001234 : Word) 28 24, by decide⟩ 4 2 = (0 : Fin 8).val
        ∧ (u.ch 2 ⟨bitsOf (0x03001234 : Word) 28 24, by decide⟩).imm = false)
    ∧ (let u := duty 0x60000008 true
       bitsOf (0x60000008 : Word) 31 29 = 3 ∧ (8 : BitVec 19) &&& u.mayToken 2 0 = 8 ∧ bitsOf (0x80000008 : Word) 31 29 = 4 ∧ u.mayPeriod 2 0 = false) := by
  unfold State.Open; decide +kernel

/-- Channel 3 of cluster 2, running, with its reference and a carrier that counts. -/
def channel (ph : CarrierPhase) (ref : Bool) (cmp : Word) : State :=
  (((rset (pgPwg0 2) (Reg.PWG_CH_CMPU_ACT 3) cmp).setReg (pgPwg0 2) (Reg.PWG_CH_CMPD_ACT 3) cmp).modCh 2 3 (fun x =>
    { x with ref := ref, mode := .running, dtr := 5, dtf := 6 })).modCar 2 (fun k => { k with phase := ph })

theorem test_hyp_PwmEvents :
    ((State.reset.car 2).phase ≠ .up ∧ (State.reset.car 2).phase ≠ .down ∧ (State.reset.ch 2 3).dead = none ∧ (State.reset.pwm 2).blk[(1 : Fin 4)] = none)
    ∧ (let s := channel .up false 0x2000
       (s.car 2).phase = .up ∧ (s.ch 2 3).doneU = false ∧ s.actU 2 3 + s.actD 2 3 < 2 * s.hp 2 ∧ (s.ch 2 3).ref = false
        ∧ (s.ch 2 3).mode = .running ∧ 0 < (s.ch 2 3).dtr.toNat)
    ∧ (let s := channel .up false 0xFFFF; (s.car 2).phase = .up ∧ (s.ch 2 3).doneU = false ∧ 2 * s.hp 2 ≤ s.actU 2 3 + s.actD 2 3)
    ∧ (let s := channel .down true 0x2000
       (s.car 2).phase = .down ∧ (s.ch 2 3).doneD = false ∧ 0 < s.actD 2 3 ∧ (s.ch 2 3).ref = true ∧ (s.ch 2 3).mode = .running
        ∧ 0 < (s.ch 2 3).dtf.toNat)
    ∧ ((State.reset.modCh 2 3 (fun x => { x with dead := some (20000, true) })).ch 2 3).dead = some (20000, true)
    ∧ (let s := State.reset.modPwm 2 (fun p => { p with blk := p.blk.set 1 (some (30000, 0xF0)) })
       (s.pwm 2).blk[(1 : Fin 4)] = some (30000, 0xF0) ∧ s.reg (pgPwg1 2) Reg.PWG_TRIP_SRC &&& 0xF0 &&& 0xFFFF = 0)
    ∧ (let s := (rset (pgPwg1 2) Reg.PWG_TRIP_SRC 0x10).modPwm 2 (fun p => { p with blk := p.blk.set 1 (some (30000, 0xF0)) })
       s.reg (pgPwg1 2) Reg.PWG_TRIP_SRC &&& 0xF0 &&& 0xFFFF = 1 <<< 4 ∧ s.canonical = true
        ∧ (∀ w : Fin 4, w ≠ 1 → s.unitBlanks 2 w 4 30000 = false) ∧ s.tripMode 2 3 4 = 0) := by
  decide +kernel

theorem test_hyp_SafeAndTrips :
    (reachB State.reset m0 (pgPwg0 2) = true ∧ reachB State.reset m0 (pgPwg1 2) = true ∧ (reach State.reset m0 (pgPwg1 2)).Open (pgPwg1 2)
      ∧ (reach State.reset m0 (pgPwg0 2)).safeCaused 2 = false ∧ State.reset.domOn (66 + 5 * (2 : Fin 8).val) = true ∧ (∃ k : Fin 18, bitOf (0x9 : Word) k = true)
      ∧ ((reach State.reset m0 (pgPwg1 2)).pwm 2).blk[(3 : Fin 4)] = none)
    ∧ (let s := rset (pgPwg1 2) (Reg.PWG_BLK_CTL 3) 0x00050021; reachB s m0 (pgPwg1 2) = true ∧ (reach s m0 (pgPwg1 2)).Open (pgPwg1 2)
       ∧ bitsOf ((reach s m0 (pgPwg1 2)).reg (pgPwg1 2) (Reg.PWG_BLK_CTL 3)) 6 5 ≠ 0 ∧ bitsOf ((reach s m0 (pgPwg1 2)).reg (pgPwg1 2) (Reg.PWG_BLK_CTL 3)) 31 16 ≠ 0
       ∧ bitsOf ((reach s m0 (pgPwg1 2)).reg (pgPwg1 2) (Reg.PWG_BLK_CTL 3)) 4 0 < 18)
    ∧ (rset pgPwr (Reg.PWR_DOM 76) 0).domOn (66 + 5 * (2 : Fin 8).val) = false
    ∧ (let s := rset (pgPwg0 2) Reg.PWG_SAFE_CAUSE 5; reachB s m0 (pgPwg0 2) = true ∧ (reach s m0 (pgPwg0 2)).safeCaused 2 = true)
    ∧ (let s := rset (pgPwg1 2) (Reg.PWG_CH_TRIPMODE 3) 0x0000000B
       s.canonical = true ∧ s.rbit pgEg (Reg.FIO_SEL 2) 0 = false ∧ s.rbit pgEg (Reg.FIO_SEL 2) 3 = false
        ∧ s.rbit (pgPwg1 2) Reg.PWG_TRIP_SRC 0 = false ∧ s.blanked 2 0 s.now = false ∧ (∀ j : Fin 16, j.val ≠ 0 → s.rbit (pgPwg1 2) Reg.PWG_TRIP_SRC j = s.tripLive 2 j) ∧ 2 ≤ s.tripMode 2 3 0 ∧ s.tripMode 2 4 0 = 0)
    ∧ (let s := (rset (pgPwg1 2) (Reg.PWG_CH_TRIPMODE 3) 0xB).setReg (pgPwg1 2) Reg.PWG_TRIP_SRC 1
       reachB s m0 (pgPwg1 2) = true
        ∧ (List.range 16).any (fun i => decide (2 ≤ (reach s m0 (pgPwg1 2)).tripMode 2 3 i) && (reach s m0 (pgPwg1 2)).rbit (pgPwg1 2) Reg.PWG_TRIP_SRC i) = true)
    ∧ (rset (pgPwg1 2) (Reg.PWG_CH_TRIPMODE 3) 1).tripMode 2 3 0 = 1 ∧ State.reset.NoRecords := by
  unfold State.Open State.NoRecords; decide +kernel
/-! ## Hypotheses that states meet: converters, comparators and position feedback -/

/-- Cluster 2 samples in a frame: entry 5 takes the given words, the carrier turns up. -/
def sampling (w0 w1 : Word) : State :=
  ((State.reset.modSmp 2 (fun m => { m with bank0 := m.bank0.set 5 (w0, w1), frame := some ⟨29000, 7, false, 0⟩ })).setReg (pgFrm 2) Reg.FRM_CTL 3).modCar 2
    (fun k => { k with phase := .up, lead := 6400, nextTick := 29000, tick := 5, ticked := true })
/-- A conversion of that entry that ends, with samples on their way to port 3 and two records in the FIFO. -/
def converting : State :=
  (((sampling 0x80000002 0).setReg (pgAdc 2 0) Reg.ADC_CTL 0).modAdc 2 0 (fun a => { a with conv := some ⟨99999, 5, 0x1234, 7, .entry 5 false, 0x80000002, 3⟩ })).modSmp 2
    (fun m => { m with flight := m.flight.set 3 [⟨777, 5, 0x9999, 7⟩], fifo := [(1, 2), (3, 4)] })
/-- Engine 19, at port 3, with a queue of `n` samples or a WAITS that waits. -/
def port3 (g : Core → Core) : State := converting.modCore (.ce 19) g

theorem test_hyp_Sampling :
    (State.reset.canonical = true ∧ (State.reset.smp 2).frame = none ∧ (State.reset.adc 2 0).conv = none ∧ (State.reset.smp 2).flight[(0 : Fin 8)] = [])
    ∧ (let s := sampling 0x80000002 0
       let e := (s.smp 2).entry false (5 : Fin 64)
       s.canonical = true ∧ (s.smp 2).frame = some ⟨29000, 7, false, 0⟩ ∧ (s.tickPer 2).isSome = true ∧ entEn e.1 = true ∧ bitsOf e.1 9 8 = 0
        ∧ entKind e.1 = 0 ∧ (s.smp 2).subst = none ∧ entUnit e.1 = (0 : Fin 8) ∧ tselOk e.1 false = true
        ∧ s.domOn (65 + 5 * (2 : Fin 8).val) = true ∧ (s.adc 2 0).conv = none ∧ (s.adcPlan 2 0).any (fun d => d.cur && d.entry == 5) = true
        ∧ ((s.modAdc 2 0 (fun a => { a with busy := 9999999 })).adcPlan 2 0).any (fun d => d.cur && d.entry == 5) = false
        ∧ bitsOf e.1 7 0 = 2 ^ (1 : Fin 8).val ∧ bitOf e.1 10 = false ∧ (s.smp 2).flight[(s.smp 2).route[(1 : Fin 8)]] = []
        ∧ ((sampling 0 0).smp 2).frame.isSome = true ∧ entEn ((sampling 0 0).smp 2).bank0[5].1 = false)
    ∧ (let s := (sampling 0x80000102 0).setReg (pgFrm 2) Reg.FRM_CTL 5
       (s.smp 2).frame = some ⟨29000, 7, false, 0⟩ ∧ tselOk 0x80000102 false = true ∧ (s.dueOn 2 0).map (fun d => (d.entry, d.cur)) = [(5, true)])
    ∧ ((converting.adc 2 0).conv = some ⟨99999, 5, 0x1234, 7, .entry 5 false, 0x80000002, 3⟩ ∧ bitOf (0x80000002 : Word) 10 = false
      ∧ converting.rbit (pgAdc 2 0) Reg.ADC_CTL 0 = false ∧ converting.canonical = true
      ∧ (converting.setReg (pgAdc 2 0) Reg.ADC_CTL 1).rbit (pgAdc 2 0) Reg.ADC_CTL 0 = true ∧ (converting.adc 2 0).own = false)
    ∧ (converting.domOn (engineOf 2 3) = true ∧ converting.locked (.ce (engineOf 2 3)) = false
      ∧ (converting.smp 2).flight[(3 : Fin 8)] = [⟨777, 5, 0x9999, 7⟩] ∧ (converting.core (.ce (engineOf 2 3))).fgEnded = false
      ∧ (converting.smp 2).recs = [] ∧ (converting.core (.ce (engineOf 2 3))).ctx ≠ .fg ∧ (converting.core (.ce (engineOf 2 3))).spq.length < 16)
    ∧ (let s := port3 (fun k => { k with fgEnded := true, fgFcnt := 7 }); (s.core (.ce (engineOf 2 3))).fgEnded = true ∧ (s.core (.ce (engineOf 2 3))).fgFcnt = 7)
    ∧ (let s := port3 (fun k => { k with spq := List.replicate 16 ⟨1, 2, 3, 4⟩ }); 16 ≤ (s.core (.ce (engineOf 2 3))).spq.length)
    ∧ (let s := port3 (fun k => { k with ctx := .fg, pend := [⟨4, none, true⟩] })
       (s.core (.ce (engineOf 2 3))).ctx = .fg ∧ (s.core (.ce (engineOf 2 3))).pend = [⟨4, none, true⟩])
    ∧ (reachB converting m0 (pgSmp 2) = true ∧ ((reach converting m0 (pgSmp 2)).smp 2).fifo = [(1, 2), (3, 4)] ∧ ((reach converting m0 (pgSmp 2)).smp 2).recs = []
      ∧ reachB State.reset m0 (pgSmp 2) = true ∧ ((reach State.reset m0 (pgSmp 2)).smp 2).fifo = []) := by
  decide +kernel

/-- The sample page of cluster 2 with a check that runs and the entry 7 of its edit bank. -/
def checking (k : TableCheck) (w : Word) : State := State.reset.modSmp 2 (fun m => { m with chk := some k, bank1 := m.bank1.set 7 (w, 0) })

theorem test_hyp_SampleTables :
    (reachB State.reset m0 (pgSmp 2) = true ∧ (reach State.reset m0 (pgSmp 2)).Open (pgSmp 2)
      ∧ (reach State.reset m0 (pgSmp 2)).core7Used 2 = false ∧ (State.reset.smp 2).chk = none ∧ State.reset.swapDue 2 = false)
    ∧ (let s := State.reset.modSmp 2 (fun m => { m with bank0 := m.bank0.set 1 (0x87000001, 0) })
       reachB s m0 (pgSmp 2) = true ∧ (reach s m0 (pgSmp 2)).core7Used 2 = true ∧ bitOf ((reach s m0 (pgSmp 2)).reg (pgSmp 2) Reg.SMP_CTL) 0 = false)
    ∧ (let s := (rset (pgSmp 2) Reg.SMP_CTL 1).modSmp 2 (fun m => { m with subst := some 1 })
       reachB s m0 (pgSmp 2) = true ∧ bitOf ((reach s m0 (pgSmp 2)).reg (pgSmp 2) Reg.SMP_CTL) 0 = true ∧ ((reach s m0 (pgSmp 2)).smp 2).subst.isSome = true)
    ∧ (((checking .swap 0xF0000000).smp 2).chk = some .swap ∧ ((checking .swap 0xF0000000).tableFault 2).isSome = true)
    ∧ (((checking .check 0).smp 2).chk = some .check ∧ ((checking .swap 0).smp 2).chk = some .swap ∧ ((checking .swapm 0).smp 2).chk = some .swapm
      ∧ (checking .check 0).tableFault 2 = none ∧ (checking .swap 0).tableFault 2 = none ∧ (checking .swapm 0).tableFault 2 = none)
    ∧ ((sampling 0 0).modSmp 2 (fun m => { m with armed := some (.at_ 0) })).swapDue 2 = true := by
  unfold State.Open; decide +kernel

/-- Cluster 2's core `j` with requests and a run. -/
def calibrating (j : Fin 8) (r : CalReq) (run : Option Nat) : State :=
  (rset (pgSmp 2) Reg.SMP_CTL 1).modAdc 2 j (fun a => { a with reqs := [r, ⟨false, 0, 0, 0, 0, false, false, false⟩], run := run })
/-- A readback of converter 5 waits. -/
def readback (s : State) : State := s.modRb 2 (fun r => { r with pend := some 5 })

theorem test_hyp_Calibration :
    (reachB State.reset m0 (pgAdc 2 3) = true ∧ (State.reset.adc 2 3).reqs = [] ∧ (State.reset.adc 2 3).run = none
      ∧ State.reset.rbit (pgSmp 2) Reg.SMP_CTL 0 = false ∧ (State.reset.smp 2).subst = none ∧ (State.reset.rb 2).pend = none)
    ∧ (let s := calibrating 3 ⟨false, 63, 0, 0, 0, false, false, false⟩ none
       (s.adc 2 3).run = none ∧ (s.adc 2 3).conv = none ∧ s.calHeld 2 3 = false ∧ s.busyIn 2 3 s.now (s.now + 30720) = false ∧ s.canonical = true
        ∧ (s.adc 2 3).reqs.all (fun q => q.due == false) = true ∧ s.substOf 2 3 = false
        ∧ reachB s m0 (pgAdc 2 3) = true ∧ ((reach s m0 (pgAdc 2 3)).adc 2 3).reqs.head?.any CalReq.begun = false)
    ∧ (let s := calibrating 3 ⟨false, 64, 0, 0, 0, true, false, false⟩ (some 77); (s.adc 2 3).run = some 77 ∧ s.canonical = true)
    ∧ ((calibrating 3 ⟨true, 63, 3, 5, 0, true, false, false⟩ (some 77)).adc 2 3).reqs.head? = some ⟨true, 63, 3, 5, 0, true, false, false⟩
    ∧ ((calibrating 3 ⟨true, 64, 2, 5, 0, true, false, false⟩ (some 77)).adc 2 3).reqs.head? = some ⟨true, 64, 2, 5, 0, true, false, false⟩
    ∧ ((calibrating 3 ⟨true, 64, 2, 5, 0, true, true, true⟩ (some 77)).adc 2 3).reqs.head? = some ⟨true, 64, 2, 5, 0, true, true, true⟩
    ∧ (CalReq.due ⟨false, 64, 0, 0, 0, false, false, false⟩ = true ∧ CalReq.due ⟨true, 64, 2, 5, 0, true, false, false⟩ = true)
    ∧ (let s := (calibrating 3 ⟨false, 1, 0, 0, 0, false, false, false⟩ none).modSmp 2 (fun m => { m with subst := some 3 })
       s.substOf 2 3 = true ∧ reachB s m0 (pgAdc 2 3) = true ∧ (reach s m0 (pgAdc 2 3)).substOf 2 3 = true)
    ∧ (let s := ((calibrating 0 ⟨false, 1, 0, 0, 0, false, false, false⟩ none).setReg (pgFrm 2) Reg.FRM_CTL 3).modCar 2 (fun k => { k with phase := .up, nextTick := 128 })
       s.rbit (pgSmp 2) Reg.SMP_CTL 0 = true ∧ (s.smp 2).subst = none ∧ (s.adc 2 7).run = none ∧ s.leadAhead 2 = true ∧ State.reset.leadAhead 2 = false
        ∧ ((s.modSmp 2 (fun m => { m with subst := some 0, substRan := true })).smp 2).substRan = true)
    ∧ (let s := State.reset.modSmp 2 (fun m => { m with subst := some 0, substRan := true })
       (s.smp 2).subst.isSome = true ∧ (s.smp 2).substRan = true ∧ s.ticking 2 = false ∧ (s.smp 2).undOff = false)
    ∧ (let s := (calibrating 0 ⟨false, 1, 0, 0, 0, false, false, false⟩ (some 77)).modSmp 2 (fun m => { m with subst := some 0, substRan := false })
       (s.smp 2).subst = some 0 ∧ (s.smp 2).substRan = false)
    ∧ (let s := readback State.reset
       (s.rb 2).pend = some 5 ∧ (s.rb 2).running = false ∧ s.rbit (pgCmp 2) (Reg.CMP_ST ((5 : Fin 24).val / 2)) 7 = false ∧ s.bgCore 2 = some 0
        ∧ s.domOn (67 + 5 * (2 : Fin 8).val) = true ∧ s.domOn (65 + 5 * (2 : Fin 8).val) = true) := by
  decide +kernel

/-- Sigma-delta channel 4 of cluster 2 with `SDM_CTL`, its filter window, its phase. -/
def sigmaDelta (ctl : Word) (b : List Bool) (ph : Nat) : State :=
  (((rset (pgSdm 2) (Reg.SDM_CTL 4) ctl).setReg (pgSdm 2) Reg.SDM_CKO 0x11).setReg (pgSdm 2) Reg.SDM_CKSTAT 0x10).modSdm 2 4 (fun d => { d with bits := b, phase := ph })
/-- The result that the statement speaks of. -/
def scaled (s : State) (bits : List Bool) : Int :=
  ((2 * sincOut (s.sdmOrd 2 4) (s.sdmOsr 2 4) bits : Nat) - ((s.sdmOsr 2 4 ^ s.sdmOrd 2 4 : Nat) : Int)) / (2 ^ s.fld (pgSdm 2) (Reg.SDM_CTL 4) 22 18 : Nat)

theorem test_hyp_SigmaDelta :
    (State.reset.canonical = true ∧ State.reset.rbit (pgSdm 2) (Reg.SDM_CTL 4) 0 = false ∧ State.reset.rbit (pgSdm 2) (Reg.SDM_CTL 4) 1 = false)
    ∧ (let s := sigmaDelta 0x0001 [] 0
       s.canonical = true ∧ s.rbit (pgSdm 2) (Reg.SDM_CTL 4) 0 = true ∧ s.sdmClock 2 4 = true ∧ s.rbit (pgSdm 2) (Reg.SDM_CTL 4) 1 = false
        ∧ reachB s m0 (pgSdm 2) = true ∧ (s.ckoNext 2 0).2 = false ∧ bitOf (1 : Word) 2 = false ∧ bitOf (5 : Word) 2 = true ∧ 0 + 1 < s.sdmOsr 2 4)
    ∧ (let s := sigmaDelta 0x0001 (List.replicate 6 true ++ List.replicate 18 false) 99
       s.canonical = true ∧ s.sdmOsr 2 4 ≤ 99 + 1 ∧ -32768 ≤ scaled s (true :: List.replicate 6 true) ∧ scaled s (true :: List.replicate 6 true) ≤ 32767)
    ∧ (let s := sigmaDelta 0x8181 (List.replicate 190 true) 99
       32767 < scaled s (List.replicate 190 true) ∧ scaled s [] < -32768)
    ∧ (let s := sigmaDelta 0x8003 [] 0
       s.rbit (pgSdm 2) (Reg.SDM_CTL 4) 1 = true ∧ s.rbit (pgSdm 2) Reg.SDM_CKSTAT 4 = true ∧ s.rbit pgEg (Reg.FIO_SEL 2) (16 + 4) = false
        ∧ s.canonical = true ∧ s.sdmClock 2 4 = true ∧ (s.setReg (pgSdm 2) Reg.SDM_CKSTAT 0).rbit (pgSdm 2) Reg.SDM_CKSTAT 4 = false)
    ∧ (let s := ((sigmaDelta 0x0001 [] 0).setReg (pgSdm 2) (Reg.SDM_FAST_CTL 4) 0x321).setReg (pgSdm 2) (Reg.SDM_FLIM 4) 0x00040003
       s.fastActive 2 4 (s.fastOut 2 4 [true]) = true ∧ s.rbit (pgSdm 2) (Reg.SDM_FVAL 4) 16 = false) := by
  decide +kernel

/-- Comparator 3 of cluster 2 with `CMP_CTL`, and its unit. -/
def comparator (ctl : Word) (g : CmpUnit → CmpUnit) (ph : CarrierPhase) : State :=
  ((rset (pgCmp 2) (Reg.CMP_CTL 3) ctl).modCmp 2 3 g).modCar 2 (fun k => { k with phase := ph })
/-- The readback of cluster 2. -/
def rbAt (s : State) (g : Readback → Readback) : State := s.modRb 2 g
/-- A readback conversion on core 1 of cluster 2. -/
def rbConv : State := rbAt ((rset (pgAdc 2 1) Reg.ADC_CTL 0).modAdc 2 1 (fun a => { a with conv := some ⟨99999, 5, 0x1234, 0, .readback 6, 0, 0⟩ }))
  (fun r => { r with pend := some 6, running := true })

theorem test_hyp_Comparators :
    ((State.reset.cmpU 2 3).ready = false ∧ State.reset.rbit (pgCmp 2) (Reg.CMP_CTL 3) 0 = false ∧ State.reset.rbCore 2 = none
      ∧ State.reset.rbit (pgCmp 2) Reg.CMP_RB_CTL 0 = false ∧ (State.reset.rb 2).ticks < 64 ∧ reachB State.reset m0 (pgCmp 2) = true
      ∧ (reach State.reset m0 (pgCmp 2)).pagePowered (pgCmp 2) = true ∧ (reach State.reset m0 (pgCmp 2)).Open (pgCmp 2)
      ∧ (State.reset.rb 2).pend = none ∧ (State.reset.rb 2).running = false ∧ (State.reset.rb 2).manual = none
      ∧ State.reset.domOn (67 + 5 * (2 : Fin 8).val) = true ∧ State.reset.rbit (pgCmp 2) (Reg.CMP_ST 3) 7 = false ∧ State.reset.walkDue 2 ≠ none
      ∧ (State.reset.cmpU 2 3).sth = false ∧ (State.reset.cmpU 2 3).stl = false ∧ (rset pgPwr (Reg.PWR_DOM 77) 0).domOn (67 + 5 * (2 : Fin 8).val) = false)
    ∧ (let s := comparator 0x845 (fun u => { u with ready := true }) .up
       (s.cmpU 2 3).ready = true ∧ s.canonical = true ∧ reachB s m0 (pgCmp 2) = true ∧ bitOf ((reach s m0 (pgCmp 2)).reg (pgCmp 2) (Reg.CMP_CTL 3)) 0 = true
        ∧ (reach s m0 (pgCmp 2)).rbit (pgCmp 2) (Reg.CMP_CTL 3) 11 = true ∧ (reach s m0 (pgCmp 2)).counting 2 = true
        ∧ (reach s m0 (pgCmp 2)).pagePowered (pgCmp 2) = true ∧ (reach s m0 (pgCmp 2)).Open (pgCmp 2))
    ∧ (let s := comparator 0x845 id .stopped
       s.rbit (pgCmp 2) (Reg.CMP_CTL 3) 0 = true ∧ (s.cmpU 2 3).ready = false ∧ s.canonical = true)
    ∧ (let s := rbAt State.reset (fun r => { r with pend := some 4 })
       reachB s m0 (pgCmp 2) = true ∧ ((reach s m0 (pgCmp 2)).rb 2).pend.isSome = true ∧ ((reach s m0 (pgCmp 2)).rb 2).byWalk = false)
    ∧ (let s := rbAt State.reset (fun r => { r with pend := some 4, byWalk := true })
       reachB s m0 (pgCmp 2) = true ∧ ((reach s m0 (pgCmp 2)).rb 2).byWalk = true ∧ ((reach s m0 (pgCmp 2)).rb 2).manual = none)
    ∧ ((rbConv.rbCore 2).map (fun r => (r.1, r.2.2)) = some (1, 6) ∧ rbConv.canonical = true ∧ rbConv.rbit (pgAdc 2 1) Reg.ADC_CTL 0 = false)
    ∧ (let s := rbAt ((comparator 0x845 id .stopped).setReg (pgCmp 2) Reg.CMP_RB_CTL 0x10001) (fun r => { r with walk := 1, next := 6 })
       s.rbit (pgCmp 2) Reg.CMP_RB_CTL 0 = true ∧ s.ticking 2 = false ∧ ((s.setReg (pgFrm 2) Reg.FRM_CTL 3).modCar 2 (fun k => { k with phase := .up })).ticking 2 = true
        ∧ max 1 (s.fld (pgCmp 2) Reg.CMP_RB_CTL 31 16) ≤ (s.rb 2).walk ∧ (s.rb 2).pend = none ∧ (((s.setReg (pgFrm 2) Reg.FRM_CTL 3).modCar 2 (fun k => { k with phase := .up })).modRb 2 (fun r => { r with walk := 0 })).walkDue 2 = none
        ∧ (s.rb 2).running = false ∧ (s.rb 2).next = (6 : Fin 24) ∧ s.rbit (pgCmp 2) (Reg.CMP_CTL ((6 : Fin 24).val / 2)) 0 = true)
    ∧ (let s := rbAt State.reset (fun r => { r with pend := some 4, ticks := 64 })
       (s.rb 2).pend.isSome = true ∧ (s.rb 2).running = false ∧ 64 ≤ (s.rb 2).ticks ∧ (s.rb 2).starved = false)
    ∧ (let s := rbAt State.reset (fun r => { r with pend := some 4, byWalk := true, running := true, manual := some (9, 64, false) })
       (s.rb 2).manual = some (9, 64, false) ∧ (s.rb 2).running = true) := by
  unfold State.Open; and_intros <;> decide +kernel

/-- Position feedback unit 3 of cluster 2: decoder, capture and encoder controls, and its pins' choice. -/
def feedback (q cap sep pin : Word) (g : Feedback → Feedback) : State :=
  ((((rset (pgQdec 2) (Reg.QDEC_CTL 3) q).setReg (pgCap 2) (Reg.CAP_CTL 3) cap).setReg (pgSep 2) (Reg.SEP_CTL 3) sep).setReg (pgQdec 2)
    Reg.QDEC_PINSEL pin).modFb 2 3 g

theorem test_hyp_PositionFeedback :
    (reachB State.reset m0 (pgQdec 2) = true ∧ (reach State.reset m0 (pgQdec 2)).Open (pgQdec 2)
      ∧ (∀ i : Fin 6, (reach State.reset m0 (pgQdec 2)).rbit (pgQdec 2) (Reg.QDEC_CTL i) 0 = false
          ∧ (reach State.reset m0 (pgQdec 2)).rbit (pgSep 2) (Reg.SEP_CTL i) 0 = false)
      ∧ reachB State.reset m0 (pgCap 2) = true ∧ reachB State.reset m0 (pgSep 2) = true ∧ ((reach State.reset m0 (pgCap 2)).fb 2 3).cap = []
      ∧ (State.reset.fb 2 3).xfer = none ∧ (State.reset.fb 2 3).recover = none ∧ bitOf (State.reset.reg (pgCap 2) (Reg.CAP_CTL 3)) 0 = false
      ∧ State.reset.trace.armed = false)
    ∧ (let s := feedback 0x101 0 0 0 id
       reachB s m0 (pgQdec 2) = true ∧ (reach s m0 (pgQdec 2)).rbit (pgQdec 2) (Reg.QDEC_CTL 3) 0 = true ∧ s.rbit (pgQdec 2) Reg.QDEC_PINSEL 3 = false
        ∧ s.canonical = true ∧ (s.fb 2 3).idxAt ≠ some (s.time.clk / 8) ∧ s.rbit (pgQdec 2) (Reg.QDEC_CTL 3) 10 = false
        ∧ (s.fb 2 3).pins = 0 ∧ s.fld (pgQdec 2) (Reg.QDEC_CTL 3) 7 4 < 9 ∧ 0 ≤ s.fld (pgQdec 2) (Reg.QDEC_CTL 3) 7 4
        ∧ s.fld (pgQdec 2) (Reg.QDEC_CTL 3) 9 8 = 1 ∧ qdecDelta (s.fld (pgQdec 2) (Reg.QDEC_CTL 3) 2 1) false false true false ≠ 0)
    ∧ (let s := feedback 0x601 0 0 0 id
       s.rbit (pgQdec 2) (Reg.QDEC_CTL 3) 10 = true ∧ bitsOf ((s.fb 2 3).pins.setWidth 32) 1 0 = s.fld (pgQdec 2) (Reg.QDEC_CTL 3) 12 11
        ∧ s.fld (pgQdec 2) (Reg.QDEC_CTL 3) 9 8 = 2 ∧ s.rbit (pgQdec 2) (Reg.QDEC_STAT 3) 3 = false)
    ∧ (let r : CapRec := ⟨77, 0x1234, true, 0x44⟩
       let s := feedback 0 0x1E5 0 0 (fun f => { f with cap := List.replicate 4 r })
       let w := s.reg (pgCap 2) (Reg.CAP_CTL 3)
       bitOf w 0 = true ∧ 18 ≤ bitsOf w 5 1 ∧ bitsOf w 7 6 = 3 ∧ bitOf w 8 = true ∧ r.clk / 2 ≠ (reach s m0 (pgCap 2)).time.clk / 2 ∧ 4 ≤ (s.fb 2 3).cap.length
        ∧ ((feedback 0 0x1E5 0 0 (fun f => { f with cap := [r, r, r] })).fb 2 3).cap.length < 4
        ∧ reachB s m0 (pgCap 2) = true ∧ ((reach s m0 (pgCap 2)).fb 2 3).cap = r :: [r, r, r])
    ∧ (let s := feedback 0 0xD7 0 0 (fun f => { f with cap := [⟨0, 0x1234, true, 0x44⟩] })
       let w := s.reg (pgCap 2) (Reg.CAP_CTL 3)
       bitOf w 0 = true ∧ bitsOf w 5 1 = 3 * (3 : Fin 6).val + 2 ∧ bitsOf w 7 6 = 3 ∧ bitOf w 8 = false ∧ (s.fb 2 3).pins.getLsbD 2 ≠ true
        ∧ s.fld (pgQdec 2) (Reg.QDEC_CTL 3) 7 4 < 9 ∧ s.canonical = true ∧ (s.fb 2 3).cap.length < 4 ∧ reachB s m0 (pgCap 2) = true
        ∧ (0 : Nat) / 2 = (reach s m0 (pgCap 2)).time.clk / 2 ∧ bitsOf (0x13 : Word) 5 1 = 3 * (3 : Fin 6).val ∧ bitsOf (0x15 : Word) 5 1 = 3 * (3 : Fin 6).val + 1)
    ∧ (let s := feedback 0 0 0x641 8 id
       reachB s m0 (pgSep 2) = true ∧ (reach s m0 (pgSep 2)).sepBusy 2 3 = false ∧ (reach s m0 (pgSep 2)).rbit (pgSep 2) (Reg.SEP_CTL 3) 0 = true
        ∧ (reach s m0 (pgSep 2)).rbit (pgQdec 2) Reg.QDEC_PINSEL 3 = true ∧ s.rbit (pgQdec 2) Reg.QDEC_PINSEL 3 = true)
    ∧ (let s := feedback 0 0 0x641 8 (fun f => { f with xfer := some ⟨none, 0, 5, 0, 0, 0⟩ })
       reachB s m0 (pgSep 2) = true ∧ (reach s m0 (pgSep 2)).sepBusy 2 3 = true ∧ (s.fb 2 3).xfer = some ⟨none, 0, 5, 0, 0, 0⟩
        ∧ s.rbit (pgSep 2) (Reg.SEP_CTL 3) 14 = false ∧ s.sepCrcLen 2 3 = 0 ∧ s.canonical = true)
    ∧ (let s := feedback 0 0 0x4641 8 (fun f => { f with xfer := some ⟨none, 0, 5, 0, 0, 0⟩ })
       s.rbit (pgSep 2) (Reg.SEP_CTL 3) 14 = true ∧ max 1 (s.fld (pgSep 2) (Reg.SEP_TIM 3) 15 8) < 256 ∧ s.canonical = true)
    ∧ ((feedback 0 0 0x641 8 (fun f => { f with recover := some 555 })).fb 2 3).recover = some 555 := by
  unfold State.Open; and_intros <;> decide +kernel
/-! ## Hypotheses that states meet: cores, interrupts, pairs and memory -/

/-- Pair `k` of the cores changed. -/
def pairAs (k : Fin 36) (g : Pair → Pair) : State := State.reset.modPair k g
/-- Engine 3 and application core 3 run; engine 3 may be halted. -/
def runs3 (halted : Bool) : State :=
  (((rset (pgCe 3) Reg.CE_CTL 1).setReg (pgAc 3) Reg.AC_CTL 1).modCore (.ce 3) (fun k => { k.startCe 0x40 with halted := halted, bTl := { k.bTl with cells := [⟨5, none⟩] } })).modCore
    (.ac 3) (fun k => { k with running := true })

theorem test_hyp_CoreControl :
    (reachB State.reset m0 (pgCe 3) = true ∧ (reach State.reset m0 (pgCe 3)).Open (pgCe 3) ∧ (reach State.reset m0 (pgCe 3)).locked (.ce 3) = false
      ∧ bitOf ((reach State.reset m0 (pgCe 3)).reg (pgCe 3) Reg.CE_CTL) 0 = false ∧ State.reset.canonical = true)
    ∧ (reachB (runs3 false) m0 (pgCe 3) = true ∧ bitOf ((reach (runs3 false) m0 (pgCe 3)).reg (pgCe 3) Reg.CE_CTL) 0 = true)
    ∧ (let s := pairAs 1 (fun p => { p with locked := true })
       reachB s m0 (pgCe 3) = true ∧ (reach s m0 (pgCe 3)).locked (.ce 3) = true ∧ isChecker (.ce 3) = true
        ∧ reachB s m0 (pgCe 2) = true ∧ (reach s m0 (pgCe 2)).locked (.ce 2) = true ∧ isChecker (.ce 2) = false
        ∧ (reach s m0 (pgCe 2)).rbit (pgCe 2) Reg.CE_CTL 0 = false
        ∧ (reach s m0 (pgCe 2)).rbit (corePage (checkerOf (pairOf (.ce 2)))) Reg.CE_CTL 0 = false)
    ∧ reachB State.reset ⟨.core (.ac 0), false⟩ (pgAc 3) = true
    ∧ (reachB State.reset m0 (pgAc 2) = true ∧ (reach State.reset m0 (pgAc 2)).locked (.ac 2) = false ∧ 2 ≤ (2 : Fin 8).val
      ∧ bitOf ((reach State.reset m0 (pgAc 2)).reg (pgAc 2) Reg.AC_CTL) 0 = false)
    ∧ (reachB (runs3 false) m0 (pgAc 3) = true ∧ bitOf ((reach (runs3 false) m0 (pgAc 3)).reg (pgAc 3) Reg.AC_CTL) 0 = true)
    ∧ (rset pgSec Reg.SEC_LC 2).lifecycle = 2 ∧ State.reset.lifecycle ≠ 2
    ∧ ((State.reset.core (.ce 3)).running = false ∧ State.reset.locked (.ce 3) = false ∧ (State.reset.core (.ce 3)).halted = false)
    ∧ (((runs3 false).core (.ac 3)).halted = false ∧ ((runs3 false).core (.ac 3)).running = true ∧ (runs3 false).locked (.ac 3) = false)
    ∧ (((runs3 false).core (.ce 3)).halted = false ∧ ((runs3 false).core (.ce 3)).running = true ∧ (runs3 false).locked (.ce 3) = false
      ∧ (runs3 false).rbit (pgPwg0 (clusterOf 3)) Reg.PAGE_CTL 2 = false
      ∧ ((runs3 false).setReg (pgPwg0 0) Reg.PAGE_CTL 4).rbit (pgPwg0 (clusterOf 3)) Reg.PAGE_CTL 2 = true)
    ∧ (((runs3 true).core (.ce 3)).halted = true ∧ (runs3 true).locked (.ce 3) = false ∧ ((runs3 true).core (.ce 3)).ovrPend = none
      ∧ 0 < (((runs3 true).core (.ce 3)).bankOf (dbgBank 1)).cells.length ∧ (((runs3 true).core (.ce 3)).bankOf (dbgBank 1)).cells[0]? = some ⟨5, none⟩
      ∧ ((runs3 true).core (.ce 3)).pend = [] ∧ (((runs3 true).core (.ce 3)).bankOf (dbgBank 1)).accLo = none
      ∧ (((runs3 true).core (.ce 3)).bankOf (dbgBank 1)).accHi = none)
    ∧ (let s := (runs3 true).modCore (.ce 3) (fun k => { k with pend := [⟨9, some 0x77, false⟩], bTl := { k.bTl with cells := [⟨0, some 9⟩] } })
       (s.core (.ce 3)).halted = true ∧ s.locked (.ce 3) = false ∧ (s.core (.ce 3)).pend = [⟨9, some 0x77, false⟩]
        ∧ ((s.core (.ce 3)).bankOf (dbgBank 1)).cells[0]? = some ⟨0, some 9⟩)
    ∧ (match State.reset.physRead .debug false 0x1000000 4 with | (_, .data _) => true | _ => false) = true := by
  unfold State.Open; decide +kernel

/-- Sources of the distributor: 970 by an edge, 971 and 25; the local unit of cluster 2 without its clock. -/
def sources : State := source (source State.reset 8 970 0x10103 4) 8 25 0x105 4
/-- In service at context 4; or held by their latch or their completion. -/
def served (v : Word) (r : List (Nat × Nat)) : State := { source State.reset 8 970 v 4 with irq := ⟨r, []⟩ }
/-- Cluster 2's local unit without its clock. -/
def unclocked (n : Nat) (v : Word) : State := (source State.reset 2 n v 4).setFld pgPwr (Reg.PWR_DOM 74) 1 0 0

theorem test_hyp_InterruptSources :
    (State.reset.power.queue = [] ∧ srcExists 8 0 = false ∧ (srcExists 8 970 = true ∧ srcIsEdge 8 970 = true ∧ srcDomain 8 970 = none)
      ∧ bitOf (sources.srcCfg 8 970) 8 = true ∧ sources.irqClock 8 = true)
    ∧ sources.power.queue = [] ∧ (srcExists 8 25 = true ∧ srcIsEdge 8 25 = false ∧ sources.srcCut 8 25 = false ∧ bitOf (sources.srcCfg 8 25) 17 = false ∧ sources.resampling 8 25 = false)
    ∧ ((unclocked 50 0x40103).irqClock 2 = false ∧ srcIsEdge 2 50 = true ∧ (unclocked 50 0x40103).srcWake 2 50 = false
      ∧ bitOf ((unclocked 50 0x40103).srcCfg 2 50) 8 = true ∧ srcIsEdge 2 1 = false ∧ (unclocked 1 0x103).srcInput 2 1 = false)
    ∧ ((served 0x40103 []).irqClock 8 = true ∧ bitOf ((served 0x40103 []).srcCfg 8 970) 18 = true ∧ (served 0x40103 []).canonical = true)
    ∧ (reachB State.reset ⟨.core (.ac 0), false⟩ (irqPage 8) = true ∧ ctxM 5 = true ∧ ctxM 4 = false)
    ∧ (reachB sources m0 (irqPage 8) = true ∧ (reach sources m0 (irqPage 8)).ctxBest 8 4 = some (970, 3)
      ∧ (reach sources m0 (irqPage 8)).ctxBest 8 2 = none ∧ sources.srcQualifies 8 4 970 = true ∧ sources.canonical = true ∧ 970 < srcCount 8)
    ∧ (let z := bitsOf (970 : Word) 9 0 % srcCount 8
       reachB (served 0x420103 []) m0 (irqPage 8) = true ∧ z ≠ 0 ∧ z ≠ spurious 8 ∧ srcExists 8 z = true
        ∧ bitOf ((reach (served 0x420103 []) m0 (irqPage 8)).srcCfg 8 z) 17 = true ∧ bitsOf ((reach (served 0x420103 []) m0 (irqPage 8)).srcCfg 8 z) 23 20 = (4 : Fin 16).val
        ∧ bitsOf ((reach (served 0x420103 []) m0 (irqPage 8)).srcCfg 8 z) 23 20 ≠ (2 : Fin 16).val)
    ∧ ((served 0x103 [(8 * 1024 + 970, 4)]).resampling 8 970 = true ∧ sources.resampling 8 970 = false)
    ∧ (let s := { source State.reset 8 25 0x105 4 with irq := (⟨[(8 * 1024 + 25, 4)], []⟩ : Irq) }
       s.resampling 8 25 = true ∧ s.irq.resample.find? (fun q => q.1 == 8 * 1024 + 25) = some (8 * 1024 + 25, 4)
        ∧ (s.edges (4 - s.time.clk)).irqClock 8 = true ∧ bitOf ((s.edges (4 - s.time.clk)).srcCfg 8 25) 17 = false ∧ (s.edges (4 - s.time.clk)).canonical = true
        ∧ (s.edges (4 - s.time.clk)).srcCut 8 25 = false ∧ s.time.clk ≤ 4)
    ∧ ((reach sources m0 (irqPage 8)).power.queue = [] ∧ bitsOf (959 : Word) 9 0 % srcCount 8 < 960 ∧ 960 ≤ bitsOf (960 : Word) 9 0 % srcCount 8
      ∧ bitsOf (1022 : Word) 9 0 % srcCount 8 ≤ 1022 ∧ bitOf ((reach sources m0 (irqPage 8)).srcCfg 8 (bitsOf (970 : Word) 9 0 % srcCount 8)) 8 = true)
    ∧ (reachB sources m0 (srcPage 8 970) = true ∧ (reach sources m0 (srcPage 8 970)).Open (srcPage 8 970)
      ∧ bitOf ((reach sources m0 (srcPage 8 970)).srcCfg 8 970) 4 = false)
    ∧ (let s := served 0x113 []
       let x : Access := ⟨.core (.ac 0), false⟩
       reachB s x (srcPage 8 970) = true ∧ bitOf ((reach s x (srcPage 8 970)).srcCfg 8 970) 4 = true) := by
  unfold State.Open; decide +kernel

/-- Cluster 2's pair 9 fails, and its pair 10 stands by for it. -/
def failing (detect : Option (Nat × Word × Word × Word)) : State :=
  ((((State.reset.modPair 9 (fun p => { p with locked := true, detect := detect })).modPair 10 (fun p => { p with locked := true })).setReg
    (pgPairC 2) (Reg.PAIR_PCFG 1) 5).setReg (pgPairC 2) (Reg.PAIR_PCFG 2) 8)
/-- Pair 8 with a request, that may be under way. -/
def requested (lock busy : Bool) : State := pairAs 8 (fun p => { p with req := some ⟨lock, 5⟩, busy := busy, locked := !lock })
/-- Pair 10 in a takeover of pair 9, whose engine's foreground has ended or goes on. -/
def takingOver (ended : Bool) (tvec : Word) : State :=
  (((((failing none).modPair 10 (fun p => { p with takeover := some 1, busy := true })).modCore (.ce 18) (fun k => { k with fgEnded := ended })).modCar 2
    (fun c => { c with ticked := true, tickFcnt := 7 })).setReg (pgFrm 2) Reg.FRM_CEMASK 0xFF).setReg (pgPairC 2) (Reg.PAIR_SB_TVEC 2) tvec

theorem test_hyp_CorePairs :
    (let s := reach State.reset m0 (pairPage 8)
     reachB State.reset m0 (pairPage 8) = true ∧ s.domOn (coreDomain (masterOf 8)) = true ∧ s.domOn (coreDomain (checkerOf 8)) = true
      ∧ s.pairs[(8 : Fin 36)].halted = false ∧ s.pairs[(8 : Fin 36)].detect = none ∧ s.pairs[(8 : Fin 36)].req = none ∧ s.pairs[(8 : Fin 36)].busy = false
      ∧ s.pairs[(8 : Fin 36)].locked = false)
    ∧ (let s := pairAs 8 (fun p => { p with locked := true })
       reachB s m0 (pairPage 8) = true ∧ (reach s m0 (pairPage 8)).pairs[(8 : Fin 36)].locked = true ∧ (reach s m0 (pairPage 8)).standby 8 = false)
    ∧ (let s := pairAs 8 (fun p => { p with halted := true, busy := true })
       reachB s m0 (pairPage 8) = true ∧ (reach s m0 (pairPage 8)).pairs[(8 : Fin 36)].halted = true ∧ (reach s m0 (pairPage 8)).pairs[(8 : Fin 36)].busy = true)
    ∧ (State.reset.pairs[(8 : Fin 36)].req = none ∧ State.reset.pairs[(8 : Fin 36)].detect = none ∧ State.reset.pairs[(8 : Fin 36)].takeover = none)
    ∧ ((requested true false).pairs[(8 : Fin 36)].req = some ⟨true, 5⟩ ∧ ((requested true false).pairBoundary 8 5).isSome = true
      ∧ ((requested false false).pairBoundary 8 5).isSome = true)
    ∧ (let s := requested true true
       s.pairs[(8 : Fin 36)].req = some ⟨true, 5⟩ ∧ s.pairs[(8 : Fin 36)].busy = true ∧ (s.core (masterOf 8)).sbuf = [] ∧ (s.core (masterOf 8)).pend = []
        ∧ (s.core (masterOf 8)).fgDue = false ∧ s.canonical = true)
    ∧ (let s := failing none
       s.pairs[(9 : Fin 36)].locked = true ∧ s.pairs[(9 : Fin 36)].halted = false ∧ s.pairs[(9 : Fin 36)].detect = none ∧ (6 : BitVec 3).toNat ≤ 6)
    ∧ (let s := failing (some (2, 0x44, 9, 8))
       s.pairs[(9 : Fin 36)].detect = some (2, 0x44, 9, 8) ∧ (s.core (masterOf 9)).sbuf = [] ∧ s.canonical = true
        ∧ s.rbit (pairPage 9) Reg.PAIR_MIS_INFO 0 = false ∧ s.standbyOf 9 = some 10)
    ∧ (let s := pairAs 33 (fun p => { p with locked := true, detect := some (2, 0x44, 9, 8) })
       (s.core (masterOf 33)).sbuf = [] ∧ s.canonical = true ∧ s.standbyOf 33 = none)
    ∧ (let s := pairAs 32 (fun p => { p with detect := some (2, 0x44, 9, 8) })
       s.canonical = true ∧ s.pairs[(32 : Fin 36)].detect.isSome = true ∧ (s.core (.ac 0)).sbuf = [] ∧ s.pairs[(32 : Fin 36)].halted = false ∧ s.power.resets = [])
    ∧ (let s := takingOver true 0
       let fk := s.core (masterOf (pairAt (pairPage 10) 1))
       s.pairs[(10 : Fin 36)].takeover = some 1 ∧ s.canonical = true ∧ fk.fgEnded = true ∧ fk.ckptVal = false
        ∧ s.reg (pairPage 10) (Reg.PAIR_SB_TVEC (pairLocal 10)) = 0
        ∧ (takingOver true 0x120).reg (pairPage 10) (Reg.PAIR_SB_TVEC (pairLocal 10)) ≠ 0)
    ∧ (let s := takingOver false 0
       (s.core (masterOf (pairAt (pairPage 10) 1))).fgEnded = false ∧ (s.car (pairCluster 10)).ticked = true
        ∧ s.rbit (pgFrm (pairCluster 10)) Reg.FRM_CEMASK (masterLocal 10) = true ∧ s.locked (masterOf 10) = true) := by
  and_intros <;> decide +kernel

/-- Unit 0 of cluster 2's memories with its control, status and failure words. -/
def unit0 (ctl st fail : Word) : State :=
  ((rset (pgSramC 2) (Reg.SRAM_U_CTL 0) ctl).setReg (pgSramC 2) (Reg.SRAM_U_STAT 0) st).setReg (pgSramC 2) (Reg.SRAM_U_BTFAIL 0) fail

theorem test_hyp_MemoryMaintenance :
    (State.reset.mark 8 < 201 ∧ 201 ≤ (State.reset.setMark 8 201).mark 8 ∧ (State.reset.setMark 8 299).mark 8 < 300 ∧ 300 ≤ (State.reset.setMark 8 300).mark 8)
    ∧ ((unitOf 0x8100000).isSome = true ∧ unitOf 0x0FFFFFFFFF = none ∧ unitOf 0x1000000000 = none ∧ unitOf 0x2FFFFFFFFF = none ∧ unitOf 0x3000000000 = none)
    ∧ (State.reset.rbit (pgSramC 2) (Reg.SRAM_U_CTL 0) 0 = false ∧ State.reset.rbit (pgSramC 2) (Reg.SRAM_U_STAT 0) 0 = false)
    ∧ (let s := unit0 1 0x800 0
       s.rbit (pgSramC 2) (Reg.SRAM_U_CTL 0) 0 = true ∧ s.rbit (pgSramC 2) (Reg.SRAM_U_STAT 0) 0 = false ∧ s.rbit (pgSramC 2) (Reg.SRAM_U_STAT 0) 1 = false
        ∧ s.canonical = true ∧ (unitNo (pgSramC 2) 0).isSome = true ∧ unitNo (pgSramC 2) 12 = none)
    ∧ (let s := unit0 3 0x801 0; s.rbit (pgSramC 2) (Reg.SRAM_U_STAT 0) 0 = true ∧ s.canonical = true ∧ (16 : Fin 32).val < 17)
    ∧ (let s := unit0 1 0x800 0x10000
       reachB s m0 (pgSramC 2) = true ∧ (9 : Fin 32).val < 10 ∧ (0 : BitVec 16).toNat < unitRegions (pgSramC 2) 0
        ∧ (reach s m0 (pgSramC 2)).fld (pgSramC 2) (Reg.SRAM_U_STAT 0) 12 8 ≠ 0 ∧ (reach s m0 (pgSramC 2)).remapped (pgSramC 2) 0 0 = 0
        ∧ unitRegions (pgSramC 2) 0 ≤ (0xFFFF : BitVec 16).toNat)
    ∧ (let s := { unit0 1 0x800 0 with remapPend := [(unitKey (pgSramC 2) 0 * 65536 + 5, 1)] }
       s.testing (pgSramC 2) 0 5 = false ∧ s.canonical = true ∧ s.remapFull (pgSramC 2) 0 5 = false
        ∧ ({ unit0 1 0 0 with remapPend := [(unitKey (pgSramC 2) 0 * 65536 + 5, 1)] }).remapFull (pgSramC 2) 0 5 = true)
    ∧ (let s := unit0 3 0x50801 0
       reachB s m0 (pgSramC 2) = true ∧ (reach s m0 (pgSramC 2)).rbit (pgSramC 2) (Reg.SRAM_U_STAT 0) 0 = true
        ∧ (reach s m0 (pgSramC 2)).fld (pgSramC 2) (Reg.SRAM_U_STAT 0) 31 16 = 5 ∧ (5 : Nat) + 1 < unitRegions (pgSramC 2) 0)
    ∧ (let m := (unitNo (pgSramC 2) 0).getD ⟨pgSramC 2, 0, 0, 0, 4⟩
       regionWords m 5 = (regionWords m 5).headD 0 :: (regionWords m 5).tail ∧ ((unit0 1 0x50800 0).setMark ((regionWords m 5).headD 0) 100).mark ((regionWords m 5).headD 0) = 100)
    ∧ (isNormal 0x5000000 = true ∧ State.reset.l2On 0x5000000 = true ∧ isNormal 0x2000000 = false)
    ∧ (let s := rset pgSramSys (Reg.SRAM_U_CTL 9) 1
       unitNo pgSramSys 9 = none ∧ s.l2ecc = [] ∧ s.rbit pgSramSys (Reg.SRAM_U_CTL 9) 0 = true ∧ s.rbit pgSramSys (Reg.SRAM_U_STAT 9) 0 = false)
    ∧ (unitNo (pgSramC 2) 9 = none ∧ (rset (pgSramC 2) (Reg.SRAM_U_CTL 9) 1).ckptMarks (clu (pgSramC 2).inst) 0 = [])
    ∧ (∀ q : Fin 64, State.reset.cmd.queues[q].cmds = [])
    ∧ (State.reset.wiping = false ∧ (rset pgSramSys Reg.SRAM_VLT_STAT 1).wiping = true ∧ (rset pgSramSys Reg.SRAM_VLT_STAT 1).tamperHeld = none
      ∧ (rset pgSramSys Reg.SRAM_VLT_STAT 1).canonical = true) := by
  decide +kernel

theorem test_hyp_TranslationRegisters :
    reachB State.reset m0 (pgMmu 2) = true ∧ (reach State.reset m0 (pgMmu 2)).Open (pgMmu 2)
    ∧ (reach State.reset m0 (pgMmu 2)).locked (.ac 2) = false ∧ (reach State.reset m0 (pgMmu 2)).domClosed = false
    ∧ (let x : Access := ⟨.core (.ac 2), false⟩; let y : Access := ⟨.core (.ac 3), false⟩
       reachB State.reset y (pgMmu 2) = true ∧ reachB A x (pgMmu 2) = true ∧ 1 ≤ ((reach A x (pgMmu 2)).core (.ac 2)).lvl)
    ∧ (reachB State.reset m0 (pgMmu 1) = true ∧ (reach State.reset m0 (pgMmu 1)).locked (.ac 1) = true ∧ isChecker (.ac 1) = true)
    ∧ (let s := rset (pgMmu 0) Reg.MMU_DOMMEM 4
       reachB s m0 (pgMmu 2) = true ∧ (reach s m0 (pgMmu 2)).domMembers.testBit (2 : Fin 8) = true ∧ (reach s m0 (pgMmu 2)).domUnfit 2 = true)
    ∧ (let s := rset (pgMmu 0) Reg.MMU_DOMSTAT 1; reachB s m0 (pgMmu 2) = true ∧ (reach s m0 (pgMmu 2)).domClosed = true) := by
  unfold State.Open; decide +kernel
/-! ## Hypotheses that states meet: DMA, flash, power, resets and security -/

/-- DMA channel `k` with its configuration and its fields. -/
def chan (k : Fin 96) (cfg : Word) (g : DmaCh → DmaCh) : State := (rset (dmaPage k) (dmaReg Reg.DMA_CH_CFG k) cfg).modDma k g
/-- A burst of 16 words of 4 bytes between two addresses. -/
def burst3 (last confirm : Bool) (left : Nat) (src : Nat) : State :=
  chan 3 0xC (fun d => { d with phase := .burst, src := src, dst := 0x1002000, w0 := if confirm then 0x20020 else 0x20, len := 64, left := left, burst := 64, isLast := last })
/-- Its reads and writes. -/
def moved (s : State) : (State × List Byte × Option (Option Nat)) × (State × Nat × Option (Option Nat)) :=
  let d := s.dma[(3 : Fin 96)]
  let r := State.dmaReads (dmaInit 3) d.srcSide d.esz (d.burst / d.esz) s d.src []
  (r, State.dmaWrites (dmaInit 3) d.dstSide d.esz (d.burst / d.esz) r.1 d.dst r.2.1)
/-- Reads and writes that succeed leave the channel as it was. -/
def movedOk (s : State) : Bool :=
  (moved s).1.2.2.isNone && (moved s).2.2.2.isNone && s.dma[(3 : Fin 96)].got.isEmpty && s.dma[(3 : Fin 96)].put == 0 && decide ((moved s).2.1.dma[(3 : Fin 96)] = s.dma[(3 : Fin 96)])
    && (moved s).2.1.canonical && !(moved s).2.1.rbit (dmaPage 3) (dmaReg Reg.DMA_CH_CFG 3) 8
/-- A descriptor in memory for channel 3, and where the channel reads it. -/
def fetching (bs : List Byte) (at_ : Nat) : State := (chan 3 0xC (fun d => { d with phase := .fetch, cdesc := at_ })).setBytes 0x1000040 bs
/-- What that read answers. -/
def descRead (s : State) : State × Ans := s.physRead (dmaInit 3) false s.dma[(3 : Fin 96)].cdesc 32
/-- 64 bytes from 0x1001000 to 0x1002000, and a descriptor with a reserved bit. -/
def descBytes : List Byte := leBytes 4 0x240020 ++ leBytes 4 64 ++ leBytes 8 0x1001000 ++ leBytes 8 0x1002000 ++ leBytes 8 0

theorem test_hyp_DmaChannels :
    (let s := reach State.reset m0 (dmaPage 3)
     reachB State.reset m0 (dmaPage 3) = true ∧ s.dmaBusy 3 = false ∧ s.stopLow = false ∧ s.dmaReq 3 = 0 ∧ s.dma[(3 : Fin 96)].phase = .idle
      ∧ (reach (chan 40 0x8 id) m0 (dmaPage 40)).dmaReq 40 = 2 ∧ (chan 40 0x8 id).dmaBusy 40 = false)
    ∧ (let s := chan 3 0xC (fun d => { d with phase := .run })
       reachB s m0 (dmaPage 3) = true ∧ (reach s m0 (dmaPage 3)).dma[(3 : Fin 96)].phase = .run ∧ (reach s m0 (dmaPage 3)).dmaBusy 3 = true
        ∧ (reach s m0 (dmaPage 3)).dmaReq 3 = 3 ∧ (reach s m0 (dmaPage 3)).dma[(3 : Fin 96)].req = false
        ∧ (reach s m0 (dmaPage 3)).rbit (dmaPage 3) (dmaReg Reg.DMA_CH_CFG 3) 8 = false)
    ∧ (reachB (burst3 false false 128 0x1001000) m0 (dmaPage 3) = true ∧ (reach (burst3 false false 128 0x1001000) m0 (dmaPage 3)).dma[(3 : Fin 96)].phase = .burst)
    ∧ (let s := chan 40 0x8 (fun d => { d with phase := .run, req := true }); s.dmaReq 40 = 2 ∧ s.dmaBusy 40 = true ∧ s.dma[(40 : Fin 96)].req = true)
    ∧ (let s := (chan 3 0 id).setReg (dmaPage 3) (dmaReg Reg.DMA_CH_IEN 3) 0x3F; s.canonical = true ∧ s.rbit (dmaPage 3) (dmaReg Reg.DMA_CH_IEN 3) 5 = true)
    ∧ (let s := fetching descBytes 0x1000040
       let d := s.dma[(3 : Fin 96)]
       (match descRead s with | (s2, .data bs) => s2.canonical && !(d.load bs).bad (descReserved bs) | _ => false) = true ∧ s.canonical = true ∧ d.phase = .fetch)
    ∧ (let s := fetching (descBytes.set 3 0xFF) 0x1000040
       (match descRead s with
        | (s2, .data bs) => s2.canonical && (s.dma[(3 : Fin 96)].load bs).bad (descReserved bs) && !s2.rbit (dmaPage 3) (dmaReg Reg.DMA_CH_CFG 3) 8
        | _ => false) = true)
    ∧ (let s := fetching descBytes 0x900000
       (match descRead s with | (s2, .busError) => s2.canonical && !s2.rbit (dmaPage 3) (dmaReg Reg.DMA_CH_CFG 3) 8 | _ => false) = true)
    ∧ (State.reset.dmaPick 8 = none ∧ (chan 3 0 (fun d => { d with phase := .run, left := 64, len := 64, req := true })).dmaPick (Fin.ofNat 9 (dmaEngine 3)) = some 3)
    ∧ (movedOk (burst3 false false 128 0x1001000) = true ∧ movedOk (burst3 true true 64 0x1001000) = true ∧ movedOk (burst3 true false 64 0x1001000) = true
      ∧ movedOk (burst3 false false 64 0x1001000) = true)
    ∧ (match moved (burst3 false false 64 0x900000) with
       | ((s2, _, some (some r)), _) => s2.canonical && decide (r < 16) && !s2.rbit (dmaPage 3) (dmaReg Reg.DMA_CH_CFG 3) 8
       | _ => false) = true
    ∧ (match moved ((burst3 false false 64 0x1001000).modDma 3 (fun d => { d with dst := 0x900000 })) with
       | ((_, _, none), (s3, _, some (some r))) => s3.canonical && decide (r < 16) && !s3.rbit (dmaPage 3) (dmaReg Reg.DMA_CH_CFG 3) 8
       | _ => false) = true
    ∧ (let s := (burst3 true true 64 0x1001000).modDma 3 (fun d => { d with phase := .confirm })
       let d := s.dma[(3 : Fin 96)]
       let a := s.physRead (dmaInit 3) false (if isRegPage d.lastDst then d.lastDst / 4096 * 4096 else d.lastDst) (if isRegPage d.lastDst then 4 else d.esz)
       d.phase = .confirm ∧ d.isLast = true ∧ d.abort = none ∧ a.2 ≠ .wait ∧ a.1.canonical = true ∧ a.1.dma[(3 : Fin 96)] = d
        ∧ a.1.rbit (dmaPage 3) (dmaReg Reg.DMA_CH_CFG 3) 8 = false) := by
  and_intros <;> decide +kernel

/-- Flash bank 2 in an operation. -/
def bank2 (g : FlashBank → FlashBank) : State := (rset pgFls (Reg.FLS_B_PBUF 64) 7).modBank 2 g

theorem test_hyp_FlashMemory :
    (reachB State.reset m0 pgFls = true ∧ (reach State.reset m0 pgFls).bankOn 2 = true ∧ (reach State.reset m0 pgFls).flash[(2 : Fin 5)].op = 0
      ∧ (reach State.reset m0 pgFls).flash[(2 : Fin 5)].susp = none ∧ State.reset.fbPend = [])
    ∧ (let s := State.reset.setFld pgPwr (Reg.PWR_DOM 142) 1 0 0; reachB s m0 pgFls = true ∧ (List.finRange 5).any (fun (b : Fin 5) => !(reach s m0 pgFls).bankOn b) = true)
    ∧ (let s := bank2 (fun f => { f with op := 2 })
       reachB s m0 pgFls = true ∧ (reach s m0 pgFls).flash[(2 : Fin 5)].op = 2 ∧ (reach s m0 pgFls).bankOn 2 = true)
    ∧ (let s := bank2 (fun f => { f with susp := some 0x10000 })
       reachB s m0 pgFls = true ∧ (reach s m0 pgFls).flash[(2 : Fin 5)].susp = some 0x10000 ∧ (reach s m0 pgFls).flash[(2 : Fin 5)].op = 0)
    ∧ (let s := bank2 (fun f => { f with op := 1, words := 1, addr := 0x10010 })
       s.flash[(2 : Fin 5)].op = 1 ∧ s.canonical = true ∧ s.flash[(2 : Fin 5)].words = 1 ∧ s.flsWordFault 2 s.flash[(2 : Fin 5)].addr = none)
    ∧ (let s := bank2 (fun f => { f with op := 1, words := 1, addr := 0x10011 }); (s.flsWordFault 2 s.flash[(2 : Fin 5)].addr).isSome = true ∧ s.canonical = true)
    ∧ (let s := bank2 (fun f => { f with op := 2, addr := 0x10000, suspReq := true })
       let f := s.flash[(2 : Fin 5)]
       f.op = 2 ∧ s.canonical = true ∧ f.addr = sectorBase 2 f.addr ∧ f.addr < bankSize 2 ∧ s.flsProt 2 f.addr (f.addr + sectorSize 2 f.addr - 1) = false
        ∧ f.suspReq = true ∧ (s.setReg pgFls (Reg.FLS_B_PROT 2) 0x80100010).flsProt 2 f.addr (f.addr + sectorSize 2 f.addr - 1) = true
        ∧ 0x10010 ≠ sectorBase 2 0x10010)
    ∧ (({ State.reset with fbPend := [0x33] } : State).fbPend = [0x33])
    ∧ (let m (v : Nat) : Nat := (State.reset.setFlsWord 3 v).flsWord 3
       (m 17).testBit 4 = true ∧ (m 5).testBit 4 = false ∧ (m 5).testBit 5 = false ∧ m 5 / 2 % 8 + 1 ≤ 3 ∧ m 5 / 2 % 8 + 2 = 4 ∧ 4 < m 5 / 2 % 8 + 3) := by
  and_intros <;> decide +kernel

/-- A domain switched off. -/
def off (s : State) (d : Nat) : State := s.setFld pgPwr (Reg.PWR_DOM d) 1 0 0
/-- A transition under way. -/
def moving (g w : Nat) (q : List (Nat × Nat)) : State := { State.reset with power := { State.reset.power with busy := some (3, g, w), queue := q } }

theorem test_hyp_PowerDomains :
    (let s := reach State.reset m0 pgPwr
     reachB State.reset m0 pgPwr = true ∧ (1 : BitVec 2) ≠ 2 ∧ s.power.busy = none ∧ s.power.queue = [] ∧ s.power.waking = [] ∧ s.domState 3 = (3 : BitVec 2).toNat
      ∧ s.domState 3 ≠ (0 : BitVec 2).toNat ∧ s.domRefusal 3 (0 : BitVec 2).toNat = none ∧ (s.domRefusal 64 (0 : BitVec 2).toNat).isSome = true
      ∧ s.domState 64 ≠ (0 : BitVec 2).toNat)
    ∧ (reachB (moving 0 3 []) m0 pgPwr = true ∧ (reach (moving 0 3 []) m0 pgPwr).power.busy.isSome = true)
    ∧ (domParent 3 = some 64 ∧ (off State.reset 64).domOn 64 = false ∧ domParent 64 = none ∧ (∃ e : Fin 148, domParent e = some 64 ∧ State.reset.domOn e = true))
    ∧ (∀ q : Fin 64, State.reset.cmd.queues[q].cmds = []) ∧ State.reset.power.busy = none
    ∧ ((∀ q : Fin 64, (moving 1 3 []).cmd.queues[q].cmds = []) ∧ (moving 1 3 []).power.busy = some (3, 1, 3) ∧ (moving 1 3 []).power.queue = []
      ∧ (moving 1 3 []).power.waking = [] ∧ (moving 1 3 []).canonical = true)
    ∧ (moving 1 3 [(4, 0)]).power.queue = (4, 0) :: []
    ∧ (State.reset.canonical = true ∧ State.reset.power.resets = [] ∧ State.reset.flsActive = false ∧ (rset pgSec Reg.SEC_TMP_CTL 0x600).rbit pgSec Reg.SEC_TMP_CTL 9 = true
      ∧ (rset pgSec Reg.SEC_TMP_CTL 0x600).rbit pgSec Reg.SEC_TMP_CTL 10 = true) := by
  and_intros <;> decide +kernel

/-- Under a reset; with watchdog 2; at a stage of boot. -/
def under (r : ResetRun) : State := { State.reset with power := { State.reset.power with resets := [r] } }
/-- See `under`. -/
def dog (ctl cnt : Word) : State := (rset pgRst (Reg.WD_CTL 2) ctl).setReg pgRst (Reg.WD_CNT 2) cnt
/-- See `under`. -/
def boot (n : Nat) : State := State.reset.setFld pgRst Reg.RST_BOOT 3 0 n

theorem test_hyp_ResetsAndWatchdogs :
    ((under ⟨4, 0, false⟩).power.resets.any (fun r => r.covers ⟨4, 0, false⟩) = true ∧ State.reset.power.resets.any (fun r => r.covers ⟨4, 0, false⟩) = false
      ∧ State.reset.canonical = true ∧ (∀ d < 148, State.reset.domOn d = true) ∧ State.reset.flsActive = false)
    ∧ (reachB State.reset m0 pgRst = true ∧ (reach State.reset m0 pgRst).power.resets = [] ∧ reachB State.reset hst pgRst = true ∧ hst.m = false)
    ∧ (bitsOf (0x5A0004 : Word) 23 16 = 0x5A ∧ bitsOf (0x5A0004 : Word) 2 0 = 4 ∧ bitsOf (0x5A0002 : Word) 2 0 = 2 ∧ bitsOf (0x5A01F8 : Word) 2 0 = 0
      ∧ bitOf (0x5A01F8 : Word) 9 = false ∧ bitsOf (0x5A01F8 : Word) 8 3 = (63 : Fin 64).val ∧ (reach State.reset m0 pgRst).locked (.ce 63) = false
      ∧ bitsOf (0x5A0039 : Word) 2 0 = 1 ∧ bitsOf (0x5A0039 : Word) 8 3 = (7 : Fin 64).val ∧ 4 < bitsOf (0x5A0005 : Word) 2 0 ∧ bitOf (0x5A0220 : Word) 9 = true ∧ 3 < bitsOf (0x5A0220 : Word) 8 3
      ∧ (∀ q : Fin 64, (reach State.reset m0 pgRst).cmd.queues[q].cmds = []))
    ∧ (State.reset.fld pgRst Reg.RST_CFG 1 0 = 0 ∧ 1 < (rset pgRst Reg.RST_CFG 2).fld pgRst Reg.RST_CFG 1 0 ∧ (rset pgRst Reg.RST_CFG 2).power.resets = [])
    ∧ ((∀ q : Fin 64, (under ⟨3, 0, false⟩).cmd.queues[q].cmds = []) ∧ (under ⟨3, 0, false⟩).power.resets.contains ⟨3, 0, false⟩ = true
      ∧ (under ⟨3, 0, false⟩).power.resets.contains ⟨2, 0, false⟩ = false ∧ (under ⟨2, 0, false⟩).power.resets.contains ⟨2, 0, false⟩ = true
      ∧ (under ⟨3, 0, false⟩).canonical = true ∧ State.reset.power.hot = false
      ∧ ({ State.reset with power := { State.reset.power with resets := [⟨4, 0, false⟩], hot := true } } : State).power.hot = true)
    ∧ (reachB (dog 0x10001 0) m0 pgRst = true ∧ bitsOf (0x6B3A : Word) 15 0 = 0x6B3A ∧ (reach (dog 0x10001 0) m0 pgRst).rbit pgRst (Reg.WD_CTL 2) 0 = true
      ∧ (reach State.reset m0 pgRst).rbit pgRst (Reg.WD_CTL 2) 0 = false ∧ State.reset.rbit pgRst (Reg.WD_CTL 2) 0 = false)
    ∧ ((dog 0x10001 0).canonical = true ∧ (dog 0x10001 0).rbit pgRst (Reg.WD_CTL 2) 0 = true ∧ (dog 0x10001 0).rbit pgRst (Reg.WD_CNT 2) 16 = false
      ∧ (dog 0x10001 0x10000).rbit pgRst (Reg.WD_CNT 2) 16 = true ∧ (dog 0x10001 0x10000).power.resets = [])
    ∧ (∀ n ∈ [0, 1, 2, 3, 4, 5, 6, 7], (boot n).fld pgRst Reg.RST_BOOT 3 0 = n ∧ (boot n).power.resets = [] ∧ (boot n).canonical = true) := by
  and_intros <;> decide +kernel

/-- Guard 3 of the energy block with its status, limits and a check. -/
def guard3 (st ilim elim : Word) (chk : Option Bool) : State :=
  (((rset pgEg (Reg.EG_ST 3) st).setReg pgEg (Reg.EG_ILIM 3) ilim).setReg pgEg (Reg.EG_ELIM_LO 3) elim).modGuard 3 (fun g => { g with check := chk, win := [5, 6] })
/-- The energy that a sample of voltage `4 * i` and current `i` makes. -/
def energyOf (s : State) (i : Nat) : Nat := ((4 * i * i :: s.guards[(3 : Fin 8)].win).take (clampNat 10 100000 (s.fld pgEg (Reg.EG_WIN 3) 16 0))).sum

/-- The energy a cable check finds at a voltage step and a time. -/
def stored (s : State) (dv tns : Nat) : Nat :=
  let tch := 1000 * max 1 (s.fld pgEg (Reg.EG_CTL 3) 15 8)
  (if s.rbit pgEg (Reg.EG_CTL 3) 1 then 1000 else 100) * (if dv < 3840 then tch else min tns tch) * 2560 / (min dv 3840 * 1000)
    * (s.fld pgEg (Reg.EG_CCFG 3) 15 0 * s.fld pgEg (Reg.EG_CCFG 3) 15 0) / 2000000000

theorem test_hyp_EnergyGuards :
    ((off State.reset 145).domOn 145 = false ∧ State.reset.domOn 145 = true ∧ State.reset.canonical = true ∧ State.reset.egOn 3 = false
      ∧ State.reset.guards[(3 : Fin 8)].check = none)
    ∧ ((guard3 1 50 0 none).egOn 3 = true ∧ (guard3 1 50 0 none).egElim 3 < energyOf (guard3 1 50 0 none) 9)
    ∧ (let s := guard3 1 50 0xFFFFFFFF none
       s.egOn 3 = true ∧ energyOf s 51 ≤ s.egElim 3 ∧ s.fld pgEg (Reg.EG_ILIM 3) 11 0 < 51 ∧ 50 ≤ s.fld pgEg (Reg.EG_ILIM 3) 11 0)
    ∧ (let s := guard3 2 50 0 none
       reachB s m0 pgEg = true ∧ (reach s m0 pgEg).rbit pgEg (Reg.EG_ST 3) 1 = true ∧ (reach s m0 pgEg).egElim 3 < (reach s m0 pgEg).egEnergy 3)
    ∧ (let s := guard3 1 50 0xFFFF none
       reachB s m0 pgEg = true ∧ (reach s m0 pgEg).rbit pgEg (Reg.EG_ST 3) 1 = false ∧ (reach s m0 pgEg).egOn 3 = true
        ∧ (reach s m0 pgEg).egEnergy 3 ≤ (reach s m0 pgEg).egElim 3)
    ∧ (let s := guard3 0 50 0xFFFF none
       reachB s m0 pgEg = true ∧ (reach s m0 pgEg).rbit pgEg (Reg.EG_ST 3) 1 = false ∧ (reach s m0 pgEg).egOn 3 = false
        ∧ (reach s m0 pgEg).guards[(3 : Fin 8)].check = none ∧ (reach s m0 pgEg).rbit pgEg Reg.PAGE_LOCK 0 = false
        ∧ (reach (s.setReg pgEg (Reg.EG_CTL 3) 0) m0 pgEg).rbit pgEg (Reg.EG_CTL 3) 0 = false ∧ (reach (s.setReg pgEg (Reg.EG_CTL 3) 1) m0 pgEg).rbit pgEg (Reg.EG_CTL 3) 0 = true)
    ∧ (let s := rset (pgSdm 2) (Reg.SDM_CTL 5) 1
       reachB s m0 pgEg = true ∧ (List.finRange 29).any (fun (b : Fin 29) => (reach s m0 pgEg).fioInUse 2 b) = true ∧ (List.finRange 29).any (fun (b : Fin 29) => !(reach s m0 pgEg).fioInUse 2 b) = true)
    ∧ ((guard3 0 50 0 (some true)).guards[(3 : Fin 8)].check = some true ∧ (guard3 0 50 0 (some true)).canonical = true
      ∧ stored (guard3 0 50 0 (some true)) 16 1000 ≤ ((guard3 0 50 0 (some true)).reg pgEg (Reg.EG_CBUDGET 3)).toNat
      ∧ (let s := ((guard3 0 50 0 (some true)).setReg pgEg (Reg.EG_CCFG 3) 0xFFFF).setReg pgEg (Reg.EG_CBUDGET 3) 0
         (s.reg pgEg (Reg.EG_CBUDGET 3)).toNat < stored s 16 1000)
      ∧ State.reset.guards[(3 : Fin 8)].samp = none ∧ (State.reset.modGuard 3 (fun g => { g with samp := some 7 })).guards[(3 : Fin 8)].samp = some 7) := by
  and_intros <;> decide +kernel

/-- The security block with a lifecycle and its fields. -/
def secure (lc lock : Word) (g : Sec → Sec) : State := ((rset pgSec Reg.SEC_LC lc).setReg pgSec Reg.SEC_MEAS_LOCK lock).modSec g

theorem test_hyp_SecurityServices :
    (reachB State.reset hst pgSec = true ∧ pair0M hst.by_ hst.m = false ∧ reachB State.reset m0 pgSec = true ∧ pair0M m0.by_ m0.m = true
      ∧ (reach State.reset m0 pgSec).sec.signing = none ∧ (reach State.reset m0 pgSec).sec.ext = none ∧ (reach State.reset m0 pgSec).rbit pgSec Reg.SEC_MEAS_LOCK 0 = false
      ∧ State.reset.sec.lcNext = none ∧ State.reset.canonical = true)
    ∧ ((reach (secure 1 0 id) m0 pgSec).keyOk = false ∧ reachB (secure 1 0 id) m0 pgSec = true ∧ (reach (secure 5 0 id) m0 pgSec).keyOk = true ∧ reachB (secure 5 0 id) m0 pgSec = true)
    ∧ (let s := secure 5 1 (fun y => { y with signing := some 5, ext := some (2, 9, 5) })
       reachB s m0 pgSec = true ∧ (reach s m0 pgSec).sec.signing = some 5 ∧ (reach s m0 pgSec).sec.ext = some (2, 9, 5) ∧ (reach s m0 pgSec).rbit pgSec Reg.SEC_MEAS_LOCK 0 = true
        ∧ s.canonical = true ∧ s.sec.signing = some 5 ∧ s.sec.ext = some (2, 9, 5) ∧ (∀ q : Fin 64, s.cmd.queues[q].cmds = []))
    ∧ ((reach (secure 5 1 id) m0 pgSec).sec.ext = none ∧ (3 : Nat) ≤ (3 : Fin 8).val)
    ∧ (State.reset.rbit pgSec Reg.SEC_TMP_CTL 1 = false ∧ (rset pgSec Reg.SEC_TMP_CTL 0x22).rbit pgSec Reg.SEC_TMP_CTL 1 = true ∧ (rset pgSec Reg.SEC_TMP_CTL 0x22).canonical = true
      ∧ State.reset.rbit pgSec Reg.SEC_TMP_STAT 1 = false ∧ (rset pgSec Reg.SEC_TMP_STAT 2).rbit pgSec Reg.SEC_TMP_STAT 1 = true)
    ∧ (let s := secure 5 0 (fun y => { y with lcNext := some (2, [some 7]) })
       s.sec.lcNext = some (2, [some 7]) ∧ 2 < 4 ∧ s.canonical = true ∧ (∀ q : Fin 64, s.cmd.queues[q].cmds = []) ∧ s.power.resets = []) := by
  and_intros <;> decide +kernel
/-! ## Hypotheses that states meet: the CXL port, the mailbox and the queues -/

/-- The link is up, the first decoder is committed and the host may write through BAR0. -/
def linked : State :=
  (((State.reset.cxlUp 5 8).setReg pgCxl Reg.CXL_HDM_AVAIL 0x80050001).setReg pgCxl Reg.CXL_CTL 0xA03).modCxl (fun y =>
    { y with hdm := y.hdm.set 0 ⟨0x10000000, 0x10000000, 0, 1, some 0x10000000, false⟩, pend := 0x21 })

/-- Vector 5 is not masked. -/
def unmasked : State := linked.setReg pgMsix (16 * 5 + 12) 0

theorem test_hyp_CxlPort :
    (State.reset.linkUp = false ∧ State.reset.domOn 127 = true ∧ State.reset.domOn 128 = true ∧ State.reset.canonical = true ∧ State.reset.NoAborts ∧ State.reset.NoRecords
      ∧ State.reset.rbit pgCxl Reg.CXL_CTL 1 = false)
    ∧ (linked.linkUp = true ∧ linked.canonical = true ∧ linked.frozen pgCxl = false ∧ linked.fld pgCxl Reg.CXL_LINKDN_CNT 15 0 < 65535)
    ∧ (let s := rset pgCxl Reg.CXL_CTL 2
       s.linkUp = false ∧ s.rbit pgCxl Reg.CXL_CTL 1 = true ∧ s.cxl.ldDone = false ∧ s.canonical = true ∧ s.NoRecords)
    ∧ (0x42 % 4 ≠ 0 ∧ 0x44 % 8 ≠ 0 ∧ bar0Page 0x40 = some pgDtb ∧ linked.pageOpen pgDtb = true ∧ linked.rbit pgCxl Reg.CXL_CTL 0 = true
      ∧ pgDtb.kind ≠ .cxl ∧ pgDtb.kind ≠ .sec ∧ pgDtb.kind ≠ .rst ∧ (linked.pageAccess .host pgDtb).isSome = true ∧ linked.pageWaits .host pgDtb = false ∧ State.reset.rbit pgCxl Reg.CXL_CTL 0 = false
      ∧ bar0Page 0x1040 = some pgRst)
    ∧ ((off linked 76).pageOpen (pgPwg0 2) = false ∧ (List.range 32).any (fun i => bar0Page (0x840000 + 0x1000 * i) == some (pgPwg0 2)) = true)
    ∧ (let lo := linked.fld pgCxl Reg.CXL_HDM_AVAIL 9 0 * 0x10000000
       let hi := (linked.fld pgCxl Reg.CXL_HDM_AVAIL 25 16 + 1) * 0x10000000
       0x10000000 % 0x10000000 = 0 ∧ linked.rbit pgCxl Reg.CXL_HDM_AVAIL 31 = true ∧ lo ≤ 0x20000000 ∧ 0x20000000 + 0x10000000 ≤ hi ∧ linked.cxlMode = true
        ∧ ¬ (∃ k : Fin 2, k ≠ 1 ∧ linked.cxl.hdm[k].dpa.any (fun y => decide (y < 0x20000000 + 0x10000000 ∧ 0x20000000 < y + linked.cxl.hdm[k].size)) = true)
        ∧ 0x10000001 % 0x10000000 ≠ 0 ∧ linked.cxl.hdm[(1 : Fin 2)].dpa = none ∧ linked.cxl.hdm[(0 : Fin 2)].dpa ≠ none)
    ∧ (State.reset.hdmAddr 0x10000040 64 = none)
    ∧ (linked.cxlMode = true ∧ linked.cxl.hdm[(0 : Fin 2)].dpa = some 0x10000000 ∧ linked.cxl.hdm[(0 : Fin 2)].base ≤ 0x10000040
      ∧ (∀ k : Fin 2, k ≠ 0 → linked.cxl.hdm[k].dpa = none) ∧ linked.expOn (0x1000000000 + 0x10000000 + (0x1FFFFFC0 - linked.cxl.hdm[(0 : Fin 2)].base)) = true
      ∧ 0x1FFFFFC0 + 64 ≤ linked.cxl.hdm[(0 : Fin 2)].base + linked.cxl.hdm[(0 : Fin 2)].size
      ∧ (linked.eccRead .host (0x1000000000 + 0x10000000 + 0x40) 64).2 = false
      ∧ ((linked.setMark (0x1000000000 + 0x10000000 + 0x40) 100).eccRead .host (0x1000000000 + 0x10000000 + 0x40) 64).2 = true
      ∧ linked.cxl.logs[(2 : Fin 4)].recs.length < 32)
    ∧ (let s := linked.setReg pgRst Reg.RST_BRG_STAT 1
       (s.pageAccess .host (pgPwg0 2)).isNone = true ∧ s.pageOpen (pgPwg0 2) = true ∧ s.pageWaits .host (pgPwg0 2) = false)
    ∧ (isHostMem (hostBase + 0 / 64 * 64 + 63) = true ∧ isHostMem (hostBase + 2 ^ 60 / 64 * 64 + 63) = false)
    ∧ (reachB linked m0 pgCxl = true ∧ reachB unmasked m0 pgCxl = true ∧ (reach unmasked m0 pgCxl).msixMasked 5 = false ∧ (rset pgMsix (16 * 5 + 12) 1).msixMasked 5 = true
      ∧ (reach (rset pgMsix (16 * 5 + 12) 1) m0 pgCxl).msixMasked 5 = true)
    ∧ (linked.cxl.fnMask = false ∧ linked.cxl.pend.getLsbD (5 : Fin 64) = true ∧ unmasked.rbit pgMsix (16 * 5 + 12) 0 = false
      ∧ (rset pgMsix (16 * 5 + 12) 1).rbit pgMsix (16 * 5 + 12) 0 = true ∧ (State.reset.modCxl (fun y => { y with fnMask := true })).cxl.fnMask = true) := by
  unfold State.NoAborts State.NoRecords; and_intros <;> decide +kernel

/-- The firmware is up, and the event log 1 holds a record. -/
def booted : State := (rset pgRst Reg.RST_BOOT 6).modCxl (fun y => { y with logs := y.logs.set 1 ⟨[⟨3, 1, 5, 7⟩], true⟩ })

/-- Whether an image verifies is decided by free values (log 7); one whose header is wrong never does. -/
theorem test_hyp_CxlMailbox :
    (State.reset.fwUp = false ∧ State.reset.bootFailed = false) ∧ (booted.fwUp = true ∧ (rset pgRst Reg.RST_BOOT 0x20).bootFailed = true
      ∧ (rset pgRst Reg.RST_BOOT 0x20).fwUp = false)
    ∧ ((booted.cxl.logs[(1 : Fin 4)].recs.map (fun r => r.handle)).take [3].length = [3] ∧ (booted.cxl.logs[(1 : Fin 4)].recs.map (fun r => r.handle)).take [4].length ≠ [4])
    ∧ (booted.runSlot = 1 ∧ (rset pgRst Reg.RST_BOOT 0x16).runSlot = 2)
    ∧ ((2 : Nat) ≠ booted.runSlot ∧ (List.replicate 128 (7 : Byte)).length % 128 = 0 ∧ 128 % 128 = 0 ∧ imgSize true - 128 + 128 ≤ imgSize true ∧ imgSize true < imgSize true + 128)
    ∧ ((booted.setBytes (flashBase + imgBase true) (List.replicate 16 0)).imageOk true).2 = none := by
  and_intros <;> decide +kernel

/-- A descriptor: an opcode, its flags, a tag, and no parameters. -/
def descOf (opc flags : Nat) : List Byte := leBytes 2 opc ++ leBytes 2 flags ++ leBytes 4 77 ++ leBytes 56 0
/-- Queue 3 enabled with a ring of 32, one descriptor waiting in the host's memory. -/
def queued (bs : List Byte) (up : Bool) : State :=
  let a := (((rset pgRst Reg.RST_BOOT 6).setReg (pgQc 3) Reg.QC_CTL 0x1451).setReg (pgQc 3) Reg.QC_SQB_LO 0x2000).setReg (pgQc 3) Reg.QC_CQB_LO 0x4000
  ((if up then a.cxlUp 5 8 else a).setBytes (hostBase + 0x2000) bs).modQueue 3 (fun y => { y with tail := 2 })
/-- What the device reads at the queue's head. -/
def headRead (s : State) : State × Ans := (s.modCmd (fun u => { u with last := 3 })).physRead (.sdma 0) false (hostBase + 0x2000) 64
/-- The command of a descriptor, started. -/
def started3 (bs : List Byte) : Cmd := { parseCmd 3 1 0 bs with started := true }
/-- Queue 3 with that command, and a stopped queue. -/
def running3 (bs : List Byte) (up : Bool) : State := (queued bs up).modQueue 3 (fun y => { y with cmds := [started3 bs], ctail := 31 })
/-- Where its completion goes. -/
def complete3 (s : State) : State × Ans :=
  (s.modQueue 3 (fun y => { y with cmds := [] })).physWrite (.sdma 0) false (hostBase + 0x4000 + 16 * 31) (compEntry (started3 (descOf 1 1)) (s.queue 3).phase 0 1 2)

theorem test_hyp_QueuesAndStops :
    (State.reset.canonical = true ∧ State.reset.NoRecords ∧ State.reset.NoAborts ∧ State.reset.stopLow = false ∧ State.reset.rbit pgDvsec Reg.URG_STAT 0 = false
      ∧ State.reset.frozen pgDvsec = false ∧ State.reset.bridgeIsDown = false ∧ State.reset.bridgeTrains = false ∧ State.reset.fld pgDvsec Reg.URG_CNT 15 0 < 65535 ∧ State.reset.rbit pgStr Reg.STR_CTL 0 = false ∧ State.reset.fwUp = false)
    ∧ ((rset pgRst Reg.RST_BRG_STAT 2).bridgeTrains = true ∧ (rset pgRst Reg.RST_BRG_STAT 2).NoAborts ∧ (rset pgRst Reg.RST_BRG_STAT 2).stopLow = false)
    ∧ ((rset pgDvsec Reg.URG_STAT 1).rbit pgDvsec Reg.URG_STAT 0 = true ∧ (rset pgDvsec Reg.URG_STAT 1).dmaIdle = true ∧ (rset pgDvsec Reg.URG_STAT 1).canonical = true)
    ∧ (reachB State.reset hst (pgQc 3) = true ∧ (reach State.reset hst (pgQc 3)).qEn 3 = false ∧ reachB State.reset hst ⟨.db, 3⟩ = true
      ∧ (reach State.reset hst ⟨.db, 3⟩).qEn 3 = false)
    ∧ (let s := reach (queued (descOf 1 1) true) hst ⟨.db, 3⟩
       reachB (queued (descOf 1 1) true) hst ⟨.db, 3⟩ = true ∧ s.qEn 3 = true ∧ bitsOf (31 : Word) 11 0 < s.ring 3 ∧ s.ring 3 ≤ bitsOf (32 : Word) 11 0 ∧ s.qErr 3 = false)
    ∧ (reachB (queued (descOf 1 1) true) hst (pgQc 3) = true ∧ (reach (queued (descOf 1 1) true) hst (pgQc 3)).qEn 3 = true)
    ∧ (let s := queued (descOf 1 1) true
       s.fwUp = true ∧ s.nextQueue = some 3 ∧ s.mayFetch 3 = true ∧ (headRead s).2 = .data (descOf 1 1) ∧ ((headRead s).1.queue 3).cmds = [])
    ∧ (match (headRead (queued (descOf 1 1) false)).2 with | .data _ => false | _ => true) = true ∧ (queued (descOf 1 1) false).nextQueue = some 3
    ∧ (cmdOpcodes.contains (parseCmd 3 1 0 (descOf 0x55 1)).opc = false ∧ cmdOpcodes.contains (parseCmd 3 1 0 (descOf 1 1)).opc = true
      ∧ cmdQueue0 (parseCmd 3 1 0 (descOf 1 1)).opc = false ∧ (parseCmd 3 1 0 (descOf 1 1)).bad = none ∧ (parseCmd 3 1 0 (descOf 1 9)).bad.isSome = true
      ∧ cmdOpcodes.any cmdQueue0 = true ∧ (queued (descOf 1 1) true).cmdBusy (parseCmd 3 1 0 (descOf 1 1)) = false)
    ∧ (let s := running3 (descOf 1 1) true
       s.qErr 3 = false ∧ (s.queue 3).cmds = [started3 (descOf 1 1)] ∧ (complete3 s).2 = .done ∧ s.viral = false ∧ ((complete3 s).1.queue 3).cmds = []
        ∧ (s.setReg (pgQc 3) Reg.QC_STAT 2).qErr 3 = true)
    ∧ (complete3 (running3 (descOf 1 1) false)).2 ≠ .done := by
  unfold State.NoAborts State.NoRecords; and_intros <;> decide +kernel
/-! ## Hypotheses that states meet: the firmware's commands and the fabric -/

/-- A command of queue 3 with parameters, started. -/
def cmd3 (opc dlen : Nat) (ps : List Nat) : Cmd :=
  { parseCmd 3 1 0 (leBytes 2 opc ++ leBytes 2 1 ++ leBytes 4 77 ++ leBytes 8 0x9000 ++ leBytes 4 dlen ++ leBytes 4 0 ++ ps.flatMap (fun n => leBytes 4 n)
      ++ leBytes 40 0) with started := true }
/-- The machine that runs it. -/
def runsCmd (c : Cmd) : State := (queued (descOf 1 1) true).modQueue 3 (fun y => { y with cmds := [c] })
/-- The opcodes of the command set. -/
def opcodes : List Nat := [0, 1, 2, 3, 0x200, 0x201, 0x202, 0x100, 0x101, 0x102, 0x103, 0x300, 0x301, 0x302, 0x303, 0x400, 0x401, 0x402, 0x403, 0x500, 0x501,
  0x502, 0x600, 0x601, 0x602, 0x700, 0x701]

/-- Images, recipes and tokens verify or fail by free values (log 7): those clauses have no evaluated witness. -/
theorem test_hyp_FirmwareCommands :
    (∀ o ∈ opcodes, State.reset.RunsNone 3 o ∧ (runsCmd (cmd3 o 0 [])).Runs 3 o (cmd3 o 0 []))
    ∧ (let s := (runsCmd (cmd3 0x200 0 [])).setReg pgRst Reg.RST_BRG_STAT 2
       s.bridgeTrains = true ∧ s.NoAborts ∧ (runsCmd (cmd3 0x200 0 [])).bridgeTrains = false
        ∧ (runsCmd { cmd3 2 0 [1] with waits := true }).Runs 3 2 { cmd3 2 0 [1] with waits := true })
    -- axes
    ∧ ((cmd3 0x200 0 []).par2 0 % 2 ^ 48 = 0 ∧ (cmd3 0x200 0 [64]).par2 0 % 2 ^ 48 = 2 ^ (6 : Fin 48).val)
    ∧ (let s := runsCmd (cmd3 0x200 0 [64])
       s.axisOpen 1 = true ∧ s.safeCaused 1 = false ∧ s.rbit (pgPwg0 1) Reg.PAGE_LOCK 0 = false ∧ (off s 71).axisOpen 1 = false
        ∧ (s.setReg (pgPwg0 1) Reg.PWG_SAFE_CAUSE 1).safeCaused 1 = true ∧ (s.setReg (pgPwg0 1) Reg.PAGE_LOCK 1).rbit (pgPwg0 1) Reg.PAGE_LOCK 0 = true
        ∧ (∃ j : Fin 18, j ∈ axisCh 0 ∧ s.rbit (pgPwg0 1) (Reg.PWG_CH_CTL j) 0 = false)
        ∧ (∃ j : Fin 18, j ∈ axisCh 0 ∧ (s.setReg (pgPwg0 1) (Reg.PWG_CH_CTL 0) 1).rbit (pgPwg0 1) (Reg.PWG_CH_CTL j) 0 = true))
    -- resets
    ∧ ((cmd3 2 0 [2]).waits = false ∧ 2 ≤ ((cmd3 2 0 [2]).par 0).toNat ∧ ((cmd3 2 0 [1]).par 0).toNat < 2)
    -- recipes and activation
    ∧ ((runsCmd (cmd3 0x100 64 [3])).haveDram = true ∧ ((List.range 148).foldl off (runsCmd (cmd3 0x100 64 [3]))).haveDram = false)
    ∧ (let c := cmd3 0x100 64 [3]
       let s := runsCmd c
       (s.cmd.lib[c.slot]).state ≠ 3 ∧ (s.cmd.lib[c.slot]).state ≠ 4 ∧ (s.bufRead c c.dlen).2 = some (List.replicate 64 0) ∧ headerOk (List.replicate 64 0) = false
        ∧ ((s.cxlDown).bufRead c c.dlen).2 = none ∧ ((s.modLib 3 (fun y => { y with state := 3 })).cmd.lib[c.slot]).state = 3
        ∧ (s.recipeFault c.slot).isSome = true
        ∧ (s.stageFault (cmd3 0x102 64 [3, 5, 0]) (s.libBytes c.slot)).isSome = true)
    ∧ (let c := cmd3 0x102 64 [3, 5, 0]
       let s := runsCmd c
       (s.cmd.lib[c.slot]).state ≠ 2 ∧ ((s.modLib 3 (fun y => { y with state := 2 })).cmd.lib[c.slot]).state = 2 ∧ c.waits = false ∧ s.cmd.staged = none)
    ∧ (let a : Staged := ⟨2, 3, 4, 0, none⟩
       let s := (State.reset.modCmd (fun u => { u with staged := some a })).modCar 2 (fun y => { y with ticked := true, tickMfn := 3 })
       s.cmd.staged = some a ∧ a.mask.getLsbD (2 : Fin 8) = true ∧ a.done.getLsbD (2 : Fin 8) = false ∧ (s.car 2).ticked = true ∧ a.mfn ≤ (s.car 2).tickMfn.toNat
        ∧ s.NoAborts ∧ a.done &&& a.mask ≠ a.mask ∧ (4 : BitVec 8) &&& a.mask = a.mask ∧ s.fwUp = false ∧ (s.setReg pgRst Reg.RST_BOOT 6).fwUp = true ∧ s.bridgeTrains = false)
    -- trace
    ∧ (let c := cmd3 0x300 256 [0x8000, 0, 16, 255, 3]
       let s := runsCmd c
       isHostMem (bufAddr (c.par2 0)) = true ∧ isHostMem (bufAddr (c.par2 0) + 2 ^ (c.par 2).toNat - 1) = true ∧ s.domOn 147 = true ∧ (off s 147).domOn 147 = false
        ∧ s.tracing = false ∧ isHostMem (bufAddr ((cmd3 0x300 256 [0xFFFF8000, 0x80000000, 16]).par2 0)) = false)
    ∧ (let s := (runsCmd (cmd3 0x301 0 [])).modTrace (fun _ => ⟨true, hostBase + 0x8000, 16, 255, 2, 2, 0, 5, none, none, 0, 0⟩)
       s.tracing = true ∧ s.trace.trig = none ∧ s.trace.kind = 2 ∧ s.trace.arg ≤ s.time.mfn.toNat ∧ s.trace.post ≠ 0)
    -- flash
    ∧ (let c := cmd3 0x400 32 [1, 0x400000]
       let s := runsCmd c
       s.bankOn c.bank = true ∧ s.flash[c.bank].op = 0 ∧ s.flsWritable c.bank (c.par 1).toNat c.dlen = false
        ∧ s.flsWritable c.bank 0x100 c.dlen = true ∧ (s.bufRead c c.dlen).2 = some (List.replicate 32 0)
        ∧ (off s 141).bankOn c.bank = false ∧ (s.modBank c.bank (fun f => { f with op := 2 })).flash[c.bank].op ≠ 0
        ∧ s.flsWritable c.bank 0 (sectorSize c.bank 0) = true ∧ 256 < ((cmd3 0x401 0 [1, 0, 257]).par 2).toNat ∧ s.flash[c.bank].susp = none)
    ∧ ((cmd3 0x403 0 [0]).par 0 = 0 ∧ (cmd3 0x403 0 [1]).par 0 = 1 ∧ (runsCmd (cmd3 0x403 0 [1])).runSlot = 1
      ∧ ((runsCmd (cmd3 0x403 0 [1])).setReg pgRst Reg.RST_BOOT 0x16).runSlot ≠ 1 ∧ State.reset.imageFault (List.replicate 0x210 0) (imgSize false) = 1)
    -- security
    ∧ (let c := cmd3 0x501 1000 [1]
       let s := runsCmd c
       (s.reportHead c).length + 96 ≤ c.dlen ∧ s.sec.signing = none ∧ (s.setReg pgSec Reg.SEC_LC 5).keyOk = true ∧ s.keyOk = false
        ∧ ((s.modSec (fun y => { y with signing := some 5 })).sec.signing.isSome = true) ∧ s.sec.signed = false ∧ (s.modSec (fun y => { y with signed := true })).sec.signed = true ∧ (cmd3 0x501 0 []).dlen < (s.reportHead (cmd3 0x501 0 [])).length + 96)
    ∧ (lcAllowed State.reset.lifecycle 2 = true ∨ lcAllowed State.reset.lifecycle 1 = true)
    -- fabric and power
    ∧ (let s := runsCmd (cmd3 0x600 0 [1]); s.fab.disc = none ∧ s.fab.result = none)
    ∧ (let c := cmd3 0x700 0 [0x000, 0xFFFF]
       let s := runsCmd c
       s.power.busy = none ∧ s.power.queue = [] ∧ c.prog < 7 ∧ c.par c.prog ≠ 0xFFFF ∧ s.domState (bitsOf (c.par c.prog) 7 0) ≠ bitsOf (c.par c.prog) 9 8
        ∧ s.domRefusal (bitsOf (c.par c.prog) 7 0) (bitsOf (c.par c.prog) 9 8) = none
        ∧ (s.pwrRequest (bitsOf (c.par c.prog) 7 0) (bitsOf (c.par c.prog) 9 8)).power.busy.isSome = true
        ∧ s.domState 64 ≠ 0 ∧ (s.domRefusal 64 0).isSome = true ∧ (moving 0 3 []).power.busy.isSome = true) := by
  unfold State.NoAborts State.Runs State.RunsNone; and_intros <;> decide +kernel

/-- The device at address 5 of a fabric, its time parent at port 1, a child at port 2. -/
def fabric : State :=
  ((((((State.reset.strLinkUp 1 7 2).strLinkUp 2 9 0).setReg pgStr Reg.STR_STAT (w32 (5 + 512 + 4096))).setReg pgStr (Reg.STR_RT 7) 0x121).setReg pgStr Reg.STR_CTL 0xA02)).modFab
    (fun x => { x with links := [⟨5, 1, 7, 2⟩, ⟨5, 2, 9, 0⟩], delay := x.delay.set 1 (some 1000), stop := some (4, 2, 1000)
                       tc2 := [⟨.host, 0, 7, 3, 0, 4, none, 1, 1000, none⟩] })
/-- Cyclic slot 2 receives from 7 and sends to 7. -/
def slots : State :=
  ((((fabric.setReg pgStr (Reg.STR_RX_CFG 2) 0x30701).setReg pgStr (Reg.STR_RX_DST_LO 2) 0x1000000).setReg pgStr (Reg.STR_TX_CFG 2) 0x10030701).setReg pgStr
    (Reg.STR_TX_SRC_LO 2) 0x1000000)
/-- A discovery that probes port 1 of device 5. -/
def probing (todo : List (Nat × Nat)) (next : Nat) : State :=
  fabric.modFab (fun x => { x with disc := some ⟨todo, some (5, 1, 900), next, 0⟩, devs := [⟨1, 0, 0, 15, 3⟩, ⟨5, 1, 1, 0, 4⟩] })

theorem test_hyp_StringFabric :
    -- links
    (State.reset.domOn (120 + (1 : Fin 4).val) = true ∧ State.reset.portUp 1 = false ∧ State.reset.canonical = true ∧ State.reset.NoAborts ∧ State.reset.NoRecords
      ∧ (off State.reset 121).domOn (120 + (1 : Fin 4).val) = false)
    ∧ (fabric.portUp 1 = true ∧ fabric.canonical = true ∧ fabric.parentPort = 1 ∧ (fabric.setReg pgStr Reg.STR_STAT (w32 (5 + 512 + 4096 * 2))).parentPort ≠ 1)
    -- frames
    ∧ (frameClass .stop = 0 ∧ (head 0 255 3).tc = frameClass .stop ∧ (head 0 255 3).good = true ∧ fabric.isNew ((head 0 255 3).frame .stop) = true
      ∧ fabric.rbit pgStr Reg.STR_CTL 1 = true ∧ (fabric.setReg pgStr Reg.STR_CTL 0xA00).rbit pgStr Reg.STR_CTL 1 = false ∧ fabric.NoRecords ∧ fabric.NoAborts
      ∧ (fabric.markSeen ((head 0 255 3).frame .stop)).isNew ((head 0 255 3).frame .stop) = false)
    ∧ ({ head 2 5 3 with good := false }.tc = 2 ∧ { head 2 5 3 with good := false }.good = false)
    -- stops
    ∧ (reachB fabric m0 pgStr = true ∧ (reach fabric m0 pgStr).NoRecords ∧ (0x1C3 : Word) &&& 0x1FF = 0x1C3 ∧ (0x1C2 : Word) &&& 0x1FF ≠ 0x1C3)
    ∧ (fabric.fab.stop = some (4, 2, 1000) ∧ State.reset.fab.stop = none)
    -- time
    ∧ ((head 0 5 3).tc = frameClass (.delay none) ∧ (head 0 5 3).tc = frameClass (.delay (some 9)) ∧ fabric.fab.delay[(1 : Fin 4)] = some 1000
      ∧ fabric.fab.delay[(2 : Fin 4)] = none ∧ fabric.portUp 2 = true)
    ∧ ((head 0 255 3).tc = frameClass (.sync 0 0 0 0 0 0 0) ∧ fabric.src ≠ 1 ∧ (fabric.setReg pgDtb Reg.DTB_CTL 1).src = 1 ∧ fabric.carRun = false
      ∧ fabric.isRoot = false ∧ (fabric.setReg pgStr Reg.STR_STAT (w32 (1 + 256 + 512 + 4096 * 15))).isRoot = true)
    -- lost links
    ∧ (let f := (head 0 255 3).frame (.linkdown ⟨5, 1, 7, 2⟩)
       (head 0 255 3).tc = frameClass (.linkdown ⟨5, 1, 7, 2⟩) ∧ fabric.isNew f = true ∧ (fabric.markSeen f).isNew f = false)
    ∧ (let s := ({ fabric.setReg pgDtb Reg.DTB_CTL 1 with time := { fabric.time with reacq := true } } : State)
       fabric.parentPort = 1 ∧ s.src = 1 ∧ s.time.reacq = true ∧ s.time.loadPend = false ∧ s.bridgeIsDown = false ∧ s.bridgeTrains = false)
    ∧ (fabric.fab.delayAt[(1 : Fin 4)] = none ∧ (fabric.modFab (fun y => { y with delayAt := y.delayAt.set 1 (some 7) })).fab.delayAt[(1 : Fin 4)] = some 7)
    -- cyclic data
    ∧ (let g := slots.reg pgStr (Reg.STR_RX_CFG 2)
       let a := (slots.reg pgStr (Reg.STR_RX_DST_LO 2)).toNat / 16 * 16 + slots.fld pgStr (Reg.STR_RX_DST_HI 2) 13 0 * 2 ^ 32
       (head 1 5 3).tc = frameClass (.cyclic 3 0 []) ∧ slots.fabAddr = 5 ∧ bitOf g 0 = true ∧ bitsOf g 15 8 = (head 1 5 3).src ∧ bitsOf g 23 16 = 3
        ∧ (∀ r : Fin 16, r ≠ 2 → bitOf (slots.reg pgStr (Reg.STR_RX_CFG r)) 0 = false) ∧ (cyclicMem a 80 && slots.cyclicOn a) = true
        ∧ (cyclicMem 0x900000 80 && slots.cyclicOn 0x900000) = false)
    ∧ (fabric.txDue 2 = none ∧ (slots.txDue 2).isSome = true ∧ slots.canonical = true
      ∧ bitsOf (slots.reg pgStr (Reg.STR_TX_CFG 2)) 15 8 ≠ 255
      ∧ ((slots.advance ((slots.txDue 2).getD 0)).eccRead .fabric 0x1000000 (txLen (slots.reg pgStr (Reg.STR_TX_CFG 2)))).2 = false)
    -- remote windows
    ∧ ((head 2 5 3).tc = frameClass (.write 0 []) ∧ (head 2 5 3).tc = frameClass (.read 0 4) ∧ (head 2 5 3).tc = frameClass (.resp true [])
      ∧ (head 2 5 3).dst = fabric.fabAddr ∧ (head 2 7 3).dst ≠ fabric.fabAddr)
    ∧ (fabric.fab.tc2 = [⟨.host, 0, 7, 3, 0, 4, none, 1, 1000, none⟩] ∧ (head 2 5 3).seq = 3 ∧ (head 2 5 3).src = 7 ∧ fabric.fab.tc2[1]? = none
      ∧ (fabric.fab.tc2.map (fun r => (r.seq, r.dst, r.ans.isNone, r.tries)) = [(3, 7, true, 1)]))
    ∧ (let u := fabric.setReg pgStr Reg.STR_EXP_LO 0x00000001
       let v := fabric.setReg pgStr Reg.STR_EXP_LO 0x01000001
       u.rbit pgStr Reg.STR_EXP_LO 0 = true ∧ (u.expOk u.expBase = false ∨ v.expOk v.expBase = false) ∧ (u.expOk u.expBase = true ∨ v.expOk v.expBase = true))
    -- discovery
    ∧ ((head 2 0 3).tc = frameClass (.disc 1) ∧ (head 2 5 3).dst = fabric.fabAddr ∧ fabric.fabAddr ≠ 0 ∧ (head 2 7 3).dst ≠ 0 ∧ (head 2 7 3).dst ≠ 255)
    ∧ ((∀ q : Fin 64, fabric.cmd.queues[q].cmds = []) ∧ (head 2 5 3).tc = frameClass (.discr 0 0 0 false false 0) ∧ fabric.fab.disc = none
      ∧ ((probing [(5, 2)] 7).fab.disc = some ⟨[(5, 2)], some (5, 1, 900), 7, 0⟩) ∧ (1 : Nat) ≠ 9 ∧ (250 ≤ 250 ∧ 250 < 251) ∧ (probing [] 7).canonical = true)
    ∧ ((head 2 5 3).tc = frameClass (.topo 0 0 0 0 [] []) ∧ State.reset.fabAddr = 0) := by
  unfold State.NoAborts State.NoRecords; and_intros <;> decide +kernel
/-! ## Worked examples and boundary values, each a single command -/

/-- The cells that an instruction of engine 0 leaves, `T0` last as the specification writes stacks. -/
def cellsAfter (i : Instr) (s : State) : List Word :=
  match exec i s with
  | .next t => (t.core (.ce 0)).cur.cells.reverse.map (fun x => x.val)
  | _ => []
/-- `cellsAfter` from given operands. -/
def leaves (i : Instr) (vs : List Word) : List Word := cellsAfter i (run (.ce 0) 0x100 3 vs.reverse)
/-- The `FCSR` it leaves. -/
def flags (i : Instr) (vs : List Word) : Option Word :=
  match exec i (run (.ce 0) 0x100 3 vs.reverse) with
  | .next t => some (t.core (.ce 0)).cur.fcsr
  | _ => none
/-- What an AC at M reads from a register after a command. -/
def reads (i : Instr) (s : State) (p : PageId) (off : Nat) : Option Resp :=
  match exec i s with
  | .next t => some (t.regRead (.core (.ac 0)) true p off).resp
  | _ => none

-- R202: 32-bit sums wrap, the order of the operands, division's corners, a shift count of 33.
theorem test_add_wraps : leaves (.add (.ce 0)) [0xFFFFFFFF, 2] = [1] := by decide +kernel
theorem test_sub_order : leaves (.sub (.ce 0)) [9, 5, 7] = [9, 0xFFFFFFFE] := by decide +kernel
theorem test_mulh_signed : leaves (.mulh (.ce 0)) [0xFFFFFFFF, 1] = [0xFFFFFFFF] := by decide +kernel
theorem test_mulhu_unsigned : leaves (.mulhu (.ce 0)) [0xFFFFFFFF, 0xFFFFFFFF] = [0xFFFFFFFE] := by decide +kernel
theorem test_div_corners : leaves (.div (.ce 0)) [0x80000000, 0xFFFFFFFF] = [0x80000000]
    ∧ leaves (.div (.ce 0)) [5, 0] = [0xFFFFFFFF] := by and_intros <;> decide +kernel
theorem test_rem_sign : leaves (.rem (.ce 0)) [0xFFFFFFF9, 2] = [0xFFFFFFFF] ∧ leaves (.rem (.ce 0)) [5, 0] = [5] := by
  and_intros <;> decide +kernel
theorem test_shl_count : leaves (.shl (.ce 0)) [3, 33] = [6] := by decide +kernel
theorem test_sar_sign : leaves (.sar (.ce 0)) [0x80000000, 31] = [0xFFFFFFFF] := by decide +kernel
theorem test_clz_zero : leaves (.clz (.ce 0)) [0] = [32] ∧ leaves (.clz (.ce 0)) [1] = [31] := by and_intros <;> decide +kernel
-- The stack effects of the table in Stack and literals.
theorem test_rot_order : leaves (.rot (.ce 0)) [1, 2, 3] = [2, 3, 1] := by decide +kernel
theorem test_roll_2_is_rot : leaves (.roll (.ce 0) 2) [9, 1, 2, 3] = [9, 2, 3, 1] := by decide +kernel
-- The examples of BPERM in Integer, logic and bit fields.
theorem test_bperm_reverses : leaves (.bperm (.ce 0) 0x1B) [0x11223344] = [0x44332211] := by decide +kernel
theorem test_bperm_copies : leaves (.bperm (.ce 0) 0) [0x11223344] = [0x44444444] := by decide +kernel
-- A bit field at the top of the cell, sign-extended (ext [7]); BFI with l = 8.
theorem test_bfx_signed : leaves (.bfx (.ce 0) 0x9C 4) [0x90000000] = [0xFFFFFFF9] := by decide +kernel
theorem test_bfi_field : leaves (.bfi (.ce 0) 8 8) [0xAABBCCDD, 0x111] = [0xAABB11DD] := by decide +kernel
-- R203: saturation, and the one product that saturates.
theorem test_qadd_saturates : leaves (.qadd (.ce 0)) [0x7FFFFFFF, 1] = [0x7FFFFFFF] ∧ flags (.qadd (.ce 0)) [0x7FFFFFFF, 1] = some 0x20 := by
  and_intros <;> decide +kernel
theorem test_qmul_minus_one : leaves (.qmul (.ce 0)) [0x80000000, 0x80000000] = [0x7FFFFFFF]
    ∧ leaves (.qmul (.ce 0)) [0x40000000, 0x40000000] = [0x20000000] := by and_intros <;> decide +kernel
-- The example of building a constant: 1/sqrt 3 by two literals.
theorem test_lit16_or : leaves (.lit16Or (.ce 0) 0xCD3A) [0x3F130000] = [0x3F13CD3A] := by decide +kernel
theorem test_lit16_h : leaves (.lit16H (.ce 0) 0x3F13) [5] = [5, 0x3F130000] := by decide +kernel
-- R204: 1.5 + 0.25; infinity minus infinity is the canonical NaN with NV; conversion rounds to even.
theorem test_fadd_exact : leaves (.fadd (.ce 0)) [0x3FC00000, 0x3E800000] = [0x3FE00000] ∧ flags (.fadd (.ce 0)) [0x3FC00000, 0x3E800000] = some 0 := by
  and_intros <;> decide +kernel
theorem test_fsub_invalid : leaves (.fsub (.ce 0)) [0x7F800000, 0x7F800000] = [0x7FC00000]
    ∧ flags (.fsub (.ce 0)) [0x7F800000, 0x7F800000] = some 0x10 := by and_intros <;> decide +kernel
theorem test_f2i_ties_to_even : leaves (.f2i (.ce 0)) [0x40200000] = [2] ∧ leaves (.f2i (.ce 0)) [0x40600000] = [4]
    ∧ leaves (.f2i (.ce 0)) [0x7FC00000] = [0] := by and_intros <;> decide +kernel
-- R6: data is little-endian. LDBS extends the sign (table of loads). The value is the pending cell's.
/-- Engine 0 at M, with four bytes in its own memory and their address on the stack. -/
def bytes : State := (run (.ce 0) 0x100 3 [0x200]).setBytes (lsramBase 0 + 0x200) [0x80, 0x22, 0x33, 0x44]
/-- The values of the pending results that an instruction of engine 0 leaves. -/
def loads (i : Instr) (s : State) : List (Option Word) :=
  match exec i s with
  | .next t => (t.core (.ce 0)).pend.map (fun x => x.val)
  | _ => []

theorem test_ldw_order : loads (.ldw (.ce 0)) bytes = [some 0x44332280] := by decide +kernel
theorem test_ldbs_extends : loads (.ldbs (.ce 0)) bytes = [some 0xFFFFFF80] := by decide +kernel

-- Table: common page header. Only 0xA5 locks a page (offset 0x1C).
theorem test_page_lock : reads (.registerWrite m0 (pgFrm 1) 0x1C 0xA5 0xFFFFFFFF) State.reset (pgFrm 1) 0x1C = some (.data 1)
    ∧ reads (.registerWrite m0 (pgFrm 1) 0x1C 0xA4 0xFFFFFFFF) State.reset (pgFrm 1) 0x1C = some (.data 0) := by
  and_intros <;> decide +kernel
-- Worked example of the comparators: the threshold word of CMP4 is held as it was written.
theorem test_cmp_threshold : reads (.registerWrite m0 ⟨.cmp, 1⟩ (0x100 + 0x20 * 4 + 4) 0x02000E00 0xFFFFFFFF) State.reset ⟨.cmp, 1⟩ (0x100 + 0x20 * 4 + 4)
    = some (.data 0x02000E00) := by decide +kernel
-- Registers of the time base: one edge of the 1.6 GHz clock passes in a step with nothing to do (log 1).
theorem test_idle_step : (match step State.reset with | .next t => some (t.time.clk, t.pending) | _ => none) = some (State.reset.time.clk + 1, []) := by
  decide +kernel

end Sys2Proof.Tests
end

section
/-! SUPPORT. What the passing of time, events and counters leave, and the sampling state and ADC cores of a cluster under the operations
that change them. Use them by `rw` where `State.advance` has made the state: `simp` passes a change of it by unfolding alone, and the
kernel may then evaluate the count's wrap at 2 ^ 96 on an open term. -/

namespace Sys2Proof.Machine

theorem bitOf_putBits_same (w : Word) {i : Nat} (hi : i < 32) (b : Bool) : bitOf (putBits w i i (b2n b)) i = b := by
  unfold bitOf putBits maskOf
  simp only [BitVec.getLsbD_or, BitVec.getLsbD_and, BitVec.getLsbD_not, BitVec.getLsbD_ofNat, hi, decide_true, Bool.true_and,
    Nat.sub_self, Nat.zero_add, Nat.pow_one, Nat.add_one_sub_one, Nat.one_mul, Nat.testBit_two_pow_self]
  cases b <;> simp [b2n, Nat.testBit_two_pow_self]

/-! ## What time, events and counters leave -/

/-- An event that is raised where a condition holds changes the registers and what the hardware has set, at most. -/
theorem State.raiseIf_frame (s : State) (c : Bool) (p : PageId) (b : Nat) :
    ∃ r h, s.raiseIf c p b = { s with regs := r, hot := h } := by
  unfold State.raiseIf
  split
  · exact ⟨_, _, rfl⟩
  · exact ⟨s.regs, s.hot, rfl⟩

/-- So does an event that is counted. -/
theorem State.count_frame (s : State) (p : PageId) (off hi lo : Nat) :
    ∃ r h, s.count p off hi lo = { s with regs := r, hot := h } := by
  unfold State.count
  split
  · exact ⟨s.regs, s.hot, rfl⟩
  · split <;> exact ⟨_, _, rfl⟩

/-- Time that passes changes the time base beside them: it reaches the instant, if that lies ahead. -/
theorem State.advance_frame (s : State) (t : Nat) :
    ∃ τ r h, s.advance t = { s with time := τ, regs := r, hot := h } ∧ τ.clk = max s.time.clk (t / 16) := by
  unfold State.advance State.edges
  obtain ⟨r, h, e⟩ := State.raiseIf_frame
    { s with time := { s.time.setDtb (s.dtb + (t / Config.stepsPerClk - s.time.clk) * s.inc) with
        clk := s.time.clk + (t / Config.stepsPerClk - s.time.clk) } }
    (decide (2 ^ 96 ≤ s.dtb + (t / Config.stepsPerClk - s.time.clk) * s.inc)) pgDtb 0
  refine ⟨_, r, h, e, ?_⟩
  show s.time.clk + (t / 16 - s.time.clk) = _
  omega

@[simp] theorem State.count_mem (s : State) (p : PageId) (off hi lo : Nat) : (s.count p off hi lo).mem = s.mem := by
  obtain ⟨_, _, e⟩ := s.count_frame p off hi lo; rw [e]
@[simp] theorem State.count_cores (s : State) (p : PageId) (off hi lo : Nat) : (s.count p off hi lo).cores = s.cores := by
  obtain ⟨_, _, e⟩ := s.count_frame p off hi lo; rw [e]
@[simp] theorem State.count_clusters (s : State) (p : PageId) (off hi lo : Nat) : (s.count p off hi lo).clusters = s.clusters := by
  obtain ⟨_, _, e⟩ := s.count_frame p off hi lo; rw [e]
@[simp] theorem State.count_time (s : State) (p : PageId) (off hi lo : Nat) : (s.count p off hi lo).time = s.time := by
  obtain ⟨_, _, e⟩ := s.count_frame p off hi lo; rw [e]
@[simp] theorem State.advance_mem (s : State) (t : Nat) : (s.advance t).mem = s.mem := by
  obtain ⟨_, _, _, e, -⟩ := s.advance_frame t; rw [e]
@[simp] theorem State.advance_cores (s : State) (t : Nat) : (s.advance t).cores = s.cores := by
  obtain ⟨_, _, _, e, -⟩ := s.advance_frame t; rw [e]
@[simp] theorem State.advance_clusters (s : State) (t : Nat) : (s.advance t).clusters = s.clusters := by
  obtain ⟨_, _, _, e, -⟩ := s.advance_frame t; rw [e]
@[simp] theorem State.advance_pairs (s : State) (t : Nat) : (s.advance t).pairs = s.pairs := by
  obtain ⟨_, _, _, e, -⟩ := s.advance_frame t; rw [e]
@[simp] theorem State.advance_free (s : State) (t : Nat) : (s.advance t).free = s.free := by
  obtain ⟨_, _, _, e, -⟩ := s.advance_frame t; rw [e]
@[simp] theorem State.advance_clk (s : State) (t : Nat) : (s.advance t).time.clk = max s.time.clk (t / 16) := by
  obtain ⟨_, _, _, e, hclk⟩ := s.advance_frame t; rw [e]; exact hclk

theorem State.canonical_advance {s : State} (h : s.canonical = true) (t : Nat) : (s.advance t).canonical = true := by
  unfold State.advance State.edges
  refine State.canonical_raiseIf ?_ _ _ _
  exact h

/-! ## Registers that they leave -/

/-- Registers of pages of different kinds lie apart in the register store. -/
theorem regKey_ne_of_kind {p q : PageId} (h : pageKindNo p.kind ≠ pageKindNo q.kind) (o o' : Nat) : regKey p o ≠ regKey q o' := by
  unfold regKey pageBase; omega

/-- So do registers of a page at different offsets. -/
theorem regKey_ne_of_off (p : PageId) {o o' : Nat} (h : o % 4096 ≠ o' % 4096) : regKey p o ≠ regKey p o' := by
  unfold regKey; omega

theorem State.reg_congr {s t : State} (h : t.regs = s.regs) (p : PageId) (o : Nat) : t.reg p o = s.reg p o := by
  unfold State.reg; rw [h]

theorem State.reg_stick_other (s : State) {p q : PageId} {off o : Nat} (i : Nat) (h : regKey q o ≠ regKey p off) :
    (s.stick p off i).reg q o = s.reg q o := State.reg_setBit_other s p q off o i true h

theorem State.reg_raise_other (s : State) {p q : PageId} {o : Nat} (b : Nat) (h : regKey q o ≠ regKey p Reg.PAGE_IRQ_STAT) :
    (s.raise p b).reg q o = s.reg q o := State.reg_stick_other s b h

theorem State.reg_count_other (s : State) {p q : PageId} {off o : Nat} (hi lo : Nat) (h : regKey q o ≠ regKey p off) :
    (s.count p off hi lo).reg q o = s.reg q o := by
  unfold State.count
  split
  · rfl
  · split
    · exact State.reg_setBit_other s p q off o _ true h
    · exact State.reg_setFld_other s p q off o hi lo _ h

/-- Time that passes changes registers of the time base alone. -/
theorem State.reg_advance (s : State) (t : Nat) {q : PageId} (h : pageKindNo q.kind ≠ 0) (o : Nat) :
    (s.advance t).reg q o = s.reg q o := by
  unfold State.advance State.edges State.raiseIf
  simp only
  split
  · exact State.reg_raise_other _ 0 (regKey_ne_of_kind (q := pgDtb) h _ _)
  · rfl

theorem State.domOn_advance (s : State) (t d : Nat) : (s.advance t).domOn d = s.domOn d := by
  unfold State.domOn State.fld
  rw [State.reg_advance s t (by simp [pgPwr, pageKindNo])]

theorem State.rbit_stick_same {s : State} (h : s.canonical = true) (p : PageId) (off : Nat) {i : Nat} (hi : i < 32) :
    (s.stick p off i).rbit p off i = true := by
  show bitOf ((s.setBit p off i true).reg p off) i = true
  rw [State.reg_setBit_same h, bitOf_putBits_same _ hi]

theorem State.rbit_raise_same {s : State} (h : s.canonical = true) (p : PageId) {b : Nat} (hb : b < 32) :
    (s.raise p b).rbit p Reg.PAGE_IRQ_STAT b = true := State.rbit_stick_same h p _ hb

/-! ## The sampling state and the ADC cores of a cluster -/

theorem State.smp_congr {s t : State} (h : t.clusters = s.clusters) (c : Fin 8) : t.smp c = s.smp c := by
  unfold State.smp; rw [h]

theorem State.adc_congr {s t : State} (h : t.clusters = s.clusters) (c j : Fin 8) : t.adc c j = s.adc c j := by
  unfold State.adc; rw [h]

theorem State.locked_congr {s t : State} (h : t.pairs = s.pairs) (c : CoreId) : t.locked c = s.locked c := by
  unfold State.locked; rw [h]

theorem State.core_congr {s t : State} (h : t.cores = s.cores) (c : CoreId) : t.core c = s.core c := by
  unfold State.core; rw [h]

theorem State.modC_self {s : State} {c : Fin 8} {f : Cluster → Cluster} (h : f s.clusters[c] = s.clusters[c]) : s.modC c f = s := by
  unfold State.modC
  rw [h]
  simp

@[simp] theorem State.smp_modSmp (s : State) (c : Fin 8) (f : Smp → Smp) : (s.modSmp c f).smp c = f (s.smp c) := by
  simp only [State.smp, State.modSmp, State.modC_clusters_get]

@[simp] theorem State.adc_modSmp (s : State) (c j : Fin 8) (f : Smp → Smp) : (s.modSmp c f).adc c j = s.adc c j := by
  simp only [State.adc, State.modSmp, State.modC_clusters_get]

@[simp] theorem State.adc_modAdc (s : State) (c j : Fin 8) (f : AdcCore → AdcCore) : (s.modAdc c j f).adc c j = f (s.adc c j) := by
  simp [State.adc, State.modAdc, State.modC]

@[simp] theorem State.smp_modAdc (s : State) (c j : Fin 8) (f : AdcCore → AdcCore) : (s.modAdc c j f).smp c = s.smp c := by
  simp only [State.smp, State.modAdc, State.modC_clusters_get]

@[simp] theorem State.reg_modSmp (s : State) (c : Fin 8) (f : Smp → Smp) (p : PageId) (o : Nat) :
    (s.modSmp c f).reg p o = s.reg p o := rfl

@[simp] theorem State.reg_modAdc (s : State) (c j : Fin 8) (f : AdcCore → AdcCore) (p : PageId) (o : Nat) :
    (s.modAdc c j f).reg p o = s.reg p o := rfl

@[simp] theorem State.modSmp_modSmp (s : State) (c : Fin 8) (f g : Smp → Smp) :
    (s.modSmp c f).modSmp c g = s.modSmp c (fun m => g (f m)) := by
  simp [State.modSmp, State.modC]

/-- A change that finds the sampling state as it makes it changes nothing. -/
theorem State.modSmp_self {s : State} {c : Fin 8} {f : Smp → Smp} (h : f (s.smp c) = s.smp c) : s.modSmp c f = s :=
  State.modC_self (congrArg (fun m => { s.clusters[c] with smp := m }) h)

theorem State.canonical_modSmp {s : State} (h : s.canonical = true) (c : Fin 8) (f : Smp → Smp) : (s.modSmp c f).canonical = true := h

@[simp] theorem State.domOn_modSmp (s : State) (c : Fin 8) (f : Smp → Smp) (d : Nat) : (s.modSmp c f).domOn d = s.domOn d := rfl

theorem State.canonical_modAdc {s : State} (h : s.canonical = true) (c j : Fin 8) (f : AdcCore → AdcCore) :
    (s.modAdc c j f).canonical = true := h

/-- With no record that waits, none enters the FIFO. -/
theorem State.fifoFlush_nil {s : State} {c : Fin 8} (h : (s.smp c).recs = []) : s.fifoFlush c = s := by
  unfold State.fifoFlush
  rw [h]
  exact State.modSmp_self (by rw [← h])

/-! ## Delivery (R123) -/

/-- A delivery changes the sampling state of its cluster alone. -/
theorem State.deliver_frame (s : State) (c : Fin 8) (mask : Nat) (a : Sample) : ∃ f, s.deliver c mask a = s.modSmp c f := by
  unfold State.deliver
  refine foldl_keeps (P := fun t => ∃ f, t = s.modSmp c f) _ _ _ ⟨id, (State.modSmp_self rfl).symm⟩ ?_
  rintro t i ⟨f, rfl⟩
  split
  · exact ⟨_, State.modSmp_modSmp s c f _⟩
  · exact ⟨f, rfl⟩

theorem State.canonical_deliver {s : State} (h : s.canonical = true) (c : Fin 8) (mask : Nat) (a : Sample) :
    (s.deliver c mask a).canonical = true := by
  obtain ⟨g, hg⟩ := s.deliver_frame c mask a
  rw [hg]
  exact State.canonical_modSmp h c g

/-- The ports that a mask of one bit names. -/
theorem filter_testBit_two_pow : ∀ i : Fin 8, (List.finRange 8).filter (fun k : Fin 8 => (2 ^ i.val).testBit k) = [i] := by decide

/-- What is sent to one port stands on its way to the engine that the port's route names. -/
theorem State.deliver_one (s : State) (c i : Fin 8) (a : Sample) (h : (s.smp c).flight[(s.smp c).route[i]] = []) :
    ((s.deliver c (2 ^ i.val) a).smp c).flight[(s.smp c).route[i]] = [a] := by
  unfold State.deliver
  rw [← List.foldl_filter, filter_testBit_two_pow]
  simp only [List.foldl_cons, List.foldl_nil, State.smp_modSmp, h]
  simp [insertSample]

end Sys2Proof.Machine
end

section
/-! SUPPORT. A sample-table entry acts: its conversion starts, or it is skipped (R121, R127). -/

namespace Sys2Proof.Machine

theorem State.entryAct_idle {s : State} {c : Fin 8} (h : (s.smp c).frame = none ∨ s.tickPer c = none) (e : Fin 64) (level : Int) :
    s.entryAct c e level = s := by
  unfold State.entryAct
  split
  next f per hf hp => rw [hf, hp] at h; simp at h
  next => rfl

/-- The state in which an entry acts: its instant is reached and it counts as having acted. -/
def State.entryActs (s : State) (c : Fin 8) (e : Fin 64) (f : SampFrame) (t : Nat) : State :=
  (s.advance t).modSmp c (fun m => { m with frame := some { f with acted := f.acted ||| (1#64 <<< e.val) } })

section
variable {s : State} {c : Fin 8} {e : Fin 64} {f : SampFrame} {per : Nat} {w w1 : Word}
  (hf : (s.smp c).frame = some f) (hp : s.tickPer c = some per) (he : (s.smp c).entry false e = (w, w1))
include hf hp he

/-- An entry that is off, not selected, done, or of no kind does nothing. -/
theorem State.entryAct_skips (level : Int) (h : entEn w = false ∨ tselOk w f.apex = false ∨ f.acted.getLsbD e = true ∨ 3 < entKind w) :
    s.entryAct c e level = s := by
  unfold State.entryAct
  simp only [hf, hp, he]
  rw [if_pos]
  simpa [or_assoc] using h

/-- An entry of kind 0 that acts goes to its ADC core. -/
theorem State.entryAct_adc (level : Int) (hen : entEn w = true) (hsel : tselOk w f.apex = true) (hact : f.acted.getLsbD e = false)
    (hk : entKind w = 0) : s.entryAct c e level
      = (s.entryActs c e f ((f.tick : Int) + entOffset w1).toNat).actAdc c e w f ((f.tick : Int) + entOffset w1).toNat
          ((s.adcPlan c (s.convCore c (entUnit w))).any (fun d => d.cur && d.entry == e)) level := by
  unfold State.entryAct State.entryActs
  simp only [hf, hp, he]
  rw [if_neg (by rw [hen, hsel, hact, hk]; decide)]
  simp only [hk]

end

theorem State.convCore_own {s : State} {c j : Fin 8} {u : Nat} (h : (s.smp c).subst = none) (hu : u = j) : s.convCore c u = j := by
  unfold State.convCore
  rw [h, hu]
  exact Fin.ext (Nat.mod_eq_of_lt j.isLt)

theorem State.convFinish_idle {s : State} {c j : Fin 8} (h : (s.adc c j).conv = none) (t : Nat) : s.convFinish c j t = s := by
  unfold State.convFinish; rw [h]

section
variable {s : State} {c j : Fin 8} {w : Word} (hs : (s.smp c).subst = none) (hj : entUnit w = j) (hd : s.domOn (65 + 5 * c.val) = true)
  (hc : (s.adc c j).conv = none)
include hs hj hd hc

/-- On an idle core whose time is free the conversion starts. -/
theorem State.actAdc_taken (x : Fin 64) (f : SampFrame) (t : Nat) (level : Int) : s.actAdc c x w f t true level
    = s.draw.modAdc c j (fun a => { a with
        conv := some ⟨t + 4096, t, s.inputCode c j (bitsOf w 23 18) level, f.fcnt, .entry x false, w, s.dtbLo t⟩, busy := t + 4096 }) := by
  unfold State.actAdc
  simp only [State.convCore_own hs hj, State.convFinish_idle hc]
  simp [hd, hj]

/-- On one whose time is not free the entry is dropped and skipped. -/
theorem State.actAdc_dropped (x : Fin 64) (f : SampFrame) (t : Nat) (level : Int) :
    s.actAdc c x w f t false level = (s.convDrop c j).skipEntry c x w f.fcnt (t + 4736) (s.dtbLo t) := by
  unfold State.actAdc
  simp only [State.convCore_own hs hj, State.convFinish_idle hc]
  simp [hd]

end

/-- Whether the only conversion that is due on a core is made depends on its window alone. -/
theorem State.adcPlan_single {s : State} {c j : Fin 8} {d : DueConv} (h : s.dueOn c j = [d]) (hd : d.cur = true) :
    (s.adcPlan c j).any (fun x => x.cur && x.entry == d.entry) = decide (((s.adc c j).busy : Int) ≤ d.opens) := by
  unfold State.adcPlan
  rw [h]
  unfold convTaken
  split
  next hb => simp [hb, hd, convTaken]
  next hb => simp [hb, convTaken]

/-! ## A skipped entry (R127) -/

theorem regKey_adc_ne_smp (c j d : Fin 8) (o o' : Nat) : regKey (pgAdc c j) o ≠ regKey (pgSmp d) o' :=
  regKey_ne_of_kind (by simp [pgAdc, pgSmp, pageKindNo]) o o'

theorem State.canonical_convDrop {s : State} (h : s.canonical = true) (c j : Fin 8) : (s.convDrop c j).canonical = true :=
  State.canonical_raise (State.canonical_count h _ _ _ _) _ _

theorem State.convDrop_clusters (s : State) (c j : Fin 8) : (s.convDrop c j).clusters = s.clusters := State.count_clusters ..
theorem State.convDrop_mem (s : State) (c j : Fin 8) : (s.convDrop c j).mem = s.mem := State.count_mem ..
theorem State.convDrop_cores (s : State) (c j : Fin 8) : (s.convDrop c j).cores = s.cores := State.count_cores ..

/-- A skipped entry that owes the FIFO no record. -/
theorem State.skipEntry_direct (s : State) (c : Fin 8) (x : Fin 64) {w : Word} (hw : bitOf w 10 = false) (fcnt : Word) (t : Nat) (ts : Word) :
    s.skipEntry c x w fcnt t ts = ((s.deliver c (bitsOf w 7 0) ⟨t, x, s.reg (pgSmp c) Reg.SMP_SKIPVAL, fcnt⟩).count
      (pgSmp c) Reg.SMP_SKIP_CNT 15 0).raise (pgSmp c) 2 := by
  unfold State.skipEntry State.skipDeliver
  rw [hw]
  rfl

/-- A skipped entry changes the sampling state of its cluster, and registers of its page. -/
theorem State.skipEntry_frame (s : State) (c j : Fin 8) (x : Fin 64) {w : Word} (hw : bitOf w 10 = false) (fcnt : Word) (t : Nat) (ts : Word) :
    (s.skipEntry c x w fcnt t ts).adc c j = s.adc c j ∧ (s.skipEntry c x w fcnt t ts).mem = s.mem
      ∧ (s.skipEntry c x w fcnt t ts).cores = s.cores
      ∧ ∀ o, (s.skipEntry c x w fcnt t ts).reg (pgAdc c j) o = s.reg (pgAdc c j) o := by
  rw [State.skipEntry_direct s c x hw]
  obtain ⟨g, hg⟩ := s.deliver_frame c (bitsOf w 7 0) ⟨t, x, s.reg (pgSmp c) Reg.SMP_SKIPVAL, fcnt⟩
  rw [hg]
  refine ⟨?_, by simp, by simp, fun o => ?_⟩
  · rw [State.adc_congr (State.raise_clusters _ _ _), State.adc_congr (State.count_clusters _ _ _ _ _), State.adc_modSmp]
  · rw [State.reg_raise_other _ _ (regKey_adc_ne_smp c j c o _), State.reg_count_other _ _ _ (regKey_adc_ne_smp c j c o _), State.reg_modSmp]

/-- `SKIP` is raised. -/
theorem State.skipEntry_event {s : State} (h : s.canonical = true) (c : Fin 8) (x : Fin 64) {w : Word} (hw : bitOf w 10 = false)
    (fcnt : Word) (t : Nat) (ts : Word) : (s.skipEntry c x w fcnt t ts).rbit (pgSmp c) Reg.PAGE_IRQ_STAT 2 = true := by
  rw [State.skipEntry_direct s c x hw]
  exact State.rbit_raise_same (State.canonical_count (State.canonical_deliver h _ _ _) _ _ _ _) _ (by omega)

/-- The value of `SMP_SKIPVAL` is on its way to a port that stands alone in the mask. -/
theorem State.skipEntry_flight {s : State} {c i : Fin 8} (x : Fin 64) {w : Word} (hw : bitOf w 10 = false) (fcnt : Word) (t : Nat) (ts : Word)
    (hm : bitsOf w 7 0 = 2 ^ i.val) (h : (s.smp c).flight[(s.smp c).route[i]] = []) :
    ((s.skipEntry c x w fcnt t ts).smp c).flight[(s.smp c).route[i]] = [⟨t, x, s.reg (pgSmp c) Reg.SMP_SKIPVAL, fcnt⟩] := by
  rw [State.skipEntry_direct s c x hw, State.smp_congr (State.raise_clusters _ _ _), State.smp_congr (State.count_clusters _ _ _ _ _), hm]
  exact State.deliver_one s c i _ h

theorem State.canonical_entryActs {s : State} (h : s.canonical = true) (c : Fin 8) (e : Fin 64) (f : SampFrame) (t : Nat) :
    (s.entryActs c e f t).canonical = true := State.canonical_modSmp (State.canonical_advance h t) c _

/-- The entry's instant leaves the cores' conversions, what is on its way, and the registers of the SMP page. -/
theorem State.entryActs_frame (s : State) (c : Fin 8) (e : Fin 64) (f : SampFrame) (t : Nat) :
    (∀ j, (s.entryActs c e f t).adc c j = s.adc c j) ∧ ((s.entryActs c e f t).smp c).subst = (s.smp c).subst
      ∧ ((s.entryActs c e f t).smp c).flight = (s.smp c).flight ∧ ((s.entryActs c e f t).smp c).route = (s.smp c).route
      ∧ (∀ d, (s.entryActs c e f t).domOn d = s.domOn d) ∧ (s.entryActs c e f t).mem = s.mem ∧ (s.entryActs c e f t).cores = s.cores
      ∧ ∀ o, (s.entryActs c e f t).reg (pgSmp c) o = s.reg (pgSmp c) o := by
  have hs : (s.advance t).smp c = s.smp c := State.smp_congr (s.advance_clusters t) c
  unfold State.entryActs
  refine ⟨fun j => ?_, ?_, ?_, ?_, fun d => ?_, ?_, ?_, fun o => ?_⟩
  · rw [State.adc_modSmp, State.adc_congr (s.advance_clusters t)]
  · rw [State.smp_modSmp, hs]
  · rw [State.smp_modSmp, hs]
  · rw [State.smp_modSmp, hs]
  · rw [State.domOn_modSmp, State.domOn_advance]
  · rw [State.modSmp_mem, State.advance_mem]
  · rw [State.modSmp_cores, State.advance_cores]
  · rw [State.reg_modSmp, State.reg_advance s t (by simp [pgSmp, pageKindNo])]

/-- An entry whose core has no time for it: it counts there, and is skipped (R127). -/
theorem State.dropped_entry {s : State} (h : s.canonical = true) (c j i : Fin 8) (e : Fin 64) (f : SampFrame) {w : Word}
    (hw : bitOf w 10 = false) (t : Nat) :
    let u := ((s.entryActs c e f t).convDrop c j).skipEntry c e w f.fcnt (t + 4736) ((s.entryActs c e f t).dtbLo t)
    u.adc c j = s.adc c j ∧ u.mem = s.mem ∧ u.cores = s.cores
      ∧ u.rbit (pgAdc c j) Reg.PAGE_IRQ_STAT 6 = true ∧ u.rbit (pgSmp c) Reg.PAGE_IRQ_STAT 2 = true
      ∧ (bitsOf w 7 0 = 2 ^ i.val → (s.smp c).flight[(s.smp c).route[i]] = [] →
          (u.smp c).flight[(s.smp c).route[i]] = [⟨t + 4736, e, s.reg (pgSmp c) Reg.SMP_SKIPVAL, f.fcnt⟩]) := by
  obtain ⟨hadc, -, hflight, hroute, -, hmem, hcores, hreg⟩ := s.entryActs_frame c e f t
  have ha := State.canonical_entryActs h c e f t
  generalize s.entryActs c e f t = a at *
  have hcl : (a.convDrop c j).smp c = a.smp c := State.smp_congr (a.convDrop_clusters c j) c
  obtain ⟨kadc, kmem, kcores, kreg⟩ := (a.convDrop c j).skipEntry_frame c j e hw f.fcnt (t + 4736) (a.dtbLo t)
  refine ⟨?_, ?_, ?_, ?_, State.skipEntry_event (State.canonical_convDrop ha c j) c e hw _ _ _, fun hm hq => ?_⟩
  · rw [kadc, State.adc_congr (a.convDrop_clusters c j), hadc]
  · rw [kmem, State.convDrop_mem, hmem]
  · rw [kcores, State.convDrop_cores, hcores]
  · unfold State.rbit
    rw [kreg]
    exact State.rbit_raise_same (State.canonical_count ha _ _ _ _) _ (by omega)
  · have hskip : (a.convDrop c j).reg (pgSmp c) Reg.SMP_SKIPVAL = s.reg (pgSmp c) Reg.SMP_SKIPVAL := by
      unfold State.convDrop
      rw [State.reg_raise_other _ _ (regKey_adc_ne_smp c j c _ _).symm, State.reg_count_other _ _ _ (regKey_adc_ne_smp c j c _ _).symm, hreg]
    have hk := State.skipEntry_flight (s := a.convDrop c j) (c := c) (i := i) e hw f.fcnt (t + 4736) (a.dtbLo t) hm
    simp only [hcl, hflight, hroute, hskip] at hk
    exact hk hq

end Sys2Proof.Machine
end

section
/-! SUPPORT. A conversion ends: its code, its bounds, and its delivery (R116, R117, R123, R145). -/

namespace Sys2Proof.Machine

theorem State.convEnd_none {s : State} {c j : Fin 8} (h : (s.adc c j).conv = none) : s.convEnd c j = s := by
  unfold State.convEnd; rw [h]

/-- A core whose conversion has just ended, at its instant. -/
def State.convOver (s : State) (c j : Fin 8) (t : Nat) : State := (s.advance t).modAdc c j (fun a => { a with conv := none })

theorem State.convOver_frame (s : State) (c j : Fin 8) (t : Nat) :
    (s.convOver c j t).adc c j = { s.adc c j with conv := none } ∧ (s.convOver c j t).time.clk = max s.time.clk (t / 16)
      ∧ (s.convOver c j t).mem = s.mem ∧ (s.convOver c j t).cores = s.cores ∧ (s.convOver c j t).free = s.free
      ∧ (s.convOver c j t).smp c = s.smp c ∧ ∀ o, (s.convOver c j t).reg (pgAdc c j) o = s.reg (pgAdc c j) o := by
  unfold State.convOver
  refine ⟨?_, ?_, ?_, ?_, ?_, ?_, fun o => ?_⟩
  · rw [State.adc_modAdc, State.adc_congr (s.advance_clusters t)]
  · rw [State.modAdc_time, State.advance_clk]
  · rw [State.modAdc_mem, State.advance_mem]
  · rw [State.modAdc_cores, State.advance_cores]
  · rw [State.modAdc_free, State.advance_free]
  · rw [State.smp_modAdc, State.smp_congr (s.advance_clusters t)]
  · rw [State.reg_modAdc, State.reg_advance s t (by simp [pgAdc, pageKindNo])]

theorem State.convEnd_entry {s : State} {c j : Fin 8} {v : Conv} {x : Fin 64} {und : Bool} (h : (s.adc c j).conv = some v)
    (hw : v.why = .entry x und) :
    s.convEnd c j = (s.convOver c j v.endAt).convDeliver c j v x und := by
  unfold State.convEnd State.convOver; rw [h]; simp only [hw]

theorem clampInt_le_hi {lo hi : Int} (h : lo ≤ hi) (i : Int) : clampInt lo hi i ≤ hi := by
  unfold clampInt; split
  · exact h
  · split <;> omega

theorem le_clampInt {lo hi : Int} (h : lo ≤ hi) (i : Int) : lo ≤ clampInt lo hi i := by
  unfold clampInt; split
  · exact Int.le_refl _
  · split <;> omega

theorem correct_lt (raw : BitVec 16) (ofs : Int) (gain : Nat) : correct raw ofs gain < 65536 := by
  unfold correct
  have := clampInt_le_hi (lo := 0) (hi := 65535) (by omega) (((4 * (raw.toNat : Int) - ofs) * gain + 131072) / 262144)
  dsimp only
  omega

theorem State.adcCode_lt (s : State) (c j : Fin 8) (n : BitVec 16) (t : Nat) : s.adcCode c j n t < 65536 := by
  unfold State.adcCode
  dsimp only
  split
  · exact BitVec.isLt _
  · split
    · exact correct_lt _ _ _
    · exact Int.toNat_lt' (by omega) |>.2 (lt_of_le_of_lt (clampInt_le_hi (by omega) _) (by omega))

/-- Without correction the code is the raw one. -/
theorem State.adcCode_raw {s : State} {c j : Fin 8} (h : s.rbit (pgAdc c j) Reg.ADC_CTL 0 = false) (n : BitVec 16) (t : Nat) :
    s.adcCode c j n t = (Config.adcRaw n s.free).toNat := by
  unfold State.adcCode; simp [h]

/-- With the factory's correction the code lies within the converter's bound and its noise. -/
theorem State.adcCode_bounds {s : State} {c j : Fin 8} (h : s.rbit (pgAdc c j) Reg.ADC_CTL 0 = true) (ho : (s.adc c j).own = false)
    (n : BitVec 16) (t : Nat) :
    s.adcCode c j n t ≤ n.toNat + adcBound n.toNat + 24 ∧ n.toNat ≤ s.adcCode c j n t + adcBound n.toNat + 24 := by
  unfold State.adcCode
  simp only [h, ho, Bool.not_true, Bool.false_eq_true, if_false, adcNoise]
  generalize (correct _ _ _ : Nat) = k
  generalize clampInt (-(adcBound n.toNat : Int)) (adcBound n.toNat) (Config.adcShared c n t) + _ = x
  have hn := n.isLt
  have hb1 := clampInt_le_hi (lo := -(adcBound n.toNat : Int)) (hi := adcBound n.toNat) (by omega) x
  have hb2 := le_clampInt (lo := -(adcBound n.toNat : Int)) (hi := adcBound n.toNat) (by omega) x
  generalize clampInt (-(adcBound n.toNat : Int)) (adcBound n.toNat) x = dev at *
  have hc1 := clampInt_le_hi (lo := n.toNat + dev - 24) (hi := n.toNat + dev + 24) (by omega) k
  have hc2 := le_clampInt (lo := n.toNat + dev - 24) (hi := n.toNat + dev + 24) (by omega) k
  generalize clampInt (n.toNat + dev - 24) (n.toNat + dev + 24) k = y at *
  unfold clampInt
  split_ifs <;> omega

/-- `ADC_LAST` shows the code in its low half. -/
theorem bitsOf_adcLast {code : Nat} (h : code < 65536) (x : Fin 64) (und : Bool) :
    bitsOf (w32 (code + x.val * 65536 + b2n und * 2 ^ 23)) 15 0 = code := by
  unfold bitsOf w32 b2n
  have := x.isLt
  cases und <;> simp <;> omega

/-- A core that has drawn a code and shows it in `ADC_LAST`, with the entry that it converted. -/
def State.showsCode (s : State) (c j : Fin 8) (code : Nat) (x : Fin 64) (und : Bool) : State :=
  s.draw.setReg (pgAdc c j) Reg.ADC_LAST (w32 (code + x.val * 65536 + b2n und * 2 ^ 23))

theorem State.convDeliver_direct (s : State) (c j : Fin 8) {v : Conv} (hw : bitOf v.word0 10 = false) (x : Fin 64) (und : Bool) :
    s.convDeliver c j v x und = (s.showsCode c j (s.adcCode c j v.nominal v.tS) x und).deliver c (bitsOf v.word0 7 0)
      ⟨v.tS + 4736, x, sampleCell (entFmt v.word0) x v.frame (s.adcCode c j v.nominal v.tS), v.frame⟩ := by
  unfold State.convDeliver
  rw [hw]
  rfl

/-- What it shows is the code. -/
theorem State.showsCode_last {s : State} (h : s.canonical = true) (c j : Fin 8) {code : Nat} (hcode : code < 65536) (x : Fin 64) (und : Bool) :
    bitsOf ((s.showsCode c j code x und).reg (pgAdc c j) Reg.ADC_LAST) 15 0 = code := by
  have hd : s.draw.canonical = true := State.canonical_congr h rfl rfl rfl
  unfold State.showsCode
  rw [State.reg_setReg_same hd, bitsOf_adcLast hcode]

/-- What a conversion without a record delivers: its code stands in `ADC_LAST` and is on its way to the ports of its mask. -/
theorem State.convDeliver_frame {s : State} (h : s.canonical = true) (c j i : Fin 8) {v : Conv} (hw : bitOf v.word0 10 = false) (x : Fin 64)
    (und : Bool) :
    let t := s.convDeliver c j v x und
    t.adc c j = s.adc c j ∧ t.time = s.time ∧ t.mem = s.mem ∧ t.cores = s.cores ∧ t.free = s.free + 1
      ∧ bitsOf (t.reg (pgAdc c j) Reg.ADC_LAST) 15 0 = s.adcCode c j v.nominal v.tS
      ∧ (bitsOf v.word0 7 0 = 2 ^ i.val → (s.smp c).flight[(s.smp c).route[i]] = [] →
          (t.smp c).flight[(s.smp c).route[i]]
            = [⟨v.tS + 4736, x, sampleCell (entFmt v.word0) x v.frame (s.adcCode c j v.nominal v.tS), v.frame⟩]) := by
  have hlast := State.showsCode_last h c j (s.adcCode_lt c j v.nominal v.tS) x und
  rw [State.convDeliver_direct s c j hw]
  generalize s.adcCode c j v.nominal v.tS = code at *
  have hone := State.deliver_one (s.showsCode c j code x und) c i ⟨v.tS + 4736, x, sampleCell (entFmt v.word0) x v.frame code, v.frame⟩
  obtain ⟨g, hg⟩ := (s.showsCode c j code x und).deliver_frame c (bitsOf v.word0 7 0)
    ⟨v.tS + 4736, x, sampleCell (entFmt v.word0) x v.frame code, v.frame⟩
  refine ⟨?_, ?_, ?_, ?_, ?_, ?_, fun hm hq => by rw [hm]; exact hone hq⟩ <;> rw [hg]
  · rw [State.adc_modSmp]; rfl
  · rfl
  · rfl
  · rfl
  · rfl
  · rw [State.reg_modSmp, hlast]

/-- A conversion ends: its code, within its bounds, is on its way to its ports (R116, R117, R123). -/
theorem State.convEnd_delivers {s : State} (h : s.canonical = true) {c j i : Fin 8} {e : Fin 64} {v : Conv} {und : Bool}
    (hv : (s.adc c j).conv = some v) (hwhy : v.why = .entry e und) (hw : bitOf v.word0 10 = false) :
    let t := s.convEnd c j
    t.adc c j = { s.adc c j with conv := none } ∧ t.time.clk = max s.time.clk (v.endAt / 16)
      ∧ t.mem = s.mem ∧ t.cores = s.cores ∧ t.free = s.free + 1
      ∧ (let code := bitsOf (t.reg (pgAdc c j) Reg.ADC_LAST) 15 0
         (s.rbit (pgAdc c j) Reg.ADC_CTL 0 = false → code = (Config.adcRaw v.nominal s.free).toNat)
         ∧ (s.rbit (pgAdc c j) Reg.ADC_CTL 0 = true → (s.adc c j).own = false →
             code ≤ v.nominal.toNat + adcBound v.nominal.toNat + 24 ∧ v.nominal.toNat ≤ code + adcBound v.nominal.toNat + 24)
         ∧ (bitsOf v.word0 7 0 = 2 ^ i.val → (s.smp c).flight[(s.smp c).route[i]] = [] →
             (t.smp c).flight[(s.smp c).route[i]] = [⟨v.tS + 4736, e, sampleCell (entFmt v.word0) e v.frame code, v.frame⟩])) := by
  have ha : (s.convOver c j v.endAt).canonical = true := State.canonical_modAdc (State.canonical_advance h v.endAt) c j _
  obtain ⟨hadc, hclk, hmem, hcores, hfree, hsmp, hreg⟩ := s.convOver_frame c j v.endAt
  rw [State.convEnd_entry hv hwhy]
  generalize s.convOver c j v.endAt = a at *
  obtain ⟨kadc, ktime, kmem, kcores, kfree, kcode, kflight⟩ := State.convDeliver_frame ha c j i hw e und
  have hctl : a.rbit (pgAdc c j) Reg.ADC_CTL 0 = s.rbit (pgAdc c j) Reg.ADC_CTL 0 := by unfold State.rbit; rw [hreg]
  refine ⟨kadc.trans hadc, by rw [ktime, hclk], kmem.trans hmem, kcores.trans hcores, by rw [kfree, hfree], ?_⟩
  simp only [kcode]
  refine ⟨fun hc => ?_, fun hc ho => ?_, ?_⟩
  · rw [State.adcCode_raw (hctl.trans hc), hfree]
  · exact State.adcCode_bounds (hctl.trans hc) (by rw [hadc]; exact ho) _ _
  · simpa only [hsmp] using kflight

end Sys2Proof.Machine
end

section
/-! SUPPORT. A result reaches its sample port, and a record leaves the result FIFO (R21, R123, R128, R131, R213). -/

namespace Sys2Proof.Machine

/-! ## A result reaches its port (R21, R123, R213) -/

theorem State.portArrive_frame (s : State) (c i : Fin 8) (a : Sample) :
    (s.portArrive c i a).mem = s.mem ∧ (s.portArrive c i a).time = s.time ∧ (s.portArrive c i a).clusters = s.clusters := by
  unfold State.portArrive
  dsimp only
  split
  · exact ⟨rfl, rfl, rfl⟩
  · split
    · simp [State.countLeft]
    · split
      · simp
      · split <;> simp

section
variable {s : State} {c i : Fin 8} {a : Sample} (hd : s.domOn (engineOf c i) = true) (hl : s.locked (.ce (engineOf c i)) = false)
include hd hl

/-- A result of a frame whose foreground has ended is lost and counted (R57). -/
theorem State.portArrive_left (he : (s.core (.ce (engineOf c i))).fgEnded = true) (hf : (s.core (.ce (engineOf c i))).fgFcnt = a.frame) :
    s.portArrive c i a = s.count (pgFrm c) (Reg.FRM_CE_STAT i) 15 8 := by
  unfold State.portArrive
  simp [coreDomain, hd, hl, he, hf, State.countLeft]

/-- Any other fills the WAITS that waits in the foreground, else joins the queue, else is lost. -/
theorem State.portArrive_open (h : (s.core (.ce (engineOf c i))).fgEnded = false ∨ (s.core (.ce (engineOf c i))).fgFcnt ≠ a.frame) :
    s.portArrive c i a =
      if (s.core (.ce (engineOf c i))).waiting && (s.core (.ce (engineOf c i))).ctx == .fg then
        s.modCore (.ce (engineOf c i)) (fun k => { k with replay := replayAdd a k.replay, pend := fillWaits a.cell k.pend })
      else if 16 ≤ (s.core (.ce (engineOf c i))).spq.length then
        ((s.stick (pgSmp c) Reg.SMP_SPOVF_CE i).count (pgSmp c) Reg.SMP_SPOVF_CNT 15 0).raise (pgSmp c) 3
      else s.modCore (.ce (engineOf c i)) (fun k => { k with replay := replayAdd a k.replay, spq := k.spq ++ [a] }) := by
  have hne : ((s.core (.ce (engineOf c i))).fgEnded && (s.core (.ce (engineOf c i))).fgFcnt == a.frame) = false := by
    rcases h with h | h <;> simp [h]
  unfold State.portArrive
  simp [coreDomain, hd, hl, hne]

end

theorem State.portNext_nil {s : State} {c i : Fin 8} (h : (s.smp c).flight[i] = []) : s.portNext c i = s := by
  unfold State.portNext; rw [h]

/-- The state in which a result, the first of those on their way to a port, arrives. -/
def State.portTakes (s : State) (c i : Fin 8) (t : Nat) (l : List Sample) : State :=
  (s.advance t).modSmp c (fun m => { m with flight := m.flight.set i l })

theorem State.portTakes_frame (s : State) (c i : Fin 8) (t : Nat) (l : List Sample) :
    (s.portTakes c i t l).mem = s.mem ∧ (s.portTakes c i t l).time.clk = max s.time.clk (t / 16)
      ∧ (∀ d, (s.portTakes c i t l).domOn d = s.domOn d) ∧ (∀ x, (s.portTakes c i t l).locked x = s.locked x)
      ∧ ∀ x, (s.portTakes c i t l).core x = s.core x := by
  unfold State.portTakes
  refine ⟨?_, ?_, fun d => ?_, fun x => ?_, fun x => ?_⟩
  · rw [State.modSmp_mem, State.advance_mem]
  · rw [State.modSmp_time, State.advance_clk]
  · rw [State.domOn_modSmp, State.domOn_advance]
  · exact State.locked_congr ((State.modSmp_pairs _ _ _).trans (s.advance_pairs t)) x
  · exact State.core_congr ((State.modSmp_cores _ _ _).trans (s.advance_cores t)) x

theorem State.canonical_portTakes {s : State} (h : s.canonical = true) (c i : Fin 8) (t : Nat) (l : List Sample) :
    (s.portTakes c i t l).canonical = true := State.canonical_modSmp (State.canonical_advance h t) c _

/-- The next result leaves its way and reaches its port. -/
theorem State.portNext_cons {s : State} {c i : Fin 8} {a : Sample} {l : List Sample} (h : (s.smp c).flight[i] = a :: l)
    (hr : (s.smp c).recs = []) :
    s.portNext c i = (s.portTakes c i a.at_ l).portArrive c i a := by
  unfold State.portNext
  rw [h]
  refine State.fifoFlush_nil ?_
  obtain ⟨-, -, hcl⟩ := State.portArrive_frame (s.portTakes c i a.at_ l) c i a
  refine (congrArg Smp.recs (State.smp_congr hcl c)).trans ?_
  unfold State.portTakes
  rw [State.smp_modSmp, State.smp_congr (State.advance_clusters s a.at_)]
  exact hr

/-- A lost result shows in the port's bit and raises `SPOVF` (R128). -/
theorem State.overflow_shows {s : State} (h : s.canonical = true) (c i : Fin 8) :
    let t := ((s.stick (pgSmp c) Reg.SMP_SPOVF_CE i).count (pgSmp c) Reg.SMP_SPOVF_CNT 15 0).raise (pgSmp c) 3
    t.rbit (pgSmp c) Reg.SMP_SPOVF_CE i = true ∧ t.rbit (pgSmp c) Reg.PAGE_IRQ_STAT 3 = true := by
  refine ⟨?_, State.rbit_raise_same (State.canonical_count (State.canonical_stick h _ _ _) _ _ _ _) _ (by omega)⟩
  unfold State.rbit
  rw [State.reg_raise_other _ _ (regKey_ne_of_off _ (by decide)), State.reg_count_other _ _ _ (regKey_ne_of_off _ (by decide))]
  exact State.rbit_stick_same h _ _ (by omega)

/-- What a result that is not late does to its engine: the WAITS that waits takes it, else the queue, else it is lost (R128, R213). -/
theorem State.portArrive_effect {s : State} (h : s.canonical = true) {c i : Fin 8} {a : Sample} (hd : s.domOn (engineOf c i) = true)
    (hl : s.locked (.ce (engineOf c i)) = false)
    (ho : (s.core (.ce (engineOf c i))).fgEnded = false ∨ (s.core (.ce (engineOf c i))).fgFcnt ≠ a.frame) :
    let k := s.core (.ce (engineOf c i))
    let t := s.portArrive c i a
    (k.waiting = false ∨ k.ctx ≠ .fg →
      (k.spq.length < 16 → (t.core (.ce (engineOf c i))).spq = k.spq ++ [a])
      ∧ (16 ≤ k.spq.length → (t.core (.ce (engineOf c i))).spq = k.spq ∧ t.rbit (pgSmp c) Reg.SMP_SPOVF_CE i = true
          ∧ t.rbit (pgSmp c) Reg.PAGE_IRQ_STAT 3 = true))
    ∧ (∀ n, k.ctx = .fg → k.pend = [⟨n, none, true⟩] →
        (t.core (.ce (engineOf c i))).pend = [⟨n, some a.cell, true⟩] ∧ (t.core (.ce (engineOf c i))).spq = k.spq) := by
  refine ⟨fun hw => ⟨fun hlen => ?_, fun hlen => ?_⟩, fun n hctx hpend => ?_⟩
  all_goals rw [State.portArrive_open hd hl ho]
  · rw [if_neg (by rcases hw with hw | hw <;> simp [hw]), if_neg (by omega), State.core_modCore]
  · rw [if_neg (by rcases hw with hw | hw <;> simp [hw]), if_pos hlen]
    exact ⟨by rw [State.core_congr]; simp, State.overflow_shows h c i⟩
  · rw [if_pos (by simp [hctx, hpend, Core.waiting]), State.core_modCore]
    exact ⟨by simp [hpend, fillWaits], rfl⟩

/-! ## A read of the FIFO (R131) -/

theorem clu_val (c : Fin 8) : clu c.val = c := Fin.ext (Nat.mod_eq_of_lt c.isLt)

theorem State.fifoPop_nil {s : State} {c : Fin 8} (hr : (s.smp c).recs = []) (h : (s.smp c).fifo = []) (i : Initiator) :
    s.fifoPop i c = (s.setSnap i (pgSmp c) Reg.SMP_FIFO_HI 0, (0xFFFFFFFF, 0)) := by
  unfold State.fifoPop
  simp only [State.fifoFlush_nil hr]
  rw [h]

theorem State.fifoPop_cons {s : State} {c : Fin 8} {r : Word × Word} {l : List (Word × Word)} (hr : (s.smp c).recs = [])
    (h : (s.smp c).fifo = r :: l) (i : Initiator) :
    s.fifoPop i c = ((s.modSmp c (fun m => { m with fifo := l })).setSnap i (pgSmp c) Reg.SMP_FIFO_HI r.2, r) := by
  unfold State.fifoPop
  simp only [State.fifoFlush_nil hr]
  rw [h]

/-- A read of `SMP_FIFO_LO` pops a record. -/
theorem State.pageRead_fifoLo {s : State} {c : Fin 8} (hr : (s.smp c).recs = []) (i : Initiator) (m : Bool) :
    s.pageRead i m (pgSmp c) Reg.SMP_FIFO_LO = ((s.fifoPop i c).1, (s.fifoPop i c).2.1) := by
  show s.smpRead i (clu c.val) Reg.SMP_FIFO_LO = _
  rw [clu_val]
  unfold State.smpRead
  rw [State.fifoFlush_nil hr]
  rfl

/-- So does an 8-byte read, which takes both words of it. -/
theorem State.pageGet_fifoLo (s : State) (c : Fin 8) (i : Initiator) (m : Bool) :
    s.pageGet i m (pgSmp c) Reg.SMP_FIFO_LO 8
      = ((s.fifoPop i c).1, leBytes 4 (s.fifoPop i c).2.1.toNat ++ leBytes 4 (s.fifoPop i c).2.2.toNat) := by
  have h : s.pageGet i m (pgSmp c) Reg.SMP_FIFO_LO 8
      = ((s.fifoPop i (clu c.val)).1, leBytes 4 (s.fifoPop i (clu c.val)).2.1.toNat ++ leBytes 4 (s.fifoPop i (clu c.val)).2.2.toNat) := rfl
  rw [h, clu_val]

theorem leNat_append (a b : List Byte) : leNat (a ++ b) = leNat a + 256 ^ a.length * leNat b := by
  induction a with
  | nil => simp [leNat]
  | cons x t ih => simp only [List.cons_append, leNat, ih, List.length_cons, Nat.pow_succ]; ring

theorem length_leBytes (n v : Nat) : (leBytes n v).length = n := by
  induction n generalizing v with
  | zero => rfl
  | succ n ih => simp [leBytes, ih]

theorem leNat_leBytes (n v : Nat) : leNat (leBytes n v) = v % 256 ^ n := by
  induction n generalizing v with
  | zero => simp [leBytes, leNat, Nat.mod_one]
  | succ n ih =>
    simp only [leBytes, leNat, ih, BitVec.toNat_ofNat]
    show v % 256 + _ = _
    rw [Nat.pow_succ', Nat.mod_mul]

/-- The bytes of two words, the low one first, spell their concatenation. -/
theorem ofNat_leNat_words (lo hi : Word) : BitVec.ofNat 64 (leNat (leBytes 4 lo.toNat ++ leBytes 4 hi.toNat)) = hi ++ lo := by
  apply BitVec.eq_of_toNat_eq
  rw [leNat_append, length_leBytes, leNat_leBytes, leNat_leBytes, BitVec.toNat_append, BitVec.toNat_ofNat,
    ← Nat.shiftLeft_add_eq_or_of_lt lo.isLt, Nat.shiftLeft_eq]
  have h1 := lo.isLt
  have h2 := hi.isLt
  omega

/-- What an empty FIFO answers to a read of both words. -/
theorem emptyFifo_words : ((0 : Word) ++ (0xFFFFFFFF : Word) : DWord) = 0xFFFFFFFF := by decide

/-- What a read of the FIFO that reaches its page answers: the low word, or both. -/
theorem State.fifoRead_reaches {s s1 : State} {x : Access} {c : Fin 8} (h : s.Reaches x (pgSmp c) s1) (hr : (s1.smp c).recs = []) :
    s.fifoRead x c false = (s1.fifoPop x.by_ c).1.answer ((s1.fifoPop x.by_ c).2.1.setWidth 64)
      ∧ s.fifoRead x c true = (s1.fifoPop x.by_ c).1.answer ((s1.fifoPop x.by_ c).2.2 ++ (s1.fifoPop x.by_ c).2.1) := by
  constructor
  · show s.regRead x.by_ x.m (pgSmp c) Reg.SMP_FIFO_LO = _
    rw [State.regRead_reaches h, State.pageRead_fifoLo hr]
    rfl
  · obtain ⟨hacc, hwait, -, -⟩ := h
    unfold State.fifoRead
    simp only [hwait, hacc, if_true, Bool.false_eq_true, if_false, State.pageGet_fifoLo, ofNat_leNat_words]

end Sys2Proof.Machine
end

section
/-! SUPPORT. Sampling, settled. -/

namespace Sys2Proof.Machine

theorem exec_sampleEntryAct (c : Fin 8) (e : Fin 64) (level : Int) (s : State) :
    exec (.sampleEntryAct c e level) s = .next (s.entryAct c e level) := rfl
theorem exec_adcConversionEnd (c j : Fin 8) (s : State) : exec (.adcConversionEnd c j) s = .next (s.convEnd c j) := rfl
theorem exec_samplePortArrival (c i : Fin 8) (s : State) : exec (.samplePortArrival c i) s = .next (s.portNext c i) := rfl
theorem exec_smpFifoLoRead (x : Access) (c : Fin 8) (wide : Bool) (s : State) :
    exec (.smpFifoLoRead x c wide) s = .next (s.fifoRead x c wide) := rfl

/-- Settles O39, part by part: an entry's act, a conversion's end, a result's arrival, and a read of the FIFO, each through the lemma
that says what it leaves. -/
theorem sampling : Obligations.Sampling := by
  intro c j i e level s h
  simp only [exec_sampleEntryAct, exec_adcConversionEnd, exec_samplePortArrival, exec_smpFifoLoRead]
  refine ⟨fun hidle => by rw [State.entryAct_idle hidle], fun f per hf hp => ?_, fun hc => by rw [State.convEnd_none hc],
    fun v und hv hwhy hw => ⟨_, rfl, State.convEnd_delivers h hv hwhy hw⟩, fun hq => by rw [State.portNext_nil hq],
    fun a l hq hd hl hr => ?_, fun x s1 hx hr => ⟨fun hn => ?_, fun r l hn => ?_⟩⟩
  · generalize hent : (s.smp c).entry false e = ent
    obtain ⟨w, w1⟩ := ent
    refine ⟨fun hskip => by rw [State.entryAct_skips hf hp hent level hskip], fun hen hsel hact hk hs hj hd hc => ?_⟩
    obtain ⟨hadc, hsub, -, -, hdom, -⟩ := s.entryActs_frame c e f ((f.tick : Int) + entOffset w1).toNat
    rw [State.entryAct_adc hf hp hent level hen hsel hact hk, State.convCore_own hs hj]
    refine ⟨fun hfree => ?_, fun hfree hw => ⟨_, ?_, State.dropped_entry h c j i e f hw _⟩, fun d hdue hde hcur => ?_⟩
    · rw [hfree, State.actAdc_taken (hsub.trans hs) hj ((hdom _).trans hd) (by rw [hadc, hc])]
      rfl
    · rw [hfree, State.actAdc_dropped (hsub.trans hs) hj ((hdom _).trans hd) (by rw [hadc, hc])]
    · subst hde
      exact State.adcPlan_single hdue hcur
  · rw [State.portNext_cons hq hr]
    obtain ⟨hmem, hclk, hdom, hlock, hcore⟩ := s.portTakes_frame c i a.at_ l
    obtain ⟨amem, atime, -⟩ := (s.portTakes c i a.at_ l).portArrive_frame c i a
    rw [← hdom] at hd
    rw [← hlock] at hl
    refine ⟨fun he hfr => ?_, fun ho => ⟨_, rfl, amem.trans hmem, by rw [atime, hclk], ?_⟩⟩
    · rw [State.portArrive_left hd hl (by rw [hcore, he]) (by rw [hcore, hfr])]
      rfl
    · have heff := State.portArrive_effect (State.canonical_portTakes h c i a.at_ l) hd hl (by rw [hcore]; exact ho)
      simpa only [hcore] using heff
  · obtain ⟨hlo, hwide⟩ := State.fifoRead_reaches hx hr
    rw [hlo, hwide, State.fifoPop_nil hr hn]
    exact ⟨rfl, by dsimp only; rw [emptyFifo_words]⟩
  · obtain ⟨hlo, hwide⟩ := State.fifoRead_reaches hx hr
    rw [hlo, hwide, State.fifoPop_cons hr hn]
    exact ⟨rfl, rfl⟩

end Sys2Proof.Machine
end

section
/-! SUPPORT. A step of the machine: the front command, or one edge of the clock (R16, R34). -/

namespace Sys2Proof.Machine

/-- Every arm of `exec` answers a next state: no command faults and none is refused. -/
theorem exec_next (c : Instr) (s : State) : ∃ t, exec c s = .next t := by
  cases c <;> exact ⟨_, rfl⟩

theorem step_cons (c : Instr) (s : State) : step { s with pending := c :: s.pending } = exec c s := rfl

theorem step_idle {s : State} (h : s.pending = []) : step s = .next (s.edges 1) := by
  unfold step; rw [h]

/-- Settles O22: a step is `exec` on the front command, or one edge. -/
theorem stepRunsFrontCommand : Obligations.StepRunsFrontCommand :=
  ⟨step_cons, exec_next, fun _ => step_idle⟩

end Sys2Proof.Machine
end

section
/-! SUPPORT. The bridge is down while something still waits for a retraining: a state that the statement of the bridge's events admits
(R19, R20). -/

namespace Sys2Proof.Machine

/-- The bridge is down, and a stop of the fabric waits. -/
def State.downWithStop : State :=
  (State.reset.setBit pgRst Reg.RST_BRG_STAT 0 true).modBridge (fun b => { b with waiting := [.stop false] })

theorem State.downWithStop_isDown : State.downWithStop.bridgeIsDown = true := by decide +kernel

/-- A retraining that is reported lets it go on. -/
theorem State.downWithStop_resumes : (State.downWithStop.bridgeTrained true).busResume.bridge.waiting = [] := by decide +kernel

/-- Refutes O29: with the bridge down, BRIDGE_RETRAIN_DONE is said to leave every state as it is. What waits goes on all the same
wherever the bridge does not retrain (`State.busResume`), so a state that is down with a stop waiting changes. The clause lacks
the hypothesis that nothing waits. -/
theorem not_bridgeEvents : ¬ Obligations.BridgeEvents := by
  intro h
  obtain ⟨-, -, -, hdown, -⟩ := h State.downWithStop
  obtain ⟨-, hdone, -⟩ := hdown State.downWithStop_isDown
  obtain ⟨-, htrain⟩ := hdone true
  have hsame : (State.downWithStop.bridgeTrained true).busResume = State.downWithStop := by injection htrain
  have hwaits : State.downWithStop.bridge.waiting = [] := by rw [← State.downWithStop_resumes, hsame]
  exact absurd hwaits (by decide +kernel)

end Sys2Proof.Machine
end

section
/-! SUPPORT. A checkpoint with an error injection armed in the checkpoint memory, which it consumes (R216, R361). -/

namespace Sys2Proof.Machine

/-- Engine 0 in its foreground at `FLVL`, with an injection armed in unit 9 of its cluster, the checkpoint memory. -/
def State.ckptInjecting : State :=
  ((State.reset.modCore (.ce 0) (fun k => { k.startCe 0x100 with fresh := false, ctx := .fg, bank := .fg, status := 0x1001 })).setReg
    (pgCe 0) Reg.CE_CTL 3).setReg (pgSramC 0) (Reg.SRAM_U_INJ 9) 1

/-- The fetch succeeds and leaves a state of which `P` holds. -/
def State.fetchLeaves (s : State) (c : CoreId) (n : Nat) (P : State → Bool) : Bool :=
  match (s.ready c).coreFetch c (s.core c).fetchHi (s.core c).pc n with
  | .ok t _ => P t
  | _ => false

theorem State.exists_of_fetchLeaves {s : State} {c : CoreId} {n : Nat} {P : State → Bool} (h : s.fetchLeaves c n P = true) :
    ∃ t, (s.ready c).coreFetch c (s.core c).fetchHi (s.core c).pc n = .ok t () ∧ P t = true := by
  unfold State.fetchLeaves at h
  split at h
  next t _ he => exact ⟨t, he, h⟩
  next => cases h

/-- Nothing comes before its instruction. -/
theorem State.ckptInjecting_ready : State.ckptInjecting.canIssue (.ce 0) = true ∧ State.ckptInjecting.before (.ce 0) = none
    ∧ (State.ckptInjecting.core (.ce 0)).det (.ce 0) = false ∧ (State.ckptInjecting.core (.ce 0)).fresh = false
    ∧ (State.ckptInjecting.core (.ce 0)).slot = none ∧ (State.ckptInjecting.core (.ce 0)).step1 = false
    ∧ State.ckptInjecting.locked (.ce 0) = false ∧ (State.ckptInjecting.core (.ce 0)).cur.cells.length ≤ 16 := by
  decide +kernel

/-- It issues, and its fetch leaves the injection armed. -/
theorem State.ckptInjecting_issues :
    ∃ s1, State.ckptInjecting.Issues (.ce 0) 1 s1 ∧ s1.reg (pgSramC 0) (Reg.SRAM_U_INJ 9) = 1 := by
  obtain ⟨t, hf, ht⟩ := State.exists_of_fetchLeaves (s := State.ckptInjecting) (c := .ce 0) (n := 1)
    (P := fun t => decide (t.core (.ce 0) = { (State.ckptInjecting.ready (.ce 0)).core (.ce 0) with
        tlb := (t.core (.ce 0)).tlb, walk := (t.core (.ce 0)).walk, icache := (t.core (.ce 0)).icache })
      && !t.locked (.ce 0) && decide (t.reg (pgSramC 0) (Reg.SRAM_U_INJ 9) = 1)) (by decide +kernel)
  simp only [Bool.and_eq_true, decide_eq_true_eq, Bool.not_eq_true'] at ht
  obtain ⟨⟨hcore, hlocked⟩, harmed⟩ := ht
  obtain ⟨hcan, hbefore, hdet, hfresh, hslot, hstep, hown, hcells⟩ := State.ckptInjecting_ready
  exact ⟨t, ⟨hcan, hbefore, hdet, hfresh, hslot, hstep, hown, hcells, hf, hcore, hlocked⟩, harmed⟩

/-- CKPT takes the injection: the register is 0 behind it. -/
theorem State.ckptInjecting_exec :
    ∃ t, exec (.ckpt (.ce 0)) State.ckptInjecting = .next t ∧ t.reg (pgSramC 0) (Reg.SRAM_U_INJ 9) = 0 :=
  ⟨_, rfl, by decide +kernel⟩

/-- Refutes O21: CKPT is said to leave every register as its fetch left it. With an injection armed in the checkpoint memory it
returns `SRAM_U_INJ` of that unit to 0 (R361). The clause lacks the hypothesis that none is armed. -/
theorem not_frameInstructions : ¬ Obligations.FrameInstructions := by
  intro h
  obtain ⟨s1, hissues, harmed⟩ := State.ckptInjecting_issues
  obtain ⟨-, -, hfg, -⟩ := h State.ckptInjecting s1 0 0 hissues
  obtain ⟨⟨t, ht, -, -, -, hregs, -⟩, -⟩ := hfg (by decide +kernel) (by decide +kernel) (by decide +kernel)
  obtain ⟨u, hu, htaken⟩ := State.ckptInjecting_exec
  have htu : t = u := by rw [ht] at hu; injection hu
  have hkept := State.reg_congr hregs (pgSramC 0) (Reg.SRAM_U_INJ 9)
  rw [htu, htaken, harmed] at hkept
  exact absurd hkept (by decide)

end Sys2Proof.Machine
end

section
/-! SUPPORT. Bit fields by their bits, and what a bus write makes of a register whose fields are plain (R8, R14). -/

namespace Sys2Proof.Machine

theorem getLsbD_maskOf (hi lo i : Nat) : (maskOf hi lo).getLsbD i = decide (i < 32 ∧ lo ≤ i ∧ i < hi - lo + 1 + lo) := by
  unfold maskOf
  rw [BitVec.getLsbD_ofNat, Nat.testBit_mul_two_pow, Nat.testBit_two_pow_sub_one]
  by_cases h : lo ≤ i
  · simp [h, Nat.sub_lt_iff_lt_add h]
  · simp [h]

theorem testBit_bitsOf {n : Nat} (w : BitVec n) (hi lo i : Nat) :
    (bitsOf w hi lo).testBit i = (decide (i < hi - lo + 1) && w.getLsbD (lo + i)) := by
  unfold bitsOf
  rw [Nat.testBit_mod_two_pow, Nat.testBit_shiftRight]
  rfl

theorem getLsbD_putBits (w : Word) (hi lo v i : Nat) :
    (putBits w hi lo v).getLsbD i
      = if lo ≤ i ∧ i < hi - lo + 1 + lo then decide (i < 32) && v.testBit (i - lo) else w.getLsbD i := by
  unfold putBits
  rw [BitVec.getLsbD_or, BitVec.getLsbD_and, BitVec.getLsbD_and, BitVec.getLsbD_not, getLsbD_maskOf, BitVec.getLsbD_ofNat,
    Nat.testBit_mul_two_pow]
  by_cases h32 : i < 32
  · by_cases h : lo ≤ i ∧ i < hi - lo + 1 + lo
    · simp [h32, h]
    · rw [if_neg h]; simp [h32, h]
  · rw [BitVec.getLsbD_of_ge w i (by omega)]; simp [h32]

/-- Two fields are equal where their bits are. -/
theorem bitsOf_eq_iff {n m : Nat} (w : BitVec n) (u : BitVec m) (hi lo : Nat) :
    bitsOf w hi lo = bitsOf u hi lo ↔ ∀ i < hi - lo + 1, w.getLsbD (lo + i) = u.getLsbD (lo + i) := by
  constructor
  · intro h i hi'
    have := congrArg (fun x => x.testBit i) h
    simpa [testBit_bitsOf, hi'] using this
  · intro h
    refine Nat.eq_of_testBit_eq fun i => ?_
    rw [testBit_bitsOf, testBit_bitsOf]
    by_cases hi' : i < hi - lo + 1
    · rw [h i hi']
    · simp [hi']

/-- What a field holds after it has been set. -/
theorem bitsOf_putBits_same (w : Word) {hi lo v : Nat} (h : hi < 32) (hl : lo ≤ hi) (hv : v < 2 ^ (hi - lo + 1)) :
    bitsOf (putBits w hi lo v) hi lo = v := by
  refine Nat.eq_of_testBit_eq fun i => ?_
  rw [testBit_bitsOf, getLsbD_putBits]
  by_cases hi' : i < hi - lo + 1
  · rw [if_pos (by omega)]
    simp [hi', show lo + i < 32 by omega]
  · have hz : v.testBit i = false := Nat.testBit_lt_two_pow (lt_of_lt_of_le hv (Nat.pow_le_pow_right (by omega) (by omega)))
    simp [hi', hz]

theorem bitOf_putBits_other (w : Word) {hi lo i : Nat} (h : ¬(lo ≤ i ∧ i < hi - lo + 1 + lo)) (v : Nat) :
    bitOf (putBits w hi lo v) i = bitOf w i := by
  unfold bitOf
  rw [getLsbD_putBits, if_neg h]

/-- A write under the lanes of `l`: those that the mask shares take the value, every other bit stays. -/
def lanesWrite (l v mask old : Word) : Word := (old &&& ~~~(mask &&& l)) ||| (v &&& mask &&& l)

/-- Two writes of one access, one after the other, are one under the lanes of both. -/
theorem lanesWrite_lanesWrite (l l' v mask old : Word) :
    lanesWrite l' v mask (lanesWrite l v mask old) = lanesWrite (l ||| l') v mask old := by
  refine BitVec.eq_of_getLsbD_eq fun i hi => ?_
  simp only [lanesWrite, BitVec.getLsbD_or, BitVec.getLsbD_and, BitVec.getLsbD_not, hi, decide_true, Bool.true_and]
  cases l.getLsbD i <;> cases l'.getLsbD i <;> cases mask.getLsbD i <;> simp

/-- A field takes the value of a bus write in every lane. -/
def Field.plain (f : Field) : Prop := f.ty = .rw ∨ f.ty = .rwl

theorem Field.write_plain {f : Field} (h : f.plain) (fs : List Field) (v mask acc : Word) :
    f.write fs false v mask acc = lanesWrite (maskOf f.hi f.lo) v mask acc := by
  unfold Field.write Field.lanes lanesWrite
  rcases h with h | h <;> simp [h, BitVec.and_assoc]

/-- A bus write to plain fields of a page that is not locked is one write under the lanes that the fields read in. -/
theorem fieldsWrite_plain {fs : List Field} (h : ∀ f ∈ fs, f.plain) (v mask old : Word) :
    fieldsWrite fs false v mask old = lanesWrite (readMask fs) v mask old := by
  have hold : lanesWrite 0 v mask old = old := by
    refine BitVec.eq_of_getLsbD_eq fun i hi => ?_
    simp only [lanesWrite, BitVec.getLsbD_or, BitVec.getLsbD_and, BitVec.getLsbD_not, hi]
    simp
  have key : ∀ (l gs : List Field) (a : Word), (∀ f ∈ l, f.plain) →
      l.foldl (fun acc f => f.write gs false v mask acc) (lanesWrite a v mask old)
        = lanesWrite (l.foldl (fun acc f => match f.ty with | .wo | .w1s => acc | _ => acc ||| maskOf f.hi f.lo) a) v mask old := by
    intro l gs
    induction l with
    | nil => intro a _; rfl
    | cons f l ih =>
      intro a hl
      have hf : f.plain := hl f (by simp)
      rw [List.foldl_cons, List.foldl_cons, Field.write_plain hf, lanesWrite_lanesWrite, ih _ (fun g hg => hl g (by simp [hg]))]
      rcases hf with hf | hf <;> simp only [hf]
  have hkey := key fs fs 0 h
  rw [hold] at hkey
  exact hkey

/-- Nothing of such a register is cleared by a write. -/
theorem clearMask_plain {fs : List Field} (h : ∀ f ∈ fs, f.plain) (v mask : Word) : clearMask fs v mask = 0 := by
  unfold clearMask
  refine List.foldlRecOn (motive := fun w => w = 0) fs _ rfl fun w hw f hf => ?_
  rcases h f hf with hf | hf <;> simp only [hf, hw]

theorem State.keptBits_zero (s : State) (p : PageId) (off : Nat) : s.keptBits p off 0 = (s, 0) := by
  unfold State.keptBits; simp

/-- A bus write to a register of plain fields on a page that is not locked. -/
theorem State.busReg_plain {s : State} {p : PageId} {off : Nat} {d : RegDesc} (hr : regAt p.kind p.inst off = some d)
    (hp : ∀ f ∈ d.fields, f.plain) (ho : s.Open p) (v mask : Word) :
    s.busReg p off v mask = s.setReg p off (lanesWrite (readMask d.fields) v mask (s.reg p off)) := by
  unfold State.Open at ho
  unfold State.busReg
  simp only [hr, ho, clearMask_plain hp, State.keptBits_zero, fieldsWrite_plain hp, Bool.false_and, Bool.false_eq_true, if_false]
  exact congrArg (s.setReg p off) BitVec.or_zero

/-! ## A register that is set twice, and one that is set to what it holds -/

theorem sparseSet_of_lt {α : Type} [DecidableEq α] (d : Nat → α) {l : List (Nat × α)} {k : Nat} (h : ∀ e ∈ l, k < e.1) (v : α) :
    sparseSet d l k v = if v = d k then l else (k, v) :: l := by
  cases l with
  | nil => rfl
  | cons e t => unfold sparseSet; rw [if_pos (h e (by simp))]

theorem sparseSet_sparseSet {α : Type} [DecidableEq α] (d : Nat → α) {l : List (Nat × α)} (h : l.Pairwise (fun x y => x.1 < y.1))
    (k : Nat) (v w : α) : sparseSet d (sparseSet d l k v) k w = sparseSet d l k w := by
  induction l with
  | nil =>
    rw [sparseSet_of_lt d (by simp) v]
    split <;> simp [sparseSet]
  | cons e t ih =>
    obtain ⟨hlt, ht⟩ := List.pairwise_cons.1 h
    rcases lt_trichotomy k e.1 with hk | hk | hk
    · have hall : ∀ x ∈ e :: t, k < x.1 := by
        intro x hx
        rcases List.mem_cons.1 hx with rfl | hx
        · exact hk
        · exact hk.trans (hlt x hx)
      rw [sparseSet_of_lt d hall v, sparseSet_of_lt d hall w]
      split
      · exact sparseSet_of_lt d hall w
      · simp [sparseSet]
    · have hall : ∀ x ∈ t, k < x.1 := fun x hx => hk ▸ hlt x hx
      have hset : ∀ u, sparseSet d (e :: t) k u = if u = d k then t else (k, u) :: t := by
        intro u; unfold sparseSet; rw [if_neg (by omega), if_pos hk]
      rw [hset v, hset w]
      split
      · exact sparseSet_of_lt d hall w
      · simp [sparseSet]
    · have hset : ∀ (r : List (Nat × α)) u, sparseSet d (e :: r) k u = e :: sparseSet d r k u := by
        intro r u; conv_lhs => unfold sparseSet
        rw [if_neg (by omega), if_neg (by omega)]
      rw [hset, hset, hset, ih ht]

theorem sparseGet_of_lt {α : Type} (d : Nat → α) {l : List (Nat × α)} {k : Nat} (h : ∀ e ∈ l, k < e.1) : sparseGet d l k = d k := by
  induction l with
  | nil => rfl
  | cons e t ih =>
    unfold sparseGet
    rw [if_neg (Nat.ne_of_lt (h e (by simp))), ih (fun x hx => h x (by simp [hx]))]

theorem sparseSet_sparseGet {α : Type} [DecidableEq α] (d : Nat → α) {l : List (Nat × α)} (h : sparseWf d l = true) (k : Nat) :
    sparseSet d l k (sparseGet d l k) = l := by
  obtain ⟨hp, hd⟩ := (sparseWf_iff d l).1 h
  clear h
  induction l with
  | nil => simp [sparseSet, sparseGet]
  | cons e t ih =>
    obtain ⟨hlt, ht⟩ := List.pairwise_cons.1 hp
    rcases lt_trichotomy k e.1 with hk | hk | hk
    · have hall : ∀ x ∈ e :: t, k < x.1 := by
        intro x hx
        rcases List.mem_cons.1 hx with rfl | hx
        · exact hk
        · exact hk.trans (hlt x hx)
      rw [sparseGet_of_lt d hall, sparseSet_of_lt d hall, if_pos rfl]
    · unfold sparseSet sparseGet
      rw [if_neg (by omega), if_pos hk, if_pos hk, if_neg (by rw [hk]; exact hd e (by simp)), hk]
    · unfold sparseSet sparseGet
      rw [if_neg (by omega), if_neg (by omega), if_neg (by omega), ih ht (fun x hx => hd x (by simp [hx]))]

theorem State.regs_sorted {s : State} (h : s.canonical = true) : s.regs.Pairwise (fun x y => x.1 < y.1) :=
  ((sparseWf_iff _ _).1 ((State.canonical_iff s).1 h).2.1).1

theorem State.setReg_setReg {s : State} (h : s.canonical = true) (p : PageId) (off : Nat) (v w : Word) :
    (s.setReg p off v).setReg p off w = s.setReg p off w := by
  unfold State.setReg
  rw [sparseSet_sparseSet _ (State.regs_sorted h)]

theorem State.setReg_reg {s : State} (h : s.canonical = true) (p : PageId) (off : Nat) : s.setReg p off (s.reg p off) = s := by
  unfold State.setReg State.reg
  rw [sparseSet_sparseGet _ ((State.canonical_iff s).1 h).2.1]

theorem State.setFld_setReg {s : State} (h : s.canonical = true) (p : PageId) (off hi lo v : Nat) (w : Word) :
    (s.setReg p off w).setFld p off hi lo v = s.setReg p off (putBits w hi lo v) := by
  unfold State.setFld
  rw [State.reg_setReg_same h, State.setReg_setReg h]

theorem State.fld_setReg_same {s : State} (h : s.canonical = true) (p : PageId) (off hi lo : Nat) (w : Word) :
    (s.setReg p off w).fld p off hi lo = bitsOf w hi lo := by
  unfold State.fld
  rw [State.reg_setReg_same h]

theorem State.rbit_congr {s t : State} {p : PageId} {o : Nat} (h : t.reg p o = s.reg p o) (i : Nat) : t.rbit p o i = s.rbit p o i := by
  unfold State.rbit; rw [h]

theorem State.rbit_setBit_same {s : State} (h : s.canonical = true) (p : PageId) (off : Nat) {i : Nat} (hi : i < 32) (b : Bool) :
    (s.setBit p off i b).rbit p off i = b := by
  unfold State.rbit
  rw [State.reg_setBit_same h, bitOf_putBits_same _ hi]

theorem State.rbit_setBit_ne {s : State} (h : s.canonical = true) (p : PageId) (off : Nat) {i j : Nat} (hj : j ≠ i) (b : Bool) :
    (s.setBit p off i b).rbit p off j = s.rbit p off j := by
  unfold State.rbit
  rw [State.reg_setBit_same h, bitOf_putBits_other _ (by omega)]

end Sys2Proof.Machine
end

section
/-! SUPPORT. Accesses to the page of the time base, and what they do there (R35 to R40, R51, R64, R65, R67). -/

namespace Sys2Proof.Machine

/-- A write that reaches the page of the time base, past its header, is what the block does with it. -/
theorem State.dtbWrite_reaches {s s1 : State} {x : Access} (h : s.Reaches x pgDtb s1) {off : Nat} (ho : off / 4 * 4 = off)
    (hb : 0x40 ≤ off) {v mask : Word} {t : State} (ht : s1.dtbWrite off v mask = t) (hd : t.dma = s1.dma) :
    s.regWrite x.by_ x.m pgDtb off v mask = t.wrote := by
  have hp : s1.pageWrite x.by_ x.m pgDtb off v mask = t := by
    unfold State.pageWrite
    simp only [ho]
    rw [if_neg (by simp [pgDtb]), if_neg (by simp; omega)]
    exact ht
  rw [State.regWrite_reaches h off v mask (by rw [hp, hd]), hp]

/-- So is a read. -/
theorem State.dtbRead_reaches {s s1 : State} {x : Access} (h : s.Reaches x pgDtb s1) {off : Nat} (ho : off / 4 * 4 = off)
    (hb : 0x40 ≤ off) : s.regRead x.by_ x.m pgDtb off = (s1.dtbRead x.by_ off).1.answerW (s1.dtbRead x.by_ off).2 := by
  have hp : s1.pageRead x.by_ x.m pgDtb off = s1.dtbRead x.by_ off := by
    unfold State.pageRead
    simp only [ho]
    rw [if_neg (by simp; omega), if_neg (by simp [pgDtb])]
    rfl
  rw [State.regRead_reaches h, hp]

/-! ## The increment (R35, R36) -/

/-- DTB_INC_WRITE does what the block does with it. -/
theorem State.exec_dtbIncWrite {s s1 : State} {x : Access} (h : s.Reaches x pgDtb s1) {v mask : Word} {t : State}
    (ht : s1.dtbIncWrite v mask = t) (hd : t.dma = s1.dma) : exec (.dtbIncWrite x v mask) s = .next t.wrote :=
  congrArg Host.Outcome.next (State.dtbWrite_reaches (off := Reg.DTB_INC) h rfl (by decide) ht hd)

theorem State.src_of_disciplined {s : State} (h : s.fld pgDtb Reg.DTB_CTL 1 0 = 1 ∨ s.fld pgDtb Reg.DTB_CTL 1 0 = 2) : s.src ≠ 0 := by
  unfold State.src
  rcases h with h | h <;> simp [h]

theorem State.dtbIncWrite_owned {s : State} (h : s.src ≠ 0) (v mask : Word) : s.dtbIncWrite v mask = s := by
  unfold State.dtbIncWrite
  rw [if_pos h]

theorem readMask_word : readMask [⟨31, 0, .rw⟩] = BitVec.allOnes 32 := rfl

/-- A write of a register that is one field of a whole word. -/
theorem fieldsWrite_word (v mask old : Word) : fieldsWrite [⟨31, 0, .rw⟩] false v mask old = (old &&& ~~~mask) ||| (v &&& mask) := by
  rw [fieldsWrite_plain (by simp [Field.plain]), readMask_word]
  unfold lanesWrite
  rw [BitVec.and_allOnes, BitVec.and_allOnes]

/-- A free increment takes the word written, held to its range; the event says that it had to be held. -/
theorem State.dtbIncWrite_free {s : State} (h : s.src = 0) {v mask : Word} {w : Nat}
    (hw : ((s.reg pgDtb Reg.DTB_INC &&& ~~~mask) ||| (v &&& mask)).toNat = w) :
    s.dtbIncWrite v mask = (s.dtbPast.setReg pgDtb Reg.DTB_INC (w32 (clampNat 0x9FEB851F 0xA0147AE1 w))).raiseIf
      (decide (clampNat 0x9FEB851F 0xA0147AE1 w ≠ w)) pgDtb 1 := by
  unfold State.dtbIncWrite
  rw [if_neg (by omega), fieldsWrite_word, hw]
  rfl

theorem clampNat_of_mem {lo hi v : Nat} (h : lo ≤ v) (h' : v ≤ hi) : clampNat lo hi v = v := by
  unfold clampNat; rw [if_neg (by omega), if_neg (by omega)]

theorem clampNat_of_lt {lo hi v : Nat} (h : v < lo) : clampNat lo hi v = lo := by
  unfold clampNat; rw [if_pos h]

theorem clampNat_of_gt {lo hi v : Nat} (hlo : lo ≤ hi) (h : hi < v) : clampNat lo hi v = hi := by
  unfold clampNat; rw [if_neg (by omega), if_pos h]

theorem le_clampNat {lo hi : Nat} (h : lo ≤ hi) (v : Nat) : lo ≤ clampNat lo hi v ∧ clampNat lo hi v ≤ hi := by
  unfold clampNat; split_ifs <;> omega

theorem clampNat_eq {lo hi : Nat} (h : lo ≤ hi) (v : Nat) : clampNat lo hi v = max lo (min hi v) := by
  unfold clampNat; split_ifs <;> omega

theorem State.dtbRead_inc (s : State) (i : Initiator) : s.dtbRead i Reg.DTB_INC = (s, s.reg pgDtb Reg.DTB_INC) := by
  have h : s.busRead pgDtb Reg.DTB_INC = s.reg pgDtb Reg.DTB_INC &&& readMask [⟨31, 0, .rw⟩] := rfl
  show (s, s.busRead pgDtb Reg.DTB_INC) = _
  rw [h, readMask_word, BitVec.and_allOnes]

/-- Settles O30: an owned increment is left alone, and its read shows what is in use. -/
theorem incrementOwned : Obligations.IncrementOwned := by
  intro x s s1 v mask h
  refine ⟨fun hs => State.exec_dtbIncWrite h (State.dtbIncWrite_owned (State.src_of_disciplined hs) v mask) rfl, ?_⟩
  rw [State.dtbRead_reaches (off := Reg.DTB_INC) h rfl (by decide), State.dtbRead_inc]
  rfl

/-! ## The commands (R37, R40, R51, R65, R67) -/

section
variable {s s1 : State} {x : Access} (h : s.Reaches x pgDtb s1) {t : State}
include h

/-- A command of the time base that is the only one in its write. -/
theorem State.exec_dtbCmdLoad (ht : s1.dtbLoad = t) (hd : t.dma = s1.dma) : exec (.dtbCmdLoad x) s = .next t.wrote :=
  congrArg Host.Outcome.next (State.dtbWrite_reaches (off := Reg.DTB_CMD) (v := 1) (mask := 0xFFFFFFFF) h rfl (by decide) ht hd)
theorem State.exec_dtbCmdStep (ht : s1.dtbStep = t) (hd : t.dma = s1.dma) : exec (.dtbCmdStep x) s = .next t.wrote :=
  congrArg Host.Outcome.next (State.dtbWrite_reaches (off := Reg.DTB_CMD) (v := 2) (mask := 0xFFFFFFFF) h rfl (by decide) ht hd)
theorem State.exec_dtbCmdTlclr (ht : s1.dtbTlclr = t) (hd : t.dma = s1.dma) : exec (.dtbCmdTlclr x) s = .next t.wrote :=
  congrArg Host.Outcome.next (State.dtbWrite_reaches (off := Reg.DTB_CMD) (v := 4) (mask := 0xFFFFFFFF) h rfl (by decide) ht hd)
theorem State.exec_dtbCmdPtmreq (ht : s1.ptmStart = t) (hd : t.dma = s1.dma) : exec (.dtbCmdPtmreq x) s = .next t.wrote :=
  congrArg Host.Outcome.next (State.dtbWrite_reaches (off := Reg.DTB_CMD) (v := 8) (mask := 0xFFFFFFFF) h rfl (by decide) ht hd)
theorem State.exec_dtbCmdMfload (ht : s1.dtbMfload = t) (hd : t.dma = s1.dma) : exec (.dtbCmdMfload x) s = .next t.wrote :=
  congrArg Host.Outcome.next (State.dtbWrite_reaches (off := Reg.DTB_CMD) (v := 16) (mask := 0xFFFFFFFF) h rfl (by decide) ht hd)
end

theorem State.dtbLoad_refused {s : State} (h : s.carRun = true) : s.dtbLoad = s.raise pgDtb 2 := by
  unfold State.dtbLoad; rw [if_pos h]; rfl

theorem State.dtbStep_refused {s : State} (h : s.carRun = true) : s.dtbStep = s.raise pgDtb 2 := by
  unfold State.dtbStep; rw [if_pos h]; rfl

theorem State.dtbMfload_refused {s : State} (hs : s.src ≠ 1) (h : s.carRun = true) : s.dtbMfload = s.raise pgDtb 2 := by
  unfold State.dtbMfload; rw [if_neg hs, if_pos h]; rfl

theorem State.dtbMfload_owned {s : State} (hs : s.src = 1) : s.dtbMfload = s := by
  unfold State.dtbMfload; rw [if_pos hs]

/-- LOAD with no carrier running. -/
theorem State.dtbLoad_idle {s : State} (h : s.carRun = false) :
    s.dtbLoad = { s.dtbPast with time := { s.dtbPast.time with
      ns := s.reg pgDtb Reg.DTB_SET_HI ++ s.reg pgDtb Reg.DTB_SET_LO, frac := 0 } } := by
  unfold State.dtbLoad; rw [h]; rfl

/-- STEP with no carrier running: crossing the wrap in either direction is one. -/
theorem State.dtbStep_idle {s : State} (h : s.carRun = false) {n : Int} (hn : s.time.ns.toNat + (s.reg pgDtb Reg.DTB_STEP).toInt = n) :
    s.dtbStep = { s.dtbPast with time := { s.dtbPast.time with ns := BitVec.ofInt 64 n } }.raiseIf (decide (n < 0 ∨ 2 ^ 64 ≤ n)) pgDtb 0 := by
  subst hn
  unfold State.dtbStep; rw [h]; rfl

/-- Two words and a half, the high part first, as one number. -/
theorem ofNat_append48 (hi lo : Word) : BitVec.ofNat 48 (lo.toNat + bitsOf hi 15 0 * 2 ^ 32) = hi.setWidth 16 ++ lo := by
  apply BitVec.eq_of_toNat_eq
  rw [BitVec.toNat_append, BitVec.toNat_ofNat, ← Nat.shiftLeft_add_eq_or_of_lt lo.isLt, Nat.shiftLeft_eq, BitVec.toNat_setWidth]
  unfold bitsOf
  have h1 := lo.isLt
  simp only [Nat.shiftRight_zero]
  omega

/-- MFLOAD with no carrier running. -/
theorem State.dtbMfload_idle {s : State} (hs : s.src ≠ 1) (h : s.carRun = false) :
    s.dtbMfload = { s with time := { s.time with
      mfn := (s.reg pgDtb Reg.DTB_MFNSET_HI).setWidth 16 ++ s.reg pgDtb Reg.DTB_MFNSET_LO
      mft := s.reg pgDtb Reg.DTB_SET_HI ++ s.reg pgDtb Reg.DTB_SET_LO } } := by
  unfold State.dtbMfload
  rw [if_neg hs, h, ← ofNat_append48]
  rfl

/-! ## The source and the machine frame period (R51, R64) -/

/-- A write of `DTB_CTL` sets its three bits under the lanes. -/
theorem State.busReg_dtbCtl {s : State} (ho : s.Open pgDtb) (v mask : Word) : s.busReg pgDtb Reg.DTB_CTL v mask
    = s.setReg pgDtb Reg.DTB_CTL ((s.reg pgDtb Reg.DTB_CTL &&& ~~~(mask &&& 7)) ||| (v &&& mask &&& 7)) :=
  State.busReg_plain (d := ⟨Reg.DTB_CTL, 0, 1, 0x0, [⟨1, 0, .rwl⟩, ⟨2, 2, .rwl⟩]⟩) rfl (by simp [Field.plain]) ho v mask

theorem State.busReg_dtbMfp {s : State} (ho : s.Open pgDtb) (v mask : Word) : s.busReg pgDtb Reg.DTB_MFP v mask
    = s.setReg pgDtb Reg.DTB_MFP ((s.reg pgDtb Reg.DTB_MFP &&& ~~~(mask &&& 0xFFFFFF)) ||| (v &&& mask &&& 0xFFFFFF)) :=
  State.busReg_plain (d := ⟨Reg.DTB_MFP, 0, 1, 0xF4240, [⟨23, 0, .rwl⟩]⟩) rfl (by simp [Field.plain]) ho v mask

section
variable {s s1 : State} {x : Access} (h : s.Reaches x pgDtb s1) {v mask : Word} {t : State}
include h

theorem State.exec_dtbCtlWrite (ht : s1.dtbCtlWrite v mask = t) (hd : t.dma = s1.dma) : exec (.dtbCtlWrite x v mask) s = .next t.wrote :=
  congrArg Host.Outcome.next (State.dtbWrite_reaches (off := Reg.DTB_CTL) h rfl (by decide) ht hd)
theorem State.exec_dtbMfpWrite (ht : s1.dtbMfpWrite v mask = t) (hd : t.dma = s1.dma) : exec (.dtbMfpWrite x v mask) s = .next t.wrote :=
  congrArg Host.Outcome.next (State.dtbWrite_reaches (off := Reg.DTB_MFP) h rfl (by decide) ht hd)
end

section
variable {s : State} (hc : s.canonical = true) (ho : s.Open pgDtb) {v mask n : Word}
  (hn : (s.reg pgDtb Reg.DTB_CTL &&& ~~~(mask &&& 7)) ||| (v &&& mask &&& 7) = n)
include hc ho hn

/-- A write that keeps the source sets `DTB_CTL` alone. -/
theorem State.dtbCtlWrite_same (he : bitsOf n 1 0 = bitsOf (s.reg pgDtb Reg.DTB_CTL) 1 0) :
    s.dtbCtlWrite v mask = s.setReg pgDtb Reg.DTB_CTL n := by
  unfold State.dtbCtlWrite
  simp only [State.busReg_dtbCtl ho, hn, State.fld_setReg_same hc]
  exact if_pos he.symm

/-- A write that would change the source is refused while a carrier runs, its other bits taken. -/
theorem State.dtbCtlWrite_refused (he : bitsOf n 1 0 ≠ bitsOf (s.reg pgDtb Reg.DTB_CTL) 1 0) (hr : s.carRun = true) :
    s.dtbCtlWrite v mask
      = (s.setReg pgDtb Reg.DTB_CTL (putBits n 1 0 (bitsOf (s.reg pgDtb Reg.DTB_CTL) 1 0))).raise pgDtb 2 := by
  unfold State.dtbCtlWrite
  simp only [State.busReg_dtbCtl ho, hn, State.fld_setReg_same hc, State.setFld_setReg hc, hr, if_true]
  exact if_neg he.symm

/-- A write that changes the source begins discipline afresh. -/
theorem State.dtbCtlWrite_changed (he : bitsOf n 1 0 ≠ bitsOf (s.reg pgDtb Reg.DTB_CTL) 1 0) (hr : s.carRun = false) :
    s.dtbCtlWrite v mask
      = (s.setReg pgDtb Reg.DTB_CTL n).discipline (decide ((s.setReg pgDtb Reg.DTB_CTL n).src ≠ 0)) := by
  unfold State.dtbCtlWrite
  simp only [State.busReg_dtbCtl ho, hn, State.fld_setReg_same hc, hr, Bool.false_eq_true, if_false]
  exact if_neg he.symm

end

theorem bitsOf_lt {n : Nat} (w : BitVec n) (hi lo : Nat) : bitsOf w hi lo < 2 ^ (hi - lo + 1) := Nat.mod_lt _ (Nat.two_pow_pos _)

/-- A source is selected. -/
theorem State.src_ne_zero_iff {s : State} : s.src ≠ 0 ↔ s.fld pgDtb Reg.DTB_CTL 1 0 = 1 ∨ s.fld pgDtb Reg.DTB_CTL 1 0 = 2 := by
  have h4 : s.fld pgDtb Reg.DTB_CTL 1 0 < 4 := bitsOf_lt _ _ _
  unfold State.src
  simp only
  split <;> omega

/-- What a fresh discipline leaves of the time base and of the registers. -/
theorem State.discipline_frame {s : State} (hc : s.canonical = true) (load : Bool) :
    (s.discipline load).time
        = { s.time with loadPend := load, lockRun := 0, lastMsg := s.time.clk, heldLost := false, ptmFirst := none }
      ∧ (s.discipline load).rbit pgDtb Reg.DTB_STAT 1 = false ∧ (s.discipline load).rbit pgDtb Reg.DTB_STAT 2 = false
      ∧ (s.discipline load).rbit pgDtb Reg.DTB_STAT 3 = s.rbit pgDtb Reg.DTB_STAT 3
      ∧ ∀ o, o % 4096 ≠ Reg.DTB_STAT → (s.discipline load).reg pgDtb o = s.reg pgDtb o := by
  have h1 : (s.setBit pgDtb Reg.DTB_STAT 1 false).canonical = true := State.canonical_setBit hc _ _ _ _
  refine ⟨rfl, ?_, ?_, ?_, fun o ho => ?_⟩
  · show ((s.setBit pgDtb Reg.DTB_STAT 1 false).setBit pgDtb Reg.DTB_STAT 2 false).rbit pgDtb Reg.DTB_STAT 1 = false
    rw [State.rbit_setBit_ne h1 _ _ (by decide), State.rbit_setBit_same hc _ _ (by decide)]
  · exact State.rbit_setBit_same h1 _ _ (by decide) _
  · show ((s.setBit pgDtb Reg.DTB_STAT 1 false).setBit pgDtb Reg.DTB_STAT 2 false).rbit pgDtb Reg.DTB_STAT 3 = _
    rw [State.rbit_setBit_ne h1 _ _ (by decide), State.rbit_setBit_ne hc _ _ (by decide)]
  · have hk : regKey pgDtb o ≠ regKey pgDtb Reg.DTB_STAT := regKey_ne_of_off _ ho
    show ((s.setBit pgDtb Reg.DTB_STAT 1 false).setBit pgDtb Reg.DTB_STAT 2 false).reg pgDtb o = _
    rw [State.reg_setBit_other _ _ _ _ _ _ _ hk, State.reg_setBit_other _ _ _ _ _ _ _ hk]

theorem State.dtbMfpWrite_owned {s : State} (h : s.src = 1) (v mask : Word) : s.dtbMfpWrite v mask = s := by
  unfold State.dtbMfpWrite; rw [if_pos h]

/-- A write of the machine frame period: held to its range, and due on the root of a fabric 100 µs later. -/
theorem State.dtbMfpWrite_free {s : State} (hc : s.canonical = true) (ho : s.Open pgDtb) (h : s.src ≠ 1) {v mask m : Word}
    (hm : (s.reg pgDtb Reg.DTB_MFP &&& ~~~(mask &&& 0xFFFFFF)) ||| (v &&& mask &&& 0xFFFFFF) = m) :
    s.dtbMfpWrite v mask
      = { s.setReg pgDtb Reg.DTB_MFP (putBits m 23 0 (max 10000 (min 10000000 (bitsOf m 23 0)))) with
          time := { s.time with mfpDue := if s.isRoot then s.time.clk + 160000 else 0 } } := by
  unfold State.dtbMfpWrite
  rw [if_neg h]
  simp only [State.busReg_dtbMfp ho, hm, State.fld_setReg_same hc, State.setFld_setReg hc, clampNat_eq (show 10000 ≤ 10000000 by omega)]
  rfl

/-- Settles O31, command by command, each through the lemma that says what its write does. -/
theorem timeBaseWrites : Obligations.TimeBaseWrites := by
  intro x s s1 v mask h
  have hc : s1.canonical = true := h.2.2.2
  refine ⟨fun hs => ⟨fun hlo hhi => ?_, fun hlo => ?_, fun hhi => ?_⟩, fun hr => ⟨?_, ?_, fun hs => ?_⟩,
    fun hr => ⟨?_, ?_, fun hs => ⟨_, State.exec_dtbCmdMfload h (State.dtbMfload_idle hs hr) rfl, rfl, rfl, rfl, rfl, rfl⟩⟩,
    fun hs => State.exec_dtbCmdMfload h (State.dtbMfload_owned hs) rfl, ?_, ?_, fun ho => ⟨fun he => ?_, fun he hr => ?_,
      fun he hr => ?_, fun hs => State.exec_dtbMfpWrite h (State.dtbMfpWrite_owned hs v mask) rfl, fun hs => ?_⟩⟩
  · refine State.exec_dtbIncWrite h ?_ rfl
    rw [State.dtbIncWrite_free hs rfl, clampNat_of_mem hlo hhi]
    simp [State.raiseIf]
  · refine State.exec_dtbIncWrite h ?_ rfl
    rw [State.dtbIncWrite_free hs rfl, clampNat_of_lt hlo, decide_eq_true (Nat.ne_of_gt hlo)]
    rfl
  · refine State.exec_dtbIncWrite h ?_ rfl
    rw [State.dtbIncWrite_free hs rfl, clampNat_of_gt (by omega) hhi, decide_eq_true (Nat.ne_of_lt hhi)]
    rfl
  · exact State.exec_dtbCmdLoad h (State.dtbLoad_refused hr) rfl
  · exact State.exec_dtbCmdStep h (State.dtbStep_refused hr) rfl
  · exact State.exec_dtbCmdMfload h (State.dtbMfload_refused hs hr) rfl
  · exact State.exec_dtbCmdLoad h (State.dtbLoad_idle hr) rfl
  · intro n
    have hstep := State.dtbStep_idle hr (n := n) rfl
    by_cases hw : n < 0 ∨ 2 ^ 64 ≤ n
    · rw [decide_eq_true hw] at hstep
      rw [State.exec_dtbCmdStep h hstep rfl]
      simp only [if_pos hw]
      rfl
    · rw [decide_eq_false hw] at hstep
      rw [State.exec_dtbCmdStep h hstep rfl]
      simp only [if_neg hw]
      rfl
  · exact State.exec_dtbCmdTlclr h rfl (by split <;> rfl)
  · exact State.exec_dtbCmdPtmreq h rfl (by split <;> rfl)
  · exact State.exec_dtbCtlWrite h (State.dtbCtlWrite_same hc ho rfl he) rfl
  · exact State.exec_dtbCtlWrite h (State.dtbCtlWrite_refused hc ho rfl he hr) rfl
  · have hn := State.canonical_setReg hc pgDtb Reg.DTB_CTL
      ((s1.reg pgDtb Reg.DTB_CTL &&& ~~~(mask &&& 7)) ||| (v &&& mask &&& 7))
    obtain ⟨htime, hlock, hhold, hlost, hreg⟩ := State.discipline_frame hn (decide (State.src _ ≠ 0))
    refine ⟨_, State.exec_dtbCtlWrite h (State.dtbCtlWrite_changed hc ho rfl he hr) rfl, ?_, ?_, hlock, hhold, ?_, rfl, rfl⟩
    · exact (hreg Reg.DTB_CTL (by decide)).trans (State.reg_setReg_same hc _ _ _)
    · refine htime.trans ?_
      simp only [State.src_ne_zero_iff, State.fld_setReg_same hc]
      rfl
    · refine hlost.trans (State.rbit_congr (State.reg_setReg_other _ _ _ _ _ _ (regKey_ne_of_off _ (by decide))) 3)
  · exact State.exec_dtbMfpWrite h (State.dtbMfpWrite_free hc ho hs rfl) rfl

end Sys2Proof.Machine
end

section
/-! SUPPORT. Reads of the time: a low half with its other parts latched for the initiator (R38, R39, R51, R53, R67). -/

namespace Sys2Proof.Machine

/-- The high half of a value, as the latch takes it. -/
theorem ofNat_high {n : Nat} (w : BitVec n) : BitVec.ofNat 32 (w.toNat / 2 ^ 32) = (w >>> 32).setWidth 32 := by
  apply BitVec.eq_of_toNat_eq
  rw [BitVec.toNat_ofNat, BitVec.toNat_setWidth, BitVec.toNat_ushiftRight, Nat.shiftRight_eq_div_pow]

/-- The low half of a value, as a bus answers with it. -/
theorem setWidth_low (w : DWord) : (w.setWidth 32).setWidth 64 = w &&& 0xFFFFFFFF := by
  refine BitVec.eq_of_getLsbD_eq fun i hi => ?_
  rw [BitVec.getLsbD_and, BitVec.getLsbD_setWidth, BitVec.getLsbD_setWidth,
    show (0xFFFFFFFF : DWord) = BitVec.ofNat 64 (2 ^ 32 - 1) from rfl, BitVec.getLsbD_ofNat, Nat.testBit_two_pow_sub_one]
  simp [hi, Bool.and_comm]

theorem State.dtb_ns (s : State) : s.dtb / 2 ^ 32 = s.time.ns.toNat := by
  have := s.time.frac.isLt
  unfold State.dtb; omega

theorem State.dtb_frac (s : State) : BitVec.ofNat 32 s.dtb = s.time.frac := by
  apply BitVec.eq_of_toNat_eq
  have := s.time.frac.isLt
  rw [BitVec.toNat_ofNat]
  unfold State.dtb; omega

theorem State.dtb_lt (s : State) : s.dtb < 2 ^ 96 := by
  have h1 := s.time.ns.isLt
  have h2 := s.time.frac.isLt
  unfold State.dtb; omega

/-- A value that is latched as it is read, by its parts. -/
theorem State.latchDtb_of_lt (s : State) (i : Initiator) (p : PageId) (hi frac : Nat) {v : Nat} (hv : v < 2 ^ 96) :
    s.latchDtb i p hi frac v
      = ((s.setSnap i p hi (w32 (v / 2 ^ 64))).setSnap i p frac (w32 v), BitVec.ofNat 32 (v / 2 ^ 32)) := by
  have hns : (BitVec.ofNat 64 (v / 2 ^ 32)).toNat = v / 2 ^ 32 := by rw [BitVec.toNat_ofNat]; omega
  unfold State.latchDtb w32
  simp only [hns, Nat.div_div_eq_div_mul, ← Nat.pow_add]
  rw [BitVec.setWidth_ofNat_of_le (by omega)]

/-- The time itself, latched as it is read. -/
theorem State.latchDtb_dtb (s : State) (i : Initiator) (p : PageId) (hi frac : Nat) :
    s.latchDtb i p hi frac s.dtb = ((s.setSnap i p hi ((s.time.ns >>> 32).setWidth 32)).setSnap i p frac s.time.frac, s.time.ns.setWidth 32) := by
  unfold State.latchDtb
  rw [State.dtb_ns, State.dtb_frac, BitVec.ofNat_toNat, BitVec.setWidth_eq]
  simp only [ofNat_high]

/-- A read that reaches the page of a carrier, past its header, is what the block reads. -/
theorem State.frmRead_reaches {s s1 : State} {x : Access} {c : Fin 8} (h : s.Reaches x (pgFrm c) s1) {off : Nat} (ho : off / 4 * 4 = off)
    (hb : 0x40 ≤ off) : s.regRead x.by_ x.m (pgFrm c) off = (s1.frmRead x.by_ c off).1.answerW (s1.frmRead x.by_ c off).2 := by
  have hp : s1.pageRead x.by_ x.m (pgFrm c) off = s1.frmRead x.by_ c off := by
    unfold State.pageRead
    simp only [ho]
    rw [if_neg (by simp; omega), if_neg (by simp [pgFrm])]
    show s1.frmRead x.by_ (clu c.val) off = _
    rw [clu_val]
  rw [State.regRead_reaches h, hp]

/-! ## Each read -/

theorem exec_dtbNsLoRead (x : Access) (s : State) : exec (.dtbNsLoRead x) s = .next (s.regRead x.by_ x.m pgDtb Reg.DTB_NS_LO) := rfl
theorem exec_dtbMfnLoRead (x : Access) (s : State) : exec (.dtbMfnLoRead x) s = .next (s.regRead x.by_ x.m pgDtb Reg.DTB_MFN_LO) := rfl
theorem exec_dtbPtmOfsLoRead (x : Access) (s : State) :
    exec (.dtbPtmOfsLoRead x) s = .next (s.regRead x.by_ x.m pgDtb Reg.DTB_PTM_OFS_LO) := rfl
theorem exec_frmTickDtbLoRead (x : Access) (c : Fin 8) (s : State) :
    exec (.frmTickDtbLoRead x c) s = .next (s.regRead x.by_ x.m (pgFrm c) Reg.FRM_TICK_DTB_LO) := rfl
theorem exec_frmDtbLoRead (x : Access) (c : Fin 8) (s : State) :
    exec (.frmDtbLoRead x c) s = .next (s.regRead x.by_ x.m (pgFrm c) Reg.FRM_DTB_LO) := rfl

theorem State.dtbRead_nsLo (s : State) (i : Initiator) :
    s.dtbRead i Reg.DTB_NS_LO = s.latchDtb i pgDtb Reg.DTB_NS_HI Reg.DTB_FRAC s.dtb := rfl

theorem State.dtbRead_mfnLo (s : State) (i : Initiator) : s.dtbRead i Reg.DTB_MFN_LO
    = (((s.setSnap i pgDtb Reg.DTB_MFN_HI ((s.time.mfn >>> 32).setWidth 32)).setSnap i pgDtb Reg.DTB_MFT_LO
        (s.time.mft.setWidth 32)).setSnap i pgDtb Reg.DTB_MFT_HI ((s.time.mft >>> 32).setWidth 32), s.time.mfn.setWidth 32) := by
  rw [← ofNat_high, ← ofNat_high]; rfl

theorem State.dtbRead_ptmOfsLo (s : State) (i : Initiator) : s.dtbRead i Reg.DTB_PTM_OFS_LO
    = (s.setSnap i pgDtb Reg.DTB_PTM_OFS_HI ((s.time.ptmOfs >>> 32).setWidth 32), s.time.ptmOfs.setWidth 32) := by
  rw [← ofNat_high]; rfl

theorem State.frmRead_tickLo (s : State) (i : Initiator) (c : Fin 8) : s.frmRead i c Reg.FRM_TICK_DTB_LO
    = ((((s.setSnap i (pgFrm c) Reg.FRM_TICK_DTB_HI (((s.car c).tickDtb >>> 32).setWidth 32)).setSnap i (pgFrm c) Reg.FRM_TICK_FCNT
        (s.car c).tickFcnt).setSnap i (pgFrm c) Reg.FRM_TICK_MFN_LO ((s.car c).tickMfn.setWidth 32)).setSnap i (pgFrm c) Reg.FRM_TICK_MFN_HI
        (((s.car c).tickMfn >>> 32).setWidth 32), (s.car c).tickDtb.setWidth 32) := by
  rw [← ofNat_high, ← ofNat_high]; rfl

/-- An initiator that is no engine of the cluster reads the time as it stands. -/
theorem State.frmRead_dtbLo_other {s : State} {i : Initiator} {c : Fin 8} (h : ∀ e, i = .core (.ce e) → clusterOf e ≠ c) :
    s.frmRead i c Reg.FRM_DTB_LO = s.latchDtb i (pgFrm c) Reg.FRM_DTB_HI Reg.FRM_DTB_FRAC s.dtb := by
  rcases i with (e | a) | _ | _ | _ | _ | _
  case core.ce =>
    have hne : (clusterOf e == c) = false := beq_false_of_ne (h e rfl)
    show s.latchDtb _ _ _ _ (if (clusterOf e == c) = true then s.dtbBack 8 else s.dtb) = _
    rw [hne]
    rfl
  all_goals rfl

/-- An engine of the cluster reads the cluster's copy, 8 edges late. -/
theorem State.frmRead_dtbLo_own (s : State) {e : Fin 64} {c : Fin 8} (h : clusterOf e = c) :
    s.frmRead (.core (.ce e)) c Reg.FRM_DTB_LO = s.latchDtb (.core (.ce e)) (pgFrm c) Reg.FRM_DTB_HI Reg.FRM_DTB_FRAC (s.dtbBack 8) := by
  show s.latchDtb _ _ _ _ (if (clusterOf e == c) = true then s.dtbBack 8 else s.dtb) = _
  rw [if_pos (beq_iff_eq.2 h)]

theorem State.dtbBack_lt (s : State) (n : Nat) : s.dtbBack n < 2 ^ 96 := Nat.mod_lt _ (by decide)

/-- Where the count has changed by counting alone, the copy lies `n` increments back. -/
theorem State.dtbBack_of_steady {s : State} (h : s.time.past = []) {n : Nat} (hn : n ≤ s.time.clk) :
    s.dtbBack n = (s.dtb + 2 ^ 96 - n * s.inc) % 2 ^ 96 := by
  unfold State.dtbBack
  rw [h]
  simp only [List.filter_nil, List.getLast?_nil, Option.getD_none]
  rw [Nat.sub_sub_self hn]

/-- Settles O33: each read through what its page latches and answers. -/
theorem timeReads : Obligations.TimeReads := by
  intro x s s1 c
  simp only [exec_dtbNsLoRead, exec_dtbMfnLoRead, exec_dtbPtmOfsLoRead, exec_frmTickDtbLoRead, exec_frmDtbLoRead]
  refine ⟨fun h => ⟨?_, ?_, ?_⟩, fun h => ⟨?_, fun hne => ?_, fun e he hce => ⟨fun hp hn => State.dtbBack_of_steady hp hn, ?_⟩⟩⟩
  · rw [State.dtbRead_reaches (off := Reg.DTB_NS_LO) h rfl (by decide), State.dtbRead_nsLo, State.latchDtb_dtb, ← setWidth_low]
    rfl
  · rw [State.dtbRead_reaches (off := Reg.DTB_MFN_LO) h rfl (by decide), State.dtbRead_mfnLo]
    rfl
  · rw [State.dtbRead_reaches (off := Reg.DTB_PTM_OFS_LO) h rfl (by decide), State.dtbRead_ptmOfsLo, ← setWidth_low]
    rfl
  · rw [State.frmRead_reaches (off := Reg.FRM_TICK_DTB_LO) h rfl (by decide), State.frmRead_tickLo, ← setWidth_low]
    rfl
  · rw [State.frmRead_reaches (off := Reg.FRM_DTB_LO) h rfl (by decide), State.frmRead_dtbLo_other hne, State.latchDtb_dtb, ← setWidth_low]
    rfl
  · rw [State.frmRead_reaches (off := Reg.FRM_DTB_LO) h rfl (by decide), he, State.frmRead_dtbLo_own s1 hce,
      State.latchDtb_of_lt _ _ _ _ _ (s1.dtbBack_lt 8)]
    have hlow : (BitVec.ofNat 32 (s1.dtbBack 8 / 2 ^ 32)).setWidth 64 = BitVec.ofNat 64 (s1.dtbBack 8 / 2 ^ 32 % 2 ^ 32) := by
      apply BitVec.eq_of_toNat_eq
      rw [BitVec.toNat_setWidth, BitVec.toNat_ofNat, BitVec.toNat_ofNat]
    unfold State.answerW
    rw [hlow]

end Sys2Proof.Machine
end

section
/-! SUPPORT. Channels enter their safe vectors: what their output stages do on the way leaves every other unit, and no channel leaves
its safe vector by it (R97 to R99). -/

namespace Sys2Proof.Machine

/-! ## A channel after a change of one -/

theorem State.modC_clusters_get_other (s : State) {c d : Fin 8} (h : d ≠ c) (f : Cluster → Cluster) :
    (s.modC c f).clusters[d] = s.clusters[d] := by
  have hne : c.val ≠ d.val := fun he => h (Fin.ext he.symm)
  simp [State.modC, hne]

theorem State.pwm_modPwm_same (s : State) (c : Fin 8) (f : Pwm → Pwm) : (s.modPwm c f).pwm c = f (s.pwm c) := by
  simp only [State.pwm, State.modPwm, State.modC_clusters_get]

theorem State.pwm_modPwm_other (s : State) {c d : Fin 8} (h : d ≠ c) (f : Pwm → Pwm) : (s.modPwm c f).pwm d = s.pwm d := by
  simp only [State.pwm, State.modPwm, State.modC_clusters_get_other s h]

theorem State.ch_modCh_same (s : State) (c : Fin 8) (k : Fin 18) (f : PwmCh → PwmCh) : (s.modCh c k f).ch c k = f (s.ch c k) := by
  unfold State.ch State.modCh
  rw [State.pwm_modPwm_same]
  simp

theorem State.ch_modCh_other (s : State) {c d : Fin 8} {k j : Fin 18} (h : ¬(d = c ∧ j = k)) (f : PwmCh → PwmCh) :
    (s.modCh c k f).ch d j = s.ch d j := by
  unfold State.ch State.modCh
  by_cases hd : d = c
  · subst hd
    have hj : k.val ≠ j.val := fun he => h ⟨rfl, Fin.ext he.symm⟩
    rw [State.pwm_modPwm_same]
    simp [hj]
  · rw [State.pwm_modPwm_other s hd]

theorem State.ch_modPwm (s : State) (c : Fin 8) {f : Pwm → Pwm} (h : ∀ p, (f p).ch = p.ch) (d : Fin 8) (j : Fin 18) :
    (s.modPwm c f).ch d j = s.ch d j := by
  unfold State.ch
  by_cases hd : d = c
  · subst hd
    rw [State.pwm_modPwm_same, h]
  · rw [State.pwm_modPwm_other s hd]

/-! ## What output stages leave -/

/-- From `s` to `t` generators alone have acted, with their registers of page 0, and no channel has left its safe vector. -/
def State.SafeStays (s t : State) : Prop :=
  (∃ cl r h, t = { s with clusters := cl, regs := r, hot := h })
    ∧ (∀ (q : PageId) (o : Nat), pageKindNo q.kind ≠ pageKindNo .pwg0 → t.reg q o = s.reg q o)
    ∧ ∀ (d : Fin 8) (j : Fin 18), (s.ch d j).safe = true → (t.ch d j).safe = true

theorem State.SafeStays.refl (s : State) : s.SafeStays s := ⟨⟨s.clusters, s.regs, s.hot, rfl⟩, fun _ _ _ => rfl, fun _ _ h => h⟩

theorem State.SafeStays.trans {s t u : State} (h : s.SafeStays t) (h' : t.SafeStays u) : s.SafeStays u := by
  obtain ⟨⟨cl, r, b, rfl⟩, hreg, hsafe⟩ := h
  obtain ⟨⟨cl', r', b', rfl⟩, hreg', hsafe'⟩ := h'
  exact ⟨⟨cl', r', b', rfl⟩, fun q o hq => (hreg' q o hq).trans (hreg q o hq), fun d j hs => hsafe' d j (hsafe d j hs)⟩

theorem State.SafeStays.foldl {α : Type} {f : State → α → State} (hf : ∀ (s : State) (a : α), s.SafeStays (f s a)) (l : List α) (s : State) :
    s.SafeStays (l.foldl f s) :=
  foldl_keeps (P := fun t => s.SafeStays t) f l s (.refl s) fun t a ht => ht.trans (hf t a)

theorem State.SafeStays.modCh (s : State) (c : Fin 8) (k : Fin 18) {f : PwmCh → PwmCh} (hf : ∀ x, x.safe = true → (f x).safe = true) :
    s.SafeStays (s.modCh c k f) := by
  refine ⟨⟨_, s.regs, s.hot, rfl⟩, fun _ _ _ => rfl, fun d j hs => ?_⟩
  by_cases h : d = c ∧ j = k
  · obtain ⟨rfl, rfl⟩ := h
    rw [State.ch_modCh_same]
    exact hf _ hs
  · rw [State.ch_modCh_other s h]
    exact hs

theorem State.SafeStays.modPwm (s : State) (c : Fin 8) {f : Pwm → Pwm} (hf : ∀ p, (f p).ch = p.ch) : s.SafeStays (s.modPwm c f) :=
  ⟨⟨_, s.regs, s.hot, rfl⟩, fun _ _ _ => rfl, fun d j hs => by rw [State.ch_modPwm s c hf]; exact hs⟩

theorem State.SafeStays.stick (s : State) (c : Fin 8) (off i : Nat) : s.SafeStays (s.stick (pgPwg0 c) off i) :=
  ⟨⟨s.clusters, _, _, rfl⟩, fun _ _ hq => State.reg_stick_other s i (regKey_ne_of_kind hq _ _), fun _ _ hs => hs⟩

theorem State.SafeStays.raiseIf (s : State) (b : Bool) (c : Fin 8) (i : Nat) : s.SafeStays (s.raiseIf b (pgPwg0 c) i) := by
  unfold State.raiseIf
  split
  · exact .stick s c _ i
  · exact .refl s

theorem State.SafeStays.ite {s t u : State} {p : Prop} [Decidable p] (ht : s.SafeStays t) (hu : s.SafeStays u) :
    s.SafeStays (if p then t else u) := by
  split
  · exact ht
  · exact hu

/-- An edge opens blanking windows. -/
theorem State.SafeStays.blankEdge (s : State) (c : Fin 8) (k : Fin 18) (isH : Bool) (t : Nat) : s.SafeStays (s.blankEdge c k isH t) := by
  unfold State.blankEdge
  refine .foldl (fun u _ => ?_) _ s
  exact .ite (.modPwm u c fun _ => rfl) (.refl u)

theorem State.SafeStays.setOut (s : State) (c : Fin 8) (k : Fin 18) (h l : Bool) (t : Nat) : s.SafeStays (s.setOut c k h l t) := by
  have h1 : s.SafeStays (s.modCh c k fun x => { x with outH := h, outL := l }) := .modCh s c k fun _ hs => hs
  have h2 := State.SafeStays.ite (p := ((s.ch c k).outH == h) = true) h1 (h1.trans (.blankEdge _ c k true t))
  exact .ite h2 (h2.trans (.blankEdge _ c k false t))

theorem State.SafeStays.turnOn (s : State) (c : Fin 8) (k : Fin 18) (isH : Bool) (dt t : Nat) : s.SafeStays (s.turnOn c k isH dt t) :=
  .ite (.setOut s c k isH (!isH) t) (.modCh s c k fun _ hs => hs)

theorem State.SafeStays.bothOff (s : State) (c : Fin 8) (k : Fin 18) (t : Nat) : s.SafeStays (s.bothOff c k t) :=
  (State.SafeStays.modCh s c k (f := fun x => { x with dead := none }) fun _ hs => hs).trans (.setOut _ c k false false t)

theorem State.SafeStays.forceOut (s : State) (c : Fin 8) (k : Fin 18) (enc t : Nat) : s.SafeStays (s.forceOut c k enc t) := by
  have hoff := State.SafeStays.bothOff s c k t
  exact .ite (hoff.trans (.turnOn _ c k true _ t)) (.ite (hoff.trans (.turnOn _ c k false _ t)) hoff)

theorem State.SafeStays.enterMode (s : State) (c : Fin 8) (k : Fin 18) (m : OutMode) (t : Nat) : s.SafeStays (s.enterMode c k m t) := by
  have h1 : s.SafeStays (s.modCh c k fun x => { x with mode := m }) := .modCh s c k fun _ hs => hs
  cases m with
  | stopped => exact h1.trans (.bothOff _ c k t)
  | tripped => exact h1.trans (.forceOut _ c k _ t)
  | safe => exact h1.trans (.forceOut _ c k _ t)
  | running =>
    have h2 := h1.trans (.bothOff _ c k t)
    exact .ite (h2.trans (.turnOn _ c k true _ t)) (h2.trans (.turnOn _ c k false _ t))

theorem State.SafeStays.settle (s : State) (c : Fin 8) (k : Fin 18) (t : Nat) : s.SafeStays (s.settle c k t) :=
  .ite (.enterMode s c k _ t) (.refl s)

/-! ## The safe vector is entered -/

theorem State.SafeStays.enterSafe (s : State) (c : Fin 8) (k : Fin 18) (ovr sw : Bool) : s.SafeStays (s.enterSafe c k ovr sw) :=
  ((State.SafeStays.modCh s c k fun _ _ => rfl).trans (.raiseIf _ _ c 6)).trans (.settle _ c k _)

/-- A channel that enters its safe vector is in it. -/
theorem State.enterSafe_safe (s : State) (c : Fin 8) (k : Fin 18) (ovr sw : Bool) : ((s.enterSafe c k ovr sw).ch c k).safe = true := by
  unfold State.enterSafe
  refine ((State.SafeStays.raiseIf _ _ c 6).trans (.settle _ c k _)).2.2 c k ?_
  rw [State.ch_modCh_same]

/-- A loop that brings each of its channels, or each of its clusters, into the safe vector leaves them all there. -/
theorem foldl_safe {α : Type} {f : State → α → State} (hf : ∀ (s : State) (a : α), s.SafeStays (f s a)) {P : State → α → Prop}
    (hP : ∀ (s t : State) (a : α), s.SafeStays t → P s a → P t a) (hin : ∀ s a, P (f s a) a) (l : List α) (s : State) {a : α} (ha : a ∈ l) :
    P (l.foldl f s) a := by
  induction l generalizing s with
  | nil => cases ha
  | cons b l ih =>
    rcases List.mem_cons.1 ha with rfl | ha
    · exact hP _ _ _ (.foldl hf l _) (hin s a)
    · exact ih (f s b) ha

theorem State.SafeStays.safeCluster (s : State) (c : Fin 8) (bit : Option Nat) : s.SafeStays (s.safeCluster c bit) := by
  have hall : ∀ u : State, u.SafeStays (u.forCh fun s k => s.enterSafe c k false false) :=
    fun u => .foldl (fun s k => .enterSafe s c k false false) _ u
  unfold State.safeCluster
  refine .ite (.refl s) ?_
  cases bit with
  | none => exact hall s
  | some b => exact (State.SafeStays.stick s c _ b).trans (hall _)

theorem State.domOn_of_safeStays {s t : State} (h : s.SafeStays t) (d : Nat) : t.domOn d = s.domOn d := by
  unfold State.domOn State.fld
  rw [h.2.1 pgPwr _ (by decide)]

/-- Every channel of a generator that has power is in its safe vector. -/
def State.ClusterSafe (s : State) (c : Fin 8) : Prop := s.domOn (66 + 5 * c.val) = true → ∀ k : Fin 18, (s.ch c k).safe = true

theorem State.ClusterSafe.stays {s t : State} (h : s.SafeStays t) {c : Fin 8} (hs : s.ClusterSafe c) : t.ClusterSafe c :=
  fun hd k => h.2.2 c k (hs (by rw [← State.domOn_of_safeStays h]; exact hd) k)

theorem State.safeCluster_safe (s : State) (c : Fin 8) (bit : Option Nat) : (s.safeCluster c bit).ClusterSafe c := by
  intro hd k
  rw [State.domOn_of_safeStays (.safeCluster s c bit)] at hd
  unfold State.safeCluster
  rw [if_neg (by simp [hd])]
  exact foldl_safe (P := fun u (j : Fin 18) => (u.ch c j).safe = true) (fun u j => .enterSafe u c j false false)
    (fun _ _ j hst hs => hst.2.2 c j hs) (fun u j => u.enterSafe_safe c j false false) _ _ (List.mem_finRange k)

theorem State.SafeStays.safeAll (s : State) (bit : Option Nat) : s.SafeStays (s.safeAll bit) :=
  .foldl (fun u c => .safeCluster u c bit) _ s

/-- After a stop of every cluster, every channel with power is in its safe vector. -/
theorem State.safeAll_safe (s : State) (bit : Option Nat) (c : Fin 8) : (s.safeAll bit).ClusterSafe c :=
  foldl_safe (P := State.ClusterSafe) (fun u c => .safeCluster u c bit) (fun _ _ _ hst hs => hs.stays hst)
    (fun u c => u.safeCluster_safe c bit) _ s (List.mem_finRange c)

end Sys2Proof.Machine
end

section
/-! SUPPORT. What the time base does by itself: its wrap, machine frames, holdover and the dialogs with the host (R34, R37, R51, R64, R65, R67). -/

namespace Sys2Proof.Machine

/-! ## Edges of its clock -/

theorem State.raiseIf_time (s : State) (b : Bool) (p : PageId) (i : Nat) : (s.raiseIf b p i).time = s.time := by
  obtain ⟨_, _, e⟩ := s.raiseIf_frame b p i; rw [e]

/-- The time base `n` edges on, its wrap's event apart. -/
def State.counted (s : State) (n : Nat) : State :=
  { s with time := { s.time.setDtb (s.dtb + n * s.inc) with clk := s.time.clk + n } }

theorem State.edges_eq (s : State) (n : Nat) :
    s.edges n = (s.counted n).raiseIf (decide (2 ^ 96 ≤ s.dtb + n * s.inc)) pgDtb 0 := rfl

theorem State.edges_time (s : State) (n : Nat) : (s.edges n).time = (s.counted n).time := by
  rw [State.edges_eq, State.raiseIf_time]

/-- Edges change the time base, its event and what the hardware has set. -/
theorem State.edges_frame (s : State) (n : Nat) : ∃ τ r h, s.edges n = { s with time := τ, regs := r, hot := h } := by
  rw [State.edges_eq]
  obtain ⟨r, h, e⟩ := (s.counted n).raiseIf_frame (decide (2 ^ 96 ≤ s.dtb + n * s.inc)) pgDtb 0
  exact ⟨(s.counted n).time, r, h, e⟩

theorem TimeBase.setDtb_value (t : TimeBase) (v : Nat) : (t.setDtb v).ns.toNat * 2 ^ 32 + (t.setDtb v).frac.toNat = v % 2 ^ 96 := by
  unfold TimeBase.setDtb
  simp only [BitVec.toNat_ofNat]
  omega

/-- A field that counting leaves. (Stated of variables: the kernel compares records field by field, a wrap at 2 ^ 64 among them.) -/
theorem TimeBase.setDtb_ptmBusy (t : TimeBase) (v n : Nat) : ({ t.setDtb v with clk := n } : TimeBase).ptmBusy = t.ptmBusy := rfl

/-- Edges add the increment each, up to the wrap. -/
theorem State.dtb_edges (s : State) (n : Nat) : (s.edges n).dtb = (s.dtb + n * s.inc) % 2 ^ 96 := by
  unfold State.dtb
  rw [State.edges_time]
  exact TimeBase.setDtb_value s.time _

/-- A wrap raises its event. -/
theorem State.edges_wraps {s : State} (hc : s.canonical = true) {n : Nat} (h : 2 ^ 96 ≤ s.dtb + n * s.inc) :
    (s.edges n).rbit pgDtb Reg.PAGE_IRQ_STAT 0 = true := by
  rw [State.edges_eq, decide_eq_true h]
  exact State.rbit_raise_same (s := s.counted n) hc pgDtb (by decide)

/-- The first multiple of `i` that reaches `d` lies less than `i` beyond it. -/
theorem ceilDiv_mul {d i : Nat} (hi : 0 < i) : d ≤ (d + i - 1) / i * i ∧ (d + i - 1) / i * i < d + i := by
  have h1 := Nat.div_add_mod (d + i - 1) i
  have h2 := Nat.mod_lt (d + i - 1) hi
  rw [Nat.mul_comm] at h1
  omega

/-- The edges up to the next wrap. -/
theorem State.wrapEdges {s : State} (h : 0 < s.inc) {n : Nat} (hn : (2 ^ 96 - s.dtb + s.inc - 1) / s.inc = n) :
    2 ^ 96 ≤ s.dtb + n * s.inc ∧ s.dtb + n * s.inc < 2 ^ 96 + s.inc := by
  have hd := s.dtb_lt
  have hm := ceilDiv_mul (d := 2 ^ 96 - s.dtb) h
  rw [hn] at hm
  omega

/-- Edges leave the registers of the time base but its events. -/
theorem State.reg_edges (s : State) (n : Nat) {p : PageId} {o : Nat} (h : regKey p o ≠ regKey pgDtb Reg.PAGE_IRQ_STAT) :
    (s.edges n).reg p o = s.reg p o := by
  rw [State.edges_eq]
  unfold State.raiseIf
  split
  · exact State.reg_raise_other _ 0 h
  · rfl

/-- Time that passes leaves every other field of the time base. -/
theorem State.advance_time (s : State) (t : Nat) : (s.advance t).time = (s.counted (t / Config.stepsPerClk - s.time.clk)).time :=
  s.edges_time _

theorem State.reg_advance_other (s : State) (t : Nat) {p : PageId} {o : Nat} (h : regKey p o ≠ regKey pgDtb Reg.PAGE_IRQ_STAT) :
    (s.advance t).reg p o = s.reg p o := s.reg_edges _ h

theorem State.advance_dma (s : State) (t : Nat) : (s.advance t).dma = s.dma := by
  obtain ⟨_, _, _, e⟩ := s.edges_frame (t / Config.stepsPerClk - s.time.clk)
  unfold State.advance; rw [e]

/-! ## A machine frame ends (R51, R561, R563) -/

/-- From `s` to `t` slots of the fabric have counted frames that they missed: registers of its page alone differ. -/
def State.SlotsMissed (s t : State) : Prop :=
  (∃ r h, t = { s with regs := r, hot := h })
    ∧ ∀ (q : PageId) (o : Nat), pageKindNo q.kind ≠ pageKindNo .strCommon → t.reg q o = s.reg q o

/-- Slots that missed their frame count it and raise the event: registers of the fabric's page, and no other field but its slots. -/
theorem State.cyclicBoundary_frame (s : State) :
    ∃ r h f, s.cyclicBoundary = { s with regs := r, hot := h, fab := f } ∧ f.rxHit = 0 ∧ f.txDone = 0
      ∧ ∀ (q : PageId) (o : Nat), pageKindNo q.kind ≠ pageKindNo .strCommon → s.cyclicBoundary.reg q o = s.reg q o := by
  have key : ∀ l : List (Fin 16), State.SlotsMissed s (l.foldl (fun s (r : Fin 16) =>
      if s.rbit pgStr (Reg.STR_RX_CFG r) 0 && !s.fab.rxHit.getLsbD r then (s.count pgStr (Reg.STR_RX_STAT r) 15 0).raise pgStr 4 else s) s) := by
    intro l
    refine foldl_keeps (P := State.SlotsMissed s) _ l s ⟨⟨s.regs, s.hot, rfl⟩, fun _ _ _ => rfl⟩ ?_
    rintro t r ⟨⟨_, _, rfl⟩, hreg⟩
    split
    · obtain ⟨r', h', e⟩ := State.count_frame _ pgStr (Reg.STR_RX_STAT r) 15 0
      refine ⟨?_, fun q o hq => ?_⟩
      · rw [e]; exact ⟨_, _, rfl⟩
      · rw [State.reg_raise_other _ _ (regKey_ne_of_kind hq _ _), State.reg_count_other _ _ _ (regKey_ne_of_kind hq _ _), hreg q o hq]
    · exact ⟨⟨_, _, rfl⟩, hreg⟩
  obtain ⟨⟨r, h, e⟩, hreg⟩ := key (List.finRange 16)
  refine ⟨r, h, { s.fab with rxHit := 0, txDone := 0 }, ?_, rfl, rfl, hreg⟩
  unfold State.cyclicBoundary
  rw [e]
  rfl

/-- The frame that follows that of `s` begins in `u`, with its number, its start and its period. -/
def State.beginFrame (u s : State) : State :=
  { u with time := { u.time with
    mfn := s.time.mfn + 1, mft := s.time.mft + BitVec.ofNat 64 s.time.mfp
    mfp := if s.time.mfpDue ≤ u.time.clk then s.fld pgDtb Reg.DTB_MFP 23 0 else s.time.mfp } }

theorem State.mfBoundaryEvent_eq (s : State) : s.mfBoundaryEvent
    = (((s.advance s.mfBoundary).beginFrame s).raiseIf (s.time.mfn + 1 == 0) pgDtb 7).cyclicBoundary := rfl

/-- What the boundary leaves of the state `u` in which its instant is reached. -/
theorem State.frameEnd_frame (u s : State) (b : Bool) :
    let t := ((u.beginFrame s).raiseIf b pgDtb 7).cyclicBoundary
    t.time = (u.beginFrame s).time ∧ t.fab.rxHit = 0 ∧ t.fab.txDone = 0 ∧ t.mem = u.mem ∧ t.clusters = u.clusters ∧ t.cores = u.cores
      ∧ t.dma = u.dma ∧ (b = true → u.canonical = true → t.rbit pgDtb Reg.PAGE_IRQ_STAT 7 = true) := by
  obtain ⟨r, h, f, e, hrx, htx, hreg⟩ := ((u.beginFrame s).raiseIf b pgDtb 7).cyclicBoundary_frame
  obtain ⟨r', h', e'⟩ := (u.beginFrame s).raiseIf_frame b pgDtb 7
  intro t
  have ht : t = { u.beginFrame s with regs := r, hot := h, fab := f } := e.trans (by rw [e'])
  refine ⟨by rw [ht], by rw [ht]; exact hrx, by rw [ht]; exact htx, by rw [ht]; rfl, by rw [ht]; rfl, by rw [ht]; rfl, by rw [ht]; rfl, ?_⟩
  intro hb hc
  have hcu : (u.beginFrame s).canonical = true := State.canonical_congr hc rfl rfl rfl
  rw [State.rbit_congr (hreg pgDtb _ (by decide)), hb]
  exact State.rbit_raise_same hcu pgDtb (by decide)

/-! ## Holdover and the loss of time (R65) -/

theorem State.holdover_idle {s : State} (h : s.src ≠ 1 ∨ s.rbit pgDtb Reg.DTB_STAT 2 = true) : s.holdover = s := by
  unfold State.holdover; rw [if_pos h]

theorem State.holdover_begins {s : State} (hs : s.src = 1) (hb : s.rbit pgDtb Reg.DTB_STAT 2 = false) {u : State}
    (hu : (s.advance ((s.time.lastMsg + 160000) * Config.stepsPerClk)).setBit pgDtb Reg.DTB_STAT 2 true = u) :
    s.holdover = { u with time := { u.time with reacq := true } } := by
  subst hu
  unfold State.holdover
  rw [if_neg (by simp [hs, hb])]

theorem State.holdoverLost_idle {s : State} (h : s.src ≠ 1 ∨ s.rbit pgDtb Reg.DTB_STAT 2 = false ∨ s.time.heldLost = true) :
    s.holdoverLost = s := by
  unfold State.holdoverLost; rw [if_pos (by simpa using h)]

theorem State.holdoverLost_ends {s : State} (hs : s.src = 1) (hb : s.rbit pgDtb Reg.DTB_STAT 2 = true) (hl : s.time.heldLost = false)
    {u : State} (hu : s.advance ((s.time.lastMsg + 1760000) * Config.stepsPerClk) = u) :
    s.holdoverLost = { u with time := { u.time with heldLost := true } }.timeLoss := by
  subst hu
  unfold State.holdoverLost
  rw [if_neg (by simp [hs, hb, hl])]

/-- The state in which a loss of time is recorded, before the outputs follow. -/
def State.lossRecorded (s : State) : State :=
  ((s.setBit pgDtb Reg.DTB_STAT 3 true).raise pgDtb 3).count pgDtb Reg.DTB_TLOST_CNT 7 0

theorem State.timeLoss_eq (s : State) : s.timeLoss = s.lossRecorded.safeAll none := rfl

theorem State.lossRecorded_frame {s : State} (hc : s.canonical = true) :
    (∃ r h, s.lossRecorded = { s with regs := r, hot := h })
      ∧ s.lossRecorded.rbit pgDtb Reg.DTB_STAT 3 = true ∧ s.lossRecorded.rbit pgDtb Reg.PAGE_IRQ_STAT 3 = true
      ∧ ∀ d, s.lossRecorded.domOn d = s.domOn d := by
  have hb := State.canonical_setBit hc pgDtb Reg.DTB_STAT 3 true
  unfold State.lossRecorded
  refine ⟨?_, ?_, ?_, fun d => ?_⟩
  · obtain ⟨r, h, e⟩ := ((s.setBit pgDtb Reg.DTB_STAT 3 true).raise pgDtb 3).count_frame pgDtb Reg.DTB_TLOST_CNT 7 0
    exact ⟨r, h, e⟩
  · rw [State.rbit_congr (State.reg_count_other _ _ _ (regKey_ne_of_off _ (by decide))),
      State.rbit_congr (State.reg_raise_other _ _ (regKey_ne_of_off _ (by decide)))]
    exact State.rbit_setBit_same hc _ _ (by decide) _
  · rw [State.rbit_congr (State.reg_count_other _ _ _ (regKey_ne_of_off _ (by decide)))]
    exact State.rbit_raise_same hb pgDtb (by decide)
  · have hk : ∀ o, regKey pgPwr (Reg.PWR_DOM d) ≠ regKey pgDtb o := fun o => regKey_ne_of_kind (by decide) _ _
    unfold State.domOn State.fld
    rw [State.reg_count_other _ _ _ (hk _), State.reg_raise_other _ _ (hk _), State.reg_setBit_other _ _ _ _ _ _ _ (hk _)]

/-- A loss of time: its bit and its event, and every channel with power in its safe vector. -/
theorem State.timeLoss_frame {s : State} (hc : s.canonical = true) :
    s.timeLoss.time = s.time ∧ s.timeLoss.mem = s.mem ∧ s.timeLoss.cores = s.cores
      ∧ s.timeLoss.rbit pgDtb Reg.DTB_STAT 3 = true ∧ s.timeLoss.rbit pgDtb Reg.PAGE_IRQ_STAT 3 = true
      ∧ ∀ c : Fin 8, s.domOn (66 + 5 * c.val) = true → ∀ k : Fin 18, (s.timeLoss.ch c k).safe = true := by
  obtain ⟨⟨r, h, e⟩, hlost, hirq, hdom⟩ := State.lossRecorded_frame hc
  have hst := State.SafeStays.safeAll s.lossRecorded none
  obtain ⟨⟨cl, r', h', e'⟩, hreg, -⟩ := id hst
  have hsafe := s.lossRecorded.safeAll_safe none
  rw [State.timeLoss_eq]
  refine ⟨by rw [e', e], by rw [e', e], by rw [e', e], ?_, ?_, fun c hd => hsafe c ?_⟩
  · rw [State.rbit_congr (hreg pgDtb _ (by decide)), hlost]
  · rw [State.rbit_congr (hreg pgDtb _ (by decide)), hirq]
  · rw [State.domOn_of_safeStays hst, hdom, hd]

/-! ## Dialogs with the host (R64, R67) -/

theorem State.ptmDue_off {s : State} (h : s.rbit pgDtb Reg.DTB_CTL 2 = false) : s.ptmDue = s := by
  unfold State.ptmDue; rw [h]; rfl

theorem State.ptmDue_on {s : State} (h : s.rbit pgDtb Reg.DTB_CTL 2 = true) {u : State}
    (hu : s.advance ((s.time.ptmLast + s.fld pgDtb Reg.DTB_PTM_CTL 9 0 * 1600000) * Config.stepsPerClk) = u) :
    s.ptmDue = { u with time := { u.time with ptmLast := u.time.clk } }.ptmStart := by
  subst hu
  unfold State.ptmDue
  rw [if_neg (by simp [h])]

/-- A dialog that is due starts where the host allows it, and fails where it does not. -/
theorem State.ptmStart_frame {s : State} (hc : s.canonical = true) :
    s.ptmStart.time = { s.time with ptmBusy := s.time.ptmBusy || s.rbit pgCxl Reg.CXL_STAT 12 }
      ∧ s.ptmStart.mem = s.mem ∧ s.ptmStart.clusters = s.clusters ∧ s.ptmStart.cores = s.cores
      ∧ (s.rbit pgCxl Reg.CXL_STAT 12 = false → s.ptmStart.rbit pgDtb Reg.PAGE_IRQ_STAT 6 = true) := by
  unfold State.ptmStart
  cases hb : s.rbit pgCxl Reg.CXL_STAT 12
  · rw [if_neg (by decide), Bool.or_false]
    exact ⟨rfl, rfl, rfl, rfl, fun _ => State.rbit_raise_same hc pgDtb (by decide)⟩
  · rw [if_pos rfl, Bool.or_true]
    exact ⟨rfl, rfl, rfl, rfl, fun h => absurd h (by decide)⟩

/-- The servo has set the increment, the run of good offsets and the lock. -/
def State.servoSets (s : State) (inc run : Nat) (lock event : Bool) : State :=
  let s1 := s.dtbPast.draw.setReg pgDtb Reg.DTB_INC (w32 inc)
  ({ s1 with time := { s1.time with lockRun := run } }.setBit pgDtb Reg.DTB_STAT 1 lock).raiseIf event pgDtb 4

theorem State.servo_sets (s : State) (d : Int) :
    ∃ inc run lock event, 0x9FEB851F ≤ inc ∧ inc ≤ 0xA0147AE1 ∧ s.servo d = s.servoSets inc run lock event := by
  obtain ⟨hlo, hhi⟩ := le_clampNat (show Config.incMin ≤ Config.incMax by decide) (Config.servoInc d s.inc s.free)
  exact ⟨_, _, _, _, hlo, hhi, rfl⟩

theorem State.servoSets_frame (s : State) (inc run : Nat) (lock event : Bool) :
    (s.servoSets inc run lock event).time = { s.dtbPast.time with lockRun := run } ∧ (s.servoSets inc run lock event).mem = s.mem
      ∧ (s.servoSets inc run lock event).clusters = s.clusters ∧ (s.servoSets inc run lock event).cores = s.cores := by
  unfold State.servoSets
  cases event <;> exact ⟨rfl, rfl, rfl, rfl⟩

theorem State.servoSets_inc {s : State} (hc : s.canonical = true) {inc : Nat} (h : inc ≤ 0xA0147AE1) (run : Nat) (lock event : Bool) :
    (s.servoSets inc run lock event).inc = inc := by
  have hcd : s.dtbPast.draw.canonical = true := State.canonical_congr hc rfl rfl rfl
  have hreg : (s.servoSets inc run lock event).reg pgDtb Reg.DTB_INC = (s.dtbPast.draw.setReg pgDtb Reg.DTB_INC (w32 inc)).reg pgDtb Reg.DTB_INC := by
    have hbit : ∀ u : State, (u.setBit pgDtb Reg.DTB_STAT 1 lock).reg pgDtb Reg.DTB_INC = u.reg pgDtb Reg.DTB_INC :=
      fun u => State.reg_setBit_other _ _ _ _ _ _ _ (regKey_ne_of_off _ (by decide))
    cases event
    · exact hbit _
    · exact (State.reg_raise_other _ _ (regKey_ne_of_off _ (by decide))).trans (hbit _)
  unfold State.inc
  rw [hreg, State.reg_setReg_same hcd]
  unfold w32
  rw [BitVec.toNat_ofNat]
  omega

/-- A disciplined increment stays within its range, and the time does not jump. -/
theorem State.servo_frame {s : State} (hc : s.canonical = true) (d : Int) :
    (s.servo d).time.ns = s.time.ns ∧ (s.servo d).time.ptmOfs = s.time.ptmOfs ∧ 0x9FEB851F ≤ (s.servo d).inc ∧ (s.servo d).inc ≤ 0xA0147AE1
      ∧ (s.servo d).mem = s.mem ∧ (s.servo d).clusters = s.clusters ∧ (s.servo d).cores = s.cores := by
  obtain ⟨inc, run, lock, event, hlo, hhi, e⟩ := s.servo_sets d
  obtain ⟨htime, hmem, hcl, hco⟩ := s.servoSets_frame inc run lock event
  rw [e, State.servoSets_inc hc hhi, htime]
  exact ⟨rfl, rfl, hlo, hhi, hmem, hcl, hco⟩

/-- A dialog has brought the host's time `h`. -/
def State.ptmTaken (s : State) (h : DWord) : State :=
  ({ s with time := { s.time with ptmBusy := false, ptmOfs := h - s.time.ns } }.raise pgDtb 5).count pgDtb Reg.DTB_PTM_CNT 15 0

theorem State.ptmTaken_frame {s : State} (h : DWord) :
    (s.ptmTaken h).time = { s.time with ptmBusy := false, ptmOfs := h - s.time.ns } ∧ (s.ptmTaken h).mem = s.mem
      ∧ (s.ptmTaken h).clusters = s.clusters ∧ (s.ptmTaken h).cores = s.cores := by
  unfold State.ptmTaken
  exact ⟨State.count_time .., State.count_mem .., State.count_clusters .., State.count_cores ..⟩

theorem State.canonical_ptmTaken {s : State} (hc : s.canonical = true) (h : DWord) : (s.ptmTaken h).canonical = true :=
  State.canonical_count (State.canonical_raise
    (State.canonical_congr (t := { s with time := { s.time with ptmBusy := false, ptmOfs := h - s.time.ns } }) hc rfl rfl rfl) _ _) _ _ _ _

/-- The time base is loaded with `v` by the first answer of the dialogs. -/
def State.ptmLoaded (s : State) (v : Nat) : State :=
  { s.dtbPast with time := { s.dtbPast.time.setDtb v with loadPend := false, ptmFirst := some 0 } }

theorem State.ptmLoaded_frame (s : State) (v : Nat) :
    (s.ptmLoaded v).time.ns = BitVec.ofNat 64 (v / 2 ^ 32) ∧ (s.ptmLoaded v).time.frac = BitVec.ofNat 32 v
      ∧ (s.ptmLoaded v).time.ptmFirst = some 0 ∧ (s.ptmLoaded v).time.loadPend = false ∧ (s.ptmLoaded v).time.ptmOfs = s.time.ptmOfs
      ∧ (s.ptmLoaded v).mem = s.mem ∧ (s.ptmLoaded v).clusters = s.clusters ∧ (s.ptmLoaded v).cores = s.cores :=
  ⟨rfl, rfl, rfl, rfl, rfl, rfl, rfl, rfl⟩

/-- A whole number of ns has no fraction. -/
theorem dtb_whole (h : DWord) : BitVec.ofNat 64 (h.toNat * 2 ^ 32 / 2 ^ 32) = h ∧ BitVec.ofNat 32 (h.toNat * 2 ^ 32) = 0 := by
  refine ⟨by rw [Nat.mul_div_cancel _ (by decide), BitVec.ofNat_toNat, BitVec.setWidth_eq], ?_⟩
  apply BitVec.eq_of_toNat_eq
  rw [BitVec.toNat_ofNat, Nat.mul_mod_left]
  rfl

theorem State.ptmAnswer_unasked {s : State} (h : s.time.ptmBusy = false) (o : Option DWord) : s.ptmAnswer o = s := by
  unfold State.ptmAnswer; rw [h]; rfl

section
variable {s : State} (hb : s.time.ptmBusy = true)
include hb

theorem State.ptmAnswer_none : s.ptmAnswer none = { s with time := { s.time with ptmBusy := false } }.raise pgDtb 6 := by
  unfold State.ptmAnswer; rw [hb]; rfl

/-- The host's time while it is not the source. -/
theorem State.ptmAnswer_shown (hs : s.src ≠ 2) (h : DWord) : s.ptmAnswer (some h) = s.ptmTaken h := by
  unfold State.ptmAnswer
  rw [if_neg (by simp [hb])]
  exact if_pos hs

/-- A later answer of the dialogs disciplines the increment. -/
theorem State.ptmAnswer_disciplines (hs : s.src = 2) {f : DWord} (hf : s.time.ptmFirst = some f) (h : DWord) :
    s.ptmAnswer (some h) = (s.ptmTaken h).servo ((h - s.time.ns - f).toInt * 16) := by
  unfold State.ptmAnswer
  rw [if_neg (by simp [hb])]
  refine (if_neg (not_not.2 hs)).trans ?_
  split
  next g hg =>
    rw [Option.some.inj (hf.symm.trans hg)]
    rfl
  next hg => exact absurd (hf.symm.trans hg) (by simp)

/-- The first answer loads the time base while no carrier runs. -/
theorem State.ptmAnswer_loads (hs : s.src = 2) (hf : s.time.ptmFirst = none) (hl : s.time.loadPend = true) (hr : s.carRun = false) (h : DWord) :
    s.ptmAnswer (some h) = (s.ptmTaken h).ptmLoaded (h.toNat * 2 ^ 32) := by
  unfold State.ptmAnswer
  rw [if_neg (by simp [hb])]
  refine (if_neg (not_not.2 hs)).trans ?_
  split
  next g hg => exact absurd (hf.symm.trans hg) (by simp)
  next => exact if_pos (by rw [hl, hr]; rfl)

end

/-! ## The events -/

theorem exec_dtbWrap (s : State) : exec .dtbWrap s = .next (s.edges ((2 ^ 96 - s.dtb + s.inc - 1) / s.inc)) := rfl
theorem exec_machineFrameBoundary (s : State) : exec .machineFrameBoundary s = .next s.mfBoundaryEvent := rfl
theorem exec_timeHoldover (s : State) : exec .timeHoldover s = .next s.holdover := rfl
theorem exec_fabricTimeLost (s : State) : exec .fabricTimeLost s = .next s.holdoverLost := rfl
theorem exec_ptmDialogDue (s : State) : exec .ptmDialogDue s = .next s.ptmDue := rfl
theorem exec_ptmResponse (o : Option DWord) (s : State) : exec (.ptmResponse o) s = .next (s.ptmAnswer o) := rfl

/-- The state in which an instant is reached, by what it shares with the one before. -/
theorem State.exists_advance {s : State} (hc : s.canonical = true) (t : Nat) :
    ∃ u, s.advance t = u ∧ u.canonical = true ∧ u.time.clk = max s.time.clk (t / 16) ∧ u.time.ptmBusy = s.time.ptmBusy ∧ u.mem = s.mem
      ∧ u.clusters = s.clusters ∧ u.cores = s.cores ∧ u.dma = s.dma ∧ (∀ d, u.domOn d = s.domOn d)
      ∧ u.reg pgDtb Reg.DTB_INC = s.reg pgDtb Reg.DTB_INC ∧ u.rbit pgCxl Reg.CXL_STAT 12 = s.rbit pgCxl Reg.CXL_STAT 12 :=
  ⟨s.advance t, rfl, State.canonical_advance hc t, s.advance_clk t, by rw [State.advance_time]; exact TimeBase.setDtb_ptmBusy _ _ _, s.advance_mem t, s.advance_clusters t,
    s.advance_cores t, s.advance_dma t, s.domOn_advance t, s.reg_advance_other t (regKey_ne_of_off _ (by decide)),
    State.rbit_congr (s.reg_advance t (q := pgCxl) (by decide) Reg.CXL_STAT) 12⟩

/-- An instant that is given in clocks. -/
theorem clks_div (n : Nat) : n * Config.stepsPerClk / 16 = n := Nat.mul_div_cancel n (by decide)

/-- A machine frame boundary: number, start and period follow. -/
theorem State.mfBoundaryEvent_effect {s : State} (hc : s.canonical = true) : ∃ t, s.mfBoundaryEvent = t ∧ t.time.mfn = s.time.mfn + 1
      ∧ t.time.mft = s.time.mft + BitVec.ofNat 64 s.time.mfp
      ∧ t.time.mfp = (if s.time.mfpDue ≤ t.time.clk then s.fld pgDtb Reg.DTB_MFP 23 0 else s.time.mfp)
      ∧ t.time.clk = max s.time.clk (s.mfBoundary / 16) ∧ (s.time.mfn = 0xFFFFFFFFFFFF → t.rbit pgDtb Reg.PAGE_IRQ_STAT 7 = true)
      ∧ t.fab.rxHit = 0 ∧ t.fab.txDone = 0 ∧ t.mem = s.mem ∧ t.clusters = s.clusters ∧ t.cores = s.cores ∧ t.dma = s.dma := by
  obtain ⟨u, hu, hcan, hclk, -, hmem, hcl, hco, hdma, -⟩ := State.exists_advance hc s.mfBoundary
  obtain ⟨htime, hrx, htx, emem, ecl, eco, edma, hirq⟩ := u.frameEnd_frame s (s.time.mfn + 1 == 0)
  refine ⟨_, s.mfBoundaryEvent_eq, ?_⟩
  rw [hu, htime]
  exact ⟨rfl, rfl, rfl, hclk, fun hw => hirq (by rw [hw]; rfl) hcan, hrx, htx, emem.trans hmem, ecl.trans hcl, eco.trans hco, edma.trans hdma⟩

/-- Holdover begins 100 µs after the last message. -/
theorem State.holdover_effect {s : State} (hc : s.canonical = true) (hs : s.src = 1) (hb : s.rbit pgDtb Reg.DTB_STAT 2 = false) :
    ∃ t, s.holdover = t ∧ t.rbit pgDtb Reg.DTB_STAT 2 = true ∧ t.time.clk = max s.time.clk (s.time.lastMsg + 160000)
      ∧ t.time.reacq = true ∧ t.mem = s.mem ∧ t.clusters = s.clusters ∧ t.cores = s.cores
      ∧ t.reg pgDtb Reg.DTB_INC = s.reg pgDtb Reg.DTB_INC := by
  obtain ⟨u, hu, hcan, hclk, -, hmem, hcl, hco, -, -, hinc, -⟩ :=
    State.exists_advance hc ((s.time.lastMsg + 160000) * Config.stepsPerClk)
  rw [clks_div] at hclk
  refine ⟨_, State.holdover_begins hs hb (congrArg (State.setBit · pgDtb Reg.DTB_STAT 2 true) hu), State.rbit_setBit_same hcan _ _ (by decide) _, hclk, rfl, hmem, hcl, hco, ?_⟩
  exact (State.reg_setBit_other u _ _ _ _ _ _ (regKey_ne_of_off _ (by decide))).trans hinc

/-- The time is lost 1 ms into the holdover. -/
theorem State.holdoverLost_effect {s : State} (hc : s.canonical = true) (hs : s.src = 1) (hb : s.rbit pgDtb Reg.DTB_STAT 2 = true)
    (hl : s.time.heldLost = false) : ∃ t, s.holdoverLost = t ∧ t.rbit pgDtb Reg.DTB_STAT 3 = true ∧ t.rbit pgDtb Reg.PAGE_IRQ_STAT 3 = true
      ∧ t.time.clk = max s.time.clk (s.time.lastMsg + 1760000) ∧ t.time.heldLost = true
      ∧ (∀ c : Fin 8, s.domOn (66 + 5 * c.val) = true → ∀ k : Fin 18, (t.ch c k).safe = true) ∧ t.mem = s.mem ∧ t.cores = s.cores := by
  obtain ⟨u, hu, hcan, hclk, -, hmem, -, hco, -, hdom, -⟩ :=
    State.exists_advance hc ((s.time.lastMsg + 1760000) * Config.stepsPerClk)
  rw [clks_div] at hclk
  obtain ⟨ltime, lmem, lcores, hlost, hirq, hsafe⟩ := State.timeLoss_frame (s := { u with time := { u.time with heldLost := true } }) hcan
  exact ⟨_, State.holdoverLost_ends hs hb hl hu, hlost, hirq, by rw [ltime]; exact hclk, by rw [ltime],
    fun c hd => hsafe c ((hdom _).trans hd), lmem.trans hmem, lcores.trans hco⟩

/-- A dialog that is due. -/
theorem State.ptmDue_effect {s : State} (hc : s.canonical = true) (h : s.rbit pgDtb Reg.DTB_CTL 2 = true) : ∃ t, s.ptmDue = t
      ∧ t.time.clk = max s.time.clk (s.time.ptmLast + s.fld pgDtb Reg.DTB_PTM_CTL 9 0 * 1600000) ∧ t.time.ptmLast = t.time.clk
      ∧ t.time.ptmBusy = (s.time.ptmBusy || s.rbit pgCxl Reg.CXL_STAT 12)
      ∧ (s.rbit pgCxl Reg.CXL_STAT 12 = false → t.rbit pgDtb Reg.PAGE_IRQ_STAT 6 = true) ∧ t.mem = s.mem ∧ t.clusters = s.clusters
      ∧ t.cores = s.cores := by
  obtain ⟨u, hu, hcan, hclk, hbusy, hmem, hcl, hco, -, -, -, henable⟩ :=
    State.exists_advance hc ((s.time.ptmLast + s.fld pgDtb Reg.DTB_PTM_CTL 9 0 * 1600000) * Config.stepsPerClk)
  rw [clks_div] at hclk
  obtain ⟨ptime, pmem, pcl, pco, pfail⟩ := State.ptmStart_frame (s := { u with time := { u.time with ptmLast := u.time.clk } }) hcan
  rw [← hbusy, ← henable]
  refine ⟨_, State.ptmDue_on h hu, ?_⟩
  rw [ptime]
  exact ⟨hclk, rfl, rfl, fun hh => pfail hh, pmem.trans hmem, pcl.trans hcl, pco.trans hco⟩

/-- The time base counts on to its wrap. -/
theorem State.dtbWrap_effect {s : State} (hc : s.canonical = true) (hi : 0 < s.inc) {n : Nat}
    (hn : (2 ^ 96 - s.dtb + s.inc - 1) / s.inc = n) : ∃ t, s.edges n = t ∧ t.rbit pgDtb Reg.PAGE_IRQ_STAT 0 = true ∧ t.dtb < s.inc
      ∧ t.mem = s.mem ∧ t.clusters = s.clusters ∧ t.cores = s.cores ∧ s.time.clk ≤ t.time.clk
      ∧ (s.dtb + (t.time.clk - s.time.clk) * s.inc) % 2 ^ 96 = t.dtb ∧ 2 ^ 96 ≤ s.dtb + (t.time.clk - s.time.clk) * s.inc := by
  obtain ⟨hge, hlt⟩ := State.wrapEdges hi hn
  obtain ⟨τ, r, b, e⟩ := s.edges_frame n
  have hclk : (s.edges n).time.clk = s.time.clk + n := by rw [State.edges_time]; rfl
  refine ⟨_, rfl, State.edges_wraps hc hge, ?_, by rw [e], by rw [e], by rw [e], by rw [hclk]; exact Nat.le_add_right _ _, ?_, ?_⟩
  · rw [State.dtb_edges, Nat.mod_eq_sub_mod hge]
    exact lt_of_le_of_lt (Nat.mod_le _ _) (by omega)
  · rw [hclk, Nat.add_sub_cancel_left, State.dtb_edges]
  · rw [hclk, Nat.add_sub_cancel_left]; exact hge

/-- Settles O32, event by event, each through the lemma that says what it leaves. -/
theorem timeEvents : Obligations.TimeEvents := by
  intro s hc
  simp only [exec_dtbWrap, exec_machineFrameBoundary, exec_timeHoldover, exec_fabricTimeLost, exec_ptmDialogDue, exec_ptmResponse,
    Host.Outcome.next.injEq]
  refine ⟨fun hi => State.dtbWrap_effect hc (by omega) rfl, State.mfBoundaryEvent_effect hc, State.holdover_effect hc, State.holdover_idle,
    State.holdoverLost_effect hc, State.holdoverLost_idle, State.ptmDue_off, State.ptmDue_effect hc,
    fun o h => State.ptmAnswer_unasked h o, fun hb => ⟨State.ptmAnswer_none hb,
      fun h => ⟨fun hs => State.ptmAnswer_shown hb hs h, fun hs hf hl hr => ?_, fun hs f hf => ?_⟩⟩⟩
  · obtain ⟨htime, hmem, hcl, hco⟩ := s.ptmTaken_frame h
    obtain ⟨lns, lfrac, lfirst, lpend, lofs, lmem, lcl, lco⟩ := (s.ptmTaken h).ptmLoaded_frame (h.toNat * 2 ^ 32)
    obtain ⟨hns, hfrac⟩ := dtb_whole h
    refine ⟨_, State.ptmAnswer_loads hb hs hf hl hr h, lns.trans hns, lfrac.trans hfrac, lfirst, lpend, ?_, lmem.trans hmem, lcl.trans hcl,
      lco.trans hco⟩
    rw [lofs, htime]
  · obtain ⟨htime, hmem, hcl, hco⟩ := s.ptmTaken_frame h
    obtain ⟨hns, hofs, hlo, hhi, vmem, vcl, vco⟩ := State.servo_frame (State.canonical_ptmTaken hc h) ((h - s.time.ns - f).toInt * 16)
    rw [htime] at hns hofs
    exact ⟨_, State.ptmAnswer_disciplines hb hs hf h, hofs, hns, hlo, hhi, vmem.trans hmem, vcl.trans hcl, vco.trans hco⟩

end Sys2Proof.Machine
end

section
/-! SUPPORT. Accesses to the page of a carrier: its control word, its lead time and its frame count (R46, R50, R54). -/

namespace Sys2Proof.Machine

/-- A write that reaches the page of a carrier, past its header, is what the block does with it. -/
theorem State.frmWrite_reaches {s s1 : State} {x : Access} {c : Fin 8} (h : s.Reaches x (pgFrm c) s1) {off : Nat} (ho : off / 4 * 4 = off)
    (hb : 0x40 ≤ off) {v mask : Word} {t : State} (ht : s1.frmWrite c off v mask = t) (hd : t.dma = s1.dma) :
    s.regWrite x.by_ x.m (pgFrm c) off v mask = t.wrote := by
  have hp : s1.pageWrite x.by_ x.m (pgFrm c) off v mask = t := by
    unfold State.pageWrite
    simp only [ho]
    rw [if_neg (by simp [pgFrm]), if_neg (by simp; omega)]
    show s1.frmWrite (clu c.val) off v mask = t
    rw [clu_val]
    exact ht
  rw [State.regWrite_reaches h off v mask (by rw [hp, hd]), hp]

section
variable {s s1 : State} {x : Access} {c : Fin 8} (h : s.Reaches x (pgFrm c) s1) {v mask : Word} {t : State}
include h

/-- Each command of a carrier does what the block does with its write. -/
theorem State.exec_frmRunStart (ht : s1.frmCtlWrite c (v ||| 1) 0xFFFFFFFF = t) (hd : t.dma = s1.dma) :
    exec (.frmRunStart x c v) s = .next t.wrote :=
  congrArg Host.Outcome.next (State.frmWrite_reaches (off := Reg.FRM_CTL) h rfl (by decide) ht hd)
theorem State.exec_frmRunStop (ht : s1.frmCtlWrite c (v &&& ~~~1) 0xFFFFFFFF = t) (hd : t.dma = s1.dma) :
    exec (.frmRunStop x c v) s = .next t.wrote :=
  congrArg Host.Outcome.next (State.frmWrite_reaches (off := Reg.FRM_CTL) h rfl (by decide) ht hd)
theorem State.exec_frmLeadWrite (ht : s1.frmLeadWrite c v mask = t) (hd : t.dma = s1.dma) :
    exec (.frmLeadWrite x c v mask) s = .next t.wrote :=
  congrArg Host.Outcome.next (State.frmWrite_reaches (off := Reg.FRM_LEAD) h rfl (by decide) ht hd)
theorem State.exec_frmFcntWrite (ht : (if s1.running c then s1 else s1.busReg (pgFrm c) Reg.FRM_FCNT v mask) = t) (hd : t.dma = s1.dma) :
    exec (.frmFcntWrite x c v mask) s = .next t.wrote :=
  congrArg Host.Outcome.next (State.frmWrite_reaches (off := Reg.FRM_FCNT) h rfl (by decide) ht hd)
end

theorem State.busReg_frmFcnt {s : State} {c : Fin 8} (ho : s.Open (pgFrm c)) (v mask : Word) : s.busReg (pgFrm c) Reg.FRM_FCNT v mask
    = s.setReg (pgFrm c) Reg.FRM_FCNT ((s.reg (pgFrm c) Reg.FRM_FCNT &&& ~~~mask) ||| (v &&& mask)) := by
  rw [State.busReg_plain (d := ⟨Reg.FRM_FCNT, 0, 1, 0x0, [⟨31, 0, .rw⟩]⟩) rfl (by simp [Field.plain]) ho, readMask_word]
  unfold lanesWrite
  rw [BitVec.and_allOnes, BitVec.and_allOnes]

theorem State.busReg_frmLead {s : State} {c : Fin 8} (ho : s.Open (pgFrm c)) (v mask : Word) : s.busReg (pgFrm c) Reg.FRM_LEAD v mask
    = s.setReg (pgFrm c) Reg.FRM_LEAD ((s.reg (pgFrm c) Reg.FRM_LEAD &&& ~~~(mask &&& 0x3FF)) ||| (v &&& mask &&& 0x3FF)) :=
  State.busReg_plain (d := ⟨Reg.FRM_LEAD, 0, 1, 0x0, [⟨9, 0, .rwl⟩]⟩) rfl (by simp [Field.plain]) ho v mask

/-! ## The lead time (R54) -/

section
variable {s : State} {c : Fin 8} (hc : s.canonical = true) (ho : s.Open (pgFrm c)) {v mask n : Word} {l : Nat}
  (hn : (s.reg (pgFrm c) Reg.FRM_LEAD &&& ~~~(mask &&& 0x3FF)) ||| (v &&& mask &&& 0x3FF) = n) (hl : min 800 (bitsOf n 9 0) = l)
include hc ho hn hl

omit ho hn in
theorem State.leadReg_clamped : (s.setReg (pgFrm c) Reg.FRM_LEAD (putBits n 9 0 l)).leadReg c = l := by
  unfold State.leadReg
  rw [State.fld_setReg_same hc, bitsOf_putBits_same _ (by decide) (by decide) (by simp; omega)]

/-- A carrier with a period takes a lead time, held to its range, where it leaves room for a foreground; else the register stays. -/
theorem State.frmLeadWrite_period {per : Nat} (hp : tickPeriod (s.tmode c) (s.hp c) = some per) : s.frmLeadWrite c v mask
    = if per ≤ l * 128 + 3584 then s.raise (pgFrm c) 3 else s.setReg (pgFrm c) Reg.FRM_LEAD (putBits n 9 0 l) := by
  unfold State.frmLeadWrite
  simp only [hp, State.busReg_frmLead ho, hn, State.fld_setReg_same hc, hl, State.setFld_setReg hc, State.leadReg_clamped hc hl,
    State.setReg_setReg hc, State.setReg_reg hc]

theorem State.frmLeadWrite_taken (h : ∀ per, tickPeriod (s.tmode c) (s.hp c) = some per → l * 128 + 3584 < per) :
    s.frmLeadWrite c v mask = s.setReg (pgFrm c) Reg.FRM_LEAD (putBits n 9 0 l) := by
  cases hp : tickPeriod (s.tmode c) (s.hp c) with
  | none =>
    unfold State.frmLeadWrite
    simp only [hp, State.busReg_frmLead ho, hn, State.fld_setReg_same hc, hl, State.setFld_setReg hc]
  | some per => rw [State.frmLeadWrite_period hc ho hn hl hp, if_neg (Nat.not_le.2 (h per hp))]

theorem State.frmLeadWrite_refused {per : Nat} (hp : tickPeriod (s.tmode c) (s.hp c) = some per) (h : per ≤ l * 128 + 3584) :
    s.frmLeadWrite c v mask = s.raise (pgFrm c) 3 := by
  rw [State.frmLeadWrite_period hc ho hn hl hp, if_pos h]

end

/-! ## The control word (R46 to R48) -/

theorem getLsbD_lanesWrite (l v mask old : Word) (i : Nat) :
    (lanesWrite l v mask old).getLsbD i = if mask.getLsbD i && l.getLsbD i then v.getLsbD i else old.getLsbD i := by
  by_cases hi : i < 32
  · simp only [lanesWrite, BitVec.getLsbD_or, BitVec.getLsbD_and, BitVec.getLsbD_not, hi, decide_true, Bool.true_and]
    cases l.getLsbD i <;> cases mask.getLsbD i <;> simp
  · rw [BitVec.getLsbD_of_ge _ _ (by omega), BitVec.getLsbD_of_ge v _ (by omega), BitVec.getLsbD_of_ge old _ (by omega), ite_self]

/-- A write of all lanes. -/
theorem lanesWrite_full (l v old : Word) : lanesWrite l v 0xFFFFFFFF old = (old &&& ~~~l) ||| (v &&& l) := by
  unfold lanesWrite
  rw [show (0xFFFFFFFF : Word) = BitVec.allOnes 32 from rfl, BitVec.allOnes_and, BitVec.and_allOnes]

/-- `FRM_CTL` after a write of all lanes, as its fields take it. -/
def frmCtlWord (old w : Word) : Word := (old &&& ~~~0x7F) ||| (w &&& 0x7F)

theorem getLsbD_frmCtlWord (old w : Word) (i : Nat) : (frmCtlWord old w).getLsbD i = if i < 7 then w.getLsbD i else old.getLsbD i := by
  unfold frmCtlWord
  rw [← lanesWrite_full, getLsbD_lanesWrite, show (0xFFFFFFFF : Word) = maskOf 31 0 from rfl, show (0x7F : Word) = maskOf 6 0 from rfl,
    getLsbD_maskOf, getLsbD_maskOf]
  by_cases h : i < 7 <;> simp [h]
  omega

theorem State.busReg_frmCtl {s : State} {c : Fin 8} (ho : s.Open (pgFrm c)) (w : Word) : s.busReg (pgFrm c) Reg.FRM_CTL w 0xFFFFFFFF
    = s.setReg (pgFrm c) Reg.FRM_CTL (frmCtlWord (s.reg (pgFrm c) Reg.FRM_CTL) w) := by
  rw [State.busReg_plain (d := ⟨Reg.FRM_CTL, 0, 1, 0x0, [⟨0, 0, .rw⟩, ⟨2, 1, .rwl⟩, ⟨5, 3, .rwl⟩, ⟨6, 6, .rwl⟩]⟩) rfl (by simp [Field.plain]) ho]
  exact congrArg _ (lanesWrite_full 0x7F w _)

/-- The control word with a reserved group taken as none. -/
def groupHeld (w : Word) : Word := if 4 < bitsOf w 5 3 then putBits w 5 3 0 else w

theorem groupHeld_of_le {w : Word} (h : bitsOf w 5 3 ≤ 4) : groupHeld w = w := if_neg (by omega)

/-- What `FRM_CTL` holds, and whether the change of its settings is refused, before `RUN` acts. -/
def State.frmCtlHeld (s : State) (c : Fin 8) (w : Word) : State :=
  let old := s.reg (pgFrm c) Reg.FRM_CTL
  let n := groupHeld (frmCtlWord old w)
  if s.running c && bitsOf n 6 1 != bitsOf old 6 1 then
    (s.setReg (pgFrm c) Reg.FRM_CTL (putBits n 6 1 (bitsOf old 6 1))).raise (pgFrm c) 5
  else s.setReg (pgFrm c) Reg.FRM_CTL n

theorem State.frmCtlWrite_full {s : State} {c : Fin 8} (hc : s.canonical = true) (ho : s.Open (pgFrm c)) (w : Word) :
    s.frmCtlWrite c w 0xFFFFFFFF = if bitOf w 0 then (s.frmCtlHeld c w).carStart c else (s.frmCtlHeld c w).carStop c := by
  have hgroup : ∀ r : Word, (if 4 < bitsOf r 5 3 then s.setReg (pgFrm c) Reg.FRM_CTL (putBits r 5 3 0) else s.setReg (pgFrm c) Reg.FRM_CTL r)
      = s.setReg (pgFrm c) Reg.FRM_CTL (groupHeld r) := fun r => (apply_ite (s.setReg (pgFrm c) Reg.FRM_CTL) _ _ _).symm
  unfold State.frmCtlWrite State.frmCtlHeld
  simp only [State.busReg_frmCtl ho, State.fld_setReg_same hc, State.setFld_setReg hc, hgroup]
  rfl

/-- A carrier that stands takes the settings of a write whose group is not reserved. -/
theorem State.frmCtlHeld_stopped {s : State} {c : Fin 8} (hr : s.running c = false) {w : Word} (h : bitsOf w 5 3 ≤ 4) :
    s.frmCtlHeld c w = s.setReg (pgFrm c) Reg.FRM_CTL (frmCtlWord (s.reg (pgFrm c) Reg.FRM_CTL) w) := by
  have hg : bitsOf (frmCtlWord (s.reg (pgFrm c) Reg.FRM_CTL) w) 5 3 = bitsOf w 5 3 :=
    (bitsOf_eq_iff _ _ _ _).2 fun i hi => by rw [getLsbD_frmCtlWord, if_pos (by omega)]
  unfold State.frmCtlHeld
  simp only [hr, Bool.false_and, groupHeld_of_le (hg.trans_le h)]
  rfl

theorem getLsbD_groupHeld {i : Nat} (h : i < 3 ∨ 6 ≤ i) (w : Word) : (groupHeld w).getLsbD i = w.getLsbD i := by
  unfold groupHeld
  split
  · rw [getLsbD_putBits, if_neg (by omega)]
  · rfl

theorem bitsOf_groupHeld (w : Word) : bitsOf (groupHeld w) 5 3 = if 4 < bitsOf w 5 3 then 0 else bitsOf w 5 3 := by
  unfold groupHeld
  split
  · exact bitsOf_putBits_same w (by decide) (by decide) (by decide)
  · rfl

/-- The settings of two control words agree where those of each field do. -/
theorem settings_eq_iff (a b : Word) :
    bitsOf a 6 1 = bitsOf b 6 1 ↔ bitsOf a 2 1 = bitsOf b 2 1 ∧ bitsOf a 5 3 = bitsOf b 5 3 ∧ bitsOf a 6 6 = bitsOf b 6 6 := by
  simp only [bitsOf_eq_iff]
  constructor
  · intro h
    exact ⟨fun i hi => h i (by omega), fun i hi => by have := h (i + 2) (by omega); rwa [show 1 + (i + 2) = 3 + i by omega] at this,
      fun i hi => by have := h (i + 5) (by omega); rwa [show 1 + (i + 5) = 6 + i by omega] at this⟩
  · rintro ⟨hm, hg, ha⟩ i hi
    obtain h | h | h : i < 2 ∨ (2 ≤ i ∧ i < 5) ∨ i = 5 := by omega
    · exact hm i (by omega)
    · have := hg (i - 2) (by omega); rwa [show 3 + (i - 2) = 1 + i by omega] at this
    · have := ha 0 (by omega); rwa [h]

/-- The settings that a write asks for are those that the register holds. -/
def SameSettings (old w : Word) : Prop :=
  bitsOf w 2 1 = bitsOf old 2 1 ∧ (if 4 < bitsOf w 5 3 then 0 else bitsOf w 5 3) = bitsOf old 5 3 ∧ bitsOf w 6 6 = bitsOf old 6 6

theorem sameSettings_iff (old w : Word) : bitsOf (groupHeld (frmCtlWord old w)) 6 1 = bitsOf old 6 1 ↔ SameSettings old w := by
  have hm : bitsOf (groupHeld (frmCtlWord old w)) 2 1 = bitsOf w 2 1 :=
    (bitsOf_eq_iff _ _ _ _).2 fun i hi => by rw [getLsbD_groupHeld (by omega), getLsbD_frmCtlWord, if_pos (by omega)]
  have hg : bitsOf (frmCtlWord old w) 5 3 = bitsOf w 5 3 :=
    (bitsOf_eq_iff _ _ _ _).2 fun i hi => by rw [getLsbD_frmCtlWord, if_pos (by omega)]
  have ha : bitsOf (groupHeld (frmCtlWord old w)) 6 6 = bitsOf w 6 6 :=
    (bitsOf_eq_iff _ _ _ _).2 fun i hi => by rw [getLsbD_groupHeld (by omega), getLsbD_frmCtlWord, if_pos (by omega)]
  rw [settings_eq_iff, hm, bitsOf_groupHeld, hg, ha, SameSettings]

/-- `RUN` is no setting. -/
theorem sameSettings_congr {old w v : Word} (h : ∀ i, 0 < i → w.getLsbD i = v.getLsbD i) : SameSettings old w ↔ SameSettings old v := by
  have hf : ∀ hi lo, 0 < lo → bitsOf w hi lo = bitsOf v hi lo := fun hi lo hl => (bitsOf_eq_iff _ _ _ _).2 fun i _ => h _ (by omega)
  rw [SameSettings, SameSettings, hf 2 1 (by decide), hf 5 3 (by decide), hf 6 6 (by decide)]

/-- With its settings put back the register differs from what it held in `RUN` alone. -/
theorem putBits_settings (old w : Word) :
    putBits (groupHeld (frmCtlWord old w)) 6 1 (bitsOf old 6 1) = (old &&& ~~~1) ||| (w &&& 1) := by
  refine BitVec.eq_of_getLsbD_eq fun i hi => ?_
  rw [getLsbD_putBits, testBit_bitsOf]
  simp only [BitVec.getLsbD_or, BitVec.getLsbD_and, BitVec.getLsbD_not, hi, decide_true, Bool.true_and]
  obtain rfl | h | h : i = 0 ∨ (1 ≤ i ∧ i < 7) ∨ 7 ≤ i := by omega
  · rw [if_neg (by omega), getLsbD_groupHeld (by omega), getLsbD_frmCtlWord]
    simp
  · rw [if_pos (by omega), show 1 + (i - 1) = i by omega]
    simp [show i - 1 < 6 by omega, show i ≠ 0 by omega]
  · rw [if_neg (by omega), getLsbD_groupHeld (by omega), getLsbD_frmCtlWord, if_neg (by omega)]
    simp [show i ≠ 0 by omega]

theorem putBits_bitsOf (w : Word) {hi lo x : Nat} (h : bitsOf w hi lo = x) : putBits w hi lo x = w := by
  refine BitVec.eq_of_getLsbD_eq fun i hi => ?_
  rw [getLsbD_putBits, ← h, testBit_bitsOf]
  split
  · rw [show lo + (i - lo) = i by omega]; simp [hi]; omega
  · rfl

/-- A running carrier keeps its settings: a write that changes one is refused, and only `RUN` is taken. -/
theorem State.frmCtlHeld_running {s : State} {c : Fin 8} (hr : s.running c = true) {w x : Word} {P : Prop} [Decidable P]
    (hx : (s.reg (pgFrm c) Reg.FRM_CTL &&& ~~~1) ||| (w &&& 1) = x) (hP : SameSettings (s.reg (pgFrm c) Reg.FRM_CTL) w ↔ P) :
    s.frmCtlHeld c w = if P then s.setReg (pgFrm c) Reg.FRM_CTL x else (s.setReg (pgFrm c) Reg.FRM_CTL x).raise (pgFrm c) 5 := by
  rw [← sameSettings_iff] at hP
  have hset := (putBits_settings (s.reg (pgFrm c) Reg.FRM_CTL) w).trans hx
  unfold State.frmCtlHeld
  simp only [hr, Bool.true_and, bne_iff_ne, ne_eq, hP, ite_not]
  by_cases h : P
  · rw [if_pos h, if_pos h, ← hset, putBits_bitsOf _ (hP.2 h)]
  · rw [if_neg h, if_neg h, hset]

end Sys2Proof.Machine
end

section
/-! SUPPORT. Starting and stopping a carrier (R46 to R49, R52). -/

namespace Sys2Proof.Machine

theorem State.car_modCar_same (s : State) (c : Fin 8) (f : Carrier → Carrier) : (s.modCar c f).car c = f (s.car c) := by
  unfold State.car State.modCar
  rw [State.modC_clusters_get]

theorem State.car_modCar_other (s : State) {c d : Fin 8} (h : d ≠ c) (f : Carrier → Carrier) : (s.modCar c f).car d = s.car d := by
  unfold State.car State.modCar
  rw [State.modC_clusters_get_other s h]

theorem State.pwm_modCar (s : State) (c d : Fin 8) (f : Carrier → Carrier) : (s.modCar c f).pwm d = s.pwm d := by
  unfold State.pwm State.modCar
  by_cases h : d = c
  · subst h; rw [State.modC_clusters_get]
  · rw [State.modC_clusters_get_other s h]

theorem State.car_modPwm (s : State) (c d : Fin 8) (f : Pwm → Pwm) : (s.modPwm c f).car d = s.car d := by
  unfold State.car State.modPwm
  by_cases h : d = c
  · subst h; rw [State.modC_clusters_get]
  · rw [State.modC_clusters_get_other s h]

theorem State.phase_of_not_running {s : State} {c : Fin 8} (h : s.running c = false) : (s.car c).phase = .stopped := by
  simpa [State.running] using h

theorem State.phase_of_running {s : State} {c : Fin 8} (h : s.running c = true) : (s.car c).phase ≠ .stopped := by
  simpa [State.running] using h

/-! ## Lock groups (R44, R46) -/

theorem State.leaderOf_congr {s t : State} (h : ∀ d, t.lgrp d = s.lgrp d) (c : Fin 8) : t.leaderOf c = s.leaderOf c := by
  unfold State.leaderOf
  simp only [h]

/-- A cluster of no group leads none but itself. -/
theorem State.leaderOf_ne {s : State} {c d : Fin 8} (h : s.lgrp c = 0) (hd : d ≠ c) : s.leaderOf d ≠ c := by
  unfold State.leaderOf
  split
  · exact hd
  · next hg =>
    cases hf : (List.finRange 8).find? (fun e => s.lgrp e == s.lgrp d) with
    | none => exact hd
    | some e =>
      have he : s.lgrp e = s.lgrp d := by simpa using List.find?_some hf
      rintro rfl
      exact hg (he ▸ h)

section
variable {s : State} {c : Fin 8} (h : s.lgrp c = 0)
include h

theorem State.leaderOf_alone : s.leaderOf c = c := if_pos h
theorem State.isMember_alone : s.isMember c = false := by
  unfold State.isMember
  rw [State.leaderOf_alone h, bne_self_eq_false]
theorem State.runningMember_alone : s.runningMember c = none := if_pos h

/-- No carrier waits for the start of a cluster of no group. -/
theorem State.startWaiting_alone : s.startWaiting c = s :=
  foldl_keeps (P := (· = s)) _ _ _ rfl fun t d ht => by
    subst ht
    exact if_neg fun ⟨hd, _, hl⟩ => State.leaderOf_ne h hd hl
end

/-! ## Starts (R47 to R49, R52) -/

theorem State.carStart_stopped {s : State} {c : Fin 8} (h : s.running c = false) : s.carStart c = s.startAt c (s.now + 25600) :=
  if_pos (State.phase_of_not_running h)

theorem State.carStart_running {s : State} {c : Fin 8} (h : s.running c = true) (hp : (s.car c).stopPend = false) : s.carStart c = s := by
  unfold State.carStart
  simp only [State.phase_of_running h, hp, if_false, Bool.false_eq_true]

theorem State.carStart_stopping {s : State} {c : Fin 8} (h : s.running c = true) (hp : (s.car c).stopPend = true) :
    s.carStart c = s.modCar c (fun k => { k with restart := some (s.now + 25600) }) := by
  unfold State.carStart
  simp only [State.phase_of_running h, hp, if_false, if_true]
  rfl

section
variable {s : State} {c : Fin 8} (h : s.lgrp c = 0)
include h

theorem State.startAt_rateRefused (hr : rateOk (s.tmode c) (s.hp c) (s.leadReg c) = false) (t : Nat) : s.startAt c t = s.startRefused c 3 := by
  unfold State.startAt
  simp only [State.isMember_alone h, State.runningMember_alone h, Bool.false_eq_true, if_false, hr, Bool.not_false, if_true]

theorem State.startAt_frameRefused (hr : rateOk (s.tmode c) (s.hp c) (s.leadReg c) = true) (hm : s.mfalign c = true)
    (hd : divides (s.tmode c) (s.hp c) s.mfpReg = false) (t : Nat) : s.startAt c t = s.startRefused c 4 := by
  unfold State.startAt
  simp only [State.isMember_alone h, State.runningMember_alone h, Bool.false_eq_true, if_false, hr, Bool.not_true, hm, hd, Bool.not_false, if_true]

/-- The first valley of a carrier of no group lies on the first clock edge of the generator from then on. -/
theorem State.startAt_alone (hr : rateOk (s.tmode c) (s.hp c) (s.leadReg c) = true) (hm : s.mfalign c = false) (t : Nat) :
    s.startAt c t = s.schedule c (s.dtbAt (pwmCeil t)) (pwmCeil t) t := by
  unfold State.startAt
  simp only [State.isMember_alone h, State.runningMember_alone h, Bool.false_eq_true, if_false, hr, Bool.not_true, hm]
  exact State.startWaiting_alone h
end

theorem pwmCeil_eq (t : Nat) : pwmCeil t = (t + 127) / 128 * 128 := rfl

theorem pwmFloor_pwmCeil (t : Nat) : pwmFloor (pwmCeil t) = pwmCeil t := by
  rw [pwmCeil_eq]
  exact congrArg (· * 128) (Nat.mul_div_cancel _ (by decide))

/-- A member of a group waits while its leader stands. -/
theorem State.startAt_member {s : State} {c : Fin 8} (h : s.leaderOf c ≠ c) (hl : s.running (s.leaderOf c) = false)
    (hr : rateOk (s.tmode c) (s.hp (s.leaderOf c)) (s.leadReg c) = true) (t : Nat) :
    s.startAt c t = s.modCar c (fun k => { k with phase := .waitLeader, restart := none }) := by
  have hm : s.isMember c = true := by simpa [State.isMember] using h
  unfold State.startAt
  simp only [hm, if_true, hr, Bool.not_true, Bool.false_eq_true, if_false, hl, Bool.false_and]

/-! ## Stops (R48) -/

theorem State.carStop_stopped {s : State} {c : Fin 8} (h : s.running c = false) : s.carStop c = s := by
  unfold State.carStop
  rw [State.phase_of_not_running h]

theorem State.carStop_counting {s : State} {c : Fin 8} (h : s.counting c = true) :
    s.carStop c = s.modCar c (fun k => { k with stopPend := true, restart := none }) := by
  have hp : (s.car c).phase = .up ∨ (s.car c).phase = .down := by simpa [State.counting] using h
  unfold State.carStop
  rcases hp with hp | hp <;> rw [hp]

/-- Only the channels' own state differs; no carrier, and no write that waits for its turn. -/
def State.ChannelsOnly (s t : State) : Prop :=
  (∃ cl, t = { s with clusters := cl }) ∧ ∀ d, t.car d = s.car d ∧ (t.pwm d).late = (s.pwm d).late

theorem State.ChannelsOnly.trans {s t u : State} (h : s.ChannelsOnly t) (h' : t.ChannelsOnly u) : s.ChannelsOnly u := by
  obtain ⟨⟨cl, rfl⟩, hd⟩ := h
  obtain ⟨⟨cl', rfl⟩, hd'⟩ := h'
  exact ⟨⟨cl', rfl⟩, fun d => ⟨(hd' d).1.trans (hd d).1, (hd' d).2.trans (hd d).2⟩⟩

theorem State.ChannelsOnly.modCh (s : State) (c : Fin 8) (k : Fin 18) (f : PwmCh → PwmCh) : s.ChannelsOnly (s.modCh c k f) := by
  refine ⟨⟨_, rfl⟩, fun d => ⟨State.car_modPwm s c d _, ?_⟩⟩
  unfold State.modCh
  by_cases h : d = c
  · subst h; rw [State.pwm_modPwm_same]
  · rw [State.pwm_modPwm_other s h]

theorem State.modCh_id (s : State) (c : Fin 8) (k : Fin 18) : s.modCh c k id = s := by
  unfold State.modCh State.modPwm
  exact State.modC_self (by simp)

/-- A channel that stands takes its settings anew (R71): whether its writes act at once among them, and no other channel. -/
theorem State.chLoad_eq (s : State) (c : Fin 8) (k : Fin 18) :
    ∃ f g, s.chLoad c k = (s.modCh c k f).modCh c k g ∧ ∀ x, (g (f x)).imm = (s.chCtl c k 1 1 == 1) := by
  unfold State.chLoad
  dsimp only
  split
  · exact ⟨_, _, rfl, fun _ => rfl⟩
  · split
    · exact ⟨_, _, rfl, fun _ => rfl⟩
    · exact ⟨_, id, (State.modCh_id _ c k).symm, fun _ => rfl⟩

theorem State.ChannelsOnly.chLoad (s : State) (c : Fin 8) (k : Fin 18) : s.ChannelsOnly (s.chLoad c k) := by
  obtain ⟨f, g, h, -⟩ := State.chLoad_eq s c k
  exact h ▸ (State.ChannelsOnly.modCh s c k f).trans (.modCh _ c k g)

theorem State.chLoad_imm (s : State) (c : Fin 8) (j k : Fin 18) :
    ((s.chLoad c j).ch c k).imm = if k = j then s.chCtl c k 1 1 == 1 else (s.ch c k).imm := by
  obtain ⟨f, g, h, hi⟩ := State.chLoad_eq s c j
  rw [h]
  by_cases hk : k = j
  · subst hk; rw [State.ch_modCh_same, State.ch_modCh_same, hi, if_pos rfl]
  · rw [State.ch_modCh_other _ (by simp [hk]), State.ch_modCh_other _ (by simp [hk]), if_neg hk]

theorem State.ChannelsOnly.chCtl {s t : State} (h : s.ChannelsOnly t) (c : Fin 8) (k : Fin 18) (hi lo : Nat) :
    t.chCtl c k hi lo = s.chCtl c k hi lo := by
  obtain ⟨⟨cl, rfl⟩, -⟩ := h
  rfl

theorem State.foldl_chLoad (c : Fin 8) (l : List (Fin 18)) (s : State) :
    s.ChannelsOnly (l.foldl (fun s k => s.chLoad c k) s)
      ∧ ∀ k, ((l.foldl (fun s k => s.chLoad c k) s).ch c k).imm = if k ∈ l then s.chCtl c k 1 1 == 1 else (s.ch c k).imm := by
  induction l generalizing s with
  | nil => exact ⟨⟨⟨s.clusters, rfl⟩, fun d => ⟨rfl, rfl⟩⟩, fun k => rfl⟩
  | cons j l ih =>
    obtain ⟨hco, himm⟩ := ih (s.chLoad c j)
    refine ⟨(State.ChannelsOnly.chLoad s c j).trans hco, fun k => ?_⟩
    rw [List.foldl_cons, himm, State.chLoad_imm, (State.ChannelsOnly.chLoad s c j).chCtl]
    by_cases hk : k = j <;> by_cases hl : k ∈ l <;> simp [hk, hl]

/-- No write waits for its turn: nothing comes then. -/
theorem State.lateAll_nil {s : State} {c : Fin 8} (h : (s.pwm c).late = []) : s.lateAll c = s := by
  unfold State.lateAll
  simp only [h, List.filter_nil, List.append_nil, List.foldl_nil]
  refine State.modC_self ?_
  change (s.clusters[c]).pwm.late = [] at h
  rw [← h]

/-- A start that waits is cancelled at once: its carrier stands and its channels take their settings, and nothing else changes. -/
theorem State.startCancelled_eq {s : State} {c : Fin 8} (h : (s.pwm c).late = []) :
    (s.modCar c (fun k => { k with phase := .stopped })).ChannelsOnly (s.startCancelled c)
      ∧ ∀ k, ((s.startCancelled c).ch c k).imm = (s.chCtl c k 1 1 == 1) := by
  obtain ⟨hco, himm⟩ := State.foldl_chLoad c (List.finRange 18) (s.modCar c (fun k => { k with phase := .stopped }))
  have hl : s.startCancelled c = (List.finRange 18).foldl (fun s k => s.chLoad c k) (s.modCar c (fun k => { k with phase := .stopped })) :=
    State.lateAll_nil (by rw [State.forCh, (hco.2 c).2, State.pwm_modCar, h])
  rw [hl]
  refine ⟨hco, fun k => ?_⟩
  rw [himm, if_pos (List.mem_finRange k)]
  rfl

/-- Of a list of carriers those that had fixed their first valley with their leader `l` wait for it again. -/
theorem State.foldl_membersWait (l : Fin 8) (ds : List (Fin 8)) (s : State) :
    let t := ds.foldl (fun s (d : Fin 8) =>
      if d ≠ l ∧ (s.car d).phase = .starting ∧ s.leaderOf d = l then s.modCar d (fun x => { x with phase := .waitLeader }) else s) s
    (∃ cl, t = { s with clusters := cl }) ∧ (∀ d, t.pwm d = s.pwm d)
      ∧ ∀ d, t.car d = if d ∈ ds ∧ d ≠ l ∧ (s.car d).phase = .starting ∧ s.leaderOf d = l then { s.car d with phase := .waitLeader } else s.car d := by
  induction ds generalizing s with
  | nil => exact ⟨⟨s.clusters, rfl⟩, fun _ => rfl, fun d => (if_neg (by simp)).symm⟩
  | cons e ds ih =>
    by_cases h : e ≠ l ∧ (s.car e).phase = .starting ∧ s.leaderOf e = l
    · obtain ⟨⟨cl, hcl⟩, hpwm, hcar⟩ := ih (s.modCar e (fun x => { x with phase := .waitLeader }))
      simp only [List.foldl_cons, if_pos h]
      refine ⟨⟨cl, hcl⟩, fun d => (hpwm d).trans (State.pwm_modCar s e d _), fun d => ?_⟩
      rw [hcar]
      by_cases hd : d = e
      · subst hd; rw [State.car_modCar_same, if_neg (by simp), if_pos ⟨by simp, h⟩]
      · rw [State.car_modCar_other s hd]
        refine if_congr ?_ rfl rfl
        simp only [List.mem_cons, hd, false_or]
        rfl
    · obtain ⟨hcl, hpwm, hcar⟩ := ih s
      simp only [List.foldl_cons, if_neg h]
      refine ⟨hcl, hpwm, fun d => (hcar d).trans (if_congr ?_ rfl rfl)⟩
      by_cases hd : d = e
      · subst hd; simp [h]
      · simp [hd]

/-- What is left of a start that is cancelled while it waits (R48): members that had fixed their first valley with it wait again. -/
theorem State.carStop_waiting {s : State} {c : Fin 8} (hp : (s.car c).phase = .waitLeader ∨ (s.car c).phase = .starting)
    (hl : (s.pwm c).late = []) :
    (∃ cl, s.carStop c = { s with clusters := cl }) ∧ (s.carStop c).car c = { s.car c with phase := .stopped }
      ∧ (∀ k, ((s.carStop c).ch c k).imm = (s.chCtl c k 1 1 == 1))
      ∧ ∀ d, d ≠ c → (s.carStop c).car d = if (s.car c).phase = .starting ∧ (s.car d).phase = .starting ∧ s.leaderOf d = c
          then { s.car d with phase := .waitLeader } else s.car d := by
  obtain ⟨⟨⟨cl, hcl⟩, hcar⟩, himm⟩ := State.startCancelled_eq hl
  have hown : (s.startCancelled c).car c = { s.car c with phase := .stopped } := (hcar c).1.trans (State.car_modCar_same s c _)
  have hother : ∀ d, d ≠ c → (s.startCancelled c).car d = s.car d := fun d hd => (hcar d).1.trans (State.car_modCar_other s hd _)
  rcases hp with hp | hp
  · have hst : s.carStop c = s.startCancelled c := by unfold State.carStop; rw [hp]
    rw [hst]
    exact ⟨⟨cl, hcl⟩, hown, himm, fun d hd => (hother d hd).trans (if_neg (by simp [hp])).symm⟩
  · have hst : s.carStop c = (s.startCancelled c).membersWait c := by unfold State.carStop; rw [hp]
    obtain ⟨⟨cl', hcl'⟩, hpwm, hwait⟩ := State.foldl_membersWait c (List.finRange 8) (s.startCancelled c)
    have hlead : ∀ d, (s.startCancelled c).leaderOf d = s.leaderOf d := by rw [hcl]; exact fun _ => rfl
    rw [hst]
    refine ⟨⟨cl', hcl'.trans (by rw [hcl]; rfl)⟩, ?_, fun k => ?_, fun d hd => ?_⟩
    · exact ((hwait c).trans (if_neg (by simp))).trans hown
    · exact (congrArg (fun p : Pwm => p.ch[k].imm) (hpwm c)).trans (himm k)
    · refine (hwait d).trans ?_
      rw [hother d hd, hlead]
      simp [hd, hp]

end Sys2Proof.Machine
end

section
/-! SUPPORT. What a write of `RUN` does to a carrier (R46 to R49). -/

namespace Sys2Proof.Machine

theorem getLsbD_or_one (v : Word) {i : Nat} (h : 0 < i) : (v ||| 1).getLsbD i = v.getLsbD i := by
  simp [show i ≠ 0 by omega]

theorem getLsbD_and_not_one (v : Word) {i : Nat} (h : 0 < i) : (v &&& ~~~1).getLsbD i = v.getLsbD i := by
  by_cases hi : i < 32
  · rw [BitVec.getLsbD_and, BitVec.getLsbD_not]
    simp [show i ≠ 0 by omega, hi]
  · rw [BitVec.getLsbD_of_ge _ _ (by omega), BitVec.getLsbD_of_ge v _ (by omega)]

/-- A field that does not hold `RUN` is the same in two words that differ in it alone. -/
theorem bitsOf_congr_run {w v : Word} (h : ∀ i, 0 < i → w.getLsbD i = v.getLsbD i) {hi lo : Nat} (hl : 0 < lo) :
    bitsOf w hi lo = bitsOf v hi lo := (bitsOf_eq_iff _ _ _ _).2 fun i _ => h _ (by omega)

theorem run_set (old v : Word) : (old &&& ~~~1) ||| ((v ||| 1) &&& 1) = old ||| 1 := by
  refine BitVec.eq_of_getLsbD_eq fun i hi => ?_
  rcases Nat.eq_zero_or_pos i with rfl | h
  · simp
  · simp only [BitVec.getLsbD_or, BitVec.getLsbD_and, BitVec.getLsbD_not]
    simp [hi, show i ≠ 0 by omega]

theorem run_cleared (old v : Word) : (old &&& ~~~1) ||| ((v &&& ~~~1) &&& 1) = old &&& ~~~1 := by
  rw [BitVec.and_assoc, show (~~~1 : Word) &&& 1 = 0#32 from rfl, BitVec.and_zero, BitVec.or_zero]

theorem frmCtlWord_stop (old v : Word) : frmCtlWord old (v &&& ~~~1) = (old &&& ~~~0x7F) ||| (v &&& 0x7E) := by
  unfold frmCtlWord
  rw [BitVec.and_assoc, show (~~~1 : Word) &&& 0x7F = 0x7E from rfl]

section
variable {s : State} {c : Fin 8} (hc : s.canonical = true) (ho : s.Open (pgFrm c)) (v : Word)
include hc ho

theorem State.frmCtlWrite_start : s.frmCtlWrite c (v ||| 1) 0xFFFFFFFF = (s.frmCtlHeld c (v ||| 1)).carStart c := by
  rw [State.frmCtlWrite_full hc ho, if_pos (by simp [bitOf])]

theorem State.frmCtlWrite_stop : s.frmCtlWrite c (v &&& ~~~1) 0xFFFFFFFF = (s.frmCtlHeld c (v &&& ~~~1)).carStop c := by
  rw [State.frmCtlWrite_full hc ho, if_neg (by simp [bitOf])]

/-- A carrier that stands takes its settings and starts with them, 1 µs ahead or later. -/
theorem State.frmCtlWrite_startAt (hr : s.running c = false) (hg : bitsOf v 5 3 ≤ 4) {u : State}
    (hu : s.setReg (pgFrm c) Reg.FRM_CTL (frmCtlWord (s.reg (pgFrm c) Reg.FRM_CTL) (v ||| 1)) = u) :
    s.frmCtlWrite c (v ||| 1) 0xFFFFFFFF = u.startAt c (s.now + 25600) := by
  rw [State.frmCtlWrite_start hc ho, State.frmCtlHeld_stopped hr (by rwa [bitsOf_congr_run (fun i => getLsbD_or_one v) (by decide)]), hu]
  subst hu
  exact State.carStart_stopped hr

theorem State.frmCtlWrite_stopped (hr : s.running c = false) (hg : bitsOf v 5 3 ≤ 4) : s.frmCtlWrite c (v &&& ~~~1) 0xFFFFFFFF
    = s.setReg (pgFrm c) Reg.FRM_CTL ((s.reg (pgFrm c) Reg.FRM_CTL &&& ~~~0x7F) ||| (v &&& 0x7E)) := by
  rw [State.frmCtlWrite_stop hc ho, State.frmCtlHeld_stopped hr (by rwa [bitsOf_congr_run (fun i => getLsbD_and_not_one v) (by decide)]),
    frmCtlWord_stop]
  exact State.carStop_stopped hr

omit ho in
/-- The settings that a start takes are those of its word. -/
theorem State.bitsOf_started {u : State} (hu : s.setReg (pgFrm c) Reg.FRM_CTL (frmCtlWord (s.reg (pgFrm c) Reg.FRM_CTL) (v ||| 1)) = u)
    {hi lo : Nat} (hl : 0 < lo) (hh : lo ≤ hi) (h6 : hi ≤ 6) : u.fld (pgFrm c) Reg.FRM_CTL hi lo = bitsOf v hi lo := by
  rw [← hu, State.fld_setReg_same hc]
  exact (bitsOf_eq_iff _ _ _ _).2 fun i hi => by rw [getLsbD_frmCtlWord, if_pos (by omega), getLsbD_or_one v (by omega)]

end

/-- A field of one bit holds 1 where the bit is set. -/
theorem bitsOf_bit_iff (w : Word) (i : Nat) : bitsOf w i i = 1 ↔ w.getLsbD i = true := by
  have h := testBit_bitsOf w i i 0
  have hlt := bitsOf_lt w i i
  rw [Nat.sub_self] at hlt
  rw [Nat.add_zero, Nat.testBit_zero] at h
  rw [show w.getLsbD i = decide (bitsOf w i i % 2 = 1) by simpa using h.symm, decide_eq_true_iff]
  omega

theorem State.mfalign_iff (s : State) (c : Fin 8) : s.mfalign c = true ↔ s.fld (pgFrm c) Reg.FRM_CTL 6 6 = 1 :=
  (bitsOf_bit_iff _ 6).symm

theorem bitsOf_run_settings {v : Word} (h : bitsOf v 6 3 = 0) : bitsOf v 5 3 = 0 ∧ bitsOf v 6 6 = 0 := by
  have hb := (bitsOf_eq_iff v (0 : Word) 6 3).1 h
  exact ⟨(bitsOf_eq_iff v (0 : Word) 5 3).2 fun i hi => hb i (by omega), (bitsOf_eq_iff v (0 : Word) 6 6).2 fun i hi => by
    obtain rfl : i = 0 := by omega
    exact hb 3 (by decide)⟩

/-- The schedule that a start fixes at the clock edge `τ` of the generator. -/
theorem State.schedule_edge (s : State) (c : Fin 8) {t τ : Nat} (h : (t + 127) / 128 * 128 = τ) :
    s.schedule c (s.dtbAt (pwmCeil t)) (pwmCeil t) t = s.modCar c (fun k =>
      { k with phase := .starting, ideal := s.dtbAt τ, turn := τ, nextValley := τ, earliest := t, ticked := false, nextTick := τ
               lead := s.leadReg c * 128, stopPend := false, restart := none, deadlined := true }) := by
  unfold State.schedule
  rw [pwmFloor_pwmCeil, pwmCeil_eq, h]

/-! ## A running carrier -/

/-- A running carrier's register is `x`, and an event tells of settings that a write would have changed. -/
def State.runTaken (s : State) (c : Fin 8) (x : Word) (P : Prop) [Decidable P] : State :=
  if P then s.setReg (pgFrm c) Reg.FRM_CTL x else (s.setReg (pgFrm c) Reg.FRM_CTL x).raise (pgFrm c) 5

section
variable (s : State) (c : Fin 8) (x : Word) (P : Prop) [Decidable P]

theorem State.runTaken_frame : ∃ r h, s.runTaken c x P = { s with regs := r, hot := h } := by
  unfold State.runTaken
  split
  · exact ⟨_, s.hot, rfl⟩
  · exact ⟨_, _, rfl⟩

variable {P}

theorem State.reg_runTaken_other {q : PageId} {o : Nat} (h : regKey q o ≠ regKey (pgFrm c) Reg.FRM_CTL)
    (h' : regKey q o ≠ regKey (pgFrm c) Reg.PAGE_IRQ_STAT) : (s.runTaken c x P).reg q o = s.reg q o := by
  unfold State.runTaken
  split
  · exact State.reg_setReg_other s _ _ _ _ _ h
  · rw [State.reg_raise_other _ _ h', State.reg_setReg_other s _ _ _ _ _ h]

theorem State.reg_runTaken {s : State} (hc : s.canonical = true) : (s.runTaken c x P).reg (pgFrm c) Reg.FRM_CTL = x := by
  unfold State.runTaken
  split
  · exact State.reg_setReg_same hc _ _ _
  · rw [State.reg_raise_other _ _ (regKey_ne_of_off _ (by decide)), State.reg_setReg_same hc]

end

theorem regKey_frm_ne {c d : Fin 8} (h : d ≠ c) {o o' : Nat} : regKey (pgFrm d) o ≠ regKey (pgFrm c) o' := by
  have hv : d.val ≠ c.val := fun he => h (Fin.ext he)
  simp only [regKey, pageBase, pgFrm]
  omega

/-- The lock groups stay. -/
theorem State.leaderOf_runTaken {s : State} {c : Fin 8} (hc : s.canonical = true) {x : Word} {P : Prop} [Decidable P]
    (hx : bitsOf x 5 3 = bitsOf (s.reg (pgFrm c) Reg.FRM_CTL) 5 3) (d : Fin 8) : (s.runTaken c x P).leaderOf d = s.leaderOf d := by
  refine State.leaderOf_congr (fun e => ?_) d
  unfold State.lgrp State.fld
  by_cases h : e = c
  · subst h; rw [State.reg_runTaken _ _ hc, hx]
  · rw [State.reg_runTaken_other s c x (regKey_frm_ne h) (regKey_frm_ne h)]

theorem State.chCtl_runTaken (s : State) (c : Fin 8) (x : Word) (P : Prop) [Decidable P] (k : Fin 18) (hi lo : Nat) :
    (s.runTaken c x P).chCtl c k hi lo = s.chCtl c k hi lo := by
  unfold State.chCtl State.fld
  rw [State.reg_runTaken_other s c x (regKey_ne_of_kind (by simp [pgPwg0, pgFrm, pageKindNo]) _ _)
    (regKey_ne_of_kind (by simp [pgPwg0, pgFrm, pageKindNo]) _ _)]

theorem State.chCtl_imm (s : State) (c : Fin 8) (k : Fin 18) : (s.chCtl c k 1 1 == 1) = s.rbit (pgPwg0 c) (Reg.PWG_CH_CTL k) 1 := by
  unfold State.chCtl State.fld State.rbit bitOf
  rw [Bool.eq_iff_iff, beq_iff_eq]
  exact bitsOf_bit_iff _ 1

theorem State.dma_runTaken (s : State) (c : Fin 8) (x : Word) (P : Prop) [Decidable P] : (s.runTaken c x P).dma = s.dma := by
  obtain ⟨r, h, he⟩ := State.runTaken_frame s c x P
  rw [he]

section
variable {s : State} {c : Fin 8} {x : Word} {P : Prop} [Decidable P]

theorem State.carStart_runTaken (hr : s.running c = true) (hs : (s.car c).stopPend = false) :
    (s.runTaken c x P).carStart c = s.runTaken c x P := by
  obtain ⟨r, h, he⟩ := State.runTaken_frame s c x P
  rw [he]
  exact State.carStart_running hr hs

theorem State.carStart_runTaken_stopping (hr : s.running c = true) (hs : (s.car c).stopPend = true) :
    (s.runTaken c x P).carStart c = (s.runTaken c x P).modCar c (fun k => { k with restart := some (s.now + 25600) }) := by
  obtain ⟨r, h, he⟩ := State.runTaken_frame s c x P
  rw [he]
  exact State.carStart_stopping hr hs

theorem State.carStop_runTaken (hcnt : s.counting c = true) :
    (s.runTaken c x P).carStop c = (s.runTaken c x P).modCar c (fun k => { k with stopPend := true, restart := none }) := by
  obtain ⟨r, h, he⟩ := State.runTaken_frame s c x P
  rw [he]
  exact State.carStop_counting hcnt

theorem bitsOf_group_stop (w : Word) : bitsOf (w &&& ~~~1) 5 3 = bitsOf w 5 3 := bitsOf_congr_run (fun _ => getLsbD_and_not_one w) (by decide)

/-- What the write of a stop leaves of a start that waits. -/
theorem State.carStop_runTaken_waiting (hc : s.canonical = true) (hp : (s.car c).phase = .waitLeader ∨ (s.car c).phase = .starting)
    (hl : (s.pwm c).late = []) :
    let t := (s.runTaken c (s.reg (pgFrm c) Reg.FRM_CTL &&& ~~~1) P).carStop c
    t.regs = (s.runTaken c (s.reg (pgFrm c) Reg.FRM_CTL &&& ~~~1) P).regs ∧ t.dma = s.dma
      ∧ (∀ k : Fin 18, (t.ch c k).imm = s.rbit (pgPwg0 c) (Reg.PWG_CH_CTL k) 1) ∧ t.wrote.Apart { s with resp := .none }
      ∧ t.car c = { s.car c with phase := .stopped }
      ∧ ∀ d, d ≠ c → t.car d = if (s.car c).phase = .starting ∧ (s.car d).phase = .starting ∧ s.leaderOf d = c
          then { s.car d with phase := .waitLeader } else s.car d := by
  have hlead := State.leaderOf_runTaken hc (c := c) (P := P) (bitsOf_group_stop (s.reg (pgFrm c) Reg.FRM_CTL))
  have hch := State.chCtl_runTaken s c (s.reg (pgFrm c) Reg.FRM_CTL &&& ~~~1) P
  obtain ⟨r, g, he⟩ := State.runTaken_frame s c (s.reg (pgFrm c) Reg.FRM_CTL &&& ~~~1) P
  rw [he] at hlead hch ⊢
  obtain ⟨⟨cl, hcl⟩, hown, himm, hother⟩ := State.carStop_waiting (s := { s with regs := r, hot := g }) hp hl
  refine ⟨by rw [hcl], by rw [hcl], fun k => ?_, by rw [hcl]; exact ⟨rfl, rfl, rfl, rfl, rfl, rfl⟩, hown, fun d hd => ?_⟩
  · rw [himm, hch, State.chCtl_imm]
  · rw [hother d hd, hlead]
    rfl

end

section
variable {s : State} {c : Fin 8} (hc : s.canonical = true) (ho : s.Open (pgFrm c)) (hr : s.running c = true) {v : Word} {P : Prop} [Decidable P]
  (hP : SameSettings (s.reg (pgFrm c) Reg.FRM_CTL) v ↔ P)
include hc ho hr hP

theorem State.frmCtlWrite_startRunning :
    s.frmCtlWrite c (v ||| 1) 0xFFFFFFFF = (s.runTaken c (s.reg (pgFrm c) Reg.FRM_CTL ||| 1) P).carStart c := by
  rw [State.frmCtlWrite_start hc ho,
    State.frmCtlHeld_running hr (run_set _ v) ((sameSettings_congr fun i => getLsbD_or_one v).trans hP)]
  rfl

theorem State.frmCtlWrite_stopRunning :
    s.frmCtlWrite c (v &&& ~~~1) 0xFFFFFFFF = (s.runTaken c (s.reg (pgFrm c) Reg.FRM_CTL &&& ~~~1) P).carStop c := by
  rw [State.frmCtlWrite_stop hc ho,
    State.frmCtlHeld_running hr (run_cleared _ v) ((sameSettings_congr fun i => getLsbD_and_not_one v).trans hP)]
  rfl

end

end Sys2Proof.Machine
end

section
/-! THE SETTLEMENT of the statement on the commands of a carrier. -/

namespace Sys2Proof.Machine

/-- Settles O34: the control word is taken as its fields say; a carrier that stands starts with the settings of the word, one that runs
keeps its own, and a start that waits is cancelled channel by channel. -/
theorem carrierCommands : Obligations.CarrierCommands := by
  unfold Obligations.CarrierCommands
  intro x c s s1 v mask h ho p old u w τ same
  have hc : s1.canonical = true := h.2.2.2
  have hu : s1.setReg (pgFrm c) Reg.FRM_CTL (frmCtlWord (s1.reg (pgFrm c) Reg.FRM_CTL) (v ||| 1)) = u := rfl
  have hgrp : u.lgrp c = bitsOf v 5 3 := State.bitsOf_started hc v hu (by decide) (by decide) (by decide)
  have hmf : u.fld (pgFrm c) Reg.FRM_CTL 6 6 = bitsOf v 6 6 := State.bitsOf_started hc v hu (by decide) (by decide) (by decide)
  have hP : SameSettings (s1.reg (pgFrm c) Reg.FRM_CTL) v ↔ same := Iff.rfl
  clear_value u
  refine ⟨fun hr hv => ?_, fun hr hv hg hrate hdiv => ?_, fun hr hg hg4 hl hlr hrate => ?_, fun hr _ => ⟨fun hs => ?_, fun hs => ?_⟩,
    fun hr hg => ?_, fun hr _ => ⟨fun hcnt => ?_, fun hph hlate => ?_⟩, ?_, fun hr => ?_, fun hr => ?_⟩
  · obtain ⟨hg, ha⟩ := bitsOf_run_settings hv
    have hst := State.frmCtlWrite_startAt hc ho v hr (by omega) hu
    refine ⟨fun hrate => ?_, fun hrate => ?_⟩
    · refine State.exec_frmRunStart h ?_ (by subst hu; rfl)
      have hma : u.mfalign c = false := by
        rw [← Bool.not_eq_true, State.mfalign_iff]
        omega
      rw [hst, State.startAt_alone (hgrp.trans hg) hrate hma, State.schedule_edge u c (τ := τ) rfl]
    · exact State.exec_frmRunStart h (hst.trans (State.startAt_rateRefused (hgrp.trans hg) hrate _)) (by subst hu; rfl)
  · exact State.exec_frmRunStart h ((State.frmCtlWrite_startAt hc ho v hr (by omega) hu).trans
      (State.startAt_frameRefused (hgrp.trans hg) hrate ((State.mfalign_iff u c).2 (hmf.trans hv)) hdiv _)) (by subst hu; rfl)
  · exact State.exec_frmRunStart h ((State.frmCtlWrite_startAt hc ho v hr hg4 hu).trans (State.startAt_member hl hlr hrate _)) (by subst hu; rfl)
  · exact State.exec_frmRunStart h ((State.frmCtlWrite_startRunning hc ho hr hP).trans (State.carStart_runTaken hr hs)) (State.dma_runTaken ..)
  · exact State.exec_frmRunStart h ((State.frmCtlWrite_startRunning hc ho hr hP).trans (State.carStart_runTaken_stopping hr hs))
      (State.dma_runTaken ..)
  · exact State.exec_frmRunStop h (State.frmCtlWrite_stopped hc ho v hr hg) rfl
  · exact State.exec_frmRunStop h ((State.frmCtlWrite_stopRunning hc ho hr hP).trans (State.carStop_runTaken hcnt)) (State.dma_runTaken ..)
  · obtain ⟨hregs, hdma, himm, hapart, hown, hother⟩ := State.carStop_runTaken_waiting (P := same) hc hph hlate
    exact ⟨_, State.exec_frmRunStop h (State.frmCtlWrite_stopRunning hc ho hr hP) hdma, hown, hregs, himm, hapart, hother⟩
  · refine ⟨fun hroom => ?_, fun per hper hroom => ?_⟩
    · exact State.exec_frmLeadWrite h (State.frmLeadWrite_taken hc ho rfl rfl hroom) rfl
    · exact State.exec_frmLeadWrite h (State.frmLeadWrite_refused hc ho rfl rfl hper hroom) rfl
  · exact State.exec_frmFcntWrite h (if_pos hr) rfl
  · exact State.exec_frmFcntWrite h ((if_neg (by simp [hr])).trans (State.busReg_frmFcnt ho v mask)) rfl

end Sys2Proof.Machine
end

section
/-! THE SETTLEMENT of the statement on the state after reset (R34, R41, R71, R218, R285, R339). -/

namespace Sys2Proof.Machine

theorem State.reset_cluster (c : Fin 8) : State.reset.clusters[c] = Cluster.init := Vector.getElem_replicate _

theorem State.reset_ch (c : Fin 8) (k : Fin 18) : State.reset.ch c k = PwmCh.init := by
  unfold State.ch State.pwm
  rw [State.reset_cluster]
  exact Vector.getElem_replicate _

theorem State.reset_core_ce (e : Fin 64) : State.reset.core (.ce e) = Core.initCe :=
  (List.getElem_append_left (by simp [coreIdx])).trans (List.getElem_replicate _)

theorem State.reset_core_ac (a : Fin 8) : State.reset.core (.ac a) = Core.initAc :=
  (List.getElem_append_right (by simp [coreIdx])).trans (List.getElem_replicate _)

theorem State.reset_pair (k : Fin 36) : State.reset.pairs[k] = if k = 32 then { Pair.init with locked := true } else Pair.init := by
  refine (Vector.getElem_set (by decide) k.isLt).trans ?_
  rw [Vector.getElem_replicate]
  exact if_congr ⟨fun h => Fin.ext h.symm, fun h => congrArg Fin.val h.symm⟩ rfl rfl

/-- Settles O23: each unit of the reset state is its initial value, and the stores are empty. -/
theorem resetState : Obligations.ResetState := by
  unfold Obligations.ResetState
  refine ⟨rfl, rfl, rfl, rfl, rfl, rfl, rfl, fun c => ⟨?_, fun k => ?_⟩, fun c => ?_, fun a => ?_, fun e => ?_, fun k => ?_⟩
  · unfold State.running State.car
    rw [State.reset_cluster]
    rfl
  · rw [State.reset_ch]
    exact ⟨rfl, rfl⟩
  · cases c with
    | ce e => rw [State.reset_core_ce]; exact ⟨rfl, rfl⟩
    | ac a => rw [State.reset_core_ac]; exact ⟨rfl, rfl⟩
  · rw [State.reset_core_ac]; rfl
  · rw [State.reset_core_ce]; rfl
  · rw [State.reset_pair]
    by_cases h : k = 32
    · rw [if_pos h, decide_eq_true h]
    · rw [if_neg h, decide_eq_false h]; rfl

end Sys2Proof.Machine
end

section
/-! SUPPORT. What the output stage of a channel changes: its own outputs, and the blanking windows that their edges open (R78, R97,
R109). -/

namespace Sys2Proof.Machine

/-! ## A loop and one of its rounds -/

/-- A loop over distinct elements, seen from the round of one of them: the rounds before it and those after it are rounds of others. -/
theorem foldl_visit {α β : Type} {R : α → α → Prop} (hrefl : ∀ a, R a a) (htrans : ∀ a b c, R a b → R b c → R a c) {f : α → β → α}
    {l : List β} (hl : l.Nodup) {b : β} (hb : b ∈ l) (hf : ∀ a, ∀ x ∈ l, x ≠ b → R a (f a x)) (a : α) :
    ∃ u, R a u ∧ R (f u b) (l.foldl f a) := by
  have hrounds : ∀ (m : List β) (a : α), (∀ x ∈ m, x ∈ l ∧ x ≠ b) → R a (m.foldl f a) := fun m a hm =>
    List.foldlRecOn (motive := R a) m f (hrefl a) fun u hu x hx => htrans _ _ _ hu (hf u x (hm x hx).1 (hm x hx).2)
  obtain ⟨before, after, rfl⟩ := List.append_of_mem hb
  obtain ⟨-, hafter, hdisj⟩ := List.nodup_append.1 hl
  refine ⟨before.foldl f a, hrounds before a fun x hx => ⟨by simp [hx], hdisj x hx b (by simp)⟩, ?_⟩
  rw [List.foldl_append, List.foldl_cons]
  exact hrounds after _ fun x hx => ⟨by simp [hx], fun he => (List.nodup_cons.1 hafter).1 (he ▸ hx)⟩

/-! ## The output stage of one channel -/

theorem State.pwm_congr {s t : State} (h : t.clusters = s.clusters) (c : Fin 8) : t.pwm c = s.pwm c := by
  unfold State.pwm; rw [h]

theorem State.ch_congr {s t : State} (h : t.clusters = s.clusters) (c : Fin 8) (k : Fin 18) : t.ch c k = s.ch c k := by
  unfold State.ch; rw [State.pwm_congr h]

theorem State.tripPin_modPwm (s : State) (c : Fin 8) {f : Pwm → Pwm} (h : ∀ p, (f p).tripPin = p.tripPin) (d : Fin 8) :
    ((s.modPwm c f).pwm d).tripPin = (s.pwm d).tripPin := by
  by_cases hd : d = c
  · subst hd; rw [State.pwm_modPwm_same, h]
  · rw [State.pwm_modPwm_other s hd]

/-- A change of generators and carriers leaves the rest. -/
theorem State.clusters_frame {s t : State} (h : ∃ cl, t = { s with clusters := cl }) :
    t.time = s.time ∧ t.mem = s.mem ∧ t.cores = s.cores := by
  obtain ⟨cl, rfl⟩ := h
  exact ⟨rfl, rfl, rfl⟩

/-- A channel but for its output stage. -/
def PwmCh.undriven (x : PwmCh) : PwmCh := { x with mode := .stopped, dead := none, outH := false, outL := false }

/-- From `s` to `t` the output stage of channel `k` alone has acted, and opened windows. -/
structure State.OutputsAct (c : Fin 8) (k : Fin 18) (s t : State) : Prop where
  clusters : ∃ cl, t = { s with clusters := cl }
  tripPin : ∀ d, (t.pwm d).tripPin = (s.pwm d).tripPin
  others : ∀ d j, ¬(d = c ∧ j = k) → t.ch d j = s.ch d j
  own : (t.ch c k).undriven = (s.ch c k).undriven

section
variable {c : Fin 8} {k : Fin 18}

theorem State.OutputsAct.refl (s : State) : s.OutputsAct c k s := ⟨⟨s.clusters, rfl⟩, fun _ => rfl, fun _ _ _ => rfl, rfl⟩

theorem State.OutputsAct.trans {s t u : State} (h : State.OutputsAct c k s t) (h' : State.OutputsAct c k t u) : State.OutputsAct c k s u := by
  obtain ⟨⟨cl, rfl⟩, hpin, hother, hown⟩ := h
  obtain ⟨⟨cl', rfl⟩, hpin', hother', hown'⟩ := h'
  exact ⟨⟨cl', rfl⟩, fun d => (hpin' d).trans (hpin d), fun d j hj => (hother' d j hj).trans (hother d j hj), hown'.trans hown⟩

/-- What a channel holds beside its output stage stays. -/
theorem State.OutputsAct.keeps {α : Type} {f : PwmCh → α} (hf : ∀ x, f x.undriven = f x) {s t : State} (h : State.OutputsAct c k s t) :
    f (t.ch c k) = f (s.ch c k) := by
  rw [← hf, h.own, hf]

theorem State.OutputsAct.ite {s t u : State} {p : Prop} [Decidable p] (ht : State.OutputsAct c k s t) (hu : State.OutputsAct c k s u) :
    State.OutputsAct c k s (if p then t else u) := by
  split
  · exact ht
  · exact hu

theorem State.OutputsAct.modCh (s : State) {f : PwmCh → PwmCh} (hf : ∀ x, (f x).undriven = x.undriven) :
    State.OutputsAct c k s (s.modCh c k f) :=
  ⟨⟨_, rfl⟩, State.tripPin_modPwm s c fun _ => rfl, fun _ _ h => State.ch_modCh_other s h f, by rw [State.ch_modCh_same, hf]⟩

/-- An edge opens windows, and leaves every channel. -/
theorem State.blankEdge_frame (s : State) (isH : Bool) (t : Nat) :
    (∃ cl, s.blankEdge c k isH t = { s with clusters := cl }) ∧ (∀ d, ((s.blankEdge c k isH t).pwm d).tripPin = (s.pwm d).tripPin)
      ∧ ∀ d j, (s.blankEdge c k isH t).ch d j = s.ch d j := by
  unfold State.blankEdge
  refine foldl_keeps (P := fun u : State => (∃ cl, u = { s with clusters := cl }) ∧ (∀ d, (u.pwm d).tripPin = (s.pwm d).tripPin)
    ∧ ∀ d j, u.ch d j = s.ch d j) _ _ _ ⟨⟨s.clusters, rfl⟩, fun _ => rfl, fun _ _ => rfl⟩ fun u x hu => ?_
  dsimp only
  split
  · obtain ⟨⟨cl, he⟩, hpin, hch⟩ := hu
    refine ⟨⟨_, by rw [he]; rfl⟩, fun d => ?_, fun d j => ?_⟩
    · refine (State.tripPin_modPwm u c ?_ d).trans (hpin d)
      exact fun _ => rfl
    · refine (State.ch_modPwm u c ?_ d j).trans (hch d j)
      exact fun _ => rfl
  · exact hu

theorem State.OutputsAct.blankEdge (s : State) (isH : Bool) (t : Nat) : State.OutputsAct c k s (s.blankEdge c k isH t) := by
  obtain ⟨hcl, hpin, hch⟩ := s.blankEdge_frame (c := c) (k := k) isH t
  exact ⟨hcl, hpin, fun d j _ => hch d j, by rw [hch]⟩

theorem State.OutputsAct.setOut (s : State) (h l : Bool) (t : Nat) : State.OutputsAct c k s (s.setOut c k h l t) := by
  have h1 : State.OutputsAct c k s (s.modCh c k fun x => { x with outH := h, outL := l }) := .modCh s fun _ => rfl
  have h2 := State.OutputsAct.ite (p := ((s.ch c k).outH == h) = true) h1 (h1.trans (.blankEdge _ true t))
  exact .ite h2 (h2.trans (.blankEdge _ false t))

/-- The outputs that are driven. -/
theorem State.ch_setOut (s : State) (h l : Bool) (t : Nat) : (s.setOut c k h l t).ch c k = { s.ch c k with outH := h, outL := l } := by
  have hedge : ∀ (u : State) isH, (u.blankEdge c k isH t).ch c k = u.ch c k := fun u isH => by
    obtain ⟨-, -, hch⟩ := u.blankEdge_frame (c := c) (k := k) isH t
    exact hch c k
  unfold State.setOut
  simp only
  split_ifs <;> simp only [hedge, State.ch_modCh_same]

theorem State.OutputsAct.turnOn (s : State) (isH : Bool) (dt t : Nat) : State.OutputsAct c k s (s.turnOn c k isH dt t) :=
  .ite (.setOut s isH (!isH) t) (.modCh s fun _ => rfl)

/-- An output with a dead time waits for it. -/
theorem State.ch_turnOn_later (s : State) (isH : Bool) {dt : Nat} (h : 0 < dt) (t : Nat) :
    (s.turnOn c k isH dt t).ch c k = { s.ch c k with dead := some (t + dt, isH) } := by
  unfold State.turnOn
  rw [if_neg (by omega), State.ch_modCh_same]

theorem State.OutputsAct.bothOff (s : State) (t : Nat) : State.OutputsAct c k s (s.bothOff c k t) :=
  (State.OutputsAct.modCh s (f := fun x => { x with dead := none }) fun _ => rfl).trans (.setOut _ false false t)

theorem State.ch_bothOff (s : State) (t : Nat) :
    (s.bothOff c k t).ch c k = { s.ch c k with dead := none, outH := false, outL := false } := by
  unfold State.bothOff
  rw [State.ch_setOut, State.ch_modCh_same]

theorem State.OutputsAct.forceOut (s : State) (enc t : Nat) : State.OutputsAct c k s (s.forceOut c k enc t) := by
  have hoff := State.OutputsAct.bothOff (c := c) (k := k) s t
  exact .ite (hoff.trans (.turnOn _ true _ t)) (.ite (hoff.trans (.turnOn _ false _ t)) hoff)

theorem State.OutputsAct.enterMode (s : State) (m : OutMode) (t : Nat) : State.OutputsAct c k s (s.enterMode c k m t) := by
  have h1 : State.OutputsAct c k s (s.modCh c k fun x => { x with mode := m }) := .modCh s fun _ => rfl
  cases m with
  | stopped => exact h1.trans (.bothOff _ t)
  | tripped => exact h1.trans (.forceOut _ _ t)
  | safe => exact h1.trans (.forceOut _ _ t)
  | running =>
    have h2 := h1.trans (.bothOff _ t)
    exact .ite (h2.trans (.turnOn _ true _ t)) (h2.trans (.turnOn _ false _ t))

theorem State.OutputsAct.settle (s : State) (t : Nat) : State.OutputsAct c k s (s.settle c k t) := .ite (.enterMode s _ t) (.refl s)

/-- The reference of a running channel changes: both outputs are inactive, and the one that is due waits for its dead time (R78, R79). -/
theorem State.setRef_waits {s : State} {r : Bool} (href : (s.ch c k).ref = !r) (hmode : (s.ch c k).mode = .running) {dt : Nat}
    (hdt : (if r then (s.ch c k).dtr.toNat else (s.ch c k).dtf.toNat) = dt) (hpos : 0 < dt) (t : Nat) :
    (s.setRef c k r t).ch c k = { s.ch c k with ref := r, dead := some (t + dt, r), outH := false, outL := false }
      ∧ ∃ cl, s.setRef c k r t = { s with clusters := cl } := by
  obtain ⟨⟨cl, hoff⟩, -⟩ := State.OutputsAct.bothOff (c := c) (k := k) (s.modCh c k fun x => { x with ref := r }) t
  have he : s.setRef c k r t = ((s.modCh c k fun x => { x with ref := r }).bothOff c k t).turnOn c k r dt t := by
    unfold State.setRef
    simp only [href, hmode]
    subst hdt
    cases r <;> rfl
  rw [he]
  refine ⟨?_, ?_⟩
  · rw [State.ch_turnOn_later _ r hpos, State.ch_bothOff, State.ch_modCh_same]
  · obtain ⟨⟨cl', hon⟩, -⟩ := State.OutputsAct.turnOn (c := c) (k := k) ((s.modCh c k fun x => { x with ref := r }).bothOff c k t) r dt t
    exact ⟨cl', by rw [hon, hoff]; rfl⟩

end

end Sys2Proof.Machine
end

section
/-! SUPPORT. The events of the generator: a compare match, a dead time's end (R75, R76, R78). -/

namespace Sys2Proof.Machine

theorem exec_compareMatch (c : Fin 8) (k : Fin 18) (isU : Bool) (s : State) :
    exec (.compareMatch c k isU) s = .next (s.compareMatch c k isU) := rfl
theorem exec_deadTimeExpiry (c : Fin 8) (k : Fin 18) (s : State) : exec (.deadTimeExpiry c k) s = .next (s.deadExpire c k) := rfl
theorem exec_blankingWindowClose (c : Fin 8) (u : Fin 4) (s : State) : exec (.blankingWindowClose c u) s = .next (s.blankEnd c u) := rfl

section
variable {s : State} {c : Fin 8} {k : Fin 18}

theorem State.compareMatch_up_idle (h : (s.car c).phase ≠ .up ∨ (s.ch c k).doneU = true) : s.compareMatch c k true = s := by
  unfold State.compareMatch
  rcases h with h | h <;> simp [h]

theorem State.compareMatch_down_idle (h : (s.car c).phase ≠ .down ∨ (s.ch c k).doneD = true ∨ s.actD c k = 0) :
    s.compareMatch c k false = s := by
  unfold State.compareMatch
  rcases h with h | h | h <;> simp [h]

theorem State.compareMatch_up {t : Nat} (hp : (s.car c).phase = .up) (hd : (s.ch c k).doneU = false) (ht : (s.car c).valley + s.actU c k = t) :
    s.compareMatch c k true = (s.advance t).edgeU c k t := by
  unfold State.compareMatch
  simp [hp, hd, ht]

theorem State.compareMatch_down {t : Nat} (hp : (s.car c).phase = .down) (hd : (s.ch c k).doneD = false) (ha : 0 < s.actD c k)
    (ht : (s.car c).valley + 2 * s.hp c - s.actD c k = t) : s.compareMatch c k false = (s.advance t).edgeD c k t := by
  unfold State.compareMatch
  simp [hp, hd, ht, Nat.pos_iff_ne_zero.1 ha]

/-- The compares and the period stand in registers of the generator, which passing time leaves. -/
theorem State.pulse_advance (s : State) (c : Fin 8) (k : Fin 18) (t : Nat) :
    (s.advance t).actU c k = s.actU c k ∧ (s.advance t).actD c k = s.actD c k ∧ (s.advance t).hp c = s.hp c := by
  have hreg := fun o => State.reg_advance s t (q := pgPwg0 c) (by simp [pgPwg0, pageKindNo]) o
  unfold State.actU State.actD State.hp State.fld
  simp only [hreg, and_self]

theorem State.edgeU_pulse {t : Nat} (h : s.actU c k + s.actD c k < 2 * s.hp c) :
    s.edgeU c k t = (s.modCh c k (fun x => { x with doneU := true })).setRef c k true t := if_pos h

theorem State.edgeU_empty {t : Nat} (h : 2 * s.hp c ≤ s.actU c k + s.actD c k) :
    s.edgeU c k t = s.modCh c k (fun x => { x with doneU := true }) := if_neg (Nat.not_lt.2 h)

/-- The output stage turns over at an instant of the carrier: time has reached it, and nothing but the generators has acted. -/
theorem State.setRef_at {f : PwmCh → PwmCh} {r : Bool} {x : PwmCh} (hx : f (s.ch c k) = x) (href : x.ref = !r) (hmode : x.mode = .running)
    {dt : Nat} (hdt : (if r then x.dtr.toNat else x.dtf.toNat) = dt) (hpos : 0 < dt) (t : Nat) :
    let u := ((s.advance t).modCh c k f).setRef c k r t
    u.ch c k = { x with ref := r, dead := some (t + dt, r), outH := false, outL := false } ∧ u.time.clk = max s.time.clk (t / 16)
      ∧ u.mem = s.mem ∧ u.cores = s.cores := by
  have hch : ((s.advance t).modCh c k f).ch c k = x := by
    rw [State.ch_modCh_same, State.ch_congr (s.advance_clusters t), hx]
  obtain ⟨hown, hcl⟩ := State.setRef_waits (s := (s.advance t).modCh c k f) (c := c) (k := k) (r := r) (by rw [hch, href])
    (by rw [hch, hmode]) (by rw [hch, hdt]) hpos t
  obtain ⟨htime, hmem, hcores⟩ := State.clusters_frame hcl
  refine ⟨by rw [hown, hch], ?_, ?_, ?_⟩
  · rw [htime, State.modCh_time, State.advance_clk]
  · rw [hmem, State.modCh_mem, State.advance_mem]
  · rw [hcores, State.modCh_cores, State.advance_cores]

/-- A dead time that ends. -/
theorem State.deadExpire_none (h : (s.ch c k).dead = none) : s.deadExpire c k = s := by
  unfold State.deadExpire; rw [h]

theorem State.deadExpire_some {t : Nat} {isH : Bool} (h : (s.ch c k).dead = some (t, isH)) :
    s.deadExpire c k = ((s.advance t).modCh c k (fun x => { x with dead := none })).setOut c k isH (!isH) t := by
  unfold State.deadExpire; rw [h]

/-- The output that waited is on, every other channel as it was. -/
theorem State.deadExpire_effect {t : Nat} {isH : Bool} (h : (s.ch c k).dead = some (t, isH)) :
    let u := s.deadExpire c k
    u.ch c k = { s.ch c k with dead := none, outH := isH, outL := !isH } ∧ u.time.clk = max s.time.clk (t / 16) ∧ u.mem = s.mem
      ∧ u.cores = s.cores ∧ ∀ j, j ≠ k → u.ch c j = s.ch c j := by
  have hch := fun j => State.ch_congr (s.advance_clusters t) c j
  obtain ⟨hcl, -, hother, -⟩ := State.OutputsAct.setOut (c := c) (k := k)
    ((s.advance t).modCh c k (fun x => { x with dead := none })) isH (!isH) t
  obtain ⟨htime, hmem, hcores⟩ := State.clusters_frame hcl
  rw [State.deadExpire_some h]
  refine ⟨by rw [State.ch_setOut, State.ch_modCh_same, hch], ?_, ?_, ?_, fun j hj => ?_⟩
  · rw [htime, State.modCh_time, State.advance_clk]
  · rw [hmem, State.modCh_mem, State.advance_mem]
  · rw [hcores, State.modCh_cores, State.advance_cores]
  · rw [hother c j (fun hcj => hj hcj.2), State.ch_modCh_other _ (fun hcj => hj hcj.2), hch]

end

end Sys2Proof.Machine
end

section
/-! SUPPORT. What the trip logic of a generator changes: latches and outputs of its channels, its events, and what it shows of its
sources (R102 to R110). -/

namespace Sys2Proof.Machine

theorem pageKinds_getD (k : PageKind) : pageKinds.getD (pageKindNo k) .dtb = k := by cases k <;> rfl

theorem pageKindNo_inj {k l : PageKind} (h : pageKindNo k = pageKindNo l) : k = l := by
  rw [← pageKinds_getD k, h, pageKinds_getD]

/-- A register differs from every one of another kind of page, and from every one at another offset. -/
theorem regKey_ne_of_offset {p q : PageId} {off o : Nat} (h : q.kind = p.kind → o % 4096 ≠ off % 4096) : regKey q o ≠ regKey p off := by
  by_cases hk : q.kind = p.kind
  · have := h hk
    unfold regKey pageBase
    omega
  · exact regKey_ne_of_kind (fun he => hk (pageKindNo_inj he)) o off

/-- The registers of page 1 in which the trip logic shows events, refusals, counts and the sources of latches. -/
def tripShows (o : Nat) : Prop :=
  o = Reg.PAGE_IRQ_STAT ∨ o = Reg.PWG_TRIP_EVT ∨ o = Reg.PWG_CLR_REF_CH ∨ (∃ u < 4, o = Reg.PWG_BLK_CNT u) ∨ ∃ k < 18, o = Reg.PWG_CH_TLSRC k

/-- With them the live sources. -/
def tripNotes (o : Nat) : Prop := o = Reg.PWG_TRIP_SRC ∨ tripShows o

/-- From `s` to `t` the trip logic of generators has acted, and set registers of `w` at most. -/
structure State.TripActs (w : Nat → Prop) (s t : State) : Prop where
  units : ∃ cl r h, t = { s with clusters := cl, regs := r, hot := h }
  canonical : s.canonical = true → t.canonical = true
  tripPin : ∀ d, (t.pwm d).tripPin = (s.pwm d).tripPin
  regs : ∀ (q : PageId) o, (q.kind = .pwg1 → ¬w (o % 4096)) → t.reg q o = s.reg q o

section
variable {w : Nat → Prop}

theorem State.TripActs.refl (s : State) : s.TripActs w s := ⟨⟨s.clusters, s.regs, s.hot, rfl⟩, id, fun _ => rfl, fun _ _ _ => rfl⟩

theorem State.TripActs.trans {s t u : State} (h : State.TripActs w s t) (h' : State.TripActs w t u) : State.TripActs w s u := by
  obtain ⟨⟨cl, r, b, rfl⟩, hcan, hpin, hreg⟩ := h
  obtain ⟨⟨cl', r', b', rfl⟩, hcan', hpin', hreg'⟩ := h'
  exact ⟨⟨cl', r', b', rfl⟩, fun hc => hcan' (hcan hc), fun d => (hpin' d).trans (hpin d),
    fun q o ho => (hreg' q o ho).trans (hreg q o ho)⟩

/-- Memory, cores and DMA channels stay. -/
theorem State.TripActs.frame {s t : State} (h : State.TripActs w s t) : t.mem = s.mem ∧ t.cores = s.cores ∧ t.dma = s.dma := by
  obtain ⟨⟨cl, r, b, rfl⟩, -⟩ := h
  exact ⟨rfl, rfl, rfl⟩

theorem State.TripActs.mono {w' : Nat → Prop} {s t : State} (hw : ∀ o, w o → w' o) (h : State.TripActs w s t) : State.TripActs w' s t := by
  obtain ⟨hframe, hcan, hpin, hreg⟩ := h
  exact ⟨hframe, hcan, hpin, fun q o ho => hreg q o fun hk hs => ho hk (hw _ hs)⟩

theorem State.TripActs.ite {s t u : State} {p : Prop} [Decidable p] (ht : State.TripActs w s t) (hu : State.TripActs w s u) :
    State.TripActs w s (if p then t else u) := by
  split
  · exact ht
  · exact hu

theorem State.TripActs.foldl {α : Type} {f : State → α → State} {l : List α} (hf : ∀ (s : State), ∀ a ∈ l, State.TripActs w s (f s a)) (s : State) :
    State.TripActs w s (l.foldl f s) :=
  List.foldlRecOn (motive := State.TripActs w s) l f (.refl s) fun t ht a ha => ht.trans (hf t a ha)

/-- Registers of page 1 are set. -/
theorem State.TripActs.ofRegs {s t : State} (hframe : ∃ r h, t = { s with regs := r, hot := h }) (hcan : s.canonical = true → t.canonical = true)
    {c : Fin 8} {off : Nat} (hreg : ∀ q o, regKey q o ≠ regKey (pgPwg1 c) off → t.reg q o = s.reg q o) (hoff : w (off % 4096)) :
    State.TripActs w s t := by
  obtain ⟨r, h, rfl⟩ := hframe
  exact ⟨⟨s.clusters, r, h, rfl⟩, hcan, fun _ => rfl, fun q o ho => hreg q o (regKey_ne_of_offset fun hk he => ho hk (he ▸ hoff))⟩

theorem State.TripActs.setReg (s : State) (c : Fin 8) {off : Nat} (h : w (off % 4096)) (v : Word) :
    State.TripActs w s (s.setReg (pgPwg1 c) off v) :=
  .ofRegs ⟨_, s.hot, rfl⟩ (fun hc => State.canonical_setReg hc _ _ _) (fun q o hq => State.reg_setReg_other s _ q off o v hq) h

theorem State.TripActs.setBit (s : State) (c : Fin 8) {off : Nat} (h : w (off % 4096)) (i : Nat) (b : Bool) :
    State.TripActs w s (s.setBit (pgPwg1 c) off i b) := .setReg s c h _

theorem State.TripActs.stick (s : State) (c : Fin 8) {off : Nat} (h : w (off % 4096)) (i : Nat) :
    State.TripActs w s (s.stick (pgPwg1 c) off i) :=
  .ofRegs ⟨_, _, rfl⟩ (fun hc => State.canonical_stick hc _ _ _) (fun _ _ hq => State.reg_stick_other s i hq) h

theorem State.TripActs.count (s : State) (c : Fin 8) {off : Nat} (h : w (off % 4096)) (hi lo : Nat) :
    State.TripActs w s (s.count (pgPwg1 c) off hi lo) :=
  .ofRegs (s.count_frame _ _ _ _) (fun hc => State.canonical_count hc _ _ _ _) (fun _ _ hq => State.reg_count_other s hi lo hq) h

theorem State.TripActs.raise (s : State) (c : Fin 8) (b : Nat) : State.TripActs tripShows s (s.raise (pgPwg1 c) b) := .stick s c (.inl rfl) b

theorem State.TripActs.raiseIf (s : State) (p : Bool) (c : Fin 8) (b : Nat) : State.TripActs tripShows s (s.raiseIf p (pgPwg1 c) b) :=
  .ite (.raise s c b) (.refl s)

theorem State.TripActs.modPwm (s : State) (c : Fin 8) {f : Pwm → Pwm} (hpin : ∀ p, (f p).tripPin = p.tripPin) :
    State.TripActs w s (s.modPwm c f) :=
  ⟨⟨_, s.regs, s.hot, rfl⟩, id, State.tripPin_modPwm s c hpin, fun _ _ _ => rfl⟩

theorem State.TripActs.modCh (s : State) (c : Fin 8) (k : Fin 18) (f : PwmCh → PwmCh) : State.TripActs w s (s.modCh c k f) :=
  .modPwm s c fun _ => rfl

theorem State.TripActs.settle (s : State) (c : Fin 8) (k : Fin 18) (t : Nat) : State.TripActs w s (s.settle c k t) := by
  obtain ⟨⟨cl, he⟩, hpin, -, -⟩ := State.OutputsAct.settle (c := c) (k := k) s t
  rw [he] at hpin ⊢
  exact ⟨⟨cl, s.regs, s.hot, rfl⟩, id, hpin, fun _ _ _ => rfl⟩

end

theorem tripShows_tlsrc (k : Fin 18) : tripShows (Reg.PWG_CH_TLSRC k % 4096) :=
  .inr (.inr (.inr (.inr ⟨k, k.isLt, Nat.mod_eq_of_lt (by unfold Reg.PWG_CH_TLSRC; omega)⟩)))

theorem tripShows_blkCnt (u : Fin 4) : tripShows (Reg.PWG_BLK_CNT u % 4096) :=
  .inr (.inr (.inr (.inl ⟨u, u.isLt, Nat.mod_eq_of_lt (by unfold Reg.PWG_BLK_CNT; omega)⟩)))

/-- The registers that the trip logic leaves lie below those of the blanking units, or are the modes of the sources. -/
theorem not_tripNotes {o : Nat} (h : (0x40 ≤ o ∧ o < 0x4C) ∨ (0x5C ≤ o ∧ o < 0xC0) ∨ (0x100 ≤ o ∧ o < 0x160)) : ¬tripNotes (o % 4096) := by
  rw [Nat.mod_eq_of_lt (by omega)]
  rintro (he | he | he | he | ⟨u, hu, he⟩ | ⟨k, hk, he⟩) <;>
    simp only [Reg.PWG_TRIP_SRC, Reg.PAGE_IRQ_STAT, Reg.PWG_TRIP_EVT, Reg.PWG_CLR_REF_CH, Reg.PWG_BLK_CNT, Reg.PWG_CH_TLSRC] at he <;> omega

theorem not_tripShows_src : ¬tripShows (Reg.PWG_TRIP_SRC % 4096) := by
  rintro (he | he | he | ⟨u, hu, he⟩ | ⟨k, hk, he⟩) <;>
    simp only [Reg.PWG_TRIP_SRC, Reg.PAGE_IRQ_STAT, Reg.PWG_TRIP_EVT, Reg.PWG_CLR_REF_CH, Reg.PWG_BLK_CNT, Reg.PWG_CH_TLSRC] at he <;> omega

/-! ## What it decides by -/

section
variable {s t : State} (h : State.TripActs tripNotes s t)
include h

/-- Registers of page 1 that the trip logic does not set. -/
theorem State.TripActs.reg_eq {o : Nat} (ho : (0x40 ≤ o ∧ o < 0x4C) ∨ (0x5C ≤ o ∧ o < 0xC0) ∨ (0x100 ≤ o ∧ o < 0x160)) (q : PageId) :
    t.reg q o = s.reg q o := h.regs q o fun _ => not_tripNotes ho

theorem State.TripActs.tripMode_eq (c : Fin 8) (k : Fin 18) (i : Nat) : t.tripMode c k i = s.tripMode c k i := by
  unfold State.tripMode State.fld
  rw [h.reg_eq (.inr (.inr (by unfold Reg.PWG_CH_TRIPMODE; omega)))]

theorem State.TripActs.domOn_eq (d : Nat) : t.domOn d = s.domOn d := by
  unfold State.domOn State.fld
  rw [h.regs pgPwr _ (by simp [pgPwr])]

/-- What a source is at its origin. -/
theorem State.TripActs.tripLive_eq (c : Fin 8) (i : Nat) : t.tripLive c i = s.tripLive c i := by
  have hpage1 := fun o ho => h.reg_eq (o := o) ho (pgPwg1 c)
  unfold State.tripLive State.rbit
  rw [h.tripPin c, hpage1 Reg.PWG_TRIP_PINCFG (by decide), hpage1 Reg.PWG_TRIP_EGGRP (by decide), hpage1 Reg.PWG_TRIP_SW (by decide),
    h.regs pgEg _ (by simp [pgEg]), h.regs (pgCmp c) _ (by simp [pgCmp])]
  simp only [fun n => h.regs pgEg (Reg.EG_ST n) (by simp [pgEg])]
  by_cases hi : i < 12
  · rw [hpage1 (Reg.PWG_TRIP_CMPGRP (i - 4)) (by unfold Reg.PWG_TRIP_CMPGRP; omega)]
  · simp [hi, show ¬i < 4 by omega]

end

/-- The sources that a latch-and-event change leaves as they are shown. -/
theorem State.TripActs.src_eq {s t : State} (h : State.TripActs tripShows s t) (q : PageId) :
    t.reg q Reg.PWG_TRIP_SRC = s.reg q Reg.PWG_TRIP_SRC := h.regs q _ fun _ => not_tripShows_src

theorem State.TripActs.notes {s t : State} (h : State.TripActs tripShows s t) : State.TripActs tripNotes s t := h.mono fun _ => .inr

/-! ## A source takes effect (R103 to R106) -/

section
variable {s : State} {c : Fin 8} {k : Fin 18} {i : Nat}

theorem State.tripCh_ignored (h : s.tripMode c k i = 0) (t : Nat) : s.tripCh c k i t = s := by
  unfold State.tripCh; rw [h]; rfl

theorem State.tripCh_cbc (h : s.tripMode c k i = 1) (t : Nat) : s.tripCh c k i t
    = ((s.modCh c k (fun x => { x with cbc := true })).raiseIf (!((s.ch c k).latched || (s.ch c k).cbc)) (pgPwg1 c) 0).settle c k t := by
  unfold State.tripCh; rw [h]; rfl

theorem State.tripCh_latched (h : 2 ≤ s.tripMode c k i) (t : Nat) : s.tripCh c k i t
    = (((((s.modCh c k (fun x => { x with latched := true })).setBit (pgPwg1 c) (Reg.PWG_CH_TLSRC k) i true).raiseIf
        (!((s.ch c k).latched || (s.ch c k).cbc)) (pgPwg1 c) 0).raiseIf (!(s.ch c k).latched) (pgPwg1 c) 1)).settle c k t := by
  unfold State.tripCh
  obtain ⟨m, hm⟩ := Nat.exists_eq_add_of_le' h
  rw [hm]
  rfl

end

/-- From `s` to `t` the trip logic has acted on other channels than `k`, and its events stay. -/
structure State.TripOthers (c : Fin 8) (k : Fin 18) (s t : State) : Prop where
  acts : State.TripActs tripShows s t
  ch : t.ch c k = s.ch c k
  latchSrc : t.reg (pgPwg1 c) (Reg.PWG_CH_TLSRC k) = s.reg (pgPwg1 c) (Reg.PWG_CH_TLSRC k)
  events : s.canonical = true → ∀ o ∈ [Reg.PAGE_IRQ_STAT, Reg.PWG_CLR_REF_CH], ∀ b < 32,
    s.rbit (pgPwg1 c) o b = true → t.rbit (pgPwg1 c) o b = true

theorem State.TripOthers.refl (c : Fin 8) (k : Fin 18) (s : State) : State.TripOthers c k s s := ⟨.refl s, rfl, rfl, fun _ _ _ _ _ => id⟩

theorem State.TripOthers.trans {c : Fin 8} {k : Fin 18} {s t u : State} (h : State.TripOthers c k s t) (h' : State.TripOthers c k t u) :
    State.TripOthers c k s u := by
  obtain ⟨hact, hch, hsrc, hbits⟩ := h
  obtain ⟨hact', hch', hsrc', hbits'⟩ := h'
  exact ⟨hact.trans hact', hch'.trans hch, hsrc'.trans hsrc,
    fun hc o ho b hb hs => hbits' (hact.canonical hc) o ho b hb (hbits hc o ho b hb hs)⟩

theorem State.raiseIf_clusters (s : State) (b : Bool) (p : PageId) (i : Nat) : (s.raiseIf b p i).clusters = s.clusters := by
  obtain ⟨_, _, e⟩ := s.raiseIf_frame b p i; rw [e]

theorem State.reg_raiseIf_other (s : State) (b : Bool) {p q : PageId} {o : Nat} (i : Nat) (h : regKey q o ≠ regKey p Reg.PAGE_IRQ_STAT) :
    (s.raiseIf b p i).reg q o = s.reg q o := by
  unfold State.raiseIf
  split
  · exact State.reg_raise_other s i h
  · rfl

/-- A bit that is set stays so where another one is, or the same. -/
theorem State.rbit_stick_stays {s : State} (hc : s.canonical = true) (p : PageId) (off : Nat) {o b : Nat} (i : Nat) (hb : b < 32)
    (ho : o = off ∨ o % 4096 ≠ off % 4096) (h : s.rbit p o b = true) : (s.stick p off i).rbit p o b = true := by
  rcases ho with rfl | ho
  · by_cases hbi : b = i
    · subst hbi; exact State.rbit_stick_same hc p o hb
    · exact (State.rbit_setBit_ne hc p o hbi true).trans h
  · exact (State.rbit_congr (State.reg_stick_other s i (regKey_ne_of_off p ho)) b).trans h

section
variable {c : Fin 8} {j k : Fin 18}

theorem State.TripOthers.modCh (hk : k ≠ j) (s : State) (f : PwmCh → PwmCh) : State.TripOthers c j s (s.modCh c k f) :=
  ⟨.modCh s c k f, State.ch_modCh_other s (fun h => hk h.2.symm) f, rfl, fun _ _ _ _ _ => id⟩

theorem State.TripOthers.settle (hk : k ≠ j) (s : State) (t : Nat) : State.TripOthers c j s (s.settle c k t) := by
  obtain ⟨⟨cl, he⟩, -, hother, -⟩ := State.OutputsAct.settle (c := c) (k := k) s t
  refine ⟨.settle s c k t, hother c j fun h => hk h.2.symm, ?_, fun _ _ _ _ _ => ?_⟩ <;> rw [he]
  · rfl
  · exact id

theorem State.TripOthers.tlsrc (hk : k ≠ j) (s : State) (v : Word) : State.TripOthers c j s (s.setReg (pgPwg1 c) (Reg.PWG_CH_TLSRC k) v) := by
  have hv : k.val ≠ j.val := fun he => hk (Fin.ext he)
  refine ⟨.setReg s c (tripShows_tlsrc k) v, rfl, State.reg_setReg_other s _ _ _ _ v (regKey_ne_of_off _ ?_), fun _ o ho b _ hs => ?_⟩
  · unfold Reg.PWG_CH_TLSRC; omega
  · rw [State.rbit_congr (State.reg_setReg_other s _ _ _ _ v (regKey_ne_of_off _ ?_)), hs]
    simp only [List.mem_cons, List.not_mem_nil, or_false] at ho
    rcases ho with rfl | rfl <;> simp only [Reg.PAGE_IRQ_STAT, Reg.PWG_CLR_REF_CH, Reg.PWG_CH_TLSRC] <;> omega

theorem State.TripOthers.stick (s : State) {off : Nat} (hoff : off ∈ [Reg.PAGE_IRQ_STAT, Reg.PWG_CLR_REF_CH]) (i : Nat) :
    State.TripOthers c j s (s.stick (pgPwg1 c) off i) := by
  have hcases : ∀ o ∈ [Reg.PAGE_IRQ_STAT, Reg.PWG_CLR_REF_CH], o = Reg.PAGE_IRQ_STAT ∨ o = Reg.PWG_CLR_REF_CH := fun o ho => by simpa using ho
  refine ⟨.stick s c ?_ i, rfl, State.reg_stick_other s i (regKey_ne_of_off _ ?_), fun hc o ho b hb hs => State.rbit_stick_stays hc _ off i hb ?_ hs⟩
  · rcases hcases off hoff with rfl | rfl
    · exact .inl rfl
    · exact .inr (.inr (.inl rfl))
  · rcases hcases off hoff with rfl | rfl <;> simp only [Reg.PAGE_IRQ_STAT, Reg.PWG_CLR_REF_CH, Reg.PWG_CH_TLSRC] <;> omega
  · rcases hcases off hoff with rfl | rfl <;> rcases hcases o ho with rfl | rfl <;> decide

theorem State.TripOthers.raise (s : State) (b : Nat) : State.TripOthers c j s (s.raise (pgPwg1 c) b) := .stick s (by simp) b

theorem State.TripOthers.raiseIf (s : State) (p : Bool) (b : Nat) : State.TripOthers c j s (s.raiseIf p (pgPwg1 c) b) := by
  unfold State.raiseIf
  split
  · exact .raise s b
  · exact .refl c j s

/-- A source acts on one channel alone. -/
theorem State.TripOthers.tripCh (hk : k ≠ j) (s : State) (i t : Nat) : State.TripOthers c j s (s.tripCh c k i t) := by
  rcases Nat.lt_or_ge (s.tripMode c k i) 2 with h | h
  · rcases Nat.lt_or_ge (s.tripMode c k i) 1 with h0 | h1
    · rw [State.tripCh_ignored (by omega)]
      exact .refl c j s
    · rw [State.tripCh_cbc (by omega)]
      exact ((State.TripOthers.modCh hk s _).trans (.raiseIf _ _ _)).trans (.settle hk _ t)
  · rw [State.tripCh_latched h]
    exact ((((State.TripOthers.modCh hk s _).trans (.tlsrc hk _ _)).trans (.raiseIf _ _ _)).trans (.raiseIf _ _ _)).trans (.settle hk _ t)

end

section
variable {s : State} (c : Fin 8) (k : Fin 18) (i t : Nat)

theorem State.TripActs.tripCh : State.TripActs tripShows s (s.tripCh c k i t) :=
  (State.TripOthers.tripCh (j := k + 1) (by simp) s i t).acts

theorem State.TripActs.tripTake : State.TripActs tripShows s (s.tripTake c i t) := .foldl (fun _ j _ => .tripCh c j i t) s

theorem State.latched_settle (u : State) : ((u.settle c k t).ch c k).latched = (u.ch c k).latched :=
  (State.OutputsAct.settle u t).keeps (f := PwmCh.latched) fun _ => rfl

theorem State.cbc_settle (u : State) : ((u.settle c k t).ch c k).cbc = (u.ch c k).cbc :=
  (State.OutputsAct.settle u t).keeps (f := PwmCh.cbc) fun _ => rfl

theorem State.reg_settle (u : State) (q : PageId) (o : Nat) : (u.settle c k t).reg q o = u.reg q o := by
  obtain ⟨⟨cl, he⟩, -⟩ := State.OutputsAct.settle (c := c) (k := k) u t
  rw [he]
  rfl

variable {i} (hc : s.canonical = true) (hi : i < 32)
include hc hi

/-- What a source does to a channel that selects it. -/
theorem State.tripCh_effect :
    (2 ≤ s.tripMode c k i → ((s.tripCh c k i t).ch c k).latched = true ∧ (s.tripCh c k i t).rbit (pgPwg1 c) (Reg.PWG_CH_TLSRC k) i = true)
      ∧ (s.tripMode c k i = 1 → ((s.tripCh c k i t).ch c k).cbc = true) := by
  have hkey : regKey (pgPwg1 c) (Reg.PWG_CH_TLSRC k) ≠ regKey (pgPwg1 c) Reg.PAGE_IRQ_STAT :=
    regKey_ne_of_off _ (by unfold Reg.PWG_CH_TLSRC Reg.PAGE_IRQ_STAT; omega)
  refine ⟨fun hm => ?_, fun hm => ?_⟩
  · rw [State.tripCh_latched hm]
    constructor
    · rw [State.latched_settle, State.ch_congr (State.raiseIf_clusters ..), State.ch_congr (State.raiseIf_clusters ..),
        State.ch_congr (State.setBit_clusters ..), State.ch_modCh_same]
    · refine (State.rbit_congr ?_ i).trans
        (State.rbit_setBit_same (s := s.modCh c k fun x => { x with latched := true }) hc (pgPwg1 c) (Reg.PWG_CH_TLSRC k) hi true)
      rw [State.reg_settle, State.reg_raiseIf_other _ _ _ hkey, State.reg_raiseIf_other _ _ _ hkey]
  · rw [State.tripCh_cbc hm, State.cbc_settle, State.ch_congr (State.raiseIf_clusters ..), State.ch_modCh_same]

/-- A source that takes effect latches the channels that select it so, or ends their cycles. -/
theorem State.tripTake_effect :
    (2 ≤ s.tripMode c k i → ((s.tripTake c i t).ch c k).latched = true ∧ (s.tripTake c i t).rbit (pgPwg1 c) (Reg.PWG_CH_TLSRC k) i = true)
      ∧ (s.tripMode c k i = 1 → ((s.tripTake c i t).ch c k).cbc = true) := by
  obtain ⟨u, hbefore, -, hch, hsrc, -⟩ := foldl_visit (R := State.TripOthers c k) (.refl c k) (fun _ _ _ => .trans)
    (f := fun u j => u.tripCh c j i t) (List.nodup_finRange 18) (List.mem_finRange k) (fun u j _ hj => .tripCh hj u i t) s
  obtain ⟨hlatch, hcbc⟩ := State.tripCh_effect c k t (hbefore.acts.canonical hc) hi
  rw [hbefore.acts.notes.tripMode_eq] at hlatch hcbc
  unfold State.tripTake State.forCh
  rw [hch, State.rbit_congr hsrc]
  exact ⟨hlatch, hcbc⟩

end

/-! ## The sources are seen (R102, R103, R110) -/

section
variable (s : State) (c : Fin 8) (t i : Nat)

theorem State.TripActs.blankCount : State.TripActs tripShows s (s.blankCount c i t) :=
  .foldl (fun u x _ => .ite ((State.TripActs.count u c (tripShows_blkCnt x) 15 0).trans (.raise _ c 3)) (.refl u)) s

/-- A source that is seen is one that the generator knows already, or cannot see, or one that it now shows as it is. -/
theorem State.tripSee_cases :
    s.tripSee c t i = s ∧ (s.domOn (66 + 5 * c.val) = true → s.rbit (pgPwg1 c) Reg.PWG_TRIP_SRC i = s.tripLive c i)
      ∨ State.TripActs tripShows (s.setBit (pgPwg1 c) Reg.PWG_TRIP_SRC i (s.tripLive c i)) (s.tripSee c t i) := by
  unfold State.tripSee
  simp only
  by_cases h : (s.tripLive c i == s.rbit (pgPwg1 c) Reg.PWG_TRIP_SRC i || !s.domOn (66 + 5 * c.val)) = true
  · rw [if_pos h]
    exact .inl ⟨rfl, fun hd => Eq.symm (by simpa [hd] using h)⟩
  · rw [if_neg h]
    exact .inr (.ite (.refl _) (.ite (.blankCount _ c t i) ((State.TripActs.stick _ c (.inr (.inl rfl)) i).trans (.tripTake c i t))))

theorem State.tripSee_known {s : State} {c : Fin 8} {i : Nat} (h : s.rbit (pgPwg1 c) Reg.PWG_TRIP_SRC i = s.tripLive c i) (t : Nat) :
    s.tripSee c t i = s := by
  unfold State.tripSee; simp [h]

theorem State.tripSee_unpowered {s : State} {c : Fin 8} (h : s.domOn (66 + 5 * c.val) = false) (t i : Nat) : s.tripSee c t i = s := by
  unfold State.tripSee; simp [h]

/-- A source that becomes active behind no window takes effect. -/
theorem State.tripSee_active {s : State} {c : Fin 8} {t i : Nat} (hs : s.rbit (pgPwg1 c) Reg.PWG_TRIP_SRC i = false)
    (hl : s.tripLive c i = true) (hd : s.domOn (66 + 5 * c.val) = true) (hb : s.blanked c i t = false) :
    s.tripSee c t i = ((s.setBit (pgPwg1 c) Reg.PWG_TRIP_SRC i true).stick (pgPwg1 c) Reg.PWG_TRIP_EVT i).tripTake c i t := by
  unfold State.tripSee
  simp only [hs, hl, hd, hb]
  rfl

theorem State.TripActs.tripSee : State.TripActs tripNotes s (s.tripSee c t i) := by
  rcases s.tripSee_cases c t i with ⟨he, -⟩ | h
  · rw [he]; exact .refl s
  · exact (State.TripActs.setBit s c (.inl rfl) i _).trans h.notes

variable {s} (hc : s.canonical = true)
include hc

/-- The bits of `PWG_TRIP_SRC` of the other sources stay. -/
theorem State.src_tripSee_other {j : Nat} (hj : j ≠ i) :
    (s.tripSee c t i).rbit (pgPwg1 c) Reg.PWG_TRIP_SRC j = s.rbit (pgPwg1 c) Reg.PWG_TRIP_SRC j := by
  rcases s.tripSee_cases c t i with ⟨he, -⟩ | h
  · rw [he]
  · rw [State.rbit_congr (h.src_eq _), State.rbit_setBit_ne hc _ _ hj]

/-- A generator with power shows the source that it sees as it is. -/
theorem State.src_tripSee {i : Nat} (hi : i < 32) (hd : s.domOn (66 + 5 * c.val) = true) :
    (s.tripSee c t i).rbit (pgPwg1 c) Reg.PWG_TRIP_SRC i = s.tripLive c i := by
  rcases s.tripSee_cases c t i with ⟨he, hknown⟩ | h
  · rw [he, hknown hd]
  · rw [State.rbit_congr (h.src_eq _), State.rbit_setBit_same hc _ _ hi]

end

theorem State.TripActs.tripSeeAll (s : State) (c : Fin 8) : State.TripActs tripNotes s (s.tripSeeAll c) :=
  .foldl (fun u i _ => .tripSee u c u.now i) s

theorem State.tripSeeAll_unpowered {s : State} {c : Fin 8} (h : s.domOn (66 + 5 * c.val) = false) : s.tripSeeAll c = s :=
  List.foldlRecOn (motive := fun u => u = s) _ _ rfl fun u hu i _ => by rw [hu, State.tripSee_unpowered h]

/-- From `s` to `t` the trip logic has seen other sources than `i`. -/
structure State.SeesOthers (c : Fin 8) (i : Nat) (s t : State) : Prop where
  acts : State.TripActs tripNotes s t
  src : s.canonical = true → t.rbit (pgPwg1 c) Reg.PWG_TRIP_SRC i = s.rbit (pgPwg1 c) Reg.PWG_TRIP_SRC i

theorem State.SeesOthers.trans {c : Fin 8} {i : Nat} {s t u : State} (h : State.SeesOthers c i s t) (h' : State.SeesOthers c i t u) :
    State.SeesOthers c i s u := ⟨h.acts.trans h'.acts, fun hc => (h'.src (h.acts.canonical hc)).trans (h.src hc)⟩

section
variable {s : State} (hc : s.canonical = true) {c : Fin 8} {i : Nat} (hi : i < 16)
include hi

include hc in
/-- A generator with power shows every source as it is. -/
theorem State.src_tripSeeAll (hd : s.domOn (66 + 5 * c.val) = true) :
    (s.tripSeeAll c).rbit (pgPwg1 c) Reg.PWG_TRIP_SRC i = s.tripLive c i := by
  obtain ⟨u, ⟨hacts, -⟩, hacts', hsrc⟩ := foldl_visit (R := State.SeesOthers c i) (fun u => ⟨.refl u, fun _ => rfl⟩) (fun _ _ _ => .trans)
    (f := fun u j => u.tripSee c u.now j) (List.nodup_range (n := 16)) (List.mem_range.2 hi)
    (fun u j _ hj => ⟨.tripSee u c _ j, fun hu => State.src_tripSee_other c _ j hu hj.symm⟩) s
  have hu := hacts.canonical hc
  refine (hsrc ((State.TripActs.tripSee u c u.now i).canonical hu)).trans ?_
  rw [State.src_tripSee c u.now hu (by omega) (by rw [hacts.domOn_eq]; exact hd), hacts.tripLive_eq]

/-- Where every other source is known as it is, this one alone is seen. -/
theorem State.tripSeeAll_single (hknown : ∀ j < 16, j ≠ i → s.rbit (pgPwg1 c) Reg.PWG_TRIP_SRC j = s.tripLive c j)
    (hafter : ∀ j < 16, j ≠ i → (s.tripSee c s.now i).rbit (pgPwg1 c) Reg.PWG_TRIP_SRC j = (s.tripSee c s.now i).tripLive c j) :
    s.tripSeeAll c = s.tripSee c s.now i := by
  obtain ⟨u, hu, ht⟩ := foldl_visit
    (R := fun u v : State => (∀ j < 16, j ≠ i → u.rbit (pgPwg1 c) Reg.PWG_TRIP_SRC j = u.tripLive c j) → v = u)
    (fun _ _ => rfl) (fun a b d hab hbd ha => (hbd (by rw [hab ha]; exact ha)).trans (hab ha))
    (f := fun u j => u.tripSee c u.now j) (List.nodup_range (n := 16)) (List.mem_range.2 hi)
    (fun u j hj hji hu => State.tripSee_known (hu j (List.mem_range.1 hj) hji) _) s
  obtain rfl := hu hknown
  exact ht hafter

end

/-- An activation that nothing blanks, while every other source is known as it is, takes effect on the channels that select it. -/
theorem State.tripSeeAll_trips {s : State} (hc : s.canonical = true) {c : Fin 8} (hd : s.domOn (66 + 5 * c.val) = true) {i : Nat} (hi : i < 16)
    (hs : s.rbit (pgPwg1 c) Reg.PWG_TRIP_SRC i = false) (hl : s.tripLive c i = true) (hb : s.blanked c i s.now = false)
    (hknown : ∀ j < 16, j ≠ i → s.rbit (pgPwg1 c) Reg.PWG_TRIP_SRC j = s.tripLive c j) (k : Fin 18) :
    (2 ≤ s.tripMode c k i → ((s.tripSeeAll c).ch c k).latched = true ∧ (s.tripSeeAll c).rbit (pgPwg1 c) (Reg.PWG_CH_TLSRC k) i = true)
      ∧ (s.tripMode c k i = 1 → ((s.tripSeeAll c).ch c k).cbc = true) := by
  have hall := State.tripSeeAll_single hi hknown fun j hj hji => by
    rw [State.src_tripSee_other c s.now i hc hji, (State.TripActs.tripSee s c s.now i).tripLive_eq, hknown j hj hji]
  have hacts := (State.TripActs.setBit (w := tripNotes) s c (off := Reg.PWG_TRIP_SRC) (.inl rfl) i true).trans
    (.stick _ c (off := Reg.PWG_TRIP_EVT) (.inr (.inr (.inl rfl))) i)
  rw [hall, State.tripSee_active hs hl hd hb, ← hacts.tripMode_eq]
  exact State.tripTake_effect c k s.now (hacts.canonical hc) (by omega)

/-! ## A TRIP pin (R102, R577) -/

/-- The levels of four pins after one of them is driven. -/
def pinDriven (p : BitVec 4) (i : Nat) (level : Bool) : BitVec 4 := if level then p ||| (1#4 <<< i) else p &&& ~~~(1#4 <<< i)

theorem getLsbD_pinDriven (p : BitVec 4) (i : Fin 4) (level : Bool) {j : Nat} (hj : j < 4) :
    (pinDriven p i level).getLsbD j = if j = i then level else p.getLsbD j := by
  have hone : (1#4 <<< i.val).getLsbD j = decide (j = i) := by
    rw [BitVec.getLsbD_shiftLeft]
    by_cases h : j = i
    · simp [h]
    · simp [h]
      omega
  unfold pinDriven
  cases level with
  | true => rw [if_pos rfl, BitVec.getLsbD_or, hone]; by_cases h : j = i <;> simp [h]
  | false => rw [if_neg (by simp), BitVec.getLsbD_and, BitVec.getLsbD_not, hone]; by_cases h : j = i <;> simp [h, hj]

/-- A TRIP pin has taken its active level, or its inactive one. -/
def State.tripPinned (s : State) (c : Fin 8) (i : Nat) (active : Bool) : State :=
  s.modPwm c (fun p => { p with tripPin := pinDriven p.tripPin i (s.rbit (pgPwg1 c) Reg.PWG_TRIP_PINCFG i == active) })

theorem State.tripPinSet_eq (s : State) (c : Fin 8) (i : Nat) (active : Bool) :
    s.tripPinSet c i active = (s.tripPinned c i active).tripSeeAll c := rfl

section
variable {s : State} {c : Fin 8} (i : Fin 4) (active : Bool)

/-- Its source is live as the level says, unless the pin serves as general I/O. -/
theorem State.tripLive_tripPinned (h : s.rbit pgEg (Reg.FIO_SEL c) i = false) : (s.tripPinned c i active).tripLive c i = active := by
  have hsel : (s.tripPinned c i active).rbit pgEg (Reg.FIO_SEL c) i = false := h
  have hcfg : (s.tripPinned c i active).rbit (pgPwg1 c) Reg.PWG_TRIP_PINCFG i = s.rbit (pgPwg1 c) Reg.PWG_TRIP_PINCFG i := rfl
  have hpin : ((s.tripPinned c i active).pwm c).tripPin
      = pinDriven (s.pwm c).tripPin i (s.rbit (pgPwg1 c) Reg.PWG_TRIP_PINCFG i == active) := by
    unfold State.tripPinned
    rw [State.pwm_modPwm_same]
  unfold State.tripLive
  rw [if_pos i.isLt, hsel, hcfg, hpin, getLsbD_pinDriven _ _ _ i.isLt, if_pos rfl]
  cases active <;> cases s.rbit (pgPwg1 c) Reg.PWG_TRIP_PINCFG i <;> rfl

/-- Every other source is as it was. -/
theorem State.tripLive_tripPinned_other {j : Nat} (hj : j ≠ i) : (s.tripPinned c i active).tripLive c j = s.tripLive c j := by
  have hpin : j < 4 → ((s.tripPinned c i active).pwm c).tripPin.getLsbD j = (s.pwm c).tripPin.getLsbD j := fun h4 => by
    unfold State.tripPinned
    rw [State.pwm_modPwm_same, getLsbD_pinDriven _ _ _ h4, if_neg hj]
  unfold State.tripLive
  by_cases h4 : j < 4
  · rw [if_pos h4, if_pos h4, hpin h4]
    rfl
  · rw [if_neg h4, if_neg h4]
    rfl

theorem State.blanked_tripPinned (j t : Nat) : (s.tripPinned c i active).blanked c j t = s.blanked c j t := by
  unfold State.blanked State.unitBlanks State.tripPinned
  rw [State.pwm_modPwm_same]

end

/-! ## A window closes (R110) -/

theorem State.blankEnd_none {s : State} {c : Fin 8} {u : Fin 4} (h : (s.pwm c).blk[u] = none) : s.blankEnd c u = s := by
  unfold State.blankEnd; rw [h]

/-- A blanking window has closed. -/
def State.unblanked (s : State) (c : Fin 8) (u : Fin 4) : State := s.modPwm c (fun q => { q with blk := q.blk.set u none })

theorem State.reg_unblanked (s : State) (c : Fin 8) (u : Fin 4) (q : PageId) (o : Nat) : (s.unblanked c u).reg q o = s.reg q o := rfl

theorem State.blankClose_none {s : State} {c : Fin 8} {u : Fin 4} (h : (s.pwm c).blk[u] = none) (t : Nat) : s.blankClose c u t = s := by
  unfold State.blankClose; rw [h]

theorem State.blankClose_some {s : State} {c : Fin 8} {u : Fin 4} {t' : Nat} {m : Word} (h : (s.pwm c).blk[u] = some (t', m)) (t : Nat) :
    s.blankClose c u t = (s.unblanked c u).tripAgain c m t := by
  unfold State.blankClose; rw [h]; rfl

/-- A window closes at its end. -/
theorem State.blankEnd_some {s : State} {c : Fin 8} {u : Fin 4} {t : Nat} {m : Word} (h : (s.pwm c).blk[u] = some (t, m)) :
    s.blankEnd c u = ((s.advance t).unblanked c u).tripAgain c m t := by
  unfold State.blankEnd
  rw [h]
  exact State.blankClose_some (by rw [State.pwm_congr (s.advance_clusters t), h]) t

theorem State.unitBlanks_congr {s s' : State} (h : s'.clusters = s.clusters) (c : Fin 8) (u : Fin 4) (i t : Nat) :
    s'.unitBlanks c u i t = s.unitBlanks c u i t := by
  unfold State.unitBlanks; rw [State.pwm_congr h]

theorem State.unitBlanks_unblanked (s : State) (c : Fin 8) (u w : Fin 4) (i t : Nat) :
    (s.unblanked c u).unitBlanks c w i t = if w = u then false else s.unitBlanks c w i t := by
  have hw : ((s.unblanked c u).pwm c).blk[w] = if w = u then none else (s.pwm c).blk[w] := by
    unfold State.unblanked
    rw [State.pwm_modPwm_same]
    by_cases h : w = u
    · subst h; simp
    · have hv : u.val ≠ w.val := fun he => h (Fin.ext he.symm)
      simp [h, hv]
  unfold State.unitBlanks
  rw [hw]
  by_cases h : w = u <;> simp [h]

/-- A source that was covered and is still active. -/
def State.stillActive (s : State) (c : Fin 8) (m : Word) (i : Nat) : Bool := bitOf m i && s.rbit (pgPwg1 c) Reg.PWG_TRIP_SRC i

theorem State.stillActive_iff (s : State) (c : Fin 8) (m : Word) {i : Nat} (hi : i < 16) :
    s.stillActive c m i = (s.reg (pgPwg1 c) Reg.PWG_TRIP_SRC &&& m &&& 0xFFFF).getLsbD i := by
  unfold State.stillActive State.rbit bitOf
  rw [show (0xFFFF : Word) = maskOf 15 0 from rfl, BitVec.getLsbD_and, BitVec.getLsbD_and, getLsbD_maskOf]
  simp [hi, Bool.and_comm]
  omega

section
variable {s : State} {c : Fin 8} {m : Word} {t : Nat}

theorem State.tripAgain_none (h : ∀ i < 16, s.stillActive c m i = false) : s.tripAgain c m t = s :=
  List.foldlRecOn (motive := fun u => u = s) _ _ rfl fun u hu i hi => by
    rw [hu, if_neg]
    have := h i (List.mem_range.1 hi)
    unfold State.stillActive at this
    simp [this]

/-- The one source that is still active takes effect. -/
theorem State.tripAgain_one {i : Nat} (hi : i < 16) (h : ∀ j < 16, s.stillActive c m j = decide (j = i)) (hb : s.blanked c i t = false) :
    s.tripAgain c m t = s.tripTake c i t := by
  have hself : s.stillActive c m i = true := by rw [h i hi]; simp
  obtain ⟨u, hu, ht⟩ := foldl_visit
    (R := fun u v : State => (∀ j < 16, j ≠ i → u.stillActive c m j = false) → v = u)
    (fun _ _ => rfl) (fun a b d hab hbd ha => (hbd (by rw [hab ha]; exact ha)).trans (hab ha))
    (f := fun u j => if bitOf m j && u.rbit (pgPwg1 c) Reg.PWG_TRIP_SRC j && !u.blanked c j t then u.tripTake c j t else u)
    (List.nodup_range (n := 16)) (List.mem_range.2 hi)
    (fun u j hj hji hu => if_neg (by
      have := hu j (List.mem_range.1 hj) hji
      unfold State.stillActive at this
      simp [this])) s
  have hothers : ∀ j < 16, j ≠ i → s.stillActive c m j = false := fun j hj hji => by rw [h j hj, decide_eq_false hji]
  obtain rfl := hu hothers
  have htake : (if bitOf m i && u.rbit (pgPwg1 c) Reg.PWG_TRIP_SRC i && !u.blanked c i t then u.tripTake c i t else u) = u.tripTake c i t := by
    unfold State.stillActive at hself
    rw [hself, hb]
    rfl
  simp only [htake] at ht
  refine ht fun j hj hji => ?_
  unfold State.stillActive
  rw [State.rbit_congr ((State.TripActs.tripTake c i t).src_eq _)]
  exact hothers j hj hji

end

theorem getLsbD_ofNat_one_shiftLeft {i j : Nat} (hj : j < 32) : (BitVec.ofNat 32 (1 <<< i)).getLsbD j = decide (j = i) := by
  rw [BitVec.getLsbD_ofNat, Nat.one_shiftLeft, Nat.testBit_two_pow, decide_eq_true hj, Bool.true_and]
  exact decide_eq_decide.2 eq_comm

/-- A window closes over the one source that is still active: it takes effect, unless another window covers it. -/
theorem State.unblanked_trips {s : State} (hc : s.canonical = true) {c : Fin 8} {u : Fin 4} {t : Nat} {m : Word} {i : Nat} (hi : i < 16)
    (hsrc : s.reg (pgPwg1 c) Reg.PWG_TRIP_SRC &&& m &&& (0xFFFF : Word) = BitVec.ofNat 32 (1 <<< i))
    (hw : ∀ w : Fin 4, w ≠ u → s.unitBlanks c w i t = false) :
    let r := (s.unblanked c u).tripAgain c m t
    r.mem = s.mem ∧ r.cores = s.cores ∧ ∀ k : Fin 18,
      (2 ≤ s.tripMode c k i → (r.ch c k).latched = true) ∧ (s.tripMode c k i = 1 → (r.ch c k).cbc = true) := by
  have hactive : ∀ j < 16, (s.unblanked c u).stillActive c m j = decide (j = i) := fun j hj => by
    rw [State.stillActive_iff _ _ _ hj, State.reg_unblanked, hsrc, getLsbD_ofNat_one_shiftLeft (by omega)]
  have hopen : (s.unblanked c u).blanked c i t = false := by
    unfold State.blanked
    rw [List.any_eq_false]
    intro w _
    rw [State.unitBlanks_unblanked]
    by_cases h : w = u <;> simp [h, hw]
  rw [State.tripAgain_one hi hactive hopen]
  obtain ⟨hmem, hcores, -⟩ := (State.TripActs.tripTake (s := s.unblanked c u) c i t).frame
  refine ⟨hmem, hcores, fun k => ?_⟩
  obtain ⟨hlatch, hcbc⟩ := State.tripTake_effect (s := s.unblanked c u) c k t hc (i := i) (by omega)
  exact ⟨fun h => (hlatch h).1, hcbc⟩

theorem State.blankEnd_trips {s : State} (hc : s.canonical = true) {c : Fin 8} {u : Fin 4} {t : Nat} {m : Word}
    (hblk : (s.pwm c).blk[u] = some (t, m)) {i : Nat} (hi : i < 16)
    (hsrc : s.reg (pgPwg1 c) Reg.PWG_TRIP_SRC &&& m &&& (0xFFFF : Word) = BitVec.ofNat 32 (1 <<< i))
    (hw : ∀ w : Fin 4, w ≠ u → s.unitBlanks c w i t = false) :
    (s.blankEnd c u).mem = s.mem ∧ (s.blankEnd c u).cores = s.cores ∧ ∀ k : Fin 18,
      (2 ≤ s.tripMode c k i → ((s.blankEnd c u).ch c k).latched = true) ∧ (s.tripMode c k i = 1 → ((s.blankEnd c u).ch c k).cbc = true) := by
  have hreg := fun o => State.reg_advance s t (q := pgPwg1 c) (by simp [pgPwg1, pageKindNo]) o
  have hmode : ∀ k, (s.advance t).tripMode c k i = s.tripMode c k i := fun k => by
    unfold State.tripMode State.fld; rw [hreg]
  have hwin : ∀ w : Fin 4, w ≠ u → (s.advance t).unitBlanks c w i t = false := fun w hwu => by
    rw [State.unitBlanks_congr (s.advance_clusters t), hw w hwu]
  obtain ⟨hmem, hcores, htrips⟩ := State.unblanked_trips (State.canonical_advance hc t) (c := c) (u := u) (t := t) (m := m) hi
    (by rw [hreg, hsrc]) hwin
  rw [State.blankEnd_some hblk]
  refine ⟨by rw [hmem, State.advance_mem], by rw [hcores, State.advance_cores], fun k => ?_⟩
  rw [← hmode]
  exact htrips k

end Sys2Proof.Machine
end

section
/-! THE SETTLEMENT of the statement on the generator's events. -/

namespace Sys2Proof.Machine

/-- Settles O37: each event, where it finds nothing to do and where it does, through the lemma that says what it leaves. -/
theorem pwmEvents : Obligations.PwmEvents := by
  intro s c k u x up dn
  simp only [exec_compareMatch, exec_deadTimeExpiry, exec_blankingWindowClose]
  refine ⟨fun h => by rw [State.compareMatch_up_idle h], fun h => by rw [State.compareMatch_down_idle h],
    fun hp hd hpulse href hmode hdt => ⟨_, rfl, ?_⟩, fun hp hd hempty => ?_, fun hp hd ha href hmode hdt => ⟨_, rfl, ?_⟩,
    fun h => by rw [State.deadExpire_none h], fun t isH h => ⟨_, rfl, ?_⟩, fun h => by rw [State.blankEnd_none h],
    fun t m h => ⟨fun hsrc => ?_, fun i hi hsrc hw hc => ⟨_, rfl, State.blankEnd_trips hc h hi hsrc hw⟩⟩⟩
  · obtain ⟨hU, hD, hH⟩ := s.pulse_advance c k up
    rw [State.compareMatch_up hp hd rfl, State.edgeU_pulse (by rw [hU, hD, hH]; exact hpulse)]
    obtain ⟨hch, hclk, hmem, hcores⟩ := State.setRef_at (s := s) (c := c) (k := k) (f := fun y => { y with doneU := true }) (r := true)
      rfl (by rw [href]; rfl) hmode rfl hdt up
    rw [hch]
    exact ⟨rfl, rfl, rfl, rfl, rfl, hclk, hmem, hcores⟩
  · obtain ⟨hU, hD, hH⟩ := s.pulse_advance c k up
    rw [State.compareMatch_up hp hd rfl, State.edgeU_empty (by rw [hU, hD, hH]; exact hempty)]
  · rw [State.compareMatch_down hp hd ha rfl]
    obtain ⟨hch, -, hmem, hcores⟩ := State.setRef_at (s := s) (c := c) (k := k) (f := fun y => { y with doneD := true }) (r := false)
      rfl (by rw [href]; rfl) hmode rfl hdt dn
    unfold State.edgeD
    rw [hch]
    exact ⟨rfl, rfl, rfl, rfl, rfl, hmem, hcores⟩
  · exact State.deadExpire_effect h
  · rw [State.blankEnd_some h, State.tripAgain_none fun i hi => ?_]
    · rfl
    · rw [State.stillActive_iff _ _ _ hi, State.reg_unblanked, State.reg_advance s t (by simp [pgPwg1, pageKindNo]), hsrc]
      simp

end Sys2Proof.Machine
end

section
/-! SUPPORT. Accesses to the two pages of a generator: the safe vector (R98 to R101). -/

namespace Sys2Proof.Machine

/-- A write that reaches page 0 of a generator, past its header, is what the block does with it. -/
theorem State.pwg0Write_reaches {s s1 : State} {x : Access} {c : Fin 8} (h : s.Reaches x (pgPwg0 c) s1) {off : Nat} (ho : off / 4 * 4 = off)
    (hb : 0x40 ≤ off) {v mask : Word} {t : State} (ht : s1.pwg0Write c s1.stopLow s1.bridgeIsDown off v mask = t) (hd : t.dma = s1.dma) :
    s.regWrite x.by_ x.m (pgPwg0 c) off v mask = t.wrote := by
  have hp : s1.pageWrite x.by_ x.m (pgPwg0 c) off v mask = t := by
    unfold State.pageWrite
    simp only [ho]
    rw [if_neg (by simp [pgPwg0]), if_neg (by simp; omega)]
    show s1.pwg0Write (clu c.val) s1.stopLow s1.bridgeIsDown off v mask = t
    rw [clu_val]
    exact ht
  rw [State.regWrite_reaches h off v mask (by rw [hp, hd]), hp]

/-- So is one that reaches page 1. -/
theorem State.pwg1Write_reaches {s s1 : State} {x : Access} {c : Fin 8} (h : s.Reaches x (pgPwg1 c) s1) {off : Nat} (ho : off / 4 * 4 = off)
    (hb : 0x40 ≤ off) {v mask : Word} {t : State} (ht : s1.pwg1Write c off v mask = t) (hd : t.dma = s1.dma) :
    s.regWrite x.by_ x.m (pgPwg1 c) off v mask = t.wrote := by
  have hp : s1.pageWrite x.by_ x.m (pgPwg1 c) off v mask = t := by
    unfold State.pageWrite
    simp only [ho]
    rw [if_neg (by simp [pgPwg1]), if_neg (by simp; omega)]
    show s1.pwg1Write (clu c.val) off v mask = t
    rw [clu_val]
    exact ht
  rw [State.regWrite_reaches h off v mask (by rw [hp, hd]), hp]

theorem State.Reaches.canonical {s s1 : State} {x : Access} {p : PageId} (h : s.Reaches x p s1) : s1.canonical = true := by
  obtain ⟨-, -, -, hc⟩ := h
  exact hc

/-- A generator whose page an access reaches has power (R72, R448). -/
theorem State.Reaches.pwmPowered {s s1 : State} {x : Access} {c : Fin 8} (h : s.Reaches x (pgPwg1 c) s1) : s1.domOn (66 + 5 * c.val) = true := by
  obtain ⟨hacc, -⟩ := h
  have hopen : s1.pageOpen (pgPwg1 c) = true := by
    unfold State.pageAccess at hacc
    split at hacc
    · split at hacc
      · injection hacc with he
        subst he
        assumption
      · cases hacc
    · cases hacc
  have hpow : s1.pagePowered (pgPwg1 c) = true := by
    unfold State.pageOpen at hopen
    simp only [Bool.and_eq_true, Bool.or_eq_true] at hopen
    exact hopen.2.resolve_right (by simp [pgPwg1])
  have hdom : s1.pagePowered (pgPwg1 c) = s1.domOn (66 + 5 * (c.val % 8)) := rfl
  rw [← hpow, hdom, Nat.mod_eq_of_lt c.isLt]

theorem and_allLanes (v : Word) : v &&& 0xFFFFFFFF = v := BitVec.and_allOnes

/-! ## Channels enter their safe vectors by request (R98) -/

/-- The channels that a request names are in their safe vectors. -/
def State.safeSet (s : State) (c : Fin 8) (v : Word) : State := s.forCh (fun s k => if bitOf v k then s.enterSafe c k false true else s)

section
variable (s : State) (c : Fin 8)

theorem State.pwg0Write_safeSet (low down : Bool) (v : Word) :
    s.pwg0Write c low down Reg.PWG_SAFE_SET v 0xFFFFFFFF = s.safeSet c v := by
  unfold State.pwg0Write State.safeSet
  rw [if_neg (by decide), if_pos rfl, and_allLanes]

variable (k : Fin 18) (ovr sw : Bool)

/-- A channel that enters its safe vector leaves the others. -/
theorem State.ch_enterSafe_other {j : Fin 18} (h : j ≠ k) : (s.enterSafe c k ovr sw).ch c j = s.ch c j := by
  have hne : ¬(c = c ∧ j = k) := fun hj => h hj.2
  unfold State.enterSafe
  simp only
  rw [(State.OutputsAct.settle _ _).others c j hne, State.ch_congr (State.raiseIf_clusters ..), State.ch_modCh_other s hne]

/-- In it, a release that waited is off, and a request of software is noted. -/
theorem State.ch_enterSafe : ((s.enterSafe c k ovr sw).ch c k).safe = true ∧ ((s.enterSafe c k ovr sw).ch c k).relPend = false
    ∧ ((s.enterSafe c k ovr sw).ch c k).safeSw = ((s.ch c k).safeSw || sw) := by
  refine ⟨s.enterSafe_safe c k ovr sw, ?_, ?_⟩ <;> unfold State.enterSafe <;> simp only
  · rw [(State.OutputsAct.settle _ _).keeps (f := PwmCh.relPend) fun _ => rfl, State.ch_congr (State.raiseIf_clusters ..), State.ch_modCh_same]
  · rw [(State.OutputsAct.settle _ _).keeps (f := PwmCh.safeSw) fun _ => rfl, State.ch_congr (State.raiseIf_clusters ..), State.ch_modCh_same]

end

theorem State.SafeStays.safeSet (s : State) (c : Fin 8) (v : Word) : s.SafeStays (s.safeSet c v) :=
  .foldl (fun u k => .ite (.enterSafe u c k false true) (.refl u)) _ s

/-- What the request makes of a channel. -/
theorem State.ch_safeSet (s : State) (c : Fin 8) (v : Word) (k : Fin 18) :
    ((s.safeSet c v).ch c k).safe = ((s.ch c k).safe || bitOf v k) ∧ (bitOf v k = false → (s.safeSet c v).ch c k = s.ch c k)
      ∧ (bitOf v k = true → ((s.safeSet c v).ch c k).safeSw = true ∧ ((s.safeSet c v).ch c k).relPend = false) := by
  obtain ⟨u, hbefore, hafter⟩ := foldl_visit (R := fun u t : State => t.ch c k = u.ch c k) (fun _ => rfl) (fun _ _ _ h h' => h'.trans h)
    (f := fun (u : State) (j : Fin 18) => if bitOf v j then u.enterSafe c j false true else u) (List.nodup_finRange 18) (List.mem_finRange k)
    (fun u j _ hj => by
      split
      · exact u.ch_enterSafe_other c j _ _ hj.symm
      · rfl) s
  unfold State.safeSet State.forCh
  cases hv : bitOf v k with
  | false =>
    rw [if_neg (by simp [hv]), hbefore] at hafter
    rw [hafter]
    exact ⟨by simp, fun _ => rfl, nofun⟩
  | true =>
    rw [if_pos hv] at hafter
    obtain ⟨hsafe, hpend, hsw⟩ := u.ch_enterSafe c k false true
    rw [hafter, hsafe, hsw, hpend]
    exact ⟨by simp, nofun, fun _ => ⟨by simp, rfl⟩⟩

/-! ## A release (R100) -/

/-- The channels that a release names. -/
def State.safeRel (s : State) (c : Fin 8) (v : Word) : State := s.forCh (fun s k => if bitOf v k then s.releaseCh c k else s)

theorem State.pwg0Write_safeRel (s : State) (c : Fin 8) (low down : Bool) (v : Word) :
    s.pwg0Write c low down Reg.PWG_SAFE_REL v 0xFFFFFFFF = s.safeRel c v := by
  unfold State.pwg0Write State.safeRel
  rw [if_neg (by decide), if_neg (by decide), if_pos rfl, and_allLanes]

/-- From `s`, where a cause stands, to `t` releases of cluster `c` were refused: the event that says so stays. -/
def State.Refuses (c : Fin 8) (s t : State) : Prop :=
  s.canonical = true ∧ s.safeCaused c = true → (∃ r h, t = { s with regs := r, hot := h }) ∧ t.canonical = true ∧ t.safeCaused c = true
    ∧ (s.rbit (pgPwg0 c) Reg.PAGE_IRQ_STAT 7 = true → t.rbit (pgPwg0 c) Reg.PAGE_IRQ_STAT 7 = true)

section
variable {c : Fin 8}

theorem State.Refuses.refl (s : State) : State.Refuses c s s := fun h => ⟨⟨s.regs, s.hot, rfl⟩, h.1, h.2, id⟩

theorem State.Refuses.trans {s t u : State} (h : State.Refuses c s t) (h' : State.Refuses c t u) : State.Refuses c s u := fun hs => by
  obtain ⟨⟨r, b, rfl⟩, hcan, hcause, hbit⟩ := h hs
  obtain ⟨⟨r', b', rfl⟩, hcan', hcause', hbit'⟩ := h' ⟨hcan, hcause⟩
  exact ⟨⟨r', b', rfl⟩, hcan', hcause', fun hs7 => hbit' (hbit hs7)⟩

/-- A refusal raises its event and leaves the causes. -/
theorem State.Refuses.releaseCh (s : State) (k : Fin 18) : State.Refuses c s (s.releaseCh c k) := fun ⟨hc, hs⟩ => by
  have he : s.releaseCh c k = s.raise (pgPwg0 c) 7 := if_pos hs
  have hreg : ∀ (q : PageId) o, o % 4096 ≠ Reg.PAGE_IRQ_STAT → (s.raise (pgPwg0 c) 7).reg q o = s.reg q o := fun q o ho =>
    State.reg_raise_other s 7 (regKey_ne_of_offset fun _ => ho)
  rw [he]
  refine ⟨⟨_, _, rfl⟩, State.canonical_raise hc _ _, ?_, fun _ => State.rbit_raise_same hc _ (by decide)⟩
  rw [← hs]
  unfold State.safeCaused State.rbit
  rw [hreg _ _ (by decide), hreg _ _ (by decide)]
  rfl

theorem State.rbit_releaseCh {s : State} (hc : s.canonical = true) (hs : s.safeCaused c = true) (k : Fin 18) :
    (s.releaseCh c k).rbit (pgPwg0 c) Reg.PAGE_IRQ_STAT 7 = true := by
  unfold State.releaseCh
  rw [if_pos hs]
  exact State.rbit_raise_same hc _ (by decide)

/-- While a cause stands every release is refused. -/
theorem State.safeRel_refused {s : State} (hc : s.canonical = true) (hs : s.safeCaused c = true) {v : Word} (hv : ∃ k : Fin 18, bitOf v k = true) :
    (∃ r h, s.safeRel c v = { s with regs := r, hot := h }) ∧ (s.safeRel c v).rbit (pgPwg0 c) Reg.PAGE_IRQ_STAT 7 = true := by
  obtain ⟨k, hk⟩ := hv
  have hround : ∀ (u : State) (j : Fin 18), State.Refuses c u (if bitOf v j then u.releaseCh c j else u) := fun u j => by
    split
    · exact .releaseCh u j
    · exact .refl u
  obtain ⟨u, hbefore, hafter⟩ := foldl_visit (R := State.Refuses c) .refl (fun _ _ _ => .trans)
    (f := fun (u : State) (j : Fin 18) => if bitOf v j then u.releaseCh c j else u) (List.nodup_finRange 18) (List.mem_finRange k)
    (fun u j _ _ => hround u j) s
  obtain ⟨-, hcu, hsu, -⟩ := hbefore ⟨hc, hs⟩
  rw [if_pos hk] at hafter
  have hround' := State.Refuses.releaseCh (c := c) u k
  obtain ⟨hframe, -⟩ := (hbefore.trans (hround'.trans hafter)) ⟨hc, hs⟩
  obtain ⟨-, hc', hs', -⟩ := hround' ⟨hcu, hsu⟩
  obtain ⟨-, -, -, hbit⟩ := hafter ⟨hc', hs'⟩
  exact ⟨hframe, hbit (State.rbit_releaseCh hcu hsu k)⟩

end

/-- A release that no cause forbids waits at the channels that are in their safe vectors, and changes nothing else. -/
theorem State.safeRel_accepted {s : State} {c : Fin 8} (hs : s.safeCaused c = false) (v : Word) :
    (∃ cl, s.safeRel c v = { s with clusters := cl })
      ∧ ∀ k : Fin 18, (s.safeRel c v).ch c k = if bitOf v k then { s.ch c k with relPend := (s.ch c k).safe } else s.ch c k := by
  have hcause : ∀ u : State, (∃ cl, u = { s with clusters := cl }) → u.safeCaused c = false := by
    rintro _ ⟨cl, rfl⟩
    exact hs
  have hrel : ∀ (u : State) (k : Fin 18), u.safeCaused c = false →
      u.releaseCh c k = u.modCh c k (fun y => { y with relPend := y.safe }) := fun u k hu => if_neg (by simp [hu])
  have hframe : ∀ (u : State) (k : Fin 18), (∃ cl, u = { s with clusters := cl }) →
      ∃ cl, (if bitOf v k then u.releaseCh c k else u) = { s with clusters := cl } := fun u k hu => by
    rw [hrel u k (hcause u hu)]
    obtain ⟨cl, rfl⟩ := hu
    split
    · exact ⟨_, rfl⟩
    · exact ⟨cl, rfl⟩
  refine ⟨foldl_keeps (P := fun u : State => ∃ cl, u = { s with clusters := cl }) _ _ s ⟨s.clusters, rfl⟩ hframe, fun k => ?_⟩
  obtain ⟨u, hbefore, hafter⟩ := foldl_visit
    (R := fun u t : State => (∃ cl, u = { s with clusters := cl }) → (∃ cl, t = { s with clusters := cl }) ∧ t.ch c k = u.ch c k)
    (fun _ h => ⟨h, rfl⟩) (fun _ _ _ h h' ha => ⟨(h' (h ha).1).1, (h' (h ha).1).2.trans (h ha).2⟩)
    (f := fun (u : State) (j : Fin 18) => if bitOf v j then u.releaseCh c j else u) (List.nodup_finRange 18) (List.mem_finRange k)
    (fun u j _ hj hu => ⟨hframe u j hu, by
      rw [hrel u j (hcause u hu)]
      split
      · exact State.ch_modCh_other u (fun h => hj h.2.symm) _
      · rfl⟩) s
  obtain ⟨hu, hch⟩ := hbefore ⟨s.clusters, rfl⟩
  unfold State.safeRel State.forCh
  rw [(hafter (hframe u k hu)).2, hrel u k (hcause u hu), ← hch]
  split
  · exact State.ch_modCh_same u c k _
  · rfl

/-! ## The causes (R101) -/

/-- What a write of `PWG_SAFE_CAUSE` clears: the causes written 1 whose sources are over. -/
def causeLanes (low down : Bool) (v mask : Word) : Word := (v &&& mask &&& (if low then 0 else 1)) ||| (v &&& mask &&& (if down then 0 else 4))

/-- The fields of `PWG_SAFE_CAUSE`. -/
def causeFields : List Field := [⟨0, 0, .w1c⟩, ⟨1, 1, .ro⟩, ⟨2, 2, .w1c⟩]

theorem and_lane (v keep mask lane : Word) : v &&& ~~~keep &&& (mask &&& lane) = v &&& mask &&& (lane &&& ~~~keep) := by ac_rfl

theorem causeLanes_eq (low down : Bool) (v mask : Word) {keep : Word} (hk : (if low then 1 else 0) ||| (if down then 4 else 0) = keep) :
    (v &&& ~~~keep &&& (mask &&& maskOf 0 0)) ||| (v &&& ~~~keep &&& (mask &&& maskOf 2 2)) = causeLanes low down v mask := by
  have h0 : maskOf 0 0 &&& ~~~keep = if low then 0 else 1 := by subst hk; revert low down; decide
  have h2 : maskOf 2 2 &&& ~~~keep = if down then 0 else 4 := by subst hk; revert low down; decide
  rw [and_lane, and_lane, h0, h2]
  rfl

theorem clearMask_cause (v mask : Word) : clearMask causeFields v mask = (v &&& (mask &&& maskOf 0 0)) ||| (v &&& (mask &&& maskOf 2 2)) := by
  unfold clearMask causeFields Field.lanes
  simp

theorem fieldsWrite_cause (locked : Bool) (v mask old : Word) : fieldsWrite causeFields locked v mask old
    = old &&& ~~~((v &&& (mask &&& maskOf 0 0)) ||| (v &&& (mask &&& maskOf 2 2))) := by
  unfold fieldsWrite causeFields
  simp only [List.foldl_cons, List.foldl_nil, Field.write, Field.lanes]
  rw [BitVec.not_or, BitVec.and_assoc]

/-- A cause clears by writing 1, unless its source persists. -/
theorem State.safeCauseWrite_eq (s : State) (c : Fin 8) (low down : Bool) (v mask : Word) : s.safeCauseWrite c low down v mask
    = (s.keptBits (pgPwg0 c) Reg.PWG_SAFE_CAUSE (causeLanes low down v mask)).1.setReg (pgPwg0 c) Reg.PWG_SAFE_CAUSE
        ((s.reg (pgPwg0 c) Reg.PWG_SAFE_CAUSE &&& ~~~causeLanes low down v mask)
          ||| (s.keptBits (pgPwg0 c) Reg.PWG_SAFE_CAUSE (causeLanes low down v mask)).2) := by
  have hr : regAt (pgPwg0 c).kind (pgPwg0 c).inst Reg.PWG_SAFE_CAUSE = some ⟨Reg.PWG_SAFE_CAUSE, 0, 1, 0x0, causeFields⟩ := rfl
  have hlock : ∀ v old, lockHit causeFields v mask old = false := fun v old => by simp [lockHit, causeFields]
  unfold State.safeCauseWrite State.busReg
  simp only [hr, hlock, clearMask_cause, fieldsWrite_cause, causeLanes_eq low down v mask rfl, Bool.and_false, Bool.false_eq_true, if_false]

theorem State.pwg0Write_safeCause (s : State) (c : Fin 8) (low down : Bool) (v mask : Word) :
    s.pwg0Write c low down Reg.PWG_SAFE_CAUSE v mask = s.safeCauseWrite c low down v mask := by
  unfold State.pwg0Write
  rw [if_neg (by decide), if_neg (by decide), if_neg (by decide), if_pos rfl]

theorem State.keptBits_dma (s : State) (p : PageId) (off : Nat) (m : Word) : (s.keptBits p off m).1.dma = s.dma := by
  unfold State.keptBits
  simp only
  split <;> rfl

end Sys2Proof.Machine
end

section
/-! SUPPORT. Writes of page 1 of a generator: software trips, requests to clear latches, and the blanking units (R102, R105, R109). -/

namespace Sys2Proof.Machine

/-! ## Software trips (R102) -/

/-- A bus write to a register of one field that takes it in every lane, whether the page is locked or not. -/
theorem State.busReg_rw {p : PageId} {off hi lo o n st r : Nat} (hr : regAt p.kind p.inst off = some ⟨o, n, st, r, [⟨hi, lo, .rw⟩]⟩)
    (s : State) (v mask : Word) : s.busReg p off v mask = s.setReg p off (lanesWrite (maskOf hi lo) v mask (s.reg p off)) := by
  have hclear : clearMask [⟨hi, lo, .rw⟩] v mask = 0 := clearMask_plain (by simp [Field.plain]) v mask
  have hwrite : ∀ locked old, fieldsWrite [⟨hi, lo, .rw⟩] locked v mask old = lanesWrite (maskOf hi lo) v mask old := fun locked old =>
    Field.write_plain (f := ⟨hi, lo, .rw⟩) (.inl rfl) [⟨hi, lo, .rw⟩] v mask old
  have hlock : ∀ old, lockHit [⟨hi, lo, .rw⟩] v mask old = false := fun old => by simp [lockHit]
  unfold State.busReg
  simp only [hr, hclear, State.keptBits_zero, hwrite, hlock, Bool.and_false, Bool.false_eq_true, if_false]
  exact congrArg (s.setReg p off) BitVec.or_zero

section
variable (s : State) (c : Fin 8) (v mask : Word)

/-- The software trips as a write sets them. -/
def State.tripSwSet : State := s.setReg (pgPwg1 c) Reg.PWG_TRIP_SW (lanesWrite (maskOf 1 0) v mask (s.reg (pgPwg1 c) Reg.PWG_TRIP_SW))

theorem State.pwg1Write_tripSw : s.pwg1Write c Reg.PWG_TRIP_SW v mask = (s.tripSwSet c v mask).tripSeeAll c := by
  have hbus : s.busReg (pgPwg1 c) Reg.PWG_TRIP_SW v mask = s.tripSwSet c v mask := State.busReg_rw rfl s v mask
  have he : s.pwg1Write c Reg.PWG_TRIP_SW v mask = (s.busReg (pgPwg1 c) Reg.PWG_TRIP_SW v mask).tripSeeAll c := rfl
  rw [he, hbus]

theorem State.tripLive_sw (b : Fin 2) : s.tripLive c (14 + b.val) = s.rbit (pgPwg1 c) Reg.PWG_TRIP_SW b := by
  unfold State.tripLive
  rw [if_neg (by omega), if_neg (by omega), if_neg (by omega), Nat.add_sub_cancel_left]

variable {s c} (hc : s.canonical = true)
include hc

/-- The software trips stand as written, and the trip logic has seen them. -/
theorem State.tripSwSet_effect : let t := (s.tripSwSet c v mask).tripSeeAll c
    t.fld (pgPwg1 c) Reg.PWG_TRIP_SW 1 0 = bitsOf ((s.reg (pgPwg1 c) Reg.PWG_TRIP_SW &&& ~~~mask) ||| (v &&& mask)) 1 0
      ∧ (s.domOn (66 + 5 * c.val) = true → ∀ b : Fin 2, t.rbit (pgPwg1 c) Reg.PWG_TRIP_SRC (14 + b.val) = t.rbit (pgPwg1 c) Reg.PWG_TRIP_SW b) := by
  have hset : (s.tripSwSet c v mask).canonical = true := State.canonical_setReg hc _ _ _
  have hacts := State.TripActs.tripSeeAll (s.tripSwSet c v mask) c
  refine ⟨?_, fun hd b => ?_⟩
  · unfold State.fld
    rw [hacts.reg_eq (by decide)]
    unfold State.tripSwSet
    rw [State.reg_setReg_same hc, bitsOf_eq_iff]
    intro i hi
    have hall : (s.reg (pgPwg1 c) Reg.PWG_TRIP_SW &&& ~~~mask) ||| (v &&& mask)
        = lanesWrite (BitVec.allOnes 32) v mask (s.reg (pgPwg1 c) Reg.PWG_TRIP_SW) := by
      unfold lanesWrite; rw [BitVec.and_allOnes, BitVec.and_allOnes]
    rw [hall, getLsbD_lanesWrite, getLsbD_lanesWrite, getLsbD_maskOf, BitVec.getLsbD_allOnes, decide_eq_true (by omega), decide_eq_true (by omega)]
  · have hd' : (s.tripSwSet c v mask).domOn (66 + 5 * c.val) = true := by
      unfold State.domOn State.fld State.tripSwSet at *
      rwa [State.reg_setReg_other _ _ _ _ _ _ (regKey_ne_of_kind (by simp [pgPwr, pgPwg1, pageKindNo]) _ _)]
    rw [State.src_tripSeeAll hset (by omega) hd', State.tripLive_sw, State.rbit_congr (hacts.reg_eq (by decide) _)]

end

/-! ## Requests to clear latches (R105) -/

/-- A source that channel `k` selects as latched is active. -/
def State.tripHeld (s : State) (c : Fin 8) (k : Fin 18) : Bool :=
  (List.range 16).any (fun i => decide (2 ≤ s.tripMode c k i) && s.rbit (pgPwg1 c) Reg.PWG_TRIP_SRC i)

theorem State.TripActs.tripHeld_eq {s t : State} (h : State.TripActs tripShows s t) (c : Fin 8) (k : Fin 18) : t.tripHeld c k = s.tripHeld c k := by
  unfold State.tripHeld State.rbit
  simp only [h.notes.tripMode_eq, h.src_eq]

section
variable {s : State} {c : Fin 8} {k : Fin 18}

theorem State.tripClear_held (h : s.tripHeld c k = true) : s.tripClear c k = (s.stick (pgPwg1 c) Reg.PWG_CLR_REF_CH k).raise (pgPwg1 c) 2 := if_pos h

theorem State.tripClear_free (h : s.tripHeld c k = false) :
    s.tripClear c k = (s.modCh c k (fun y => { y with latched := false })).setReg (pgPwg1 c) (Reg.PWG_CH_TLSRC k) 0 :=
  if_neg (by rw [Bool.not_eq_true]; exact h)

theorem State.TripOthers.tripClear {j : Fin 18} (hk : k ≠ j) (s : State) : State.TripOthers c j s (s.tripClear c k) := by
  cases h : s.tripHeld c k with
  | true =>
    rw [State.tripClear_held h]
    exact (State.TripOthers.stick s (by simp) _).trans (.raise _ 2)
  | false =>
    rw [State.tripClear_free h]
    exact (State.TripOthers.modCh hk s _).trans (.tlsrc hk _ 0)

end

/-- The latches that a request names are cleared, or stay where a source holds them. -/
def State.tripClr (s : State) (c : Fin 8) (v : Word) : State := s.forCh (fun s k => if bitOf v k then s.tripClear c k else s)

theorem State.pwg1Write_tripClr (s : State) (c : Fin 8) (v : Word) : s.pwg1Write c Reg.PWG_TRIP_CLR v 0xFFFFFFFF = s.tripClr c v := by
  unfold State.pwg1Write State.tripClr
  rw [if_pos rfl, and_allLanes]

theorem State.TripActs.tripClr (s : State) (c : Fin 8) (v : Word) : State.TripActs tripShows s (s.tripClr c v) :=
  .foldl (fun u k _ => .ite (State.TripOthers.tripClear (j := k + 1) (by simp) u).acts (.refl u)) s

/-- What a request makes of a channel. -/
theorem State.tripClr_effect {s : State} (hc : s.canonical = true) (c : Fin 8) (v : Word) (k : Fin 18) :
    (bitOf v k = true → s.tripHeld c k = false →
        (s.tripClr c v).ch c k = { s.ch c k with latched := false } ∧ (s.tripClr c v).reg (pgPwg1 c) (Reg.PWG_CH_TLSRC k) = 0)
      ∧ (bitOf v k = true → s.tripHeld c k = true → (s.tripClr c v).ch c k = s.ch c k
          ∧ (s.tripClr c v).rbit (pgPwg1 c) Reg.PWG_CLR_REF_CH k = true ∧ (s.tripClr c v).rbit (pgPwg1 c) Reg.PAGE_IRQ_STAT 2 = true)
      ∧ (bitOf v k = false → (s.tripClr c v).ch c k = s.ch c k) := by
  obtain ⟨u, ⟨hacts, hch, -, -⟩, -, hch', hsrc', hbits'⟩ := foldl_visit (R := State.TripOthers c k) (.refl c k) (fun _ _ _ => .trans)
    (f := fun (u : State) (j : Fin 18) => if bitOf v j then u.tripClear c j else u) (List.nodup_finRange 18) (List.mem_finRange k)
    (fun u j _ hj => by
      split
      · exact .tripClear hj u
      · exact .refl c k u) s
  have hu : u.canonical = true := hacts.canonical hc
  unfold State.tripClr State.forCh
  rw [hch', hsrc']
  refine ⟨fun hv hheld => ?_, fun hv hheld => ?_, fun hv => ?_⟩
  · rw [if_pos hv, State.tripClear_free (by rw [hacts.tripHeld_eq, hheld])]
    refine ⟨?_, State.reg_setReg_same hu _ _ _⟩
    rw [State.ch_congr (State.setReg_clusters ..), State.ch_modCh_same, hch]
  · have hclear := State.tripClear_held (s := u) (c := c) (k := k) (by rw [hacts.tripHeld_eq, hheld])
    have hst := State.canonical_stick hu (pgPwg1 c) Reg.PWG_CLR_REF_CH k
    rw [if_pos hv, hclear] at hbits' ⊢
    refine ⟨hch, ?_, ?_⟩
    · refine hbits' (State.canonical_raise hst _ _) _ (by simp) k (by omega) ?_
      exact State.rbit_stick_stays hst _ _ _ (by omega) (.inr (by decide)) (State.rbit_stick_same hu _ _ (by omega))
    · exact hbits' (State.canonical_raise hst _ _) _ (by simp) 2 (by omega) (State.rbit_raise_same hst _ (by decide))
  · rw [if_neg (by simp [hv]), hch]

/-! ## The blanking units (R109) -/

section
variable {s : State} {c : Fin 8} (u : Fin 4) (v mask : Word)

theorem State.pwg1Write_blkCtl : s.pwg1Write c (Reg.PWG_BLK_CTL u) v mask = s.blkWrite c u (Reg.PWG_BLK_CTL u) v mask := by
  fin_cases u <;> rfl

theorem State.pwg1Write_blkSrc : s.pwg1Write c (Reg.PWG_BLK_SRC u) v mask = s.blkWrite c u (Reg.PWG_BLK_SRC u) v mask := by
  fin_cases u <;> rfl

variable (ho : s.Open (pgPwg1 c))
include ho

theorem State.busReg_blkCtl : s.busReg (pgPwg1 c) (Reg.PWG_BLK_CTL u) v mask = s.setReg (pgPwg1 c) (Reg.PWG_BLK_CTL u)
    ((s.reg (pgPwg1 c) (Reg.PWG_BLK_CTL u) &&& ~~~(mask &&& 0xFFFF007F)) ||| (v &&& mask &&& 0xFFFF007F)) :=
  State.busReg_plain (d := ⟨Reg.PWG_BLK_CTL 0, 16, 4, 0x0, [⟨4, 0, .rwl⟩, ⟨6, 5, .rwl⟩, ⟨31, 16, .rwl⟩]⟩) (by fin_cases u <;> rfl)
    (by simp [Field.plain]) ho v mask

theorem State.busReg_blkSrc : s.busReg (pgPwg1 c) (Reg.PWG_BLK_SRC u) v mask = s.setReg (pgPwg1 c) (Reg.PWG_BLK_SRC u)
    ((s.reg (pgPwg1 c) (Reg.PWG_BLK_SRC u) &&& ~~~(mask &&& 0xFFFF)) ||| (v &&& mask &&& 0xFFFF)) :=
  State.busReg_plain (d := ⟨Reg.PWG_BLK_SRC 0, 16, 4, 0x0, [⟨15, 0, .rwl⟩]⟩) (by fin_cases u <;> rfl) (by simp [Field.plain]) ho v mask

omit ho in
/-- A write to a unit whose window is closed is its bus write alone. -/
theorem State.blkWrite_closed {off : Nat} {w : Word} (hbus : s.busReg (pgPwg1 c) off v mask = s.setReg (pgPwg1 c) off w)
    (h : (s.pwm c).blk[u] = none) : s.blkWrite c u off v mask = s.setReg (pgPwg1 c) off w := by
  unfold State.blkWrite
  simp only [hbus]
  rw [State.blankClose_none (by rw [State.pwm_congr (State.setReg_clusters ..), h]), ite_self]

omit ho in
/-- So is a write of the sources of a unit that stays on. -/
theorem State.blkWrite_on {w : Word} (hbus : s.busReg (pgPwg1 c) (Reg.PWG_BLK_SRC u) v mask = s.setReg (pgPwg1 c) (Reg.PWG_BLK_SRC u) w)
    (hedge : bitsOf (s.reg (pgPwg1 c) (Reg.PWG_BLK_CTL u)) 6 5 ≠ 0) (hlen : bitsOf (s.reg (pgPwg1 c) (Reg.PWG_BLK_CTL u)) 31 16 ≠ 0)
    (hch : bitsOf (s.reg (pgPwg1 c) (Reg.PWG_BLK_CTL u)) 4 0 < 18) :
    s.blkWrite c u (Reg.PWG_BLK_SRC u) v mask = s.setReg (pgPwg1 c) (Reg.PWG_BLK_SRC u) w := by
  unfold State.blkWrite
  simp only [hbus]
  rw [State.reg_setReg_other _ _ _ _ _ _ (regKey_ne_of_off _ (by unfold Reg.PWG_BLK_CTL Reg.PWG_BLK_SRC; omega)),
    if_neg (by omega)]

end

end Sys2Proof.Machine
end

section
/-! SUPPORT. A stop (R98, R414, R565): channels enter their safe vectors, DMA channels end, and frames tell the fabric of it; no channel
leaves its safe vector by it, and the cause that it records stays. -/

namespace Sys2Proof.Machine

/-- Registers that no stop sets: the states of the power domains, and the settings of the DMA channels. -/
def stopKeeps (q : PageId) (o : Nat) : Prop :=
  q.kind = .pwr ∨ (q.kind = .sdma ∨ q.kind = .cdma) ∧ 0x100 ≤ o % 4096 ∧ o % 64 = 0

/-- From `s` to `t` a stop has acted, at most. -/
structure State.StopActed (s t : State) : Prop where
  units : t.mem = s.mem ∧ t.cores = s.cores ∧ t.stopLow = s.stopLow
  canonical : s.canonical = true → t.canonical = true
  regs : ∀ q o, stopKeeps q o → t.reg q o = s.reg q o
  safe : ∀ d k, (s.ch d k).safe = true → (t.ch d k).safe = true
  cause : ∀ d, s.canonical = true → s.rbit (pgPwg0 d) Reg.PWG_SAFE_CAUSE 0 = true → t.rbit (pgPwg0 d) Reg.PWG_SAFE_CAUSE 0 = true

theorem State.StopActed.refl (s : State) : s.StopActed s := ⟨⟨rfl, rfl, rfl⟩, id, fun _ _ _ => rfl, fun _ _ => id, fun _ _ => id⟩

theorem State.StopActed.trans {s t u : State} (h : s.StopActed t) (h' : t.StopActed u) : s.StopActed u := by
  obtain ⟨⟨hmem, hcores, hlow⟩, hcan, hreg, hsafe, hcause⟩ := h
  obtain ⟨⟨hmem', hcores', hlow'⟩, hcan', hreg', hsafe', hcause'⟩ := h'
  exact ⟨⟨hmem'.trans hmem, hcores'.trans hcores, hlow'.trans hlow⟩, fun hc => hcan' (hcan hc), fun q o ho => (hreg' q o ho).trans (hreg q o ho),
    fun d k hs => hsafe' d k (hsafe d k hs), fun d hc hs => hcause' d (hcan hc) (hcause d hc hs)⟩

theorem State.StopActed.ite {s t u : State} {p : Prop} [Decidable p] (ht : s.StopActed t) (hu : s.StopActed u) :
    s.StopActed (if p then t else u) := by
  split
  · exact ht
  · exact hu

theorem State.StopActed.foldl {α : Type} {f : State → α → State} (hf : ∀ (s : State) (a : α), s.StopActed (f s a)) (l : List α) (s : State) :
    s.StopActed (l.foldl f s) :=
  foldl_keeps (P := fun t => s.StopActed t) f l s (.refl s) fun t a ht => ht.trans (hf t a)

/-- Units other than cores and generators act. -/
theorem State.StopActed.ofUnits {s t : State} (hmem : t.mem = s.mem) (hcores : t.cores = s.cores) (hlow : t.stopLow = s.stopLow)
    (hregs : t.regs = s.regs) (hsnaps : t.snaps = s.snaps) (hcl : t.clusters = s.clusters) : s.StopActed t :=
  ⟨⟨hmem, hcores, hlow⟩, fun hc => State.canonical_congr hc hmem hregs hsnaps, fun q o _ => State.reg_congr hregs q o,
    fun d k hs => by rw [State.ch_congr hcl]; exact hs, fun d _ hs => (State.rbit_congr (State.reg_congr hregs _ _) 0).trans hs⟩

/-- A register is set that is none of those. -/
theorem State.StopActed.ofReg {s t : State} (hframe : ∃ r h, t = { s with regs := r, hot := h }) (hcan : s.canonical = true → t.canonical = true)
    {p : PageId} {off : Nat} (hreg : ∀ q o, regKey q o ≠ regKey p off → t.reg q o = s.reg q o) (hpwr : p.kind ≠ .pwr)
    (hdma : p.kind = .sdma ∨ p.kind = .cdma → off % 64 ≠ 0 ∨ off % 4096 < 0x100)
    (hcause : p.kind = .pwg0 → off % 4096 ≠ Reg.PWG_SAFE_CAUSE) : s.StopActed t := by
  obtain ⟨r, h, rfl⟩ := hframe
  refine ⟨⟨rfl, rfl, rfl⟩, hcan, fun q o ho => hreg q o (regKey_ne_of_offset fun hk he => ?_), fun _ _ => id, fun d _ hs => ?_⟩
  · rcases ho with ho | ⟨ho, hlo, hz⟩
    · exact hpwr (hk ▸ ho)
    · have := hdma (hk ▸ ho)
      omega
  · have hkey : regKey (pgPwg0 d) Reg.PWG_SAFE_CAUSE ≠ regKey p off := regKey_ne_of_offset fun hk => (hcause hk.symm).symm
    exact (State.rbit_congr (hreg _ _ hkey) 0).trans hs

section
variable (s : State) {p : PageId} {off : Nat} (hpwr : p.kind ≠ .pwr) (hdma : p.kind = .sdma ∨ p.kind = .cdma → off % 64 ≠ 0 ∨ off % 4096 < 0x100)
  (hcause : p.kind = .pwg0 → off % 4096 ≠ Reg.PWG_SAFE_CAUSE)
include hpwr hdma hcause

theorem State.StopActed.setReg (v : Word) : s.StopActed (s.setReg p off v) :=
  .ofReg ⟨_, s.hot, rfl⟩ (fun hc => State.canonical_setReg hc _ _ _) (fun q o hq => State.reg_setReg_other s p q off o v hq) hpwr hdma hcause

theorem State.StopActed.stick (i : Nat) : s.StopActed (s.stick p off i) :=
  .ofReg ⟨_, _, rfl⟩ (fun hc => State.canonical_stick hc _ _ _) (fun _ _ hq => State.reg_stick_other s i hq) hpwr hdma hcause

theorem State.StopActed.count (hi lo : Nat) : s.StopActed (s.count p off hi lo) :=
  .ofReg (s.count_frame _ _ _ _) (fun hc => State.canonical_count hc _ _ _ _) (fun _ _ hq => State.reg_count_other s hi lo hq) hpwr hdma hcause

end

/-! ## The generators (R98) -/

theorem State.StopActed.enterSafe (s : State) (c : Fin 8) (k : Fin 18) (ovr sw : Bool) : s.StopActed (s.enterSafe c k ovr sw) := by
  have hset : ∀ f : PwmCh → PwmCh, (∀ x, (f x).safe = true) → s.StopActed (s.modCh c k f) := fun f hf =>
    ⟨⟨rfl, rfl, rfl⟩, id, fun _ _ _ => rfl, (State.SafeStays.modCh s c k fun x _ => hf x).2.2, fun _ _ => id⟩
  have hevent : ∀ (u : State) (b : Bool), u.StopActed (u.raiseIf b (pgPwg0 c) 6) := fun u b =>
    .ite (.stick u (by simp [pgPwg0]) (by simp [pgPwg0]) (fun _ => by decide) 6) (.refl u)
  have hsettle : ∀ (u : State) (t : Nat), u.StopActed (u.settle c k t) := fun u t => by
    obtain ⟨-, -, hsafe⟩ := State.SafeStays.settle u c k t
    obtain ⟨⟨cl, he⟩, -⟩ := State.OutputsAct.settle (c := c) (k := k) u t
    rw [he] at hsafe ⊢
    exact ⟨⟨rfl, rfl, rfl⟩, id, fun _ _ _ => rfl, hsafe, fun _ _ => id⟩
  exact ((hset _ fun _ => rfl).trans (hevent _ _)).trans (hsettle _ _)

/-- A cause that is recorded leaves those of the other clusters. -/
theorem State.StopActed.recordCause (s : State) (c : Fin 8) : s.StopActed (s.stick (pgPwg0 c) Reg.PWG_SAFE_CAUSE 0) := by
  refine ⟨⟨rfl, rfl, rfl⟩, fun hc => State.canonical_stick hc _ _ _, fun q o ho => State.reg_stick_other s 0 (regKey_ne_of_offset fun hk => ?_),
    fun _ _ => id, fun d hc hs => ?_⟩
  · have hkind : q.kind = .pwg0 := hk
    rcases ho with ho | ⟨ho | ho, -⟩ <;> rw [hkind] at ho <;> cases ho
  · by_cases hd : d = c
    · subst hd
      exact State.rbit_stick_same hc _ _ (by decide)
    · refine (State.rbit_congr (State.reg_stick_other s 0 ?_) 0).trans hs
      have hv : d.val ≠ c.val := fun he => hd (Fin.ext he)
      simp only [regKey, pageBase, pgPwg0]
      omega

theorem State.StopActed.enterAll (s : State) (c : Fin 8) : s.StopActed (s.forCh fun s k => s.enterSafe c k false false) :=
  .foldl (fun u k => .enterSafe u c k false false) _ s

theorem State.StopActed.safeCluster (s : State) (c : Fin 8) : s.StopActed (s.safeCluster c (some 0)) :=
  .ite (.refl s) ((State.StopActed.recordCause s c).trans (.enterAll _ c))

theorem State.StopActed.safeAll (s : State) : s.StopActed (s.safeAll (some 0)) := .foldl (fun u c => .safeCluster u c) _ s

theorem State.StopActed.domOn_eq {s t : State} (h : s.StopActed t) (d : Nat) : t.domOn d = s.domOn d := by
  unfold State.domOn State.fld
  rw [h.regs _ _ (.inl rfl)]

/-- A generator with power records the cause. -/
theorem State.cause_safeCluster {s : State} (hc : s.canonical = true) {c : Fin 8} (hd : s.domOn (66 + 5 * c.val) = true) :
    (s.safeCluster c (some 0)).rbit (pgPwg0 c) Reg.PWG_SAFE_CAUSE 0 = true := by
  unfold State.safeCluster
  rw [if_neg (by simp [hd])]
  exact (State.StopActed.enterAll _ c).cause c (State.canonical_stick hc _ _ _) (State.rbit_stick_same hc _ _ (by decide))

theorem State.cause_safeAll {s : State} (hc : s.canonical = true) {c : Fin 8} (hd : s.domOn (66 + 5 * c.val) = true) :
    (s.safeAll (some 0)).rbit (pgPwg0 c) Reg.PWG_SAFE_CAUSE 0 = true := by
  obtain ⟨u, hbefore, hafter⟩ := foldl_visit (R := State.StopActed) .refl (fun _ _ _ => .trans)
    (f := fun (u : State) (c : Fin 8) => u.safeCluster c (some 0)) (List.nodup_finRange 8) (List.mem_finRange c)
    (fun u d _ _ => .safeCluster u d) s
  have hu := hbefore.canonical hc
  exact hafter.cause c ((State.StopActed.safeCluster u c).canonical hu) (State.cause_safeCluster hu (by rw [hbefore.domOn_eq, hd]))

/-! ## The DMA channels (R411, R414) -/

theorem State.StopActed.modDma (s : State) (k : Fin 96) (f : DmaCh → DmaCh) : s.StopActed (s.modDma k f) := .ofUnits rfl rfl rfl rfl rfl rfl

theorem State.StopActed.dmaAbort (s : State) (k : Fin 96) (stop : Bool) : s.StopActed (s.dmaAbort k stop) :=
  .ite (.refl s) (.ite (.refl s) (.ite (.refl s) (.modDma s k _)))

theorem State.StopActed.dmaStopAll (s : State) : s.StopActed s.dmaStopAll := .foldl (fun u k => .dmaAbort u k true) _ s

theorem dmaPage_kind (k : Fin 96) : (dmaPage k).kind = .sdma ∨ (dmaPage k).kind = .cdma := by
  unfold dmaPage
  split
  · exact .inl rfl
  · exact .inr rfl

theorem State.NoRecords.stays {s t : State} (h : s.StopActed t) (hn : s.NoRecords) : t.NoRecords := fun k =>
  (State.rbit_congr (h.regs _ _ (.inr ⟨dmaPage_kind k, by unfold dmaReg Reg.DMA_CH_CFG dmaLocal; omega, by
    unfold dmaReg Reg.DMA_CH_CFG dmaLocal; omega⟩)) 8).trans (hn k)

section
variable (s : State) (k : Fin 96)

theorem State.StopActed.dmaSet {off : Nat} (h : off % 64 ≠ 0 ∨ off % 4096 < 0x100) (v : Word) : s.StopActed (s.setReg (dmaPage k) off v) := by
  rcases dmaPage_kind k with hk | hk <;> exact .setReg s (by simp [hk]) (fun _ => h) (by simp [hk]) v

theorem State.StopActed.dmaStick {off : Nat} (h : off % 64 ≠ 0 ∨ off % 4096 < 0x100) (i : Nat) : s.StopActed (s.stick (dmaPage k) off i) := by
  rcases dmaPage_kind k with hk | hk <;> exact .stick s (by simp [hk]) (fun _ => h) (by simp [hk]) i

/-- The registers of a channel that show how it stands lie apart from its settings. -/
theorem dmaReg_shown {r : Nat → Nat} {b : Nat} (hr : ∀ n, r n = b + 0x40 * n) (hb : b % 64 ≠ 0) : dmaReg r k % 64 ≠ 0 := by
  unfold dmaReg
  rw [hr]
  omega

theorem dmaReg_stat : dmaReg Reg.DMA_CH_STAT k % 64 ≠ 0 := dmaReg_shown k (fun _ => rfl) (by decide)

theorem State.StopActed.dmaShow : s.StopActed (s.dmaShow k) := by
  have hset : ∀ (u : State) {r : Nat → Nat} {b : Nat}, (∀ n, r n = b + 0x40 * n) → b % 64 ≠ 0 → ∀ v,
      u.StopActed (u.setReg (dmaPage k) (dmaReg r k) v) := fun u _ _ hr hb v => .dmaSet u k (.inl (dmaReg_shown k hr hb)) v
  unfold State.dmaShow
  dsimp only
  refine .trans ?_ (hset _ (r := Reg.DMA_CH_CDESC_HI) (fun _ => rfl) (by decide) _)
  refine .trans ?_ (hset _ (r := Reg.DMA_CH_CDESC_LO) (fun _ => rfl) (by decide) _)
  refine .trans ?_ (hset _ (r := Reg.DMA_CH_DADDR_HI) (fun _ => rfl) (by decide) _)
  refine .trans ?_ (hset _ (r := Reg.DMA_CH_DADDR_LO) (fun _ => rfl) (by decide) _)
  refine .trans ?_ (hset _ (r := Reg.DMA_CH_SADDR_HI) (fun _ => rfl) (by decide) _)
  refine .trans ?_ (hset _ (r := Reg.DMA_CH_SADDR_LO) (fun _ => rfl) (by decide) _)
  exact hset s (r := Reg.DMA_CH_RESID) (fun _ => rfl) (by decide) _

theorem State.StopActed.dmaEvt (b : Nat) : s.StopActed (s.dmaEvt k b) :=
  (State.StopActed.dmaStick s k (.inl (dmaReg_shown k (fun _ => rfl) (by decide))) b).trans
    (.ite (.dmaStick _ k (.inr (by decide)) _) (.refl _))

theorem State.StopActed.dmaStat : s.StopActed (s.dmaStat k) :=
  ((State.StopActed.dmaSet s k (.inl (dmaReg_stat k)) _).trans (.dmaSet _ k (.inl (dmaReg_stat k)) _)).trans (.dmaSet _ k (.inr (by decide)) _)

/-- How a channel ended, in its registers. -/
def State.dmaEnded (code err : Nat) (stop : Bool) : State :=
  let p := dmaPage k
  let r := dmaReg Reg.DMA_CH_STAT k
  let u := ((s.setFld p r 3 2 code).setFld p r 7 4 err).setBit p r 8 stop
  (if code = 3 then u.setBit p Reg.DMA_STAT (8 + dmaLocal k) true else u).dmaShow k

theorem State.dmaEnd_eq (code err : Nat) (stop : Bool) : s.dmaEnd k code err stop
    = ((((s.dmaEnded k code err stop).dmaSrec k).modDma k (fun d =>
        { d with phase := .idle, abort := none, req := false, burst := 0, got := [], put := 0 })).dmaEvt k (code - 1)).dmaStat k := rfl

theorem State.StopActed.dmaEnded (code err : Nat) (stop : Bool) : s.StopActed (s.dmaEnded k code err stop) := by
  have hstat : ∀ (u : State) hi lo v, u.StopActed (u.setFld (dmaPage k) (dmaReg Reg.DMA_CH_STAT k) hi lo v) := fun u _ _ _ =>
    .dmaSet u k (.inl (dmaReg_stat k)) _
  unfold State.dmaEnded
  dsimp only
  refine .trans ?_ (.dmaShow _ k)
  have hmarks := ((hstat s 3 2 code).trans (hstat _ 7 4 err)).trans (hstat _ 8 8 (b2n stop))
  exact .ite (hmarks.trans (.dmaSet _ k (.inr (by decide)) _)) hmarks

/-- A channel that writes no status record ends. -/
theorem State.StopActed.dmaEnd (hn : s.NoRecords) (code err : Nat) (stop : Bool) : s.StopActed (s.dmaEnd k code err stop) := by
  have hend := State.StopActed.dmaEnded s k code err stop
  have hrec : (s.dmaEnded k code err stop).dmaSrec k = s.dmaEnded k code err stop := if_pos (by rw [hn.stays hend k]; rfl)
  rw [State.dmaEnd_eq, hrec]
  exact ((hend.trans (.modDma _ k _)).trans (.dmaEvt _ k _)).trans (.dmaStat _ k)

theorem State.StopActed.dmaSettleOne (hn : s.NoRecords) : s.StopActed (s.dmaSettleOne k) := by
  unfold State.dmaSettleOne
  split
  · exact .dmaEnd s k hn 2 0 _
  · exact .dmaEnd s k hn 2 0 _
  · exact .refl s

end

theorem State.StopActed.dmaSettle {s : State} (hn : s.NoRecords) : s.StopActed s.dmaSettle :=
  .ite (foldl_keeps (P := fun u => s.StopActed u) _ _ s (.refl s) fun u k hu => hu.trans (.dmaSettleOne u k (hn.stays hu))) (.refl s)

/-! ## The fabric (R509, R564, R565) -/

theorem State.StopActed.modFab (s : State) (f : Fabric → Fabric) : s.StopActed (s.modFab f) := .ofUnits rfl rfl rfl rfl rfl rfl

theorem State.StopActed.sendAll (s : State) (g : Nat → Bool) (f : Frame) : s.StopActed (s.sendAll g f) :=
  .foldl (fun u _ => .ite (.ite (.modFab u _) (.refl u)) (.refl u)) _ s

theorem State.StopActed.busWait (s : State) (w : BusWait) : s.StopActed (s.busWait w) := .ofUnits rfl rfl rfl rfl rfl rfl

/-- A stop from the system die crosses the bridge, waits for it, or stops the system's channels alone. -/
theorem State.StopActed.stopEffect (s : State) (urgent : Bool) : s.StopActed (s.stopEffect urgent) := by
  have hsys : s.StopActed ((List.finRange 32).foldl (fun s (k : Fin 32) => s.dmaAbort ⟨k, by omega⟩ true) s) :=
    .foldl (fun u k => .dmaAbort u _ true) _ s
  have hcross : s.StopActed s.cross := .ofUnits rfl rfl rfl rfl rfl rfl
  exact .ite (.ite (hsys.trans (.setReg _ (by simp [pgDvsec]) (by simp [pgDvsec]) (by simp [pgDvsec]) _)) hsys)
    (.ite (hsys.trans (.busWait _ _)) ((hcross.trans (.safeAll _)).trans (.dmaStopAll _)))

theorem State.StopActed.stopTake (s : State) (f : Frame) : s.StopActed (s.stopTake f) := by
  have hpwr : pgStr.kind ≠ .pwr := by simp [pgStr]
  have hdma : ∀ off : Nat, pgStr.kind = .sdma ∨ pgStr.kind = .cdma → off % 64 ≠ 0 ∨ off % 4096 < 0x100 := by simp [pgStr]
  have hcause : ∀ off : Nat, pgStr.kind = .pwg0 → off % 4096 ≠ Reg.PWG_SAFE_CAUSE := by simp [pgStr]
  unfold State.stopTake
  refine .ite (.refl s) ?_
  refine .trans ?_ (.stick _ hpwr (hdma _) (hcause _) 0)
  refine .trans ?_ (.count _ hpwr (hdma _) (hcause _) 15 0)
  exact (State.StopActed.stopEffect s false).trans (.setReg _ hpwr (hdma _) (hcause _) _)

theorem State.StopActed.stopForward (s : State) : s.StopActed s.stopForward := by
  refine .ite ?_ (.refl s)
  exact ((((State.StopActed.modFab s _).trans (.modFab _ _)).trans (.sendAll _ _ _)).trans (.modFab _ _)).trans (.stopTake _ _)

/-- The STOP_N pin falls: every channel with power is in its safe vector, and its cause is recorded. -/
theorem State.stopPinFall_effect {s : State} (hc : s.canonical = true) (hn : s.NoRecords) :
    let t := s.stopPinFall
    t.stopLow = true ∧ t.mem = s.mem ∧ t.cores = s.cores ∧ ∀ c : Fin 8, s.domOn (66 + 5 * c.val) = true →
      t.rbit (pgPwg0 c) Reg.PWG_SAFE_CAUSE 0 = true ∧ ∀ k : Fin 18, (t.ch c k).safe = true := by
  have hlow : ∀ u : State, u.NoRecords → u.StopActed (u.safeAll (some 0))
      ∧ (u.safeAll (some 0)).StopActed (((u.safeAll (some 0)).dmaStopAll).stopForward).dmaSettle := fun u hnu => by
    have h1 := State.StopActed.safeAll u
    have h2 := (State.StopActed.dmaStopAll (u.safeAll (some 0))).trans (.stopForward _)
    exact ⟨h1, h2.trans (.dmaSettle (hnu.stays (h1.trans h2)))⟩
  obtain ⟨hsafe, hrest⟩ := hlow { s with stopLow := true } hn
  obtain ⟨⟨hmem, hcores, hstop⟩, -⟩ := hsafe.trans hrest
  refine ⟨hstop, hmem, hcores, fun c hd => ⟨?_, fun k => ?_⟩⟩
  · exact hrest.cause c (hsafe.canonical hc) (State.cause_safeAll (s := { s with stopLow := true }) hc hd)
  · exact hrest.safe c k (State.safeAll_safe { s with stopLow := true } (some 0) c ((hsafe.domOn_eq _).trans hd) k)

end Sys2Proof.Machine
end

section
/-! THE SETTLEMENT of the statement on the safe vector and the trips. -/

namespace Sys2Proof.Machine

section
variable {s s1 : State} {x : Access} {c : Fin 8} {v mask : Word} {t : State}

section
variable (h : s.Reaches x (pgPwg0 c) s1)
include h

theorem State.exec_pwgSafeSetWrite (ht : s1.safeSet c v = t) (hd : t.dma = s1.dma) : exec (.pwgSafeSetWrite x c v) s = .next t.wrote :=
  congrArg Host.Outcome.next (State.pwg0Write_reaches (off := Reg.PWG_SAFE_SET) h rfl (by decide) ((s1.pwg0Write_safeSet ..).trans ht) hd)
theorem State.exec_pwgSafeRelWrite (ht : s1.safeRel c v = t) (hd : t.dma = s1.dma) : exec (.pwgSafeRelWrite x c v) s = .next t.wrote :=
  congrArg Host.Outcome.next (State.pwg0Write_reaches (off := Reg.PWG_SAFE_REL) h rfl (by decide) ((s1.pwg0Write_safeRel ..).trans ht) hd)
theorem State.exec_pwgSafeCauseWrite (ht : s1.safeCauseWrite c s1.stopLow s1.bridgeIsDown v mask = t) (hd : t.dma = s1.dma) :
    exec (.pwgSafeCauseWrite x c v mask) s = .next t.wrote :=
  congrArg Host.Outcome.next (State.pwg0Write_reaches (off := Reg.PWG_SAFE_CAUSE) h rfl (by decide) ((s1.pwg0Write_safeCause ..).trans ht) hd)
end

section
variable (h : s.Reaches x (pgPwg1 c) s1)
include h

theorem State.exec_pwgTripSwWrite (ht : (s1.tripSwSet c v mask).tripSeeAll c = t) (hd : t.dma = s1.dma) :
    exec (.pwgTripSwWrite x c v mask) s = .next t.wrote :=
  congrArg Host.Outcome.next (State.pwg1Write_reaches (off := Reg.PWG_TRIP_SW) h rfl (by decide) ((s1.pwg1Write_tripSw ..).trans ht) hd)
theorem State.exec_pwgTripClrWrite (ht : s1.tripClr c v = t) (hd : t.dma = s1.dma) : exec (.pwgTripClrWrite x c v) s = .next t.wrote :=
  congrArg Host.Outcome.next (State.pwg1Write_reaches (off := Reg.PWG_TRIP_CLR) h rfl (by decide) ((s1.pwg1Write_tripClr ..).trans ht) hd)
theorem State.exec_pwgBlkCtlWrite {u : Fin 4} (ht : s1.blkWrite c u (Reg.PWG_BLK_CTL u) v mask = t) (hd : t.dma = s1.dma) :
    exec (.pwgBlkCtlWrite x c u false v mask) s = .next t.wrote :=
  congrArg Host.Outcome.next (State.pwg1Write_reaches (off := Reg.PWG_BLK_CTL u) h (by unfold Reg.PWG_BLK_CTL; omega)
    (by unfold Reg.PWG_BLK_CTL; omega) ((State.pwg1Write_blkCtl ..).trans ht) hd)
theorem State.exec_pwgBlkSrcWrite {u : Fin 4} (ht : s1.blkWrite c u (Reg.PWG_BLK_SRC u) v mask = t) (hd : t.dma = s1.dma) :
    exec (.pwgBlkCtlWrite x c u true v mask) s = .next t.wrote :=
  congrArg Host.Outcome.next (State.pwg1Write_reaches (off := Reg.PWG_BLK_SRC u) h (by unfold Reg.PWG_BLK_SRC; omega)
    (by unfold Reg.PWG_BLK_SRC; omega) ((State.pwg1Write_blkSrc ..).trans ht) hd)
end

end

theorem exec_tripSourceActive (c : Fin 8) (i : Fin 16) (s : State) :
    exec (.tripSourceActive c i) s = .next (if i.val < 4 then s.tripPinSet c i true else s.tripSeeAll c) := rfl
theorem exec_tripPinInactive (c : Fin 8) (i : Fin 4) (s : State) : exec (.tripPinInactive c i) s = .next (s.tripPinSet c i false) := rfl
theorem exec_stopNFall (s : State) : exec .stopNFall s = .next s.stopPinFall := rfl
theorem exec_stopNRise (s : State) : exec .stopNRise s = .next { s with stopLow := false } := rfl

/-- A TRIP pin changes: its source is shown as the level says. -/
theorem State.tripPinSet_effect {s : State} (hc : s.canonical = true) {c : Fin 8} (hd : s.domOn (66 + 5 * c.val) = true) {i : Fin 4}
    (hsel : s.rbit pgEg (Reg.FIO_SEL c) i = false) (active : Bool) :
    (s.tripPinSet c i active).rbit (pgPwg1 c) Reg.PWG_TRIP_SRC i = active ∧ (s.tripPinSet c i active).mem = s.mem
      ∧ (s.tripPinSet c i active).cores = s.cores := by
  obtain ⟨hmem, hcores, -⟩ := (State.TripActs.tripSeeAll (s.tripPinned c i active) c).frame
  rw [State.tripPinSet_eq]
  exact ⟨(State.src_tripSeeAll (s := s.tripPinned c i active) hc (by omega) hd).trans (State.tripLive_tripPinned i active hsel), hmem, hcores⟩

/-- One that becomes active, with no window over it and every other source known as it is, trips the channels that select it. -/
theorem State.tripPinSet_trips {s : State} (hc : s.canonical = true) {c : Fin 8} (hd : s.domOn (66 + 5 * c.val) = true) {i : Fin 4}
    (hsel : s.rbit pgEg (Reg.FIO_SEL c) i = false) (hs : s.rbit (pgPwg1 c) Reg.PWG_TRIP_SRC i = false) (hb : s.blanked c i s.now = false)
    (hknown : ∀ j : Fin 16, j.val ≠ i.val → s.rbit (pgPwg1 c) Reg.PWG_TRIP_SRC j = s.tripLive c j) (k : Fin 18) :
    (2 ≤ s.tripMode c k i → ((s.tripPinSet c i true).ch c k).latched = true
        ∧ (s.tripPinSet c i true).rbit (pgPwg1 c) (Reg.PWG_CH_TLSRC k) i = true)
      ∧ (s.tripMode c k i = 1 → ((s.tripPinSet c i true).ch c k).cbc = true) :=
  State.tripSeeAll_trips (s := s.tripPinned c i true) hc hd (by omega) hs (State.tripLive_tripPinned i true hsel)
    ((State.blanked_tripPinned i true i s.now).trans hb)
    (fun j hj hji => (hknown ⟨j, hj⟩ hji).trans (State.tripLive_tripPinned_other i true hji).symm) k

theorem State.tripPinSet_unpowered {s : State} {c : Fin 8} (hd : s.domOn (66 + 5 * c.val) = false) (i : Nat) (active : Bool) :
    (s.tripPinSet c i active).regs = s.regs := by
  rw [State.tripPinSet_eq, State.tripSeeAll_unpowered (s := s.tripPinned c i active) hd]
  rfl

/-- Settles O38, command by command: the safe vector's requests on page 0, the trips and windows on page 1, the pins. -/
theorem safeAndTrips : Obligations.SafeAndTrips := by
  intro x c s s1 v mask
  refine ⟨fun h => ⟨?_, fun hs hv => ?_, fun hs => ?_, ?_⟩, fun h => ⟨?_, ?_, fun ho u hblk => ⟨?_, ?_⟩, fun ho u => ?_⟩,
    fun hc hd i hsel => ⟨⟨_, exec_tripSourceActive .., ?_⟩, ⟨_, exec_tripPinInactive .., State.tripPinSet_effect hc hd hsel false⟩⟩,
    fun hd i => ⟨⟨_, exec_tripSourceActive .., ?_⟩, ⟨_, exec_tripPinInactive .., State.tripPinSet_unpowered hd i false⟩⟩,
    fun hc hd j hj => ⟨_, exec_tripSourceActive .., ?_⟩, fun hc hn => ⟨_, exec_stopNFall s, ?_⟩, exec_stopNRise s⟩
  · obtain ⟨⟨cl, r, b, he⟩, -⟩ := State.SafeStays.safeSet s1 c v
    refine ⟨_, State.exec_pwgSafeSetWrite h rfl (by rw [he]), by rw [he]; rfl, by rw [he]; rfl, fun k => ?_⟩
    exact s1.ch_safeSet c v k
  · obtain ⟨⟨r, b, he⟩, hevent⟩ := State.safeRel_refused h.canonical hs hv
    refine ⟨_, State.exec_pwgSafeRelWrite h rfl (by rw [he]), hevent, ?_, ?_⟩ <;> rw [he]
    · rfl
    · exact ⟨rfl, rfl, rfl, rfl, rfl, rfl⟩
  · obtain ⟨⟨cl, he⟩, hch⟩ := State.safeRel_accepted hs v
    refine ⟨_, State.exec_pwgSafeRelWrite h rfl (by rw [he]), ?_, ?_, hch⟩ <;> rw [he]
    · rfl
    · exact ⟨rfl, rfl, rfl, rfl, rfl, rfl⟩
  · exact State.exec_pwgSafeCauseWrite h (s1.safeCauseWrite_eq c s1.stopLow s1.bridgeIsDown v mask) (State.keptBits_dma ..)
  · obtain ⟨hmem, hcores, hdma⟩ := (State.TripActs.tripSeeAll (s1.tripSwSet c v mask) c).frame
    obtain ⟨hsw, hsrc⟩ := State.tripSwSet_effect v mask h.canonical (c := c)
    exact ⟨_, State.exec_pwgTripSwWrite h rfl hdma, hmem, hcores, hsw, hsrc h.pwmPowered⟩
  · obtain ⟨hmem, hcores, hdma⟩ := (State.TripActs.tripClr s1 c v).frame
    exact ⟨_, State.exec_pwgTripClrWrite h rfl hdma, hmem, hcores, State.tripClr_effect h.canonical c v⟩
  · exact State.exec_pwgBlkCtlWrite h (State.blkWrite_closed u v mask (State.busReg_blkCtl u v mask ho) hblk) rfl
  · exact State.exec_pwgBlkSrcWrite h (State.blkWrite_closed u v mask (State.busReg_blkSrc u v mask ho) hblk) rfl
  · intro w hedge hlen hch
    exact ⟨_, State.exec_pwgBlkSrcWrite h (State.blkWrite_on u v mask (State.busReg_blkSrc u v mask ho) hedge hlen hch) rfl, rfl,
      State.reg_setReg_same h.canonical _ _ _⟩
  · rw [if_pos i.isLt]
    obtain ⟨hsrc, hmem, hcores⟩ := State.tripPinSet_effect hc hd hsel true
    exact ⟨hsrc, hmem, hcores, fun hs hb hknown k => State.tripPinSet_trips hc hd hsel hs hb hknown k⟩
  · rw [if_pos i.isLt]
    exact State.tripPinSet_unpowered hd i true
  · rw [if_neg (by omega)]
    obtain ⟨hmem, hcores, -⟩ := (State.TripActs.tripSeeAll s c).frame
    exact ⟨State.src_tripSeeAll hc j.isLt hd, hmem, hcores⟩
  · obtain ⟨hlow, hmem, hcores, hsafe⟩ := State.stopPinFall_effect hc hn
    refine ⟨hlow, hmem, hcores, hsafe, fun c => ?_⟩
    unfold State.safeCaused
    rw [hlow]
    rfl

end Sys2Proof.Machine
end

section
/-! SUPPORT. Accesses to pages, past their headers (R7). -/

namespace Sys2Proof.Machine

section
variable {s s1 : State} {x : Access} {p : PageId} (h : s.Reaches x p s1) (hcmp : p.kind ≠ .cmp) {off : Nat} (ho : off / 4 * 4 = off) (hb : 0x40 ≤ off)
include h hcmp ho hb

/-- A write that reaches a page is what its block does with it: the pages of comparators and application cores alone may turn one away. -/
theorem State.blockWrite_reaches (hac : p.kind ≠ .ac) {v mask : Word} {t : State} (ht : s1.blockWrite x.by_ x.m p off v mask = t)
    (hd : t.dma = s1.dma) : s.regWrite x.by_ x.m p off v mask = t.wrote := by
  have hp : s1.pageWrite x.by_ x.m p off v mask = t := by
    unfold State.pageWrite
    simp only [ho]
    rw [if_neg (by simp [hcmp, hac]), if_neg (by simp; omega)]
    exact ht
  rw [State.regWrite_reaches h off v mask (by rw [hp, hd]), hp]

/-- A read that reaches it answers what its block reads. -/
theorem State.blockRead_reaches {t : State} {w : Word} (ht : s1.blockRead x.by_ x.m p off = (t, w)) :
    s.regRead x.by_ x.m p off = t.answerW w := by
  have hp : s1.pageRead x.by_ x.m p off = (t, w) := by
    unfold State.pageRead
    simp only [ho]
    rw [if_neg (by simp; omega), if_neg (by simp [hcmp])]
    exact ht
  rw [State.regRead_reaches h, hp]

end

end Sys2Proof.Machine
end

section
/-! SUPPORT. The sample tables: the commands of their page, the check of the edit bank and the exchange of the banks (R119, R125, R126,
R131, R142, R143). -/

namespace Sys2Proof.Machine

/-! ## The page -/

theorem State.smpWrite_reaches {s s1 : State} {x : Access} {c : Fin 8} (h : s.Reaches x (pgSmp c) s1) {off : Nat} (ho : off / 4 * 4 = off)
    (hb : 0x40 ≤ off) {v mask : Word} {t : State} (ht : s1.smpWrite c off v mask = t) (hd : t.dma = s1.dma) :
    s.regWrite x.by_ x.m (pgSmp c) off v mask = t.wrote :=
  State.blockWrite_reaches h (by simp [pgSmp]) ho hb (by simp [pgSmp]) (by rw [← clu_val c] at ht; exact ht) hd

theorem State.smpWrite_cmd (s : State) (c : Fin 8) (v : Word) : s.smpWrite c Reg.SMP_CMD v 0xFFFFFFFF = s.smpCmd c v := by
  unfold State.smpWrite
  rw [if_pos rfl, and_allLanes]

/-- A write of `SMP_CMD` is the command that it spells. -/
theorem State.wr_smpCmd {s s1 : State} {x : Access} {c : Fin 8} (h : s.Reaches x (pgSmp c) s1) {v : Word} {t : State}
    (ht : s1.smpCmd c v = t) (hd : t.dma = s1.dma) : s.wr x (pgSmp c) Reg.SMP_CMD v = t.wrote :=
  State.smpWrite_reaches h rfl (by decide) ((s1.smpWrite_cmd c v).trans ht) hd

theorem State.smpWrite_ctl (s : State) (c : Fin 8) (v mask : Word) : s.smpWrite c Reg.SMP_CTL v mask = (s.smpCtlWrite c v mask).fifoThr c := by
  unfold State.smpWrite
  rw [if_neg (by decide), if_pos rfl]

theorem State.fifoThr_dma (s : State) (c : Fin 8) : (s.fifoThr c).dma = s.dma := by
  obtain ⟨r, h, e⟩ := s.raiseIf_frame (decide (s.fthr c ≤ (s.smp c).fifo.length)) (pgSmp c) 4
  unfold State.fifoThr
  rw [e]

/-- So is one of `SMP_CTL`, with the level of the FIFO seen. -/
theorem State.wrm_smpCtl {s s1 : State} {x : Access} {c : Fin 8} (h : s.Reaches x (pgSmp c) s1) {v mask : Word} {t : State}
    (ht : s1.smpCtlWrite c v mask = t) (hd : t.dma = s1.dma) : s.wrm x (pgSmp c) Reg.SMP_CTL v mask = (t.fifoThr c).wrote :=
  State.smpWrite_reaches h rfl (by decide) ((s1.smpWrite_ctl c v mask).trans (by rw [ht])) ((t.fifoThr_dma c).trans hd)

/-! ## The understudy (R142, R143) -/

section
variable {s : State} (hc : s.canonical = true) {c : Fin 8} (ho : s.Open (pgSmp c)) {v mask old n : Word}
  (hold : s.reg (pgSmp c) Reg.SMP_CTL = old) (hn : (old &&& ~~~(mask &&& 0xFF01)) ||| (v &&& mask &&& 0xFF01) = n)
include hc ho hold hn

/-- A write of `SMP_CTL` changes its fields under the lanes; `UND` is refused while the table uses core 7, and waits for the end of a
substitution. -/
theorem State.smpCtlWrite_cases : s.smpCtlWrite c v mask
    = if bitOf n 0 && !bitOf old 0 && s.core7Used c then (s.setReg (pgSmp c) Reg.SMP_CTL (putBits n 0 0 0)).raise (pgSmp c) 6
      else if !bitOf n 0 && bitOf old 0 && (s.smp c).subst.isSome then
        (s.setReg (pgSmp c) Reg.SMP_CTL (putBits n 0 0 1)).modSmp c (fun m => { m with undOff := true })
      else s.setReg (pgSmp c) Reg.SMP_CTL n := by
  have hbus : s.busReg (pgSmp c) Reg.SMP_CTL v mask = s.setReg (pgSmp c) Reg.SMP_CTL n := by
    subst hn hold
    exact State.busReg_plain (d := ⟨Reg.SMP_CTL, 0, 1, 0x8000, [⟨0, 0, .rwl⟩, ⟨15, 8, .rw⟩]⟩) rfl (by simp [Field.plain]) ho v mask
  have hbit : ∀ b, (s.setReg (pgSmp c) Reg.SMP_CTL n).setBit (pgSmp c) Reg.SMP_CTL 0 b = s.setReg (pgSmp c) Reg.SMP_CTL (putBits n 0 0 (b2n b)) :=
    fun b => State.setFld_setReg hc _ _ _ _ _ _
  unfold State.smpCtlWrite State.rbit
  simp only [hbus, State.reg_setReg_same hc, hold, hbit]
  rfl

theorem State.smpCtlWrite_plain
    (h : bitOf n 0 = bitOf old 0 ∨ bitOf old 0 = false ∧ s.core7Used c = false ∨ bitOf n 0 = false ∧ (s.smp c).subst = none) :
    s.smpCtlWrite c v mask = s.setReg (pgSmp c) Reg.SMP_CTL n := by
  rw [State.smpCtlWrite_cases hc ho hold hn]
  rcases h with h | ⟨h, hu⟩ | ⟨h, hs⟩
  · cases hb : bitOf old 0 <;> simp [h, hb]
  · simp [h, hu]
  · simp [h, hs]

theorem State.smpCtlWrite_refused (h : bitOf old 0 = false) (h' : bitOf n 0 = true) (hu : s.core7Used c = true) :
    s.smpCtlWrite c v mask = (s.setReg (pgSmp c) Reg.SMP_CTL (putBits n 0 0 0)).raise (pgSmp c) 6 := by
  rw [State.smpCtlWrite_cases hc ho hold hn, if_pos (by simp [h, h', hu])]

theorem State.smpCtlWrite_waits (h : bitOf old 0 = true) (h' : bitOf n 0 = false) (hs : (s.smp c).subst.isSome = true) :
    s.smpCtlWrite c v mask = (s.setReg (pgSmp c) Reg.SMP_CTL (putBits n 0 0 1)).modSmp c (fun m => { m with undOff := true }) := by
  rw [State.smpCtlWrite_cases hc ho hold hn, if_neg (by simp [h']), if_pos (by simp [h, h', hs])]

end

/-! ## The check of the edit bank (R125, R126) -/

section
variable {s : State} {c : Fin 8}

theorem State.checkDone_idle (h : (s.smp c).chk = none) : s.checkDone c = s := by
  unfold State.checkDone; rw [h]

theorem State.checkDone_fault {k : TableCheck} (h : (s.smp c).chk = some k) {e : Fin 64} {r o : Nat} (hf : s.tableFault c = some (e, r, o)) :
    s.checkDone c = ((s.modSmp c (fun m => { m with chk := none, armed := none })).setReg (pgSmp c) Reg.SMP_TBL_ERR
      (w32 (e.val + o * 64 + r * 4096 + 65536))).raise (pgSmp c) 0 := by
  rw [← State.modSmp_modSmp s c (fun m => { m with chk := none }) (fun m => { m with armed := none })]
  unfold State.checkDone
  rw [h]
  simp only [hf]
  rfl

/-- A check that finds no fault: the swap that it was for is armed. -/
def TableCheck.arms (k : TableCheck) (n : BitVec 48) (t : Nat) (was : Option SwapArm) : Option SwapArm :=
  match k with
  | .check => was
  | .swap => some (.at_ t)
  | .swapm => some (.mfn n t)

theorem State.checkDone_passed {k : TableCheck} (h : (s.smp c).chk = some k) (hf : s.tableFault c = none) {n : BitVec 48}
    (hn : (s.reg (pgSmp c) Reg.SMP_SWMFN_HI).setWidth 16 ++ s.reg (pgSmp c) Reg.SMP_SWMFN_LO = n) :
    s.checkDone c = (s.setBit (pgSmp c) Reg.SMP_TBL_ERR 16 false).modSmp c
      (fun m => { m with chk := none, armed := k.arms n (s.now + 25600) m.armed }) := by
  rw [← ofNat_append48] at hn
  have hboth := fun o : Option SwapArm => State.modSmp_modSmp (s.setBit (pgSmp c) Reg.SMP_TBL_ERR 16 false) c
    (fun m => { m with chk := none }) (fun m => { m with armed := o })
  unfold State.checkDone
  rw [h]
  simp only [hf]
  cases k with
  | check => rfl
  | swap => exact hboth _
  | swapm => subst hn; exact hboth _

/-! ## The exchange of the banks (R119, R126) -/

theorem State.tableSwap_idle (h : s.swapDue c = false) : s.tableSwap c = s := by
  unfold State.tableSwap; rw [h]; rfl

theorem State.car_modSmp (s : State) (c d : Fin 8) (f : Smp → Smp) : (s.modSmp c f).car d = s.car d := by
  unfold State.car State.modSmp
  by_cases h : d = c
  · subst h; rw [State.modC_clusters_get]
  · rw [State.modC_clusters_get_other s h]

theorem State.car_congr {s t : State} (h : t.clusters = s.clusters) (c : Fin 8) : t.car c = s.car c := by
  unfold State.car; rw [h]

/-- What is after time has passed up to an instant. -/
theorem State.advance_units (s : State) (t : Nat) :
    ∃ v, s.advance t = v ∧ v.time.clk = max s.time.clk (t / 16) ∧ v.mem = s.mem ∧ v.cores = s.cores ∧ v.clusters = s.clusters :=
  ⟨_, rfl, s.advance_clk t, s.advance_mem t, s.advance_cores t, s.advance_clusters t⟩

/-- The banks have changed places, and nothing is armed. -/
def Smp.swapped (m : Smp) : Smp := { m with bank := !m.bank, armed := none, qprev := Vector.replicate 64 none }

theorem State.tableSwap_due (h : s.swapDue c = true) :
    let t := s.tableSwap c
    t.time.clk = max s.time.clk (s.leadOpen c / 16)
      ∧ t.smp c = (s.smp c).swapped ∧ t.mem = s.mem ∧ t.cores = s.cores ∧ t.car c = s.car c := by
  obtain ⟨v, hv, hclk, hmem, hcores, hcl⟩ := s.advance_units (s.leadOpen c)
  have hnotes : ∀ (u : State) (late : Bool), ∃ r b, (if late then u.stick (pgSmp c) Reg.SMP_STAT 7 else u).raise (pgSmp c) 1
      = { u with regs := r, hot := b } := fun u late => by cases late <;> exact ⟨_, _, rfl⟩
  obtain ⟨r, b, e⟩ : ∃ r b, s.tableSwap c = { v.modSmp c Smp.swapped with regs := r, hot := b } := by
    unfold State.tableSwap
    rw [if_neg (by simp [h]), hv]
    exact hnotes _ _
  rw [← State.smp_congr hcl, ← State.car_congr hcl]
  dsimp only
  rw [e]
  exact ⟨hclk, v.smp_modSmp c Smp.swapped, hmem, hcores, v.car_modSmp c c Smp.swapped⟩

end

/-! ## The commands -/

theorem exec_smpCmdSwap (x : Access) (c : Fin 8) (s : State) : exec (.smpCmdSwap x c) s = .next (s.wr x (pgSmp c) Reg.SMP_CMD 1) := rfl
theorem exec_smpCmdSwapm (x : Access) (c : Fin 8) (s : State) : exec (.smpCmdSwapm x c) s = .next (s.wr x (pgSmp c) Reg.SMP_CMD 2) := rfl
theorem exec_smpCmdCheck (x : Access) (c : Fin 8) (s : State) : exec (.smpCmdCheck x c) s = .next (s.wr x (pgSmp c) Reg.SMP_CMD 4) := rfl
theorem exec_smpCmdFclr (x : Access) (c : Fin 8) (s : State) : exec (.smpCmdFclr x c) s = .next (s.wr x (pgSmp c) Reg.SMP_CMD 8) := rfl
theorem exec_smpCmdDisarm (x : Access) (c : Fin 8) (s : State) : exec (.smpCmdDisarm x c) s = .next (s.wr x (pgSmp c) Reg.SMP_CMD 16) := rfl
theorem exec_tableCheckDone (c : Fin 8) (s : State) : exec (.tableCheckDone c) s = .next (s.checkDone c) := rfl
theorem exec_sampleTableSwap (c : Fin 8) (s : State) : exec (.sampleTableSwap c) s = .next (s.tableSwap c) := rfl
theorem exec_smpCtlWrite (x : Access) (c : Fin 8) (v mask : Word) (s : State) :
    exec (.smpCtlWrite x c v mask) s = .next (s.wrm x (pgSmp c) Reg.SMP_CTL v mask) := rfl

/-- DISARM leaves a check that is for itself alone. -/
theorem State.smpCmd_disarm (s : State) (c : Fin 8) :
    s.smpCmd c 16 = s.modSmp c (fun m => { m with armed := none, chk := if m.chk = some .check then some .check else none }) := by
  have hkeep : ∀ o : Option TableCheck, o.filter (fun k => k == .check) = if o = some .check then some .check else none := by
    rintro (_ | _ | _ | _) <;> rfl
  simp only [← hkeep]
  rfl

end Sys2Proof.Machine
end

section
/-! THE SETTLEMENT of the statement on the sample tables. -/

namespace Sys2Proof.Machine

/-- Settles O40: the commands and the control word through what their writes do, the check by its outcome, the swap by whether it is due. -/
theorem sampleTables : Obligations.SampleTables := by
  intro x c s s1 v mask
  simp only [exec_smpCmdSwap, exec_smpCmdSwapm, exec_smpCmdCheck, exec_smpCmdFclr, exec_smpCmdDisarm, exec_smpCtlWrite, exec_tableCheckDone,
    exec_sampleTableSwap, Host.Outcome.next.injEq]
  refine ⟨fun h => ⟨State.wr_smpCmd h rfl rfl, State.wr_smpCmd h rfl rfl, State.wr_smpCmd h rfl rfl, State.wr_smpCmd h rfl rfl,
      State.wr_smpCmd h (s1.smpCmd_disarm c) rfl, fun ho => ⟨fun hp => ?_, fun h0 h1 hu => ?_, fun h1 h0 hs => ?_⟩⟩,
    State.checkDone_idle, fun k hk => ⟨fun e r o hf => State.checkDone_fault hk hf, fun hf => ⟨?_, ?_, ?_⟩⟩,
    State.tableSwap_idle, fun hd => ⟨_, rfl, State.tableSwap_due hd⟩⟩
  · exact State.wrm_smpCtl h (State.smpCtlWrite_plain h.canonical ho rfl rfl hp) rfl
  · exact State.wrm_smpCtl h (State.smpCtlWrite_refused h.canonical ho rfl rfl h0 h1 hu) rfl
  · exact State.wrm_smpCtl h (State.smpCtlWrite_waits h.canonical ho rfl rfl h1 h0 hs) rfl
  · rintro rfl
    exact State.checkDone_passed hk hf rfl
  · rintro rfl
    exact State.checkDone_passed hk hf rfl
  · rintro rfl
    exact State.checkDone_passed hk hf rfl

end Sys2Proof.Machine
end

section
/-! SUPPORT. Calibration and self-test of the ADC cores: their requests, their runs, and what starves (R137 to R141). -/

namespace Sys2Proof.Machine

/-! ## Requests (R138 to R140) -/

/-- A write that reaches the page of an ADC core, past its header, is what the core does with it. -/
theorem State.adcWrite_reaches {s s1 : State} {x : Access} {c j : Fin 8} (h : s.Reaches x (pgAdc c j) s1) {off : Nat} (ho : off / 4 * 4 = off)
    (hb : 0x40 ≤ off) {v mask : Word} {t : State} (ht : s1.adcWrite c j off v mask = t) (hd : t.dma = s1.dma) :
    s.regWrite x.by_ x.m (pgAdc c j) off v mask = t.wrote := by
  have hclu : clu ((8 * c.val + j.val) / 8) = c ∧ clu ((8 * c.val + j.val) % 8) = j := by
    rw [Nat.mul_add_div (by decide), Nat.mul_add_mod, Nat.div_eq_of_lt j.isLt, Nat.mod_eq_of_lt j.isLt]
    exact ⟨clu_val c, clu_val j⟩
  refine State.blockWrite_reaches h (by simp [pgAdc]) ho hb (by simp [pgAdc]) ?_ hd
  show s1.adcWrite (clu ((8 * c.val + j.val) / 8)) (clu ((8 * c.val + j.val) % 8)) off v mask = t
  rw [hclu.1, hclu.2]
  exact ht

/-- A write of `ADC_CAL_CMD` is the command that it spells. -/
theorem State.wr_calCmd {s s1 : State} {x : Access} {c j : Fin 8} (h : s.Reaches x (pgAdc c j) s1) {v : Word} {t : State}
    (ht : s1.adcWrite c j Reg.ADC_CAL_CMD v 0xFFFFFFFF = t) (hd : t.dma = s1.dma) : s.wr x (pgAdc c j) Reg.ADC_CAL_CMD v = t.wrote :=
  State.adcWrite_reaches h rfl (by decide) ht hd

theorem State.adcWrite_abort (s : State) (c j : Fin 8) : s.adcWrite c j Reg.ADC_CAL_CMD 4 0xFFFFFFFF = s.calAbort c j := rfl

section
variable {s : State} {c j : Fin 8}

theorem State.calAbort_begun (h : ((s.adc c j).run.isSome || (s.adc c j).reqs.head?.any CalReq.begun) = true) :
    s.calAbort c j = s.modAdc c j (fun a => { a with reqs := a.reqs.take 1 }) := by
  unfold State.calAbort
  cases hr : (s.adc c j).reqs <;> simp_all

theorem State.calAbort_pending (h : ((s.adc c j).run.isSome || (s.adc c j).reqs.head?.any CalReq.begun) = false) :
    s.calAbort c j = (s.modAdc c j (fun a => { a with reqs := [] })).substServed c j := by
  unfold State.calAbort
  cases hr : (s.adc c j).reqs <;> simp_all

theorem State.substServed_idle (h : s.substOf c j = false) : s.substServed c j = s := if_neg (by simp [h])

theorem State.substServed_waits (h : s.substOf c j = true) : s.substServed c j = s.modSmp c (fun m => { m with substRan := true }) := if_pos h

theorem State.substOf_modAdc (f : AdcCore → AdcCore) : (s.modAdc c j f).substOf c j = s.substOf c j := by
  unfold State.substOf; rw [State.smp_modAdc]

theorem State.substOf_congr {s t : State} (h : t.clusters = s.clusters) (c j : Fin 8) : t.substOf c j = s.substOf c j := by
  unfold State.substOf; rw [State.smp_congr h]

/-- A change that finds a core as it makes it changes nothing. -/
theorem State.modAdc_self {f : AdcCore → AdcCore} (h : f (s.adc c j) = s.adc c j) : s.modAdc c j f = s := by
  unfold State.modAdc
  refine State.modC_self ?_
  have h' : f s.clusters[c].adc[j] = s.clusters[c].adc[j] := h
  rw [h']
  simp

/-! ## Runs begin (R138, R139, R143) -/

theorem State.calStart_nil (h : (s.adc c j).reqs = []) : s.calStart c j = s := by
  unfold State.calStart; rw [h]

theorem State.calStart_held {r : CalReq} {l : List CalReq} (h : (s.adc c j).reqs = r :: l)
    (hh : (s.adc c j).run.isSome = true ∨ (s.adc c j).conv.isSome = true ∨ s.calHeld c j = true ∨ s.busyIn c j s.now (s.now + 30720) = true) :
    s.calStart c j = s := by
  have hslot : slotSteps = 30720 := rfl
  unfold State.calStart
  rw [h]
  exact if_pos (by simpa [or_assoc, hslot] using hh)

theorem State.calStart_begins {r : CalReq} {l : List CalReq} (h : (s.adc c j).reqs = r :: l) (hr : (s.adc c j).run = none)
    (hv : (s.adc c j).conv = none) (hh : s.calHeld c j = false) (hb : s.busyIn c j s.now (s.now + 30720) = false) :
    s.calStart c j = s.modAdc c j (fun a => { a with run := some (s.now + 28160), reqs := { r with begun := true } :: l }) := by
  have hslot : s.busyIn c j s.now (s.now + slotSteps) = false := hb
  unfold State.calStart
  rw [h]
  exact if_neg (by simp [hr, hv, hh, hslot])

/-! ## Runs end (R138, R139) -/

theorem State.calDone_idle (h : (s.adc c j).run = none) : s.calDone c j = s := by
  unfold State.calDone; rw [h]

theorem State.testStep_idle (h : (s.adc c j).run = none) : s.testStep c j = s := by
  unfold State.testStep; rw [h]

end

theorem State.substServed_frame (s : State) (c j : Fin 8) :
    ∃ f, s.substServed c j = s.modSmp c f ∧ (s.substOf c j = true → (f (s.smp c)).substRan = true) := by
  cases h : s.substOf c j with
  | true => exact ⟨_, State.substServed_waits h, fun _ => rfl⟩
  | false => exact ⟨id, (State.substServed_idle h).trans (State.modSmp_self rfl).symm, nofun⟩

/-- A run of a core ends, and with it the core's oldest request. -/
def State.runEnds (s : State) (c j : Fin 8) (l : List CalReq) : State :=
  (s.draw.modAdc c j (fun a => { a with run := none, reqs := l })).substServed c j

theorem State.runEnds_frame (s : State) (c j : Fin 8) (l : List CalReq) :
    let u := s.runEnds c j l
    u.adc c j = { s.adc c j with run := none, reqs := l } ∧ u.time = s.time ∧ u.mem = s.mem ∧ u.cores = s.cores ∧ u.regs = s.regs
      ∧ (s.canonical = true → u.canonical = true) ∧ (s.substOf c j = true → (u.smp c).substRan = true) := by
  obtain ⟨f, hf, hran⟩ := (s.draw.modAdc c j (fun a => { a with run := none, reqs := l })).substServed_frame c j
  rw [State.substOf_modAdc] at hran
  unfold State.runEnds
  dsimp only
  rw [hf]
  refine ⟨?_, rfl, rfl, rfl, rfl, fun h => State.canonical_congr h rfl rfl rfl, fun h => ?_⟩
  · rw [State.adc_modSmp, State.adc_modAdc]
    rfl
  · rw [State.smp_modSmp]
    exact hran h

/-- The same at its instant. -/
theorem State.runOver_frame (s : State) (c j : Fin 8) (e : Nat) (l : List CalReq) :
    ∃ v u, s.advance e = v ∧ v.runEnds c j l = u ∧ u.adc c j = { s.adc c j with run := none, reqs := l } ∧ u.time.clk = max s.time.clk (e / 16)
      ∧ u.mem = s.mem ∧ u.cores = s.cores ∧ (∀ o, u.reg (pgAdc c j) o = s.reg (pgAdc c j) o) ∧ (s.canonical = true → u.canonical = true)
      ∧ (s.substOf c j = true → (u.smp c).substRan = true) := by
  obtain ⟨hadc, htime, hmem, hcores, hregs, hcan, hran⟩ := (s.advance e).runEnds_frame c j l
  have hsub := State.substOf_congr (s.advance_clusters e) c j
  refine ⟨_, _, rfl, rfl, ?_, ?_, ?_, ?_, fun o => ?_, fun h => hcan (State.canonical_advance h e), fun h => hran (hsub.trans h)⟩
  · rw [hadc, State.adc_congr (s.advance_clusters e)]
  · rw [htime, s.advance_clk]
  · rw [hmem, s.advance_mem]
  · rw [hcores, s.advance_cores]
  · rw [State.reg_congr hregs, State.reg_advance s e (by simp [pgAdc, pageKindNo])]

/-- With its mark of whether the understudy stood in. -/
theorem State.runOver_marked {s : State} (hc : s.canonical = true) (c j : Fin 8) (e : Nat) (l : List CalReq) :
    ∃ v w, s.advance e = v ∧ (v.runEnds c j l).setBit (pgAdc c j) Reg.ADC_CAL_STAT 4 (s.substOf c j) = w
      ∧ w.adc c j = { s.adc c j with run := none, reqs := l } ∧ w.time.clk = max s.time.clk (e / 16)
      ∧ w.mem = s.mem ∧ w.cores = s.cores ∧ (∀ o, o % 4096 ≠ Reg.ADC_CAL_STAT → w.reg (pgAdc c j) o = s.reg (pgAdc c j) o) ∧ w.canonical = true
      ∧ w.rbit (pgAdc c j) Reg.ADC_CAL_STAT 4 = s.substOf c j ∧ (s.substOf c j = true → (w.smp c).substRan = true) := by
  obtain ⟨v, u, hv, hu, hadc, hclk, hmem, hcores, hreg, hcan, hran⟩ := s.runOver_frame c j e l
  refine ⟨v, _, hv, rfl, ?_, ?_, ?_, ?_, fun o ho => ?_, ?_, ?_, ?_⟩ <;> rw [hu]
  · exact hadc
  · exact hclk
  · exact hmem
  · exact hcores
  · exact (State.reg_setBit_other _ _ _ _ _ _ _ (regKey_ne_of_off _ ho)).trans (hreg o)
  · exact State.canonical_setBit (hcan hc) _ _ _ _
  · exact State.rbit_setBit_same (hcan hc) _ _ (by decide) _
  · exact hran

/-! ### A calibration (R138) -/

/-- The coefficients that a run found are in range, and take the place of those before. -/
def State.calTaken (s : State) (c j : Fin 8) (ofs : Int) (gain : Nat) : State :=
  ((((s.setFld (pgAdc c j) Reg.ADC_OFS 17 0 (wrapInt 18 ofs)).setFld (pgAdc c j) Reg.ADC_GAIN 17 0 gain).setBit
    (pgAdc c j) Reg.ADC_CAL_STAT 2 true).raise (pgAdc c j) 0).modAdc c j (fun a => { a with own := false })

/-- They are not, and those before stay. -/
def State.calFailed (s : State) (c j : Fin 8) : State := (s.setBit (pgAdc c j) Reg.ADC_CAL_STAT 2 false).raise (pgAdc c j) 1

/-- What a run found is in range. -/
def calGood (ofs : Int) (gain : Nat) : Bool := decide (ofs.natAbs ≤ 2048) && decide (62260 ≤ gain) && decide (gain ≤ 68812)

theorem State.calDone_eq {s : State} {c j : Fin 8} {e : Nat} {r : CalReq} {l : List CalReq} (hrun : (s.adc c j).run = some e)
    (hreq : (s.adc c j).reqs = r :: l) (ht : r.test = false) {v : State} (hv : s.advance e = v) {u : State}
    (hu : (v.runEnds c j l).setBit (pgAdc c j) Reg.ADC_CAL_STAT 4 (s.substOf c j) = u) :
    s.calDone c j = if calGood (Config.calOfs s.free) (Config.calGain s.free) then u.calTaken c j (Config.calOfs s.free) (Config.calGain s.free)
      else u.calFailed c j := by
  have hgood : calGood (Config.calOfs s.free) (Config.calGain s.free) = true
      ↔ (Config.calOfs s.free).natAbs ≤ 2048 ∧ 62260 ≤ Config.calGain s.free ∧ Config.calGain s.free ≤ 68812 := by
    simp [calGood, and_assoc]
  subst hu
  simp only [hgood]
  unfold State.calDone
  rw [hrun, hreq]
  dsimp only
  rw [hv, if_neg (by simp [ht])]
  rfl

/-- Of the units, a calibration's end changes at most its own core. -/
theorem State.calTaken_frame (s : State) (c j : Fin 8) (ofs : Int) (gain : Nat) :
    let t := s.calTaken c j ofs gain
    t.adc c j = { s.adc c j with own := false } ∧ t.smp c = s.smp c ∧ t.time = s.time ∧ t.mem = s.mem ∧ t.cores = s.cores := by
  unfold State.calTaken
  dsimp only
  rw [State.adc_modAdc, State.smp_modAdc]
  exact ⟨rfl, rfl, rfl, rfl, rfl⟩

theorem State.calFailed_frame (s : State) (c j : Fin 8) : ∃ r h, s.calFailed c j = { s with regs := r, hot := h } := ⟨_, _, rfl⟩

section
variable {s : State} (hc : s.canonical = true) (c j : Fin 8)
include hc

theorem State.calTaken_effect (ofs : Int) {gain : Nat} (hg : gain < 2 ^ 18) :
    let t := s.calTaken c j ofs gain
    t.rbit (pgAdc c j) Reg.ADC_CAL_STAT 4 = s.rbit (pgAdc c j) Reg.ADC_CAL_STAT 4 ∧ t.rbit (pgAdc c j) Reg.ADC_CAL_STAT 2 = true
      ∧ t.rbit (pgAdc c j) Reg.PAGE_IRQ_STAT 0 = true ∧ t.fld (pgAdc c j) Reg.ADC_GAIN 17 0 = gain := by
  have h1 := State.canonical_setFld hc (pgAdc c j) Reg.ADC_OFS 17 0 (wrapInt 18 ofs)
  have h2 := State.canonical_setFld h1 (pgAdc c j) Reg.ADC_GAIN 17 0 gain
  have hstat : ∀ i, (s.calTaken c j ofs gain).rbit (pgAdc c j) Reg.ADC_CAL_STAT i
      = (((s.setFld (pgAdc c j) Reg.ADC_OFS 17 0 (wrapInt 18 ofs)).setFld (pgAdc c j) Reg.ADC_GAIN 17 0 gain).setBit
          (pgAdc c j) Reg.ADC_CAL_STAT 2 true).rbit (pgAdc c j) Reg.ADC_CAL_STAT i :=
    State.rbit_congr (State.reg_raise_other _ 0 (regKey_ne_of_off _ (by decide)))
  refine ⟨?_, ?_, ?_, ?_⟩
  · rw [hstat, State.rbit_setBit_ne h2 _ _ (by decide)]
    refine State.rbit_congr ?_ 4
    rw [State.reg_setFld_other _ _ _ _ _ _ _ _ (regKey_ne_of_off _ (by decide)), State.reg_setFld_other _ _ _ _ _ _ _ _ (regKey_ne_of_off _ (by decide))]
  · rw [hstat, State.rbit_setBit_same h2 _ _ (by decide)]
  · exact State.rbit_raise_same (State.canonical_setBit h2 _ _ _ _) _ (by decide)
  · unfold State.fld State.calTaken
    rw [State.reg_modAdc, State.reg_raise_other _ 0 (regKey_ne_of_off _ (by decide)),
      State.reg_setBit_other _ _ _ _ _ _ _ (regKey_ne_of_off _ (by decide)), State.reg_setFld_same h1,
      bitsOf_putBits_same _ (by decide) (by decide) hg]

theorem State.calFailed_effect :
    let t := s.calFailed c j
    t.rbit (pgAdc c j) Reg.ADC_CAL_STAT 4 = s.rbit (pgAdc c j) Reg.ADC_CAL_STAT 4 ∧ t.rbit (pgAdc c j) Reg.ADC_CAL_STAT 2 = false
      ∧ t.rbit (pgAdc c j) Reg.PAGE_IRQ_STAT 1 = true ∧ t.reg (pgAdc c j) Reg.ADC_GAIN = s.reg (pgAdc c j) Reg.ADC_GAIN
      ∧ t.reg (pgAdc c j) Reg.ADC_OFS = s.reg (pgAdc c j) Reg.ADC_OFS := by
  have hreg : ∀ o, o % 4096 ≠ Reg.PAGE_IRQ_STAT → (s.calFailed c j).reg (pgAdc c j) o
      = (s.setBit (pgAdc c j) Reg.ADC_CAL_STAT 2 false).reg (pgAdc c j) o := fun o h => State.reg_raise_other _ 1 (regKey_ne_of_off _ h)
  refine ⟨?_, ?_, State.rbit_raise_same (State.canonical_setBit hc _ _ _ _) _ (by decide), ?_, ?_⟩
  · rw [State.rbit_congr (hreg _ (by decide)), State.rbit_setBit_ne hc _ _ (by decide)]
  · rw [State.rbit_congr (hreg _ (by decide)), State.rbit_setBit_same hc _ _ (by decide)]
  · rw [hreg _ (by decide), State.reg_setBit_other _ _ _ _ _ _ _ (regKey_ne_of_off _ (by decide))]
  · rw [hreg _ (by decide), State.reg_setBit_other _ _ _ _ _ _ _ (regKey_ne_of_off _ (by decide))]

/-- A calibration run ends: the coefficients that it found take the place of those before, where they are in range. -/
theorem State.calDone_effect {e : Nat} {r : CalReq} {l : List CalReq} (hrun : (s.adc c j).run = some e) (hreq : (s.adc c j).reqs = r :: l)
    (ht : r.test = false) {good : Bool} (hgood : calGood (Config.calOfs s.free) (Config.calGain s.free) = good) :
    let t := s.calDone c j
    t.adc c j = { s.adc c j with run := none, reqs := l, own := if good then false else (s.adc c j).own } ∧ t.time.clk = max s.time.clk (e / 16)
      ∧ t.mem = s.mem ∧ t.cores = s.cores ∧ t.rbit (pgAdc c j) Reg.ADC_CAL_STAT 4 = s.substOf c j
      ∧ (s.substOf c j = true → (t.smp c).substRan = true)
      ∧ t.rbit (pgAdc c j) Reg.ADC_CAL_STAT 2 = good ∧ t.rbit (pgAdc c j) Reg.PAGE_IRQ_STAT (if good then 0 else 1) = true
      ∧ (good = true → t.fld (pgAdc c j) Reg.ADC_GAIN 17 0 = Config.calGain s.free)
      ∧ (good = false → t.reg (pgAdc c j) Reg.ADC_GAIN = s.reg (pgAdc c j) Reg.ADC_GAIN
          ∧ t.reg (pgAdc c j) Reg.ADC_OFS = s.reg (pgAdc c j) Reg.ADC_OFS) := by
  obtain ⟨v, w, hv, hw, hadc, hclk, hmem, hcores, hreg, hcw, hsub, hran⟩ := State.runOver_marked hc c j e l
  dsimp only
  rw [State.calDone_eq hrun hreq ht hv hw, hgood]
  cases good with
  | true =>
    have hlt : Config.calGain s.free < 2 ^ 18 := by
      simp only [calGood, Bool.and_eq_true, decide_eq_true_eq] at hgood
      omega
    obtain ⟨h4, h2, hirq, hgain⟩ := State.calTaken_effect hcw c j (Config.calOfs s.free) hlt
    obtain ⟨hadc', hsmp', htime', hmem', hcores'⟩ := w.calTaken_frame c j (Config.calOfs s.free) (Config.calGain s.free)
    rw [if_pos rfl]
    exact ⟨by rw [hadc', hadc]; rfl, by rw [htime', hclk], hmem'.trans hmem, hcores'.trans hcores, h4.trans hsub,
      fun h => by rw [hsmp', hran h], h2, hirq, fun _ => hgain, nofun⟩
  | false =>
    obtain ⟨h4, h2, hirq, hgain, hofs⟩ := State.calFailed_effect hcw c j
    obtain ⟨r', b', he⟩ := w.calFailed_frame c j
    rw [if_neg (by decide)]
    refine ⟨?_, ?_, ?_, ?_, h4.trans hsub, ?_, h2, hirq, nofun, fun _ => ⟨hgain.trans (hreg _ (by decide)), hofs.trans (hreg _ (by decide))⟩⟩ <;>
      rw [he]
    · exact hadc
    · exact hclk
    · exact hmem
    · exact hcores
    · exact hran

end

/-! ### A self-test step (R139, R141) -/

/-- A self-test after one more step. -/
def CalReq.stepped (r : CalReq) (dev : BitVec 16) (lev : BitVec 3) : CalReq :=
  if r.dev < dev then { r with dev := dev, level := lev, steps := r.steps + 1 } else { r with steps := r.steps + 1 }

theorem CalReq.stepped_steps (r : CalReq) (dev : BitVec 16) (lev : BitVec 3) : (r.stepped dev lev).steps = r.steps + 1 := by
  unfold CalReq.stepped; split <;> rfl

theorem CalReq.stepped_dev (r : CalReq) (dev : BitVec 16) (lev : BitVec 3) : (r.stepped dev lev).dev.toNat = max r.dev.toNat dev.toNat := by
  unfold CalReq.stepped
  split
  next h => rw [BitVec.lt_def] at h; exact (Nat.max_eq_right h.le).symm
  next h => rw [BitVec.lt_def, Nat.not_lt] at h; exact (Nat.max_eq_left h).symm

/-- A self-test is over: its largest deviation and the level of it, whether it failed, whether the understudy stood in. -/
def State.testEnds (s : State) (c j : Fin 8) (q : CalReq) (l : List CalReq) (sub fail : Bool) : State :=
  (((((s.runEnds c j l).setReg (pgAdc c j) Reg.ADC_TEST_RES (w32 (q.dev.toNat + q.level.toNat * 65536))).setBit
    (pgAdc c j) Reg.ADC_CAL_STAT 3 (!fail)).setBit (pgAdc c j) Reg.ADC_CAL_STAT 4 sub).raiseIf fail (pgAdc c j) 4).raise (pgAdc c j) 3

section
variable {s : State} {c j : Fin 8} {e : Nat} {r : CalReq} {l : List CalReq} (hrun : (s.adc c j).run = some e)
  (hreq : (s.adc c j).reqs = r :: l) (ht : r.test = true)
include hrun hreq ht

theorem State.testStep_gone (hg : r.gone = true) :
    s.testStep c j = (s.advance e).modAdc c j (fun a => { a with run := none, reqs := { r with gone := false, begun := false } :: l }) := by
  unfold State.testStep
  rw [hrun, hreq]
  dsimp only
  rw [if_neg (by simp [ht]), if_pos hg]

theorem State.testStep_eq (hg : r.gone = false) {v : State} (hv : s.advance e = v) {q : CalReq}
    (hq : r.stepped (Config.testDev s.free) (Config.testLevel s.free) = q) :
    s.testStep c j = if q.steps < 4 then v.draw.modAdc c j (fun a => { a with run := none, reqs := q :: l })
      else v.testEnds c j q l (s.substOf c j) (decide (s.fld (pgAdc c j) Reg.ADC_TEST_LIM 15 0 < q.dev.toNat)) := by
  unfold State.testStep
  rw [hrun, hreq]
  dsimp only
  rw [hv, if_neg (by simp [ht]), if_neg (by simp [hg])]
  subst hq
  rfl

/-- A step before the fourth leaves the self-test the oldest request, with the largest deviation so far. -/
theorem State.testStep_goesOn (hg : r.gone = false) (hs : r.steps < 3) : let t := s.testStep c j
    (t.adc c j).run = none ∧ (t.adc c j).reqs.tail = l ∧ (t.adc c j).reqs.head?.map CalReq.steps = some (r.steps + 1)
      ∧ (t.adc c j).reqs.head?.map (fun z => z.dev.toNat) = some (max r.dev.toNat (Config.testDev s.free).toNat)
      ∧ t.mem = s.mem ∧ t.cores = s.cores := by
  obtain ⟨v, hv, -, hmem, hcores, -⟩ := s.advance_units e
  dsimp only
  rw [State.testStep_eq hrun hreq ht hg hv rfl, if_pos (by rw [CalReq.stepped_steps]; omega), State.adc_modAdc]
  exact ⟨rfl, rfl, congrArg some (CalReq.stepped_steps ..), congrArg some (CalReq.stepped_dev ..), hmem, hcores⟩

end

theorem bitsOf_testRes (dev : BitVec 16) (lev : BitVec 3) : bitsOf (w32 (dev.toNat + lev.toNat * 65536)) 15 0 = dev.toNat := by
  have := dev.isLt
  have := lev.isLt
  unfold bitsOf w32
  rw [BitVec.toNat_ofNat, Nat.shiftRight_zero]
  omega

/-- What the end of a self-test shows. -/
theorem State.testEnds_effect {s u : State} (hc : u.canonical = true) {c j : Fin 8} {l : List CalReq} (hu : s.runEnds c j l = u) (q : CalReq)
    (sub fail : Bool) :
    let t := s.testEnds c j q l sub fail
    (∃ r h, t = { u with regs := r, hot := h }) ∧ t.rbit (pgAdc c j) Reg.PAGE_IRQ_STAT 3 = true
      ∧ bitsOf (t.reg (pgAdc c j) Reg.ADC_TEST_RES) 15 0 = q.dev.toNat ∧ t.rbit (pgAdc c j) Reg.ADC_CAL_STAT 3 = !fail := by
  obtain ⟨v, hv⟩ : ∃ v, u.setReg (pgAdc c j) Reg.ADC_TEST_RES (w32 (q.dev.toNat + q.level.toNat * 65536)) = v := ⟨_, rfl⟩
  obtain ⟨w, hw⟩ : ∃ w, (v.setBit (pgAdc c j) Reg.ADC_CAL_STAT 3 (!fail)).setBit (pgAdc c j) Reg.ADC_CAL_STAT 4 sub = w := ⟨_, rfl⟩
  obtain ⟨z, hz⟩ : ∃ z, w.raiseIf fail (pgAdc c j) 4 = z := ⟨_, rfl⟩
  have hcv : v.canonical = true := by rw [← hv]; exact State.canonical_setReg hc _ _ _
  have hcv3 := State.canonical_setBit hcv (pgAdc c j) Reg.ADC_CAL_STAT 3 (!fail)
  have hcz : z.canonical = true := by rw [← hz, ← hw]; exact State.canonical_raiseIf (State.canonical_setBit hcv3 _ _ _ _) _ _ _
  have ht : s.testEnds c j q l sub fail = z.raise (pgAdc c j) 3 := by
    unfold State.testEnds; rw [hu, hv, hw, hz]
  have hreg : ∀ o, o % 4096 ≠ Reg.PAGE_IRQ_STAT → (s.testEnds c j q l sub fail).reg (pgAdc c j) o = w.reg (pgAdc c j) o := fun o ho => by
    rw [ht, State.reg_raise_other _ _ (regKey_ne_of_off _ ho), ← hz, State.reg_raiseIf_other _ _ _ (regKey_ne_of_off _ ho)]
  refine ⟨?_, ?_, ?_, ?_⟩
  · have hwu : ∃ r, w = { u with regs := r } := by rw [← hw, ← hv]; exact ⟨_, rfl⟩
    obtain ⟨_, hwu⟩ := hwu
    obtain ⟨_, _, hzw⟩ := w.raiseIf_frame fail (pgAdc c j) 4
    rw [ht, ← hz, hzw, hwu]
    exact ⟨_, _, rfl⟩
  · rw [ht]
    exact State.rbit_raise_same hcz _ (by decide)
  · rw [hreg _ (by decide), ← hw, State.reg_setBit_other _ _ _ _ _ _ _ (regKey_ne_of_off _ (by decide)),
      State.reg_setBit_other _ _ _ _ _ _ _ (regKey_ne_of_off _ (by decide)), ← hv, State.reg_setReg_same hc, bitsOf_testRes]
  · rw [State.rbit_congr (hreg _ (by decide)), ← hw, State.rbit_setBit_ne hcv3 _ _ (by decide), State.rbit_setBit_same hcv _ _ (by decide)]

/-- The fourth step of a self-test ends: its largest deviation is recorded, and whether it is within the limit. -/
theorem State.testStep_last {s : State} (hc : s.canonical = true) {c j : Fin 8} {e : Nat} {r : CalReq} {l : List CalReq}
    (hrun : (s.adc c j).run = some e) (hreq : (s.adc c j).reqs = r :: l) (ht : r.test = true) (hg : r.gone = false) (hs : r.steps = 3) :
    let d := max r.dev.toNat (Config.testDev s.free).toNat
    let t := s.testStep c j
    t.adc c j = { s.adc c j with run := none, reqs := l } ∧ t.rbit (pgAdc c j) Reg.PAGE_IRQ_STAT 3 = true
      ∧ bitsOf (t.reg (pgAdc c j) Reg.ADC_TEST_RES) 15 0 = d
      ∧ t.rbit (pgAdc c j) Reg.ADC_CAL_STAT 3 = decide (d ≤ s.fld (pgAdc c j) Reg.ADC_TEST_LIM 15 0) ∧ t.mem = s.mem ∧ t.cores = s.cores := by
  obtain ⟨v, u, hv, hu, hadc, -, hmem, hcores, -, hcan, -⟩ := s.runOver_frame c j e l
  obtain ⟨q, hq⟩ : ∃ q, r.stepped (Config.testDev s.free) (Config.testLevel s.free) = q := ⟨_, rfl⟩
  have hdev : q.dev.toNat = max r.dev.toNat (Config.testDev s.free).toNat := by rw [← hq, CalReq.stepped_dev]
  have hlast : ¬q.steps < 4 := by rw [← hq, CalReq.stepped_steps]; omega
  dsimp only
  rw [State.testStep_eq hrun hreq ht hg hv hq, if_neg hlast, ← hdev]
  obtain ⟨⟨_, _, he⟩, hirq, hres, hok⟩ := State.testEnds_effect (hcan hc) hu q (s.substOf c j)
    (decide (s.fld (pgAdc c j) Reg.ADC_TEST_LIM 15 0 < q.dev.toNat))
  refine ⟨?_, hirq, hres, ?_, ?_, ?_⟩
  · rw [he]; exact hadc
  · rw [hok, ← decide_not]
    simp
  · rw [he]; exact hmem
  · rw [he]; exact hcores

end Sys2Proof.Machine
end

section
/-! SUPPORT. What waits for a calibration or stands in for one: starved requests, the understudy, the background conversion (R141, R143,
R144). -/

namespace Sys2Proof.Machine

/-! ## Requests starve (R141) -/

theorem CalReq.due_iff (r : CalReq) : r.due = true ↔ r.starved = false ∧ 64 ≤ r.ticks ∧ (r.test = true ∨ r.begun = false) := by
  simp [CalReq.due, and_assoc]

theorem CalReq.starve_test {r : CalReq} (h : r.test = true) (z : Bool) :
    (r.starve z).starved = true ∧ (r.starve z).steps = 0 ∧ (r.starve z).dev = 0 ∧ (r.starve z).gone = z := by
  unfold CalReq.starve
  rw [if_pos h]
  exact ⟨rfl, rfl, rfl, rfl⟩

theorem CalReq.starve_cal {r : CalReq} (h : r.test = false) (z : Bool) : r.starve z = { r with starved := true } := if_neg (by simp [h])

theorem CalReq.starve_starved (r : CalReq) (z : Bool) : (r.starve z).starved = true := by
  unfold CalReq.starve; split <;> rfl

/-- A request after its 64 ticks are looked at. -/
def CalReq.waited (r : CalReq) (running : Bool) : CalReq := if r.due then r.starve running else r

theorem CalReq.waited_due {r : CalReq} (h : r.due = true) (z : Bool) : r.waited z = r.starve z := if_pos h

theorem CalReq.waited_young {r : CalReq} (h : r.due = false) (z : Bool) : r.waited z = r := if_neg (by simp [h])

theorem CalReq.waited_starved (r : CalReq) (z : Bool) : (r.waited z).starved = (r.starved || r.due) := by
  cases h : r.due with
  | true => rw [CalReq.waited_due h, CalReq.starve_starved, Bool.or_true]
  | false => rw [CalReq.waited_young h, Bool.or_false]

/-- The requests of a core after their 64 ticks are looked at: a step in progress is one of the oldest. -/
def starveReqs (running : Bool) : List CalReq → List CalReq
  | [] => []
  | r :: l => r.waited running :: l.map (CalReq.waited · false)

theorem starveReqs_young {l : List CalReq} (h : ∀ q ∈ l, q.due = false) (z : Bool) : starveReqs z l = l := by
  cases l with
  | nil => rfl
  | cons r l =>
    have htail : l.map (CalReq.waited · false) = l := by
      rw [List.map_congr_left fun q hq => CalReq.waited_young (h q (List.mem_cons_of_mem _ hq)) false, List.map_id']
    rw [starveReqs, CalReq.waited_young (h r List.mem_cons_self), htail]

theorem starveReqs_starved (z : Bool) (l : List CalReq) : (starveReqs z l).map CalReq.starved = l.map (fun q => q.starved || q.due) := by
  cases l with
  | nil => rfl
  | cons r l =>
    rw [starveReqs, List.map_cons, List.map_cons, List.map_map, CalReq.waited_starved]
    congr 1
    exact List.map_congr_left fun q _ => CalReq.waited_starved q false

theorem State.calStarved_eq (s : State) (c j : Fin 8) : s.calStarved c j
    = ((s.modAdc c j (fun a => { a with reqs := starveReqs (s.adc c j).run.isSome a.reqs })).raiseIf
        ((s.adc c j).reqs.any (fun r => r.due && !r.test)) (pgAdc c j) 2).raiseIf ((s.adc c j).reqs.any (fun r => r.due && r.test)) (pgAdc c j) 5 := by
  have hreqs : (fun a : AdcCore => { a with reqs := starveReqs (s.adc c j).run.isSome a.reqs })
      = fun a => { a with reqs := match a.reqs with
        | [] => []
        | r :: t => (if r.due then r.starve (s.adc c j).run.isSome else r) :: t.map (fun q => if q.due then q.starve false else q) } := by
    funext a
    cases a.reqs <;> rfl
  rw [hreqs]
  rfl

theorem State.raiseIf_false (s : State) (p : PageId) (b : Nat) : s.raiseIf false p b = s := rfl

theorem State.rbit_raiseIf_same {s : State} (hc : s.canonical = true) (p : PageId) {b : Nat} (hb : b < 32) {cond : Bool} (h : cond = true) :
    (s.raiseIf cond p b).rbit p Reg.PAGE_IRQ_STAT b = true := by
  subst h
  exact State.rbit_raise_same hc p hb

theorem State.rbit_raiseIf_stays {s : State} (hc : s.canonical = true) (p : PageId) (i : Nat) {b : Nat} (hb : b < 32) (cond : Bool)
    (h : s.rbit p Reg.PAGE_IRQ_STAT b = true) : (s.raiseIf cond p i).rbit p Reg.PAGE_IRQ_STAT b = true := by
  cases cond with
  | false => exact h
  | true => exact State.rbit_stick_stays hc p Reg.PAGE_IRQ_STAT i hb (.inl rfl) h

section
variable {s : State} {c j : Fin 8}

theorem State.calStarved_idle (h : ∀ q ∈ (s.adc c j).reqs, q.due = false) : s.calStarved c j = s := by
  have hnone : ∀ f : CalReq → Bool, (s.adc c j).reqs.any (fun r => r.due && f r) = false := fun f => by
    rw [List.any_eq_false]
    intro q hq
    simp [h q hq]
  rw [State.calStarved_eq, hnone, hnone, State.raiseIf_false, State.raiseIf_false]
  exact State.modAdc_self (congrArg (fun l => { s.adc c j with reqs := l }) (starveReqs_young h _))

theorem State.calStarved_effect (hc : s.canonical = true) : let t := s.calStarved c j
    t.mem = s.mem ∧ t.cores = s.cores ∧ (t.adc c j).reqs = starveReqs (s.adc c j).run.isSome (s.adc c j).reqs
      ∧ ∀ q ∈ (s.adc c j).reqs, q.due = true → t.rbit (pgAdc c j) Reg.PAGE_IRQ_STAT (if q.test then 5 else 2) = true := by
  obtain ⟨u, hu⟩ : ∃ u, s.modAdc c j (fun a => { a with reqs := starveReqs (s.adc c j).run.isSome a.reqs }) = u := ⟨_, rfl⟩
  have hcu : u.canonical = true := by rw [← hu]; exact State.canonical_congr hc rfl rfl rfl
  have hadc : (u.adc c j).reqs = starveReqs (s.adc c j).run.isSome (s.adc c j).reqs := by rw [← hu, State.adc_modAdc]
  have hkept : u.mem = s.mem ∧ u.cores = s.cores := by rw [← hu]; exact ⟨rfl, rfl⟩
  obtain ⟨r2, h2, e2⟩ := u.raiseIf_frame ((s.adc c j).reqs.any (fun r => r.due && !r.test)) (pgAdc c j) 2
  obtain ⟨v, hv⟩ : ∃ v, u.raiseIf ((s.adc c j).reqs.any (fun r => r.due && !r.test)) (pgAdc c j) 2 = v := ⟨_, rfl⟩
  have hcv : v.canonical = true := by rw [← hv]; exact State.canonical_raiseIf hcu _ _ _
  obtain ⟨r5, h5, e5⟩ := v.raiseIf_frame ((s.adc c j).reqs.any (fun r => r.due && r.test)) (pgAdc c j) 5
  dsimp only
  rw [State.calStarved_eq, hu, hv]
  refine ⟨?_, ?_, ?_, fun q hq hd => ?_⟩
  · rw [e5, ← hv, e2]; exact hkept.1
  · rw [e5, ← hv, e2]; exact hkept.2
  · rw [e5, ← hv, e2]; exact hadc
  · cases ht : q.test with
    | true => exact State.rbit_raiseIf_same hcv _ (by decide) (List.any_eq_true.mpr ⟨q, hq, by simp [hd, ht]⟩)
    | false =>
      refine State.rbit_raiseIf_stays hcv _ 5 (by decide) _ ?_
      rw [← hv]
      exact State.rbit_raiseIf_same hcu _ (by decide) (List.any_eq_true.mpr ⟨q, hq, by simp [hd, ht]⟩)

/-! ## The understudy (R143) -/

theorem State.substStart_idle (h : s.rbit (pgSmp c) Reg.SMP_CTL 0 = false ∨ (s.smp c).subst.isSome = true ∨ s.leadAhead c = false) :
    s.substStart c = s := by
  refine if_pos ?_
  rcases h with h | h | h <;> simp [h]

/-- A core whose oldest request has waited for a tick, and has not begun. -/
def State.calWaits (s : State) (c j : Fin 8) : Bool :=
  match (s.adc c j).reqs with
  | r :: _ => !r.begun && decide (1 ≤ r.ticks)
  | [] => false

theorem State.substStart_acts (hund : s.rbit (pgSmp c) Reg.SMP_CTL 0 = true) (hs : (s.smp c).subst = none) (h7 : (s.adc c 7).run = none)
    (hl : s.leadAhead c = true) (hw : s.calWaits c 0 = true) :
    s.substStart c = ((s.advance (s.leadOpen c)).modSmp c (fun m => { m with subst := some 0, substRan := false })).raise (pgSmp c) 7 := by
  have hfind : (List.finRange 7).find? (fun j : Fin 7 => s.calWaits c (j.castLE (by omega))) = some 0 := by
    rw [List.finRange_succ, List.find?_cons_of_pos (by exact hw)]
  obtain ⟨v, hv⟩ : ∃ v, s.advance (s.leadOpen c) = v := ⟨_, rfl⟩
  unfold State.substStart
  rw [hv, if_neg (by simp [hund, hs, h7, hl])]
  split
  next hnone => exact nomatch hfind.symm.trans hnone
  next k hsome =>
    obtain rfl : k = 0 := Option.some.inj (hsome.symm.trans hfind)
    rfl

theorem State.substEnd_idle (h : (s.smp c).subst = none ∨ (s.smp c).substRan = false ∨ s.ticking c = true ∧ s.leadAhead c = false) :
    s.substEnd c = s := by
  refine if_pos ?_
  rcases h with h | h | ⟨h, h'⟩ <;> simp [*]

/-- The end of the substitution, before a cleared `UND` takes effect. -/
theorem State.substEnd_acts (hs : (s.smp c).subst.isSome = true) (hr : (s.smp c).substRan = true)
    (hl : s.ticking c = false ∨ s.leadAhead c = true) :
    s.substEnd c = (((if s.ticking c then s.advance (s.leadOpen c) else s).modSmp c
      (fun m => { m with subst := none, substRan := false })).raise (pgSmp c) 8).undEnd c := by
  obtain ⟨v, hv⟩ : ∃ v, s.advance (s.leadOpen c) = v := ⟨_, rfl⟩
  unfold State.substEnd
  rw [hv, if_neg (by rcases hl with h | h <;> simp [Option.isSome_iff_ne_none.mp hs, hr, h])]

theorem State.undEnd_kept (h : (s.smp c).undOff = false) : s.undEnd c = s := if_neg (by simp [h])

theorem State.undEnd_cleared (h : (s.smp c).undOff = true) :
    s.undEnd c = (s.setBit (pgSmp c) Reg.SMP_CTL 0 false).modSmp c (fun m => { m with undOff := false }) := if_pos h

theorem State.undOff_substEnded (v : State) (hv : v.smp c = s.smp c) :
    (((v.modSmp c (fun m => { m with subst := none, substRan := false })).raise (pgSmp c) 8).smp c).undOff = (s.smp c).undOff := by
  have hsmp : ∀ (u : State), (u.raise (pgSmp c) 8).smp c = u.smp c := fun _ => rfl
  rw [hsmp, State.smp_modSmp, hv]

theorem State.smp_leadOpened (s : State) (c : Fin 8) : (if s.ticking c then s.advance (s.leadOpen c) else s).smp c = s.smp c := by
  split
  · exact State.smp_congr (s.advance_clusters _) c
  · rfl

/-! ## The background conversion (R144) -/

theorem State.bgStart_idle (h : (s.rb c).pend = none) : s.bgStart c = s := by
  unfold State.bgStart; rw [h]

theorem State.bgStart_begins {d : Fin 24} (hp : (s.rb c).pend = some d) (hr : (s.rb c).running = false)
    (hst : s.rbit (pgCmp c) (Reg.CMP_ST (cmpOfDac d)) 7 = false) (h67 : s.domOn (67 + 5 * c.val) = true) (h65 : s.domOn (65 + 5 * c.val) = true)
    (hb : s.bgCore c = some j) {v : Conv}
    (hv : (⟨s.now + 5120, s.now + 1024, nominalCode (s.dacLevel c (cmpOfDac d) (d.val % 2 == 1)), 0, .readback d, 0, 0⟩ : Conv) = v) :
    s.bgStart c = (s.draw.modAdc c j (fun a => { a with conv := some v, busy := s.now + 5120 })).modRb c (fun r => { r with running := true }) := by
  unfold State.bgStart
  rw [hp]
  dsimp only
  rw [if_neg (by simp [hr, hst, h67, h65]), hb, ← hv]

end

/-! ## The commands -/

theorem exec_adcCalCmdCal (x : Access) (c j : Fin 8) (s : State) : exec (.adcCalCmdCal x c j) s = .next (s.wr x (pgAdc c j) Reg.ADC_CAL_CMD 1) := rfl
theorem exec_adcCalCmdTest (x : Access) (c j : Fin 8) (s : State) : exec (.adcCalCmdTest x c j) s = .next (s.wr x (pgAdc c j) Reg.ADC_CAL_CMD 2) := rfl
theorem exec_adcCalCmdAbort (x : Access) (c j : Fin 8) (s : State) : exec (.adcCalCmdAbort x c j) s = .next (s.wr x (pgAdc c j) Reg.ADC_CAL_CMD 4) := rfl
theorem exec_calRunStart (c j : Fin 8) (s : State) : exec (.calRunStart c j) s = .next (s.calStart c j) := rfl
theorem exec_calRunDone (c j : Fin 8) (s : State) : exec (.calRunDone c j) s = .next (s.calDone c j) := rfl
theorem exec_selfTestStepDone (c j : Fin 8) (s : State) : exec (.selfTestStepDone c j) s = .next (s.testStep c j) := rfl
theorem exec_calStarved (c j : Fin 8) (s : State) : exec (.calStarved c j) s = .next (s.calStarved c j) := rfl
theorem exec_substStart (c : Fin 8) (s : State) : exec (.substStart c) s = .next (s.substStart c) := rfl
theorem exec_substEnd (c : Fin 8) (s : State) : exec (.substEnd c) s = .next (s.substEnd c) := rfl
theorem exec_backgroundConversion (c : Fin 8) (s : State) : exec (.backgroundConversion c) s = .next (s.bgStart c) := rfl

/-- A write of `ADC_CAL_CMD` with ABORT cancels what has not begun. -/
theorem State.wr_abort {s s1 : State} {x : Access} {c j : Fin 8} (h : s.Reaches x (pgAdc c j) s1) {t : State} (ht : s1.calAbort c j = t)
    (hd : t.dma = s1.dma) : s.wr x (pgAdc c j) Reg.ADC_CAL_CMD 4 = t.wrote := State.wr_calCmd h ((s1.adcWrite_abort c j).trans ht) hd

theorem State.calAbort_alone {s : State} {c j : Fin 8} (hb : ((s.adc c j).run.isSome || (s.adc c j).reqs.head?.any CalReq.begun) = false)
    (hs : s.substOf c j = false) : s.calAbort c j = s.modAdc c j (fun a => { a with reqs := [] }) := by
  rw [State.calAbort_pending hb, State.substServed_idle (by rw [State.substOf_modAdc, hs])]

theorem State.calAbort_substituted {s : State} {c j : Fin 8} (hb : ((s.adc c j).run.isSome || (s.adc c j).reqs.head?.any CalReq.begun) = false)
    (hs : s.substOf c j = true) :
    s.calAbort c j = (s.modAdc c j (fun a => { a with reqs := [] })).modSmp c (fun m => { m with substRan := true }) := by
  rw [State.calAbort_pending hb, State.substServed_waits (by rw [State.substOf_modAdc, hs])]

end Sys2Proof.Machine
end

section
/-! THE SETTLEMENT of the statement on calibration. -/

namespace Sys2Proof.Machine

/-- Settles O41: the commands through what their writes do; a run's start by whether a slot is free, its end by the kind of the request and
what the run found; a starved request, the understudy and the background conversion by the conditions under which they act. -/
theorem calibration : Obligations.Calibration := by
  intro x c j s s1
  simp only [exec_adcCalCmdCal, exec_adcCalCmdTest, exec_adcCalCmdAbort, exec_calRunStart, exec_calRunDone, exec_selfTestStepDone, exec_calStarved,
    exec_substStart, exec_substEnd, exec_backgroundConversion, Host.Outcome.next.injEq]
  refine ⟨fun h => ⟨State.wr_calCmd h rfl rfl, State.wr_calCmd h rfl rfl, fun hb => State.wr_abort h (State.calAbort_begun hb) rfl,
      fun hb hs => State.wr_abort h (State.calAbort_alone hb hs) rfl, fun hb hs => State.wr_abort h (State.calAbort_substituted hb hs) rfl⟩,
    fun h => ⟨State.calStart_nil h, State.calStarved_idle (by simp [h])⟩,
    fun r l hreq => ⟨State.calStart_begins hreq, State.calStart_held hreq,
      fun e hrun ht hc => ⟨_, rfl, State.calDone_effect hc c j hrun hreq ht rfl⟩,
      fun e hrun ht hg hc hs => ⟨_, rfl, State.testStep_last hc hrun hreq ht hg hs⟩,
      fun e hrun ht hg hs => ⟨_, rfl, State.testStep_goesOn hrun hreq ht hg hs⟩,
      fun e hrun ht hg => State.testStep_gone hrun hreq ht hg,
      fun hy => State.calStarved_idle (by rw [hreq]; exact hy), fun hc => ?_⟩,
    CalReq.due_iff, fun h => ⟨State.calDone_idle h, State.testStep_idle h⟩, State.substStart_idle,
    fun r l hund hs h7 hl hreq hb ht => State.substStart_acts hund hs h7 hl (by simp [State.calWaits, hreq, hb, ht]),
    State.substEnd_idle, fun hs hr hl => ?_, State.bgStart_idle, fun d hp hr hst h67 h65 hb => State.bgStart_begins hp hr hst h67 h65 hb rfl⟩
  · obtain ⟨hmem, hcores, hreqs, hirq⟩ := State.calStarved_effect (c := c) (j := j) hc
    rw [hreq] at hreqs hirq
    refine ⟨_, rfl, hmem, hcores, ?_, hirq, fun hd ht => ?_, fun hd ht => ?_, fun z ht => CalReq.starve_test ht z⟩
    · rw [hreqs, starveReqs_starved]
    · rw [hreqs, starveReqs, List.head?_cons, CalReq.waited_due hd]
    · rw [hreqs, starveReqs, List.head?_cons, CalReq.waited_due hd, CalReq.starve_cal ht]
  · have hund := State.undOff_substEnded (s := s) (c := c) _ (s.smp_leadOpened c)
    rw [State.substEnd_acts hs hr hl]
    exact ⟨fun h => State.undEnd_kept (hund.trans h), fun h => State.undEnd_cleared (hund.trans h)⟩

end Sys2Proof.Machine
end

section
/-! SUPPORT. The sigma-delta inputs and the comparators, with their pages, while the followers of a live window output act: the trips, the
capture units and the interrupt units (R103, R156, R172, R311). -/

namespace Sys2Proof.Machine

/-- From `s` to `t` the sigma-delta inputs and the comparators stay, and so does each register but those that `W` names by the kind of their
page and their offset. -/
structure State.InputsStay (W : PageKind → Nat → Prop) (s t : State) : Prop where
  units : t.mem = s.mem ∧ t.cores = s.cores ∧ t.time = s.time
  canonical : s.canonical = true → t.canonical = true
  inputs : ∀ d : Fin 8, t.clusters[d].sdm = s.clusters[d].sdm ∧ t.clusters[d].cmp = s.clusters[d].cmp
  regs : ∀ (q : PageId) o, ¬W q.kind (o % 4096) → t.reg q o = s.reg q o

section
variable {W : PageKind → Nat → Prop}

theorem State.InputsStay.refl (s : State) : s.InputsStay W s := ⟨⟨rfl, rfl, rfl⟩, id, fun _ => ⟨rfl, rfl⟩, fun _ _ _ => rfl⟩

theorem State.InputsStay.trans {s t u : State} (h : State.InputsStay W s t) (h' : State.InputsStay W t u) : State.InputsStay W s u := by
  obtain ⟨⟨hmem, hcores, htime⟩, hcan, hin, hreg⟩ := h
  obtain ⟨⟨hmem', hcores', htime'⟩, hcan', hin', hreg'⟩ := h'
  exact ⟨⟨hmem'.trans hmem, hcores'.trans hcores, htime'.trans htime⟩, fun hc => hcan' (hcan hc),
    fun d => ⟨(hin' d).1.trans (hin d).1, (hin' d).2.trans (hin d).2⟩, fun q o ho => (hreg' q o ho).trans (hreg q o ho)⟩

theorem State.InputsStay.mono {W' : PageKind → Nat → Prop} {s t : State} (hW : ∀ k o, W k o → W' k o) (h : State.InputsStay W s t) :
    State.InputsStay W' s t := ⟨h.units, h.canonical, h.inputs, fun q o ho => h.regs q o fun hw => ho (hW _ _ hw)⟩

theorem State.InputsStay.ite {s t u : State} {p : Prop} [Decidable p] (ht : State.InputsStay W s t) (hu : State.InputsStay W s u) :
    State.InputsStay W s (if p then t else u) := by
  split
  · exact ht
  · exact hu

theorem State.InputsStay.foldl {α : Type} {f : State → α → State} (hf : ∀ (s : State) (a : α), State.InputsStay W s (f s a)) (l : List α) (s : State) :
    State.InputsStay W s (l.foldl f s) :=
  foldl_keeps (P := State.InputsStay W s) f l s (.refl s) fun t a ht => ht.trans (hf t a)

/-- A register is set that `W` names. -/
theorem State.InputsStay.ofReg {s t : State} (hframe : ∃ r h, t = { s with regs := r, hot := h }) (hcan : s.canonical = true → t.canonical = true)
    {p : PageId} {off : Nat} (hreg : ∀ q o, regKey q o ≠ regKey p off → t.reg q o = s.reg q o) (hW : W p.kind (off % 4096)) :
    State.InputsStay W s t := by
  obtain ⟨r, h, rfl⟩ := hframe
  exact ⟨⟨rfl, rfl, rfl⟩, hcan, fun _ => ⟨rfl, rfl⟩, fun q o ho => hreg q o (regKey_ne_of_offset fun hk he => ho (by rw [hk, he]; exact hW))⟩

section
variable (s : State) {p : PageId} {off : Nat} (hW : W p.kind (off % 4096))
include hW

theorem State.InputsStay.setReg (v : Word) : State.InputsStay W s (s.setReg p off v) :=
  .ofReg ⟨_, s.hot, rfl⟩ (fun hc => State.canonical_setReg hc _ _ _) (fun q o hq => State.reg_setReg_other s p q off o v hq) hW

theorem State.InputsStay.setBit (i : Nat) (b : Bool) : State.InputsStay W s (s.setBit p off i b) := .setReg s hW _

theorem State.InputsStay.stick (i : Nat) : State.InputsStay W s (s.stick p off i) :=
  .ofReg ⟨_, _, rfl⟩ (fun hc => State.canonical_stick hc _ _ _) (fun _ _ hq => State.reg_stick_other s i hq) hW

theorem State.InputsStay.count (hi lo : Nat) : State.InputsStay W s (s.count p off hi lo) :=
  .ofReg (s.count_frame _ _ _ _) (fun hc => State.canonical_count hc _ _ _ _) (fun _ _ hq => State.reg_count_other s hi lo hq) hW

end

/-- Other units of a cluster change. -/
theorem State.InputsStay.modC (s : State) (c : Fin 8) {f : Cluster → Cluster} (hf : ∀ cl, (f cl).sdm = cl.sdm ∧ (f cl).cmp = cl.cmp) :
    State.InputsStay W s (s.modC c f) := by
  refine ⟨⟨rfl, rfl, rfl⟩, id, fun d => ?_, fun _ _ _ => rfl⟩
  by_cases hd : d = c
  · subst hd; rw [State.modC_clusters_get]; exact hf _
  · rw [State.modC_clusters_get_other s hd]; exact ⟨rfl, rfl⟩

/-- Units outside the clusters change. -/
theorem State.InputsStay.ofUnits {s t : State} (hunits : t.mem = s.mem ∧ t.cores = s.cores ∧ t.time = s.time) (hregs : t.regs = s.regs)
    (hsnaps : t.snaps = s.snaps) (hcl : t.clusters = s.clusters) : State.InputsStay W s t :=
  ⟨hunits, fun hc => State.canonical_congr hc hunits.1 hregs hsnaps, fun d => by rw [hcl]; exact ⟨rfl, rfl⟩, fun q o _ => State.reg_congr hregs q o⟩

/-! ## The generators (R96, R97, R109) -/

variable (s : State) (c : Fin 8) (k : Fin 18) (t : Nat)

theorem State.InputsStay.modPwm (f : Pwm → Pwm) : State.InputsStay W s (s.modPwm c f) := .modC s c fun _ => ⟨rfl, rfl⟩

theorem State.InputsStay.modCh (f : PwmCh → PwmCh) : State.InputsStay W s (s.modCh c k f) := .modPwm s c _

theorem State.InputsStay.blankEdge (isH : Bool) : State.InputsStay W s (s.blankEdge c k isH t) :=
  .foldl (fun u _ => .ite (.modPwm u c _) (.refl u)) _ s

theorem State.InputsStay.setOut (h l : Bool) : State.InputsStay W s (s.setOut c k h l t) := by
  have h1 : State.InputsStay W s (s.modCh c k fun x => { x with outH := h, outL := l }) := .modCh s c k _
  have h2 := State.InputsStay.ite (p := ((s.ch c k).outH == h) = true) h1 (h1.trans (.blankEdge _ c k t true))
  exact .ite h2 (h2.trans (.blankEdge _ c k t false))

theorem State.InputsStay.turnOn (isH : Bool) (dt : Nat) : State.InputsStay W s (s.turnOn c k isH dt t) :=
  .ite (.setOut s c k t isH (!isH)) (.modCh s c k _)

theorem State.InputsStay.bothOff : State.InputsStay W s (s.bothOff c k t) :=
  (State.InputsStay.modCh s c k _).trans (.setOut _ c k t false false)

theorem State.InputsStay.forceOut (enc : Nat) : State.InputsStay W s (s.forceOut c k enc t) := by
  have hoff := State.InputsStay.bothOff (W := W) s c k t
  exact .ite (hoff.trans (.turnOn _ c k t true _)) (.ite (hoff.trans (.turnOn _ c k t false _)) hoff)

theorem State.InputsStay.enterMode (m : OutMode) : State.InputsStay W s (s.enterMode c k m t) := by
  have h1 : State.InputsStay W s (s.modCh c k fun x => { x with mode := m }) := .modCh s c k _
  cases m with
  | stopped => exact h1.trans (.bothOff _ c k t)
  | tripped => exact h1.trans (.forceOut _ c k t _)
  | safe => exact h1.trans (.forceOut _ c k t _)
  | running =>
    have h2 := h1.trans (.bothOff _ c k t)
    exact .ite (h2.trans (.turnOn _ c k t true _)) (h2.trans (.turnOn _ c k t false _))

theorem State.InputsStay.settle : State.InputsStay W s (s.settle c k t) := .ite (.enterMode s c k t _) (.refl s)

end

/-! ## What follows a live output (R156) -/

/-- The pages of the followers: of the generators, the capture units and the interrupt units. -/
def followerPage (k : PageKind) (_ : Nat) : Prop := k = .pwg1 ∨ k = .cap ∨ k = .liu ∨ k = .ird

section
variable (s : State) (c : Fin 8)

theorem State.InputsStay.raiseTrip (cond : Bool) (i : Nat) : State.InputsStay followerPage s (s.raiseIf cond (pgPwg1 c) i) :=
  .ite (.stick s (.inl rfl) i) (.refl s)

theorem State.InputsStay.tripCh (k : Fin 18) (i t : Nat) : State.InputsStay followerPage s (s.tripCh c k i t) := by
  rcases Nat.lt_or_ge (s.tripMode c k i) 2 with h | h
  · rcases Nat.eq_zero_or_pos (s.tripMode c k i) with h0 | h1
    · rw [State.tripCh_ignored h0]; exact .refl s
    · rw [State.tripCh_cbc (by omega)]
      exact ((State.InputsStay.modCh s c k _).trans (.raiseTrip _ c _ _)).trans (.settle _ c k t)
  · rw [State.tripCh_latched h]
    exact ((((State.InputsStay.modCh s c k _).trans (.setBit _ (.inl rfl) _ _)).trans (.raiseTrip _ c _ _)).trans (.raiseTrip _ c _ _)).trans
      (.settle _ c k t)

theorem State.InputsStay.tripTake (i t : Nat) : State.InputsStay followerPage s (s.tripTake c i t) := .foldl (fun u k => .tripCh u c k i t) _ s

theorem State.InputsStay.blankCount (i t : Nat) : State.InputsStay followerPage s (s.blankCount c i t) :=
  .foldl (fun u _ => .ite ((State.InputsStay.count u (.inl rfl) 15 0).trans (.stick _ (.inl rfl) 3)) (.refl u)) _ s

theorem State.InputsStay.tripSee (t i : Nat) : State.InputsStay followerPage s (s.tripSee c t i) := by
  have hshown : State.InputsStay followerPage s (s.setBit (pgPwg1 c) Reg.PWG_TRIP_SRC i (s.tripLive c i)) := .setBit s (.inl rfl) _ _
  exact .ite (.refl s) (.ite hshown (.ite (hshown.trans (.blankCount _ c i t)) ((hshown.trans (.stick _ (.inl rfl) i)).trans (.tripTake _ c i t))))

theorem State.InputsStay.tripSeeAll : State.InputsStay followerPage s (s.tripSeeAll c) := .foldl (fun u i => .tripSee u c u.now i) _ s

theorem State.InputsStay.draw : State.InputsStay followerPage s s.draw := .ofUnits ⟨rfl, rfl, rfl⟩ rfl rfl rfl

theorem State.InputsStay.modFb (u : Fin 6) (f : Feedback → Feedback) : State.InputsStay followerPage s (s.modFb c u f) :=
  .modC s c fun _ => ⟨rfl, rfl⟩

theorem State.InputsStay.capture (u : Fin 6) (rise : Bool) : State.InputsStay followerPage s (s.capture c u rise) := by
  have hcap : ∀ o, followerPage (pgCap c).kind o := fun _ => .inr (.inl rfl)
  have hlost := (State.InputsStay.count s (hcap (Reg.CAP_LOST_CNT u % 4096)) 15 0).trans (.stick _ (hcap (Reg.PAGE_IRQ_STAT % 4096)) 1)
  have hdrawn := State.InputsStay.ite (p := bitsOf (s.reg (pgCap c) (Reg.CAP_CTL u)) 5 1 < 18) (.draw s) (.refl s)
  exact .ite (.refl s) (.ite hlost ((hdrawn.trans (.modFb _ c u _)).trans (.stick _ (hcap (Reg.PAGE_IRQ_STAT % 4096)) 0)))

theorem State.InputsStay.captureFrom (src : Nat) (rise : Bool) : State.InputsStay followerPage s (s.captureFrom c src rise) :=
  .foldl (fun u x => .ite (.capture u c x rise) (.refl u)) _ s

theorem followerPage_irqPage (x : IrqCtl) (o : Nat) : followerPage (irqPage x).kind o := by
  unfold irqPage
  split
  · exact .inr (.inr (.inl rfl))
  · exact .inr (.inr (.inr rfl))

theorem followerPage_srcPage (x : IrqCtl) (n o : Nat) : followerPage (srcPage x n).kind o := by
  unfold srcPage
  split
  · exact .inr (.inr (.inl rfl))
  · exact .inr (.inr (.inr rfl))

theorem State.InputsStay.setSrc (x : IrqCtl) (n hi lo v : Nat) : State.InputsStay followerPage s (s.setSrc x n hi lo v) :=
  .setReg s (followerPage_srcPage x n _) _

theorem State.InputsStay.srcPend (x : IrqCtl) (n : Nat) : State.InputsStay followerPage s (s.srcPend x n) := by
  have hset := State.InputsStay.setSrc s x n 16 16 1
  exact .ite hset (hset.trans (.ofUnits ⟨rfl, rfl, rfl⟩ rfl rfl rfl))

theorem State.InputsStay.irqWake (x : IrqCtl) (n : Nat) : State.InputsStay followerPage s (s.irqWake x n) :=
  (State.InputsStay.stick s (followerPage_irqPage x _) 2).trans (.ofUnits ⟨rfl, rfl, rfl⟩ rfl rfl rfl)

theorem State.InputsStay.srcPulse (x : IrqCtl) (n : Nat) : State.InputsStay followerPage s (s.srcPulse x n) := by
  have hset := State.InputsStay.setSrc s x n 18 18 1
  exact .ite (.refl s) (.ite (.refl s) (.ite (.srcPend s x n) (.ite (hset.trans (.irqWake _ x n)) hset)))

end

/-- What a change of a live output writes: its bit, its counter, and the pages of the followers. -/
def liveWrites (m : Nat) (k : PageKind) (o : Nat) : Prop := followerPage k o ∨ k = .cmp ∧ (o = Reg.CMP_OUT ∨ o = Reg.CMP_XCNT m)

section
variable (s : State) (c : Fin 8) (m : Fin 12)

/-- An output that changes has its bit first; what follows leaves it. -/
theorem State.outSee_cases : s.outSee c m = s ∧ s.rbit (pgCmp c) Reg.CMP_OUT m = s.liveOut c m
    ∨ ∃ u, s.setBit (pgCmp c) Reg.CMP_OUT m (s.liveOut c m) = u
      ∧ State.InputsStay (fun k o => followerPage k o ∨ k = .cmp ∧ o = Reg.CMP_XCNT m) u (s.outSee c m) := by
  have hoff : Reg.CMP_XCNT m % 4096 = Reg.CMP_XCNT m := Nat.mod_eq_of_lt (by unfold Reg.CMP_XCNT; omega)
  by_cases hk : s.liveOut c m = s.rbit (pgCmp c) Reg.CMP_OUT m
  · exact .inl ⟨by unfold State.outSee; simp only; exact if_pos (by simp [hk]), hk.symm⟩
  · refine .inr ⟨_, rfl, ?_⟩
    obtain ⟨u, hu⟩ : ∃ u, s.setBit (pgCmp c) Reg.CMP_OUT m (s.liveOut c m) = u := ⟨_, rfl⟩
    have hf : ∀ {v w : State}, State.InputsStay followerPage v w
        → State.InputsStay (fun k o => followerPage k o ∨ k = .cmp ∧ o = Reg.CMP_XCNT m) v w := fun h => h.mono fun _ _ => .inl
    unfold State.outSee
    simp only
    rw [if_neg (by simpa using hk), hu]
    have hcount := State.InputsStay.ite (p := (s.liveOut c m && s.domOn (67 + 5 * c.val)) = true)
      (State.InputsStay.count (W := fun k o => followerPage k o ∨ k = .cmp ∧ o = Reg.CMP_XCNT m) u (p := pgCmp c) (.inr ⟨rfl, hoff⟩) 15 0) (.refl u)
    have htrips := (hcount.trans (hf (.tripSeeAll _ c))).trans (hf (.captureFrom _ c (18 + m.val) (s.liveOut c m)))
    exact .ite htrips (htrips.trans (hf (.srcPulse _ _ _)))

/-- A change of a live output writes its bit, its counter, and the pages of the followers alone. -/
theorem State.InputsStay.outSee : State.InputsStay (liveWrites m) s (s.outSee c m) := by
  rcases s.outSee_cases c m with ⟨he, -⟩ | ⟨u, hu, h⟩
  · rw [he]; exact .refl s
  · refine State.InputsStay.trans (t := u) ?_ (h.mono fun _ _ hw => hw.imp_right fun ⟨hk, ho⟩ => ⟨hk, .inr ho⟩)
    rw [← hu]
    exact .setBit s (.inr ⟨rfl, .inl rfl⟩) _ _

/-- The inputs and registers of a live output, and the power of its domains, decide it. -/
theorem State.liveOut_congr {s t : State} {c : Fin 8} {m : Fin 12} (hcmp : t.clusters[c].cmp = s.clusters[c].cmp)
    (hctl : t.reg (pgCmp c) (Reg.CMP_CTL m) = s.reg (pgCmp c) (Reg.CMP_CTL m)) (hpwr : ∀ o, t.reg pgPwr o = s.reg pgPwr o)
    (hfast : t.reg (pgSdm c) (Reg.SDM_FAST_CTL m) = s.reg (pgSdm c) (Reg.SDM_FAST_CTL m))
    (hval : t.reg (pgSdm c) (Reg.SDM_FVAL m) = s.reg (pgSdm c) (Reg.SDM_FVAL m)) : t.liveOut c m = s.liveOut c m := by
  have hu : t.cmpU c m = s.cmpU c m := congrArg (fun v : Vector CmpUnit 12 => v[m]) hcmp
  have hd : ∀ d, t.domOn d = s.domOn d := fun d => by unfold State.domOn State.fld; rw [hpwr]
  unfold State.liveOut State.awin State.rbit State.fld
  simp only [hu, hd, hctl, hfast, hval]

theorem State.liveOut_outSee : (s.outSee c m).liveOut c m = s.liveOut c m := by
  have h := State.InputsStay.outSee s c m
  have hkept : ∀ (q : PageId) o, q.kind = .pwr ∨ q.kind = .sdm → (s.outSee c m).reg q o = s.reg q o := fun q o hq =>
    h.regs q o (by rcases hq with hq | hq <;> rw [hq] <;> simp [liveWrites, followerPage])
  refine State.liveOut_congr (h.inputs c).2 (h.regs _ _ ?_) (fun o => hkept _ o (.inl rfl)) (hkept _ _ (.inr rfl)) (hkept _ _ (.inr rfl))
  simp [liveWrites, followerPage, pgCmp, Reg.CMP_CTL, Reg.CMP_OUT, Reg.CMP_XCNT]
  omega

/-- The output shows the live window. -/
theorem State.out_outSee {s : State} (hc : s.canonical = true) (c : Fin 8) (m : Fin 12) :
    (s.outSee c m).rbit (pgCmp c) Reg.CMP_OUT m = (s.outSee c m).liveOut c m := by
  rw [State.liveOut_outSee]
  rcases s.outSee_cases c m with ⟨he, hk⟩ | ⟨u, hu, h⟩
  · rw [he, hk]
  · have hkept : (s.outSee c m).reg (pgCmp c) Reg.CMP_OUT = u.reg (pgCmp c) Reg.CMP_OUT := h.regs _ _ (by
      simp [followerPage, pgCmp, Reg.CMP_OUT, Reg.CMP_XCNT]
      omega)
    rw [State.rbit_congr hkept, ← hu, State.rbit_setBit_same hc _ _ (by omega)]

end

end Sys2Proof.Machine
end

section
/-! SUPPORT. Sigma-delta inputs: the fast window, the samples and the results, a clock that is lost or returns (R132 to R136). -/

namespace Sys2Proof.Machine

/-! ## An input changes -/

section
variable (s : State) (c : Fin 8) (n : Fin 12) (f : SdmIn → SdmIn)

theorem State.sdm_modSdm : (s.modSdm c n f).clusters[c].sdm[n] = f s.clusters[c].sdm[n] := by
  unfold State.modSdm
  rw [State.modC_clusters_get]
  simp

theorem State.cmp_modSdm : (s.modSdm c n f).clusters[c].cmp = s.clusters[c].cmp := by
  unfold State.modSdm
  rw [State.modC_clusters_get]

theorem State.reg_modSdm (q : PageId) (o : Nat) : (s.modSdm c n f).reg q o = s.reg q o := rfl

end

theorem State.InputsStay.sdm_eq {W : PageKind → Nat → Prop} {s t : State} (h : State.InputsStay W s t) (c : Fin 8) (n : Fin 12) :
    t.clusters[c].sdm[n] = s.clusters[c].sdm[n] := congrArg (fun v : Vector SdmIn 12 => v[n]) (h.inputs c).1

/-! ## The registers of an input decide its filters and its fast window -/

section
variable {s t : State} {c : Fin 8} (h : ∀ o, t.reg (pgSdm c) o = s.reg (pgSdm c) o) (n : Fin 12)
include h

theorem State.fastActive_congr (f : Nat) : t.fastActive c n f = s.fastActive c n f := by
  unfold State.fastActive State.sdmClock State.rbit State.fld
  simp only [h]

theorem State.fastOut_congr (bits : List Bool) : t.fastOut c n bits = s.fastOut c n bits := by
  unfold State.fastOut
  rw [h]

end

theorem State.sdmOsr_congr {s t : State} {c : Fin 8} {n : Fin 12} (h : t.reg (pgSdm c) (Reg.SDM_CTL n) = s.reg (pgSdm c) (Reg.SDM_CTL n)) :
    t.sdmOsr c n = s.sdmOsr c n := by
  unfold State.sdmOsr State.fld; rw [h]

theorem State.sdmOrd_congr {s t : State} {c : Fin 8} {n : Fin 12} (h : t.reg (pgSdm c) (Reg.SDM_CTL n) = s.reg (pgSdm c) (Reg.SDM_CTL n)) :
    t.sdmOrd c n = s.sdmOrd c n := by
  unfold State.sdmOrd State.fld; rw [h]

/-! ## The fast window (R135, R136) -/

/-- What a new fast value writes: the value, the record of an activation with its event, and what a live output writes. -/
def fastWrites (n : Nat) (k : PageKind) (o : Nat) : Prop :=
  liveWrites n k o ∨ k = .sdm ∧ (o = Reg.SDM_FVAL n ∨ o = Reg.SDM_FASTSEEN ∨ o = Reg.PAGE_IRQ_STAT)

@[simp] theorem liveWrites_sdm (n o : Nat) : liveWrites n .sdm o ↔ False := by simp [liveWrites, followerPage]

@[simp] theorem fastWrites_sdm (n o : Nat) : fastWrites n .sdm o ↔ o = Reg.SDM_FVAL n ∨ o = Reg.SDM_FASTSEEN ∨ o = Reg.PAGE_IRQ_STAT := by
  simp [fastWrites]

theorem bitsOf_fastWord (f : Nat) (b : Bool) : bitsOf (w32 (f % 65536 + b2n b * 65536)) 15 0 = f % 65536 := by
  unfold bitsOf w32
  rw [BitVec.toNat_ofNat, Nat.shiftRight_zero]
  cases b <;> simp only [b2n] <;> omega

theorem bitOf_fastWord (f : Nat) (b : Bool) : bitOf (w32 (f % 65536 + b2n b * 65536)) 16 = b := by
  unfold bitOf w32
  rw [BitVec.getLsbD_ofNat, Nat.testBit_eq_decide_div_mod_eq]
  cases b <;> simp [b2n]

/-- Where `on`, a sticky bit of the page is set and an event is raised. -/
def State.sdmNote (s : State) (c : Fin 8) (off i ev : Nat) (on : Bool) : State :=
  if on then (s.stick (pgSdm c) off i).raise (pgSdm c) ev else s

section
variable (s : State) (c : Fin 8) (off i ev : Nat) (on : Bool)

theorem State.InputsStay.sdmNote {W : PageKind → Nat → Prop} (hoff : W .sdm (off % 4096)) (hirq : W .sdm Reg.PAGE_IRQ_STAT) :
    State.InputsStay W s (s.sdmNote c off i ev on) :=
  .ite ((State.InputsStay.stick s (p := pgSdm c) hoff i).trans (.stick _ (p := pgSdm c) (off := Reg.PAGE_IRQ_STAT) hirq ev)) (.refl s)

theorem State.reg_sdmNote_other {o : Nat} (hs : o % 4096 ≠ off % 4096) (hi : o % 4096 ≠ Reg.PAGE_IRQ_STAT) :
    (s.sdmNote c off i ev on).reg (pgSdm c) o = s.reg (pgSdm c) o := by
  unfold State.sdmNote
  split
  · rw [State.reg_raise_other _ _ (regKey_ne_of_off _ hi), State.reg_stick_other _ _ (regKey_ne_of_off _ hs)]
  · rfl

variable {s off i ev on} (hc : s.canonical = true) (hoff : off % 4096 ≠ Reg.PAGE_IRQ_STAT)
include hc hoff

theorem State.bits_sdmNote (hon : on = true) (hi : i < 32) (hev : ev < 32) :
    (s.sdmNote c off i ev on).rbit (pgSdm c) off i = true ∧ (s.sdmNote c off i ev on).rbit (pgSdm c) Reg.PAGE_IRQ_STAT ev = true := by
  subst hon
  exact ⟨State.rbit_stick_stays (State.canonical_stick hc _ _ _) _ _ ev hi (.inr hoff) (State.rbit_stick_same hc _ _ hi),
    State.rbit_raise_same (State.canonical_stick hc _ _ _) _ hev⟩

/-- An event that is up stays. -/
theorem State.irq_sdmNote {b : Nat} (hb : b < 32) (h : s.rbit (pgSdm c) Reg.PAGE_IRQ_STAT b = true) :
    (s.sdmNote c off i ev on).rbit (pgSdm c) Reg.PAGE_IRQ_STAT b = true := by
  cases on with
  | false => exact h
  | true =>
    exact State.rbit_stick_stays (State.canonical_stick hc _ _ _) _ _ ev hb (.inl rfl)
      (State.rbit_stick_stays hc _ off i hb (.inr (Ne.symm hoff)) h)

end

section
variable (s : State) (c : Fin 8) (n : Fin 12)

theorem State.fastSee_eq (f : Nat) : s.fastSee c n f
    = ((s.setReg (pgSdm c) (Reg.SDM_FVAL n) (w32 (f % 65536 + b2n (s.fastActive c n f) * 65536))).sdmNote c Reg.SDM_FASTSEEN n 1
        (s.fastActive c n f && !s.rbit (pgSdm c) (Reg.SDM_FVAL n) 16)).outSee c n := rfl

theorem State.InputsStay.fastSee (f : Nat) : State.InputsStay (fastWrites n) s (s.fastSee c n f) := by
  have hoff : Reg.SDM_FVAL n % 4096 = Reg.SDM_FVAL n := Nat.mod_eq_of_lt (by unfold Reg.SDM_FVAL; omega)
  rw [State.fastSee_eq]
  exact ((State.InputsStay.setReg s (.inr ⟨rfl, .inl hoff⟩) _).trans (.sdmNote _ c _ n 1 _ (.inr ⟨rfl, .inr (.inl rfl)⟩) (.inr ⟨rfl, .inr (.inr rfl)⟩))).trans
    ((State.InputsStay.outSee _ c n).mono fun _ _ => .inl)

end

section
variable {s : State} (hc : s.canonical = true) (c : Fin 8) (n : Fin 12)
include hc

/-- What a new fast value shows. -/
theorem State.fastSee_effect (f : Nat) : let t := s.fastSee c n f
    bitsOf (t.reg (pgSdm c) (Reg.SDM_FVAL n)) 15 0 = f % 65536 ∧ t.rbit (pgSdm c) (Reg.SDM_FVAL n) 16 = s.fastActive c n f
      ∧ (s.fastActive c n f = true → s.rbit (pgSdm c) (Reg.SDM_FVAL n) 16 = false →
          t.rbit (pgSdm c) Reg.SDM_FASTSEEN n = true ∧ t.rbit (pgSdm c) Reg.PAGE_IRQ_STAT 1 = true)
      ∧ (∀ b < 32, s.rbit (pgSdm c) Reg.PAGE_IRQ_STAT b = true → t.rbit (pgSdm c) Reg.PAGE_IRQ_STAT b = true)
      ∧ t.rbit (pgCmp c) Reg.CMP_OUT n = t.liveOut c n := by
  obtain ⟨a, ha⟩ : ∃ a, s.fastActive c n f = a := ⟨_, rfl⟩
  obtain ⟨u, hu⟩ : ∃ u, s.setReg (pgSdm c) (Reg.SDM_FVAL n) (w32 (f % 65536 + b2n a * 65536)) = u := ⟨_, rfl⟩
  obtain ⟨v, hv⟩ : ∃ v, u.sdmNote c Reg.SDM_FASTSEEN n 1 (a && !s.rbit (pgSdm c) (Reg.SDM_FVAL n) 16) = v := ⟨_, rfl⟩
  have hcu : u.canonical = true := by rw [← hu]; exact State.canonical_setReg hc _ _ _
  have hcv : v.canonical = true := by rw [← hv]; exact (State.InputsStay.sdmNote (W := fun _ _ => True) u c _ _ _ _ trivial trivial).canonical hcu
  have hout : ∀ o, (v.outSee c n).reg (pgSdm c) o = v.reg (pgSdm c) o := fun o =>
    (State.InputsStay.outSee v c n).regs _ o fun h => (liveWrites_sdm _ _).mp h
  have hval : (v.outSee c n).reg (pgSdm c) (Reg.SDM_FVAL n) = w32 (f % 65536 + b2n a * 65536) := by
    rw [hout, ← hv, State.reg_sdmNote_other _ _ _ _ _ _ (by unfold Reg.SDM_FVAL Reg.SDM_FASTSEEN; omega)
      (by unfold Reg.SDM_FVAL Reg.PAGE_IRQ_STAT; omega), ← hu, State.reg_setReg_same hc]
  dsimp only
  rw [State.fastSee_eq, ha, hu, hv]
  refine ⟨?_, ?_, fun hon hwas => ?_, fun b hb h => ?_, State.out_outSee hcv c n⟩
  · rw [hval, bitsOf_fastWord]
  · unfold State.rbit
    rw [hval, bitOf_fastWord]
  · rw [State.rbit_congr (hout _), State.rbit_congr (hout _), ← hv]
    exact State.bits_sdmNote c hcu (by decide) (by simp [hon, hwas]) (by omega) (by decide)
  · rw [State.rbit_congr (hout _), ← hv]
    refine State.irq_sdmNote c hcu (by decide) hb ?_
    rw [← hu, State.rbit_congr (State.reg_setReg_other _ _ _ _ _ _ (regKey_ne_of_off _ (by unfold Reg.SDM_FVAL Reg.PAGE_IRQ_STAT; omega)))]
    exact h

end

/-! ## A sample (R134, R135) -/

/-- The bits of an input with one more. -/
def SdmIn.withBit (d : SdmIn) (b : Bool) : List Bool := (b :: d.bits).take 766

/-- An input after one more bit, which makes its bits `bits`. -/
def SdmIn.sampled (d : SdmIn) (bits : List Bool) : SdmIn := { d with bits := bits, phase := d.phase + 1 }

/-- A bit is sampled, and the fast value follows it. -/
def State.sdmSampled (s : State) (c : Fin 8) (n : Fin 12) (t : Nat) (bits : List Bool) : State :=
  ((s.advance t).modSdm c n (SdmIn.sampled · bits)).fastSee c n (((s.advance t).modSdm c n (SdmIn.sampled · bits)).fastOut c n bits)

section
variable {s : State} (hc : s.canonical = true) (c : Fin 8) (n : Fin 12) (t : Nat) (bits : List Bool)
include hc

theorem State.sdmSampled_effect : let f := s.fastOut c n bits
    let u := s.sdmSampled c n t bits
    (u.mem = s.mem ∧ u.cores = s.cores ∧ u.time.clk = max s.time.clk (t / 16) ∧ u.canonical = true) ∧ u.clusters[c].sdm[n] = s.clusters[c].sdm[n].sampled bits
      ∧ (∀ o, ¬fastWrites n .sdm (o % 4096) → u.reg (pgSdm c) o = s.reg (pgSdm c) o)
      ∧ bitsOf (u.reg (pgSdm c) (Reg.SDM_FVAL n)) 15 0 = f % 65536 ∧ u.rbit (pgSdm c) (Reg.SDM_FVAL n) 16 = s.fastActive c n f
      ∧ (s.fastActive c n f = true → s.rbit (pgSdm c) (Reg.SDM_FVAL n) 16 = false →
          u.rbit (pgSdm c) Reg.SDM_FASTSEEN n = true ∧ u.rbit (pgSdm c) Reg.PAGE_IRQ_STAT 1 = true)
      ∧ u.rbit (pgCmp c) Reg.CMP_OUT n = u.liveOut c n := by
  obtain ⟨v, hv, hclk, hmem, hcores, hcl⟩ := s.advance_units t
  obtain ⟨w, hw⟩ : ∃ w, v.modSdm c n (SdmIn.sampled · bits) = w := ⟨_, rfl⟩
  have hcw : w.canonical = true := by
    rw [← hw]
    refine State.canonical_congr (s := v) ?_ rfl rfl rfl
    rw [← hv]
    exact State.canonical_advance hc t
  have hreg : ∀ o, w.reg (pgSdm c) o = s.reg (pgSdm c) o := fun o => by
    rw [← hw, State.reg_modSdm, ← hv, State.reg_advance s t (by simp [pgSdm, pageKindNo])]
  have hsdm : w.clusters[c].sdm[n] = s.clusters[c].sdm[n].sampled bits := by rw [← hw, State.sdm_modSdm, hcl]
  have hframe : w.mem = s.mem ∧ w.cores = s.cores ∧ w.time.clk = max s.time.clk (t / 16) := by rw [← hw]; exact ⟨hmem, hcores, hclk⟩
  unfold State.sdmSampled
  dsimp only
  rw [hv, hw, State.fastOut_congr hreg]
  have hstay := State.InputsStay.fastSee w c n (s.fastOut c n bits)
  obtain ⟨hval, hact, hseen, -, hout⟩ := State.fastSee_effect hcw c n (s.fastOut c n bits)
  rw [State.fastActive_congr hreg] at hact hseen
  obtain ⟨hmem', hcores', htime'⟩ := hstay.units
  refine ⟨⟨hmem'.trans hframe.1, hcores'.trans hframe.2.1, (congrArg (·.clk) htime').trans hframe.2.2, hstay.canonical hcw⟩,
    (hstay.sdm_eq c n).trans hsdm, fun o ho => (hstay.regs _ o ho).trans (hreg o), hval, hact, fun hon hwas => hseen hon ?_, hout⟩
  rw [State.rbit_congr (hreg _), hwas]

end

end Sys2Proof.Machine
end

section
/-! SUPPORT. Sigma-delta inputs: results, a clock that is lost or returns, and reads of the results (R133, R134). -/

namespace Sys2Proof.Machine

/-! ## A result (R134) -/

/-- A result `sh` saturates. -/
def resSat (sh : Int) : Bool := decide (clampInt (-32768) 32767 sh ≠ sh)

/-- A result `sh`, saturated, whether it counts and whether it saturated. -/
def resWord (sh : Int) (valid : Bool) : Word :=
  w32 (wrapInt 16 (clampInt (-32768) 32767 sh) + b2n valid * 2 ^ 16 + 2 ^ 17 + b2n (resSat sh) * 2 ^ 18)

theorem resWord_inRange {sh : Int} (hl : -32768 ≤ sh) (hh : sh ≤ 32767) (valid : Bool) :
    resWord sh valid = w32 (wrapInt 16 sh + b2n valid * 2 ^ 16 + 2 ^ 17) := by
  have hcl : clampInt (-32768) 32767 sh = sh := by rw [clampInt, if_neg (by omega), if_neg (by omega)]
  unfold resWord resSat
  rw [hcl]
  simp [b2n]

theorem clampInt_above {sh : Int} (h : 32767 < sh) : clampInt (-32768) 32767 sh = 32767 := by
  rw [clampInt, if_neg (by omega), if_pos h]

theorem clampInt_below {sh : Int} (h : sh < -32768) : clampInt (-32768) 32767 sh = -32768 := if_pos h

theorem resSat_above {sh : Int} (h : 32767 < sh) : resSat sh = true := by
  rw [resSat, clampInt_above h, decide_eq_true_iff]; omega

theorem resSat_below {sh : Int} (h : sh < -32768) : resSat sh = true := by
  rw [resSat, clampInt_below h, decide_eq_true_iff]; omega

theorem resWord_above {sh : Int} (h : 32767 < sh) (valid : Bool) : bitsOf (resWord sh valid) 18 0 = 0x7FFF + b2n valid * 2 ^ 16 + 0x60000 := by
  unfold resWord
  rw [resSat_above h, clampInt_above h]
  cases valid <;> rfl

theorem resWord_below {sh : Int} (h : sh < -32768) (valid : Bool) : bitsOf (resWord sh valid) 15 0 = 0x8000 := by
  unfold resWord
  rw [resSat_below h, clampInt_below h]
  cases valid <;> rfl

/-- The filter's output `count`, centred and shifted. -/
def State.sdmShifted (s : State) (c : Fin 8) (n : Fin 12) (count : Nat) : Int :=
  ((2 * count : Nat) - (s.sdmOsr c n ^ s.sdmOrd c n : Nat)) / (2 ^ s.fld (pgSdm c) (Reg.SDM_CTL n) 22 18 : Nat)

/-- What a result writes: itself, and its saturation with the event. -/
def resultWrites (n : Nat) (k : PageKind) (o : Nat) : Prop := k = .sdm ∧ (o = Reg.SDM_RES n ∨ o = Reg.SDM_SATSEEN ∨ o = Reg.PAGE_IRQ_STAT)

@[simp] theorem resultWrites_sdm (n o : Nat) : resultWrites n .sdm o ↔ o = Reg.SDM_RES n ∨ o = Reg.SDM_SATSEEN ∨ o = Reg.PAGE_IRQ_STAT := by
  simp [resultWrites]

theorem State.sdmResult_eq (s : State) (c : Fin 8) (n : Fin 12) (count : Nat) : s.sdmResult c n count
    = ((s.modSdm c n (fun x => { x with discard := s.clusters[c].sdm[n].discard - 1 })).setReg (pgSdm c) (Reg.SDM_RES n)
        (resWord (s.sdmShifted c n count) (s.clusters[c].sdm[n].discard == 0))).sdmNote c Reg.SDM_SATSEEN n 2
        (resSat (s.sdmShifted c n count)) := rfl

theorem sdmRes_mod (n : Fin 12) : Reg.SDM_RES n % 4096 = Reg.SDM_RES n := Nat.mod_eq_of_lt (by unfold Reg.SDM_RES; omega)

theorem sdmRes_ge (n : Nat) : 0x104 ≤ Reg.SDM_RES n := Nat.le_add_right _ _

section
variable {s : State} (hc : s.canonical = true) (c : Fin 8) (n : Fin 12)

include hc

/-- What a result shows. -/
theorem State.sdmResult_effect (count : Nat) : let d := s.clusters[c].sdm[n]
    let t := s.sdmResult c n count
    (t.mem = s.mem ∧ t.cores = s.cores ∧ t.time = s.time) ∧ t.clusters[c].cmp = s.clusters[c].cmp
      ∧ t.clusters[c].sdm[n] = { d with discard := d.discard - 1 } ∧ (∀ q o, ¬resultWrites n q.kind (o % 4096) → t.reg q o = s.reg q o)
      ∧ t.reg (pgSdm c) (Reg.SDM_RES n) = resWord (s.sdmShifted c n count) (d.discard == 0)
      ∧ (resSat (s.sdmShifted c n count) = true → t.rbit (pgSdm c) Reg.SDM_SATSEEN n = true ∧ t.rbit (pgSdm c) Reg.PAGE_IRQ_STAT 2 = true)
      ∧ (∀ b < 32, s.rbit (pgSdm c) Reg.PAGE_IRQ_STAT b = true → t.rbit (pgSdm c) Reg.PAGE_IRQ_STAT b = true) := by
  obtain ⟨sh, hsh⟩ : ∃ sh, s.sdmShifted c n count = sh := ⟨_, rfl⟩
  obtain ⟨u, hu⟩ : ∃ u, s.modSdm c n (fun x => { x with discard := s.clusters[c].sdm[n].discard - 1 }) = u := ⟨_, rfl⟩
  obtain ⟨v, hv⟩ : ∃ v, u.setReg (pgSdm c) (Reg.SDM_RES n) (resWord sh (s.clusters[c].sdm[n].discard == 0)) = v := ⟨_, rfl⟩
  have hcu : u.canonical = true := by rw [← hu]; exact State.canonical_congr hc rfl rfl rfl
  have hcv : v.canonical = true := by rw [← hv]; exact State.canonical_setReg hcu _ _ _
  have hcmp : u.clusters[c].cmp = s.clusters[c].cmp := by rw [← hu, State.cmp_modSdm]
  have hsdm : u.clusters[c].sdm[n] = { s.clusters[c].sdm[n] with discard := s.clusters[c].sdm[n].discard - 1 } := by rw [← hu, State.sdm_modSdm]
  have hunits : u.mem = s.mem ∧ u.cores = s.cores ∧ u.time = s.time := by rw [← hu]; exact ⟨rfl, rfl, rfl⟩
  have hreg : ∀ q o, u.reg q o = s.reg q o := fun q o => by rw [← hu, State.reg_modSdm]
  have hset : State.InputsStay (resultWrites n) u v := by rw [← hv]; exact .setReg u ⟨rfl, .inl (sdmRes_mod n)⟩ _
  have hres := sdmRes_mod n
  have hge := sdmRes_ge n
  dsimp only
  rw [State.sdmResult_eq, hsh, hu, hv]
  have hstay := hset.trans (.sdmNote v c Reg.SDM_SATSEEN n 2 (resSat sh) ⟨rfl, .inr (.inl rfl)⟩ ⟨rfl, .inr (.inr rfl)⟩)
  obtain ⟨hmem, hcores, htime⟩ := hstay.units
  refine ⟨⟨hmem.trans hunits.1, hcores.trans hunits.2.1, htime.trans hunits.2.2⟩, (hstay.inputs c).2.trans hcmp, (hstay.sdm_eq c n).trans hsdm,
    fun q o ho => (hstay.regs q o ho).trans (hreg q o), ?_, fun hsat => State.bits_sdmNote c hcv (by decide) hsat (by omega) (by decide),
    fun b hb h => ?_⟩
  · rw [State.reg_sdmNote_other _ _ _ _ _ _ (by unfold Reg.SDM_SATSEEN; omega) (by unfold Reg.PAGE_IRQ_STAT; omega), ← hv,
      State.reg_setReg_same hcu]
  · refine State.irq_sdmNote c hcv (by decide) hb ?_
    rw [← hv, State.rbit_congr (State.reg_setReg_other _ _ _ _ _ _ (regKey_ne_of_off _ (by rw [hres]; unfold Reg.PAGE_IRQ_STAT; omega))),
      State.rbit_congr (hreg _ _)]
    exact h

end

/-! ## A sample that completes a result -/

/-- After the last sample of a result, the result at its instant. -/
def State.sdmEnded (s : State) (c : Fin 8) (n : Fin 12) (t count : Nat) : State :=
  ((s.modSdm c n (fun d => { d with phase := 0 })).advance t).sdmResult c n count

theorem State.sdmBit_eq (s : State) (c : Fin 8) (n : Fin 12) (t : Nat) (b : Bool) : s.sdmBit c n t b
    = if s.clusters[c].sdm[n].phase + 1 < s.sdmOsr c n then s.sdmSampled c n t (s.clusters[c].sdm[n].withBit b)
      else (s.sdmSampled c n t (s.clusters[c].sdm[n].withBit b)).sdmEnded c n (t + 256)
        (sincOut (s.sdmOrd c n) (s.sdmOsr c n) (s.clusters[c].sdm[n].withBit b)) := by
  unfold State.sdmBit State.sdmSampled State.sdmEnded SdmIn.sampled SdmIn.withBit
  dsimp only

theorem State.sdmShifted_congr {s t : State} {c : Fin 8} {n : Fin 12} (h : t.reg (pgSdm c) (Reg.SDM_CTL n) = s.reg (pgSdm c) (Reg.SDM_CTL n))
    (count : Nat) : t.sdmShifted c n count = s.sdmShifted c n count := by
  unfold State.sdmShifted State.fld
  rw [State.sdmOsr_congr h, State.sdmOrd_congr h, h]

section
variable {s : State} (hc : s.canonical = true) (c : Fin 8) (n : Fin 12)
include hc

theorem State.sdmEnded_effect (t count : Nat) : let d := s.clusters[c].sdm[n]
    let u := s.sdmEnded c n t count
    (u.mem = s.mem ∧ u.cores = s.cores ∧ u.time.clk = max s.time.clk (t / 16))
      ∧ u.clusters[c].sdm[n] = { d with phase := 0, discard := d.discard - 1 }
      ∧ (∀ o, ¬resultWrites n .sdm (o % 4096) → u.reg (pgSdm c) o = s.reg (pgSdm c) o)
      ∧ u.reg (pgSdm c) (Reg.SDM_RES n) = resWord (s.sdmShifted c n count) (d.discard == 0)
      ∧ (resSat (s.sdmShifted c n count) = true → u.rbit (pgSdm c) Reg.SDM_SATSEEN n = true ∧ u.rbit (pgSdm c) Reg.PAGE_IRQ_STAT 2 = true)
      ∧ (∀ b < 32, s.rbit (pgSdm c) Reg.PAGE_IRQ_STAT b = true → u.rbit (pgSdm c) Reg.PAGE_IRQ_STAT b = true)
      ∧ (s.rbit (pgCmp c) Reg.CMP_OUT n = s.liveOut c n → u.rbit (pgCmp c) Reg.CMP_OUT n = u.liveOut c n) := by
  obtain ⟨w, hw⟩ : ∃ w, s.modSdm c n (fun d => { d with phase := 0 }) = w := ⟨_, rfl⟩
  obtain ⟨v, hv, hclk, hmem, hcores, hcl⟩ := w.advance_units t
  have hcw : w.canonical = true := by rw [← hw]; exact State.canonical_congr hc rfl rfl rfl
  have hcv : v.canonical = true := by rw [← hv]; exact State.canonical_advance hcw t
  have hsdm : v.clusters[c].sdm[n] = { s.clusters[c].sdm[n] with phase := 0 } := by rw [hcl, ← hw, State.sdm_modSdm]
  have hcmp : v.clusters[c].cmp = s.clusters[c].cmp := by rw [hcl, ← hw, State.cmp_modSdm]
  have hframe : w.mem = s.mem ∧ w.cores = s.cores ∧ w.time = s.time := by rw [← hw]; exact ⟨rfl, rfl, rfl⟩
  have hreg : ∀ (q : PageId) o, pageKindNo q.kind ≠ 0 → v.reg q o = s.reg q o := fun q o hq => by
    rw [← hv, State.reg_advance w t hq, ← hw, State.reg_modSdm]
  have hregS : ∀ o, v.reg (pgSdm c) o = s.reg (pgSdm c) o := fun o => hreg _ o (by simp [pgSdm, pageKindNo])
  unfold State.sdmEnded
  dsimp only
  rw [hw, hv]
  obtain ⟨⟨hmem', hcores', htime'⟩, hcmp', hsdm', hregs', hres, hsat, hirq⟩ := State.sdmResult_effect hcv c n count
  rw [State.sdmShifted_congr (hregS _), hsdm] at hres
  rw [State.sdmShifted_congr (hregS _)] at hsat
  refine ⟨⟨hmem'.trans (hmem.trans hframe.1), hcores'.trans (hcores.trans hframe.2.1), by rw [htime', hclk, hframe.2.2]⟩, by rw [hsdm', hsdm],
    fun o ho => (hregs' _ o ho).trans (hregS o), hres, hsat, fun b hb h => hirq b hb ?_, fun hout => ?_⟩
  · rw [State.rbit_congr (hregS _), h]
  · have hkept : ∀ (q : PageId) o, pageKindNo q.kind ≠ 0 → q.kind ≠ .sdm → (v.sdmResult c n count).reg q o = s.reg q o := fun q o hq hk =>
      (hregs' q o fun h => hk h.1).trans (hreg q o hq)
    have hkeptS : ∀ o, ¬resultWrites n .sdm (o % 4096) → (v.sdmResult c n count).reg (pgSdm c) o = s.reg (pgSdm c) o := fun o ho =>
      (hregs' _ o ho).trans (hregS o)
    rw [State.rbit_congr (hkept (pgCmp c) _ (by simp [pgCmp, pageKindNo]) (by simp [pgCmp])), hout]
    refine (State.liveOut_congr (hcmp'.trans hcmp) (hkept _ _ (by simp [pgCmp, pageKindNo]) (by simp [pgCmp]))
      (fun o => hkept _ o (by simp [pgPwr, pageKindNo]) (by simp [pgPwr])) (hkeptS _ ?_) (hkeptS _ ?_)).symm <;> rw [resultWrites_sdm]
    · unfold Reg.SDM_FAST_CTL Reg.SDM_RES Reg.SDM_SATSEEN Reg.PAGE_IRQ_STAT; omega
    · unfold Reg.SDM_FVAL Reg.SDM_RES Reg.SDM_SATSEEN Reg.PAGE_IRQ_STAT; omega

end

end Sys2Proof.Machine
end

section
/-! SUPPORT. Sigma-delta inputs: edges of the modulator clock, a clock that is lost or returns, and reads of the results (R132 to R134). -/

namespace Sys2Proof.Machine

/-- From `s` to `u` the input `d` has sampled a bit at `t`, which makes its bits `bits`: the fast value and its window, the live output, and
the result where the bit completes one. -/
structure State.SampleShown (s u : State) (c : Fin 8) (n : Fin 12) (d : SdmIn) (bits : List Bool) (t : Nat) : Prop where
  frame : u.mem = s.mem ∧ u.cores = s.cores
  input : u.clusters[c].sdm[n].bits = bits ∧ u.clusters[c].sdm[n].edgeAt = d.edgeAt
  value : bitsOf (u.reg (pgSdm c) (Reg.SDM_FVAL n)) 15 0 = s.fastOut c n bits % 65536
  window : u.rbit (pgSdm c) (Reg.SDM_FVAL n) 16 = s.fastActive c n (s.fastOut c n bits)
  seen : s.fastActive c n (s.fastOut c n bits) = true → s.rbit (pgSdm c) (Reg.SDM_FVAL n) 16 = false →
    u.rbit (pgSdm c) Reg.SDM_FASTSEEN n = true ∧ u.rbit (pgSdm c) Reg.PAGE_IRQ_STAT 1 = true
  output : u.rbit (pgCmp c) Reg.CMP_OUT n = u.liveOut c n
  between : d.phase + 1 < s.sdmOsr c n → u.clusters[c].sdm[n].phase = d.phase + 1 ∧ u.clusters[c].sdm[n].discard = d.discard
    ∧ u.reg (pgSdm c) (Reg.SDM_RES n) = s.reg (pgSdm c) (Reg.SDM_RES n) ∧ u.time.clk = max s.time.clk (t / 16)
  result : s.sdmOsr c n ≤ d.phase + 1 → u.clusters[c].sdm[n].phase = 0 ∧ u.clusters[c].sdm[n].discard = d.discard - 1
    ∧ u.time.clk = max s.time.clk ((t + 256) / 16)
    ∧ u.reg (pgSdm c) (Reg.SDM_RES n) = resWord (s.sdmShifted c n (sincOut (s.sdmOrd c n) (s.sdmOsr c n) bits)) (d.discard == 0)
    ∧ (resSat (s.sdmShifted c n (sincOut (s.sdmOrd c n) (s.sdmOsr c n) bits)) = true →
        u.rbit (pgSdm c) Reg.SDM_SATSEEN n = true ∧ u.rbit (pgSdm c) Reg.PAGE_IRQ_STAT 2 = true)

theorem State.sdmBit_shows {s : State} (hc : s.canonical = true) {c : Fin 8} {n : Fin 12} {d : SdmIn} (hd : s.clusters[c].sdm[n] = d) (t : Nat)
    {b : Bool} {bits : List Bool} (hbits : d.withBit b = bits) : s.SampleShown (s.sdmBit c n t b) c n d bits t := by
  have hres := sdmRes_mod n
  obtain ⟨⟨hmem, hcores, hclk, hcv⟩, hsdm, hreg, hval, hact, hseen, hout⟩ := State.sdmSampled_effect hc c n t bits
  rw [State.sdmBit_eq, hd, hbits]
  obtain ⟨v, hv⟩ : ∃ v, s.sdmSampled c n t bits = v := ⟨_, rfl⟩
  rw [hd] at hsdm
  rw [hv] at hmem hcores hclk hcv hsdm hreg hval hact hseen hout ⊢
  by_cases hphase : d.phase + 1 < s.sdmOsr c n
  · rw [if_pos hphase]
    refine ⟨⟨hmem, hcores⟩, ⟨by rw [hsdm]; rfl, by rw [hsdm]; rfl⟩, hval, hact, hseen, hout,
      fun _ => ⟨by rw [hsdm]; rfl, by rw [hsdm]; rfl, hreg _ ?_, hclk⟩, fun hle => absurd hphase (by omega)⟩
    rw [fastWrites_sdm]
    unfold Reg.SDM_RES Reg.SDM_FVAL Reg.SDM_FASTSEEN Reg.PAGE_IRQ_STAT
    omega
  · rw [if_neg hphase]
    obtain ⟨⟨hmem', hcores', hclk'⟩, hsdm', hreg', hres', hsat', hirq', hout'⟩ :=
      State.sdmEnded_effect hcv c n (t + 256) (sincOut (s.sdmOrd c n) (s.sdmOsr c n) bits)
    have hctl : v.reg (pgSdm c) (Reg.SDM_CTL n) = s.reg (pgSdm c) (Reg.SDM_CTL n) := hreg _ (by
      rw [fastWrites_sdm]
      unfold Reg.SDM_CTL Reg.SDM_FVAL Reg.SDM_FASTSEEN Reg.PAGE_IRQ_STAT
      omega)
    have hkept : ∀ o, o = Reg.SDM_FVAL n ∨ o = Reg.SDM_FASTSEEN →
        (v.sdmEnded c n (t + 256) (sincOut (s.sdmOrd c n) (s.sdmOsr c n) bits)).reg (pgSdm c) o = v.reg (pgSdm c) o := fun o ho =>
      hreg' o (by
        rw [resultWrites_sdm]
        rcases ho with rfl | rfl <;> unfold Reg.SDM_RES Reg.SDM_SATSEEN Reg.PAGE_IRQ_STAT
        · unfold Reg.SDM_FVAL; omega
        · unfold Reg.SDM_FASTSEEN; omega)
    rw [hsdm] at hsdm' hres'
    rw [State.sdmShifted_congr hctl] at hres' hsat'
    refine ⟨⟨hmem'.trans hmem, hcores'.trans hcores⟩, ⟨by rw [hsdm']; rfl, by rw [hsdm']; rfl⟩, by rw [hkept _ (.inl rfl), hval],
      by rw [State.rbit_congr (hkept _ (.inl rfl)), hact], fun hon hwas => ?_, hout' hout, fun hlt => absurd hlt hphase,
      fun _ => ⟨by rw [hsdm'], by rw [hsdm']; rfl, by rw [hclk', hclk]; omega, hres', hsat'⟩⟩
    obtain ⟨hs, hi⟩ := hseen hon hwas
    exact ⟨by rw [State.rbit_congr (hkept _ (.inr rfl)), hs], hirq' 1 (by decide) hi⟩

/-- The same, from the state before the edge's instant is recorded. -/
theorem State.sdmBit_edgeAt {s : State} (hc : s.canonical = true) {c : Fin 8} {n : Fin 12} (e t : Nat) {b : Bool} {bits : List Bool}
    (hbits : s.clusters[c].sdm[n].withBit b = bits) :
    s.SampleShown ((s.modSdm c n (fun d => { d with edgeAt := e })).sdmBit c n t b) c n { s.clusters[c].sdm[n] with edgeAt := e } bits t := by
  obtain ⟨v, hv⟩ : ∃ v, s.modSdm c n (fun d => { d with edgeAt := e }) = v := ⟨_, rfl⟩
  have hcv : v.canonical = true := by rw [← hv]; exact State.canonical_congr hc rfl rfl rfl
  have hd : v.clusters[c].sdm[n] = { s.clusters[c].sdm[n] with edgeAt := e } := by rw [← hv, State.sdm_modSdm]
  have hreg : ∀ o, v.reg (pgSdm c) o = s.reg (pgSdm c) o := fun o => by rw [← hv, State.reg_modSdm]
  obtain ⟨hmem, hcores, htime⟩ : v.mem = s.mem ∧ v.cores = s.cores ∧ v.time = s.time := by rw [← hv]; exact ⟨rfl, rfl, rfl⟩
  obtain ⟨hframe, hinput, hval, hact, hseen, hout, hbetween, hresult⟩ := State.sdmBit_shows hcv hd t hbits
  rw [State.fastOut_congr hreg] at hval hact hseen
  rw [State.fastActive_congr hreg] at hact hseen
  rw [State.rbit_congr (hreg _)] at hseen
  rw [State.sdmOsr_congr (hreg _), htime] at hbetween hresult
  rw [State.sdmOrd_congr (hreg _), State.sdmShifted_congr (hreg _)] at hresult
  rw [hreg] at hbetween
  rw [hv]
  exact ⟨by rwa [hmem, hcores] at hframe, hinput, hval, hact, hseen, hout, hbetween, hresult⟩

/-! ## Edges (R132, R577) -/

section
variable {s : State} {c : Fin 8} {n : Fin 12} {w gen : Word} (hw : s.reg (pgSdm c) (Reg.SDM_CTL n) = w) (hgen : s.reg pgEg (Reg.FIO_SEL c) = gen)
include hw hgen

theorem State.sdmEdge_idle (h : bitOf w 0 = false ∨ s.sdmClock c n = false ∨ bitOf w 1 = true ∧ bitOf gen (16 + n) = true)
    (e : Bool × BitVec 16) : s.sdmEdge c n e = s := by
  subst hw hgen
  refine if_pos ?_
  rcases h with h | h | ⟨h, h'⟩ <;> simp [*]

theorem State.sdmEdge_acts (h0 : bitOf w 0 = true) (hck : s.sdmClock c n = true) (hpin : bitOf w 1 = false ∨ bitOf gen (16 + n) = false)
    (e : Bool × BitVec 16) {d : SdmIn} (hd : s.clusters[c].sdm[n] = d) {k : Nat × Bool}
    (hk : (if bitOf w 1 then (max s.now d.edgeAt, e.1) else s.ckoNext c d.edgeAt) = k) {dly : Nat}
    (hdly : (if bitOf w 1 then 0 else bitsOf w 6 3) = dly) :
    s.sdmEdge c n e = if k.2 = bitOf w 2 then s.modSdm c n (fun d => { d with edgeAt := k.1 })
      else (s.modSdm c n (fun d => { d with edgeAt := k.1 })).sdmBit c n (k.1 + dly * 128)
        (if bitOf gen (4 + n) then d.bits.headD false else e.2.getLsbD dly) := by
  have hseen : ¬(!bitOf w 0 || !s.sdmClock c n || bitOf w 1 && bitOf gen (16 + n)) = true := by
    rcases hpin with h | h <;> simp [h0, hck, h]
  unfold State.sdmEdge
  dsimp only
  rw [hw, hgen, if_neg hseen, hd, hk, hdly]
  simp only [beq_iff_eq]

end

theorem State.sdmEdges_idle {s : State} {c : Fin 8} {n : Fin 12} (h : ∀ e, s.sdmEdge c n e = s) (l : List (Bool × BitVec 16)) :
    s.sdmEdges c n l = s := List.foldlRecOn (motive := fun u => u = s) _ _ rfl fun u hu e _ => by rw [hu, h]

/-! ## A clock that is lost or returns (R133) -/

/-- What the discarding of results writes: the result's mark, and what a new fast value does. -/
def discardWrites (n : Nat) (k : PageKind) (o : Nat) : Prop := fastWrites n k o ∨ k = .sdm ∧ o = Reg.SDM_RES n

@[simp] theorem discardWrites_sdm (n o : Nat) : discardWrites n .sdm o
    ↔ (o = Reg.SDM_FVAL n ∨ o = Reg.SDM_FASTSEEN ∨ o = Reg.PAGE_IRQ_STAT) ∨ o = Reg.SDM_RES n := by
  simp [discardWrites]

theorem State.discards_effect {s : State} (hc : s.canonical = true) (c : Fin 8) (n : Fin 12) (k : Nat) :
    let t := (s.sdmDiscard c n k).fastAgain c n
    (t.mem = s.mem ∧ t.cores = s.cores ∧ t.time = s.time) ∧ t.clusters[c].sdm[n].discard = k ∧ t.rbit (pgSdm c) (Reg.SDM_RES n) 16 = false
      ∧ (∀ o, ¬discardWrites n .sdm (o % 4096) → t.reg (pgSdm c) o = s.reg (pgSdm c) o)
      ∧ (∀ b < 32, s.rbit (pgSdm c) Reg.PAGE_IRQ_STAT b = true → t.rbit (pgSdm c) Reg.PAGE_IRQ_STAT b = true) := by
  have hres := sdmRes_mod n
  have hge := sdmRes_ge n
  obtain ⟨u, hu⟩ : ∃ u, s.modSdm c n (fun d => { d with discard := k, phase := 0 }) = u := ⟨_, rfl⟩
  obtain ⟨v, hv⟩ : ∃ v, u.setBit (pgSdm c) (Reg.SDM_RES n) 16 false = v := ⟨_, rfl⟩
  have hcu : u.canonical = true := by rw [← hu]; exact State.canonical_congr hc rfl rfl rfl
  have hcv : v.canonical = true := by rw [← hv]; exact State.canonical_setBit hcu _ _ _ _
  have hsdm : u.clusters[c].sdm[n].discard = k := by rw [← hu, State.sdm_modSdm]
  have hunits : u.mem = s.mem ∧ u.cores = s.cores ∧ u.time = s.time := by rw [← hu]; exact ⟨rfl, rfl, rfl⟩
  have hreg : ∀ o, u.reg (pgSdm c) o = s.reg (pgSdm c) o := fun o => by rw [← hu, State.reg_modSdm]
  have hset : State.InputsStay (discardWrites n) u v := by rw [← hv]; exact .setBit u (.inr ⟨rfl, hres⟩) _ _
  unfold State.sdmDiscard State.fastAgain
  dsimp only
  rw [hu, hv]
  obtain ⟨f, hf⟩ : ∃ f, v.fld (pgSdm c) (Reg.SDM_FVAL n) 15 0 = f := ⟨_, rfl⟩
  rw [hf]
  have hfast := State.InputsStay.fastSee v c n f
  have hstay := hset.trans (hfast.mono fun _ _ => .inl)
  obtain ⟨hmem, hcores, htime⟩ := hstay.units
  obtain ⟨-, -, -, hirq, -⟩ := State.fastSee_effect hcv c n f
  refine ⟨⟨hmem.trans hunits.1, hcores.trans hunits.2.1, htime.trans hunits.2.2⟩, by rw [hstay.sdm_eq, hsdm], ?_,
    fun o ho => (hstay.regs _ o ho).trans (hreg o), fun b hb h => hirq b hb ?_⟩
  · rw [State.rbit_congr (hfast.regs _ _ ?_), ← hv, State.rbit_setBit_same hcu _ _ (by decide)]
    show ¬fastWrites n .sdm _
    rw [fastWrites_sdm]
    unfold Reg.SDM_RES Reg.SDM_FVAL Reg.SDM_FASTSEEN Reg.PAGE_IRQ_STAT
    omega
  · rw [← hv, State.rbit_congr (State.reg_setBit_other _ _ _ _ _ _ _ (regKey_ne_of_off _ (by rw [hres]; unfold Reg.PAGE_IRQ_STAT; omega))),
      State.rbit_congr (hreg _)]
    exact h

/-- The loss of a clock is recorded. -/
def State.clockGone (s : State) (c : Fin 8) (n : Fin 12) : State :=
  (((s.setBit (pgSdm c) Reg.SDM_CKSTAT n false).stick (pgSdm c) Reg.SDM_CKLOST n).count (pgSdm c) Reg.SDM_CKLOST_CNT 15 0).raise (pgSdm c) 0

theorem State.clockGone_effect {s : State} (hc : s.canonical = true) (c : Fin 8) (n : Fin 12) : let t := s.clockGone c n
    State.InputsStay (fun k _ => k = .sdm) s t ∧ t.rbit (pgSdm c) Reg.SDM_CKSTAT n = false ∧ t.rbit (pgSdm c) Reg.SDM_CKLOST n = true
      ∧ t.rbit (pgSdm c) Reg.PAGE_IRQ_STAT 0 = true := by
  have hcs := State.canonical_setBit hc (pgSdm c) Reg.SDM_CKSTAT n false
  have hcl := State.canonical_stick hcs (pgSdm c) Reg.SDM_CKLOST n
  have hcc := State.canonical_count hcl (pgSdm c) Reg.SDM_CKLOST_CNT 15 0
  have hlost : ∀ o, o % 4096 ≠ Reg.PAGE_IRQ_STAT → o % 4096 ≠ Reg.SDM_CKLOST_CNT → (s.clockGone c n).reg (pgSdm c) o
      = ((s.setBit (pgSdm c) Reg.SDM_CKSTAT n false).stick (pgSdm c) Reg.SDM_CKLOST n).reg (pgSdm c) o := fun o hi hn =>
    (State.reg_raise_other _ _ (regKey_ne_of_off _ hi)).trans (State.reg_count_other _ _ _ (regKey_ne_of_off _ hn))
  refine ⟨(((State.InputsStay.setBit s rfl _ _).trans (.stick _ rfl _)).trans (.count _ rfl _ _)).trans (.stick _ rfl _), ?_, ?_,
    State.rbit_raise_same hcc _ (by decide)⟩
  · rw [State.rbit_congr (hlost _ (by decide) (by decide)), State.rbit_congr (State.reg_stick_other _ _ (regKey_ne_of_off _ (by decide))),
      State.rbit_setBit_same hc _ _ (by omega)]
  · rw [State.rbit_congr (hlost _ (by decide) (by decide)), State.rbit_stick_same hcs _ _ (by omega)]

section
variable {s : State} {c : Fin 8} {n : Fin 12}

theorem State.sdmLost_idle (h : s.rbit (pgSdm c) (Reg.SDM_CTL n) 1 = false ∨ s.rbit (pgSdm c) Reg.SDM_CKSTAT n = false) : s.sdmLost c n = s := by
  refine if_pos ?_
  rcases h with h | h <;> simp [h]

theorem State.sdmReturn_idle (h : s.rbit (pgSdm c) (Reg.SDM_CTL n) 1 = false ∨ s.rbit (pgSdm c) Reg.SDM_CKSTAT n = true
      ∨ bitOf (s.reg pgEg (Reg.FIO_SEL c)) (16 + n) = true) : s.sdmReturn c n = s := by
  refine if_pos ?_
  rcases h with h | h | h <;> simp [State.rbit, h] <;> simp_all [State.rbit]

variable (hc : s.canonical = true) (hrecv : s.rbit (pgSdm c) (Reg.SDM_CTL n) 1 = true)
include hc hrecv

theorem State.sdmLost_effect (hck : s.rbit (pgSdm c) Reg.SDM_CKSTAT n = true) : let t := s.sdmLost c n
    t.rbit (pgSdm c) Reg.SDM_CKSTAT n = false ∧ t.rbit (pgSdm c) Reg.SDM_CKLOST n = true ∧ t.rbit (pgSdm c) Reg.PAGE_IRQ_STAT 0 = true
      ∧ t.clusters[c].sdm[n].discard = s.sdmOrd c n ∧ t.rbit (pgSdm c) (Reg.SDM_RES n) 16 = false
      ∧ t.time.clk = max s.time.clk ((s.clusters[c].sdm[n].edgeAt + 25600) / 16) ∧ t.mem = s.mem ∧ t.cores = s.cores := by
  obtain ⟨v, hv, hclk, hmem, hcores, -⟩ := s.advance_units (s.clusters[c].sdm[n].edgeAt + 25600)
  have hcv : v.canonical = true := by rw [← hv]; exact State.canonical_advance hc _
  have he : s.sdmLost c n = ((v.clockGone c n).sdmDiscard c n (s.sdmOrd c n)).fastAgain c n := by
    have hus : Config.usSteps = 25600 := rfl
    unfold State.sdmLost
    dsimp only
    rw [hus, hv, if_neg (by simp [hrecv, hck])]
    rfl
  obtain ⟨hstay, hstat, hlost, hirq⟩ := State.clockGone_effect hcv c n
  obtain ⟨⟨hmem', hcores', htime'⟩, hdis, hres, hreg, hirqs⟩ := State.discards_effect (hstay.canonical hcv) c n (s.sdmOrd c n)
  obtain ⟨hmem'', hcores'', htime''⟩ := hstay.units
  dsimp only
  rw [he]
  refine ⟨?_, ?_, hirqs 0 (by decide) hirq, hdis, hres, by rw [htime', htime'', hclk], by rw [hmem', hmem'', hmem], by rw [hcores', hcores'', hcores]⟩
  · rw [State.rbit_congr (hreg _ ?_), hstat]
    rw [discardWrites_sdm]
    unfold Reg.SDM_CKSTAT Reg.SDM_RES Reg.SDM_FVAL Reg.SDM_FASTSEEN Reg.PAGE_IRQ_STAT
    omega
  · rw [State.rbit_congr (hreg _ ?_), hlost]
    rw [discardWrites_sdm]
    unfold Reg.SDM_CKLOST Reg.SDM_RES Reg.SDM_FVAL Reg.SDM_FASTSEEN Reg.PAGE_IRQ_STAT
    omega

theorem State.sdmReturn_effect (hck : s.rbit (pgSdm c) Reg.SDM_CKSTAT n = false)
    (hpin : bitOf (s.reg pgEg (Reg.FIO_SEL c)) (16 + n) = false) : let t := s.sdmReturn c n
    t.rbit (pgSdm c) Reg.SDM_CKSTAT n = true ∧ t.clusters[c].sdm[n].discard = s.sdmOrd c n ∧ t.rbit (pgSdm c) (Reg.SDM_RES n) 16 = false
      ∧ t.mem = s.mem ∧ t.cores = s.cores := by
  obtain ⟨v, hv⟩ : ∃ v, (s.setBit (pgSdm c) Reg.SDM_CKSTAT n true).modSdm c n (fun d => { d with edgeAt := s.now }) = v := ⟨_, rfl⟩
  have hcs := State.canonical_setBit hc (pgSdm c) Reg.SDM_CKSTAT n true
  have hcv : v.canonical = true := by rw [← hv]; exact State.canonical_congr hcs rfl rfl rfl
  have hstat : v.rbit (pgSdm c) Reg.SDM_CKSTAT n = true := by
    rw [← hv, State.rbit_congr (State.reg_modSdm _ _ _ _ _ _), State.rbit_setBit_same hc _ _ (by omega)]
  have hunits : v.mem = s.mem ∧ v.cores = s.cores := by rw [← hv]; exact ⟨rfl, rfl⟩
  have he : s.sdmReturn c n = (v.sdmDiscard c n (s.sdmOrd c n)).fastAgain c n := by
    have hpin' : s.rbit pgEg (Reg.FIO_SEL c) (16 + n) = false := hpin
    unfold State.sdmReturn
    dsimp only
    rw [hv, if_neg (by simp [hrecv, hck, hpin'])]
  obtain ⟨⟨hmem', hcores', -⟩, hdis, hres, hreg, -⟩ := State.discards_effect hcv c n (s.sdmOrd c n)
  dsimp only
  rw [he]
  refine ⟨?_, hdis, hres, hmem'.trans hunits.1, hcores'.trans hunits.2⟩
  rw [State.rbit_congr (hreg _ ?_), hstat]
  rw [discardWrites_sdm]
  unfold Reg.SDM_CKSTAT Reg.SDM_RES Reg.SDM_FVAL Reg.SDM_FASTSEEN Reg.PAGE_IRQ_STAT
  omega

end

/-! ## Reads of a result (R134) -/

theorem regAt_sdmRes (i : Nat) (n : Fin 12) :
    regAt .sdm i (Reg.SDM_RES n) = some ⟨Reg.SDM_RES 0, 32, 12, 0x0, [⟨15, 0, .ro⟩, ⟨16, 16, .ro⟩, ⟨17, 17, .rc⟩, ⟨18, 18, .ro⟩]⟩ := by
  fin_cases n <;> rfl

theorem arrIdx_sdmRes (n : Fin 12) : arrIdx 0x104 0x20 12 (Reg.SDM_RES n) = some n := by
  revert n; decide

theorem State.sdmRead_res (s : State) (c : Fin 8) (n : Fin 12) :
    s.sdmRead c (Reg.SDM_RES n) = (s.setBit (pgSdm c) (Reg.SDM_RES n) 17 false, s.reg (pgSdm c) (Reg.SDM_RES n) &&& 0x7FFFF) := by
  have hbus : s.busRead (pgSdm c) (Reg.SDM_RES n) = s.reg (pgSdm c) (Reg.SDM_RES n) &&& 0x7FFFF := by
    have hat : regAt (pgSdm c).kind (pgSdm c).inst (Reg.SDM_RES n) = _ := regAt_sdmRes _ n
    unfold State.busRead
    rw [hat]
    rfl
  have hne : Reg.SDM_RES n ≠ Reg.SDM_CKSTAT := by
    have := sdmRes_ge n
    unfold Reg.SDM_CKSTAT
    omega
  unfold State.sdmRead
  simp only [arrIdx_sdmRes, hbus, if_neg hne]

theorem State.rd_sdmRes {s s1 : State} {x : Access} {c : Fin 8} (h : s.Reaches x (pgSdm c) s1) (n : Fin 12) :
    s.rd x (pgSdm c) (Reg.SDM_RES n)
      = (s1.setBit (pgSdm c) (Reg.SDM_RES n) 17 false).answer ((s1.reg (pgSdm c) (Reg.SDM_RES n) &&& 0x7FFFF).setWidth 64) := by
  refine State.blockRead_reaches h (by simp [pgSdm]) (by unfold Reg.SDM_RES; omega) ((sdmRes_ge n).trans' (by decide)) ?_
  show s1.sdmRead (clu c) (Reg.SDM_RES n) = _
  rw [clu_val]
  exact s1.sdmRead_res c n

end Sys2Proof.Machine
end

section
/-! THE SETTLEMENT of the statement on sigma-delta inputs. -/

namespace Sys2Proof.Machine

theorem exec_sdmResult (c : Fin 8) (n : Fin 12) (l : List (Bool × BitVec 16)) (s : State) : exec (.sdmResult c n l) s = .next (s.sdmEdges c n l) := rfl
theorem exec_fastAct (c : Fin 8) (n : Fin 12) (l : List (Bool × BitVec 16)) (s : State) : exec (.fastAct c n l) s = .next (s.sdmEdges c n l) := rfl
theorem exec_fastWindowInactive (c : Fin 8) (n : Fin 12) (l : List (Bool × BitVec 16)) (s : State) :
    exec (.fastWindowInactive c n l) s = .next (s.sdmEdges c n l) := rfl
theorem exec_sdmClockLost (c : Fin 8) (n : Fin 12) (s : State) : exec (.sdmClockLost c n) s = .next (s.sdmLost c n) := rfl
theorem exec_sdmClockReturn (c : Fin 8) (n : Fin 12) (s : State) : exec (.sdmClockReturn c n) s = .next (s.sdmReturn c n) := rfl
theorem exec_sdmResRead (x : Access) (c : Fin 8) (n : Fin 12) (s : State) : exec (.sdmResRead x c n) s = .next (s.rd x (pgSdm c) (Reg.SDM_RES n)) := rfl

/-- Settles O42: an edge that none samples or records only its instant, then one that samples, whose result is due or not; a clock that is
lost or returns where it can; a read. -/
theorem sigmaDelta : Obligations.SigmaDelta := by
  intro x c n s s1 e l hc
  simp only [exec_sdmResult, exec_fastAct, exec_fastWindowInactive, exec_sdmClockLost, exec_sdmClockReturn, exec_sdmResRead, Host.Outcome.next.injEq]
  refine ⟨⟨trivial, trivial⟩, rfl, ⟨_, rfl, rfl⟩, fun h => State.sdmEdges_idle (State.sdmEdge_idle rfl rfl h) l, fun h0 hck hpin => ?_,
    State.sdmLost_idle, State.sdmReturn_idle, fun hrecv hck => ⟨_, rfl, State.sdmLost_effect hc hrecv hck⟩,
    fun hrecv hck hpin => ⟨_, rfl, State.sdmReturn_effect hc hrecv hck hpin⟩, fun h => State.rd_sdmRes h n⟩
  have hone : s.sdmEdges c n [e] = s.sdmEdge c n e := rfl
  rw [hone, State.sdmEdge_acts rfl rfl h0 hck hpin e rfl rfl rfl]
  refine ⟨fun hk => if_pos hk, fun hk => ?_⟩
  rw [if_neg hk]
  obtain ⟨⟨hmem, hcores⟩, ⟨hbits, hedge⟩, hval, hact, hseen, hout, hbetween, hresult⟩ := State.sdmBit_edgeAt hc _ _ rfl
  refine ⟨_, rfl, hmem, hcores, hbits, hedge, hval, hact, hseen, hout, hbetween, fun hphase => ?_⟩
  obtain ⟨hphase', hdis, hclk, hres, hsat⟩ := hresult hphase
  refine ⟨hphase', hdis, hclk, fun hl hh => hres.trans (resWord_inRange hl hh _), fun h => ⟨?_, hsat (resSat_above h)⟩,
    fun h => ⟨?_, (hsat (resSat_below h)).1⟩⟩
  · rw [hres]
    exact resWord_above h _
  · rw [hres]
    exact resWord_below h _

end Sys2Proof.Machine
end

section
/-! SUPPORT. What the followers of a live output leave of the clusters and of the other units (R103, R156, R172, R311). -/

namespace Sys2Proof.Machine

/-- From `s` to `t` the followers of a live output have acted: of the clusters, the generators and the feedback groups alone. -/
structure State.FollowersAct (s t : State) : Prop where
  units : ∃ cl r h n i w, t = { s with clusters := cl, regs := r, hot := h, free := n, irq := i, power := w }
  clusters : ∀ d : Fin 8, ∃ p f, t.clusters[d] = { s.clusters[d] with pwm := p, fb := f }

theorem State.FollowersAct.refl (s : State) : s.FollowersAct s := ⟨⟨s.clusters, s.regs, s.hot, s.free, s.irq, s.power, rfl⟩, fun _ => ⟨_, _, rfl⟩⟩

theorem State.FollowersAct.trans {s t u : State} (h : s.FollowersAct t) (h' : t.FollowersAct u) : s.FollowersAct u := by
  obtain ⟨⟨cl, r, b, n, i, w, ht⟩, hcl⟩ := h
  obtain ⟨⟨cl', r', b', n', i', w', hu⟩, hcl'⟩ := h'
  refine ⟨⟨cl', r', b', n', i', w', by rw [hu, ht]⟩, fun d => ?_⟩
  obtain ⟨p, f, hd⟩ := hcl d
  obtain ⟨p', f', hd'⟩ := hcl' d
  exact ⟨p', f', by rw [hd', hd]⟩

/-- DMA channels, comparators, their pins and the readback unit stay. -/
theorem State.FollowersAct.frame {s t : State} (h : s.FollowersAct t) (d : Fin 8) :
    t.dma = s.dma ∧ t.clusters[d].ain = s.clusters[d].ain ∧ t.clusters[d].cmp = s.clusters[d].cmp ∧ t.clusters[d].rb = s.clusters[d].rb := by
  obtain ⟨⟨_, _, _, _, _, _, ht⟩, hcl⟩ := h
  obtain ⟨_, _, hd⟩ := hcl d
  rw [hd]
  exact ⟨by rw [ht], rfl, rfl, rfl⟩

theorem State.FollowersAct.ite {s t u : State} {p : Prop} [Decidable p] (ht : s.FollowersAct t) (hu : s.FollowersAct u) :
    s.FollowersAct (if p then t else u) := by
  split
  · exact ht
  · exact hu

theorem State.FollowersAct.foldl {α : Type} {f : State → α → State} (hf : ∀ (s : State) (a : α), s.FollowersAct (f s a)) (l : List α) (s : State) :
    s.FollowersAct (l.foldl f s) := foldl_keeps (P := s.FollowersAct) f l s (.refl s) fun t a ht => ht.trans (hf t a)

theorem State.FollowersAct.ofRegs {s t : State} (h : ∃ r b, t = { s with regs := r, hot := b }) : s.FollowersAct t := by
  obtain ⟨r, b, rfl⟩ := h
  exact ⟨⟨s.clusters, r, b, s.free, s.irq, s.power, rfl⟩, fun _ => ⟨_, _, rfl⟩⟩

theorem State.FollowersAct.modC (s : State) (c : Fin 8) {g : Cluster → Cluster} (hg : ∀ cl, ∃ p f, g cl = { cl with pwm := p, fb := f }) :
    s.FollowersAct (s.modC c g) := by
  refine ⟨⟨_, s.regs, s.hot, s.free, s.irq, s.power, rfl⟩, fun d => ?_⟩
  by_cases hd : d = c
  · subst hd; rw [State.modC_clusters_get]; exact hg _
  · rw [State.modC_clusters_get_other s hd]; exact ⟨_, _, rfl⟩

section
variable (s : State) (c : Fin 8) (k : Fin 18) (t i : Nat)

theorem State.FollowersAct.stick (p : PageId) (off b : Nat) : s.FollowersAct (s.stick p off b) := .ofRegs ⟨_, _, rfl⟩

theorem State.FollowersAct.setReg (p : PageId) (off : Nat) (v : Word) : s.FollowersAct (s.setReg p off v) := .ofRegs ⟨_, s.hot, rfl⟩

theorem State.FollowersAct.count (p : PageId) (off hi lo : Nat) : s.FollowersAct (s.count p off hi lo) := .ofRegs (s.count_frame p off hi lo)

/-! ## The generators -/

theorem State.FollowersAct.modPwm (f : Pwm → Pwm) : s.FollowersAct (s.modPwm c f) := .modC s c fun _ => ⟨_, _, rfl⟩

theorem State.FollowersAct.blankEdge (isH : Bool) : s.FollowersAct (s.blankEdge c k isH t) :=
  .foldl (fun u _ => .ite (.modPwm u c _) (.refl u)) _ s

theorem State.FollowersAct.setOut (h l : Bool) : s.FollowersAct (s.setOut c k h l t) := by
  have h1 := State.FollowersAct.modPwm s c fun p => { p with ch := p.ch.set k { p.ch[k] with outH := h, outL := l } }
  have h2 := State.FollowersAct.ite (p := ((s.ch c k).outH == h) = true) h1 (h1.trans (.blankEdge _ c k t true))
  exact .ite h2 (h2.trans (.blankEdge _ c k t false))

theorem State.FollowersAct.turnOn (isH : Bool) (dt : Nat) : s.FollowersAct (s.turnOn c k isH dt t) :=
  .ite (.setOut s c k t isH (!isH)) (.modPwm s c _)

theorem State.FollowersAct.bothOff : s.FollowersAct (s.bothOff c k t) := (State.FollowersAct.modPwm s c _).trans (.setOut _ c k t false false)

theorem State.FollowersAct.forceOut (enc : Nat) : s.FollowersAct (s.forceOut c k enc t) := by
  have hoff := State.FollowersAct.bothOff s c k t
  exact .ite (hoff.trans (.turnOn _ c k t true _)) (.ite (hoff.trans (.turnOn _ c k t false _)) hoff)

theorem State.FollowersAct.settle : s.FollowersAct (s.settle c k t) := by
  refine .ite ?_ (.refl s)
  have h1 : ∀ m, s.FollowersAct (s.modCh c k fun x => { x with mode := m }) := fun m => .modPwm s c _
  cases s.wantMode c k with
  | stopped => exact (h1 _).trans (.bothOff _ c k t)
  | tripped => exact (h1 _).trans (.forceOut _ c k t _)
  | safe => exact (h1 _).trans (.forceOut _ c k t _)
  | running =>
    have h2 := (h1 .running).trans (.bothOff _ c k t)
    exact .ite (h2.trans (.turnOn _ c k t true _)) (h2.trans (.turnOn _ c k t false _))

theorem State.FollowersAct.tripCh : s.FollowersAct (s.tripCh c k i t) := by
  have hevent : ∀ (u : State) (b : Bool) (e : Nat), u.FollowersAct (u.raiseIf b (pgPwg1 c) e) := fun u b e => .ofRegs (u.raiseIf_frame b _ e)
  rcases Nat.lt_or_ge (s.tripMode c k i) 2 with h | h
  · rcases Nat.eq_zero_or_pos (s.tripMode c k i) with h0 | h1
    · rw [State.tripCh_ignored h0]; exact .refl s
    · rw [State.tripCh_cbc (by omega)]
      exact ((State.FollowersAct.modPwm s c _).trans (hevent _ _ _)).trans (.settle _ c k t)
  · rw [State.tripCh_latched h]
    exact ((((State.FollowersAct.modPwm s c _).trans (.setReg _ _ _ _)).trans (hevent _ _ _)).trans (hevent _ _ _)).trans (.settle _ c k t)

theorem State.FollowersAct.tripSee : s.FollowersAct (s.tripSee c t i) := by
  have hshown : s.FollowersAct (s.setBit (pgPwg1 c) Reg.PWG_TRIP_SRC i (s.tripLive c i)) := .setReg s _ _ _
  have hblanked : ∀ u : State, u.FollowersAct (u.blankCount c i t) :=
    .foldl (fun u _ => .ite ((State.FollowersAct.count u _ _ _ _).trans (.stick _ _ _ _)) (.refl u)) _
  have htaken : ∀ u : State, u.FollowersAct (u.tripTake c i t) := .foldl (fun u j => .tripCh u c j t i) _
  exact .ite (.refl s) (.ite hshown (.ite (hshown.trans (hblanked _)) ((hshown.trans (.stick _ _ _ i)).trans (htaken _))))

theorem State.FollowersAct.tripSeeAll : s.FollowersAct (s.tripSeeAll c) := .foldl (fun u j => .tripSee u c u.now j) _ s

/-! ## The capture units and the interrupt units -/

theorem State.FollowersAct.capture (u : Fin 6) (rise : Bool) : s.FollowersAct (s.capture c u rise) := by
  have hdraw : s.FollowersAct s.draw := ⟨⟨s.clusters, s.regs, s.hot, s.free + 1, s.irq, s.power, rfl⟩, fun _ => ⟨_, _, rfl⟩⟩
  have hfb : ∀ (v : State) g, v.FollowersAct (v.modFb c u g) := fun v g => .modC v c fun _ => ⟨_, _, rfl⟩
  have hdrawn := State.FollowersAct.ite (p := bitsOf (s.reg (pgCap c) (Reg.CAP_CTL u)) 5 1 < 18) hdraw (.refl s)
  exact .ite (.refl s) (.ite ((State.FollowersAct.count s _ _ _ _).trans (.stick _ _ _ 1)) ((hdrawn.trans (hfb _ _)).trans (.stick _ _ _ 0)))

theorem State.FollowersAct.captureFrom (src : Nat) (rise : Bool) : s.FollowersAct (s.captureFrom c src rise) :=
  .foldl (fun u x => .ite (.capture u c x rise) (.refl u)) _ s

theorem State.FollowersAct.srcPulse (x : IrqCtl) (n : Nat) : s.FollowersAct (s.srcPulse x n) := by
  have hset : ∀ i, s.FollowersAct (s.setSrc x n i i 1) := fun i => .setReg s _ _ _
  have hpend : s.FollowersAct (s.srcPend x n) :=
    .ite (hset 16) ((hset 16).trans ⟨⟨_, _, _, _, _, _, rfl⟩, fun _ => ⟨_, _, rfl⟩⟩)
  have hwake : ∀ u : State, u.FollowersAct (u.irqWake x n) := fun u =>
    (State.FollowersAct.stick u _ _ 2).trans ⟨⟨_, _, _, _, _, _, rfl⟩, fun _ => ⟨_, _, rfl⟩⟩
  exact .ite (.refl s) (.ite (.refl s) (.ite hpend (.ite ((hset 18).trans (hwake _)) (hset 18))))

/-- A live output that changes reaches its followers alone. -/
theorem State.FollowersAct.outSee (m : Fin 12) : s.FollowersAct (s.outSee c m) := by
  have hbit : s.FollowersAct (s.setBit (pgCmp c) Reg.CMP_OUT m (s.liveOut c m)) := .setReg s _ _ _
  have hcount := State.FollowersAct.ite (p := (s.liveOut c m && s.domOn (67 + 5 * c.val)) = true) (hbit.trans (.count _ (pgCmp c) (Reg.CMP_XCNT m) 15 0)) hbit
  have hseen := (hcount.trans (.tripSeeAll _ c)).trans (.captureFrom _ c (18 + m.val) (s.liveOut c m))
  exact .ite (.refl s) (.ite hseen (hseen.trans (.srcPulse _ _ _)))

end

end Sys2Proof.Machine
end

section
/-! SUPPORT. The comparators: what they decide by, and how they follow it (R149 to R153, R155). -/

namespace Sys2Proof.Machine

/-! ## One comparator -/

section
variable (s : State) (c : Fin 8) (m : Fin 12) (f : CmpUnit → CmpUnit)

@[simp] theorem State.cmpU_modCmp : (s.modCmp c m f).cmpU c m = f (s.cmpU c m) := by
  unfold State.cmpU State.modCmp
  rw [State.modC_clusters_get]
  simp

theorem State.cmpU_modCmp_other {k : Fin 12} (h : k ≠ m) : (s.modCmp c m f).cmpU c k = s.cmpU c k := by
  have hne : m.val ≠ k.val := fun he => h (Fin.ext he.symm)
  unfold State.cmpU State.modCmp
  rw [State.modC_clusters_get]
  simp [hne]

theorem State.ain_modCmp : (s.modCmp c m f).clusters[c].ain = s.clusters[c].ain := by
  unfold State.modCmp
  rw [State.modC_clusters_get]

@[simp] theorem State.reg_modCmp (q : PageId) (o : Nat) : (s.modCmp c m f).reg q o = s.reg q o := rfl

end

theorem State.cmpU_congr {s t : State} {c : Fin 8} (h : t.clusters[c].cmp = s.clusters[c].cmp) (m : Fin 12) : t.cmpU c m = s.cmpU c m :=
  congrArg (fun v : Vector CmpUnit 12 => v[m]) h

/-! ## What comparators decide by (R149 to R151) -/

/-- The registers that a comparator decides by: its own settings, the fast windows of the inputs, the states of the power domains. -/
def cmpSettings (k : PageKind) (o : Nat) : Prop := k = .pwr ∨ k = .sdm ∨ k = .cmp ∧ 0x100 ≤ o ∧ o % 0x20 < 0x10

theorem cmpSettings_own (m : Fin 12) : cmpSettings .cmp (Reg.CMP_CTL m % 4096)
    ∧ cmpSettings .cmp (Reg.CMP_THR_ACT m % 4096) ∧ cmpSettings .cmp (Reg.CMP_ST m % 4096) := by
  unfold Reg.CMP_CTL Reg.CMP_THR_ACT Reg.CMP_ST
  refine ⟨?_, ?_, ?_⟩ <;> exact .inr (.inr ⟨rfl, by omega, by omega⟩)

/-- What the comparators of a cluster decide by is in `t` as in `s`, but for their states. -/
structure State.CmpAlike (c : Fin 8) (s t : State) : Prop where
  pins : t.clusters[c].ain = s.clusters[c].ain
  errs : ∀ k, (t.cmpU c k).err = (s.cmpU c k).err ∧ (t.cmpU c k).from_ = (s.cmpU c k).from_
  regs : ∀ (q : PageId) o, cmpSettings q.kind (o % 4096) → t.reg q o = s.reg q o

section
variable {c : Fin 8} {s t : State}

theorem State.CmpAlike.trans {u : State} (h : State.CmpAlike c s t) (h' : State.CmpAlike c t u) : State.CmpAlike c s u :=
  ⟨h'.pins.trans h.pins, fun k => ⟨(h'.errs k).1.trans (h.errs k).1, (h'.errs k).2.trans (h.errs k).2⟩,
    fun q o ho => (h'.regs q o ho).trans (h.regs q o ho)⟩

variable (h : State.CmpAlike c s t) (k : Fin 12)
include h

theorem State.CmpAlike.ctl : t.reg (pgCmp c) (Reg.CMP_CTL k) = s.reg (pgCmp c) (Reg.CMP_CTL k) := h.regs _ _ (cmpSettings_own k).1

theorem State.CmpAlike.view : t.cmpView c k = s.cmpView c k := by
  obtain ⟨-, hact, hst⟩ := cmpSettings_own k
  have hspan : ∀ low, t.dacSpan c k low = s.dacSpan c k low := fun low => by
    have hfrom : t.clusters[c].cmp[k].from_ = s.clusters[c].cmp[k].from_ := (h.errs k).2
    unfold State.dacSpan
    rw [State.rbit_congr (h.regs (pgCmp c) _ hst), h.regs (pgCmp c) _ hact, hfrom]
  unfold State.cmpView State.thrAt State.hystAt
  simp only [State.fld, hspan, h.ctl, h.regs (pgCmp c) _ hact, h.pins, (h.errs k).1]

theorem State.CmpAlike.domOn (d : Nat) : t.domOn d = s.domOn d := by
  unfold State.domOn State.fld
  rw [h.regs pgPwr _ (.inl rfl)]

/-- With its states, it decides its live output. -/
theorem State.CmpAlike.liveOut (hu : t.cmpU c k = s.cmpU c k) : t.liveOut c k = s.liveOut c k := by
  have hsdm := fun o => h.regs (pgSdm c) o (.inr (.inl rfl))
  unfold State.liveOut State.awin State.rbit State.fld
  simp only [hu, h.domOn, h.ctl, hsdm]

/-- A comparator that has followed its input has still done so where all of it is alike, and its states and their bits stay. -/
theorem State.CmpAlike.follows {r : State} (hf : r.Follows s c k) (hu : t.cmpU c k = s.cmpU c k)
    (hbits : ∀ o ∈ [Reg.CMP_OUT, Reg.CMP_STARTMID], ∀ i : Nat, i % 16 = k.val → t.rbit (pgCmp c) o i = s.rbit (pgCmp c) o i) : r.Follows t c k := by
  obtain ⟨hh, hl, hout, hmid, hmid'⟩ := hf
  rw [← h.view] at hh hl hmid hmid'
  refine ⟨hu ▸ hh, hu ▸ hl, ?_, ?_, ?_⟩
  · rw [hbits Reg.CMP_OUT (by simp) k (by omega), hout, h.liveOut k hu]
  · rw [hbits Reg.CMP_STARTMID (by simp) k (by omega), hmid]
  · rw [hbits Reg.CMP_STARTMID (by simp) (16 + k) (by omega), hmid']

end

/-! ## Comparators that follow (R150, R151, R153) -/

/-- What comparators write as they follow: their states' registers, their events and their counters, and the pages of their followers. -/
def followWrites (k : PageKind) (o : Nat) : Prop :=
  followerPage k o ∨ k = .cmp ∧ (o = Reg.PAGE_IRQ_STAT ∨ o = Reg.CMP_OUT ∨ o = Reg.CMP_STARTMID ∨ ∃ m : Fin 12, o = Reg.CMP_XCNT m)

theorem not_followWrites_of_settings {k : PageKind} {o : Nat} (h : cmpSettings k o) : ¬followWrites k o := by
  rintro (hf | ⟨hk, ho⟩)
  · rcases h with rfl | rfl | ⟨rfl, -⟩ <;> simp [followerPage] at hf
  · subst hk
    simp only [cmpSettings, Reg.PAGE_IRQ_STAT, Reg.CMP_OUT, Reg.CMP_STARTMID, Reg.CMP_XCNT] at h ho
    rcases h with h | h | ⟨-, hlo, hmod⟩
    · cases h
    · cases h
    · obtain ho | ho | ho | ⟨m, ho⟩ := ho <;> omega

/-- From `s` to `t` comparators of a cluster have followed their inputs, others than those of `K`. -/
structure State.CmpActs (c : Fin 8) (K : Fin 12 → Prop) (s t : State) : Prop where
  units : t.mem = s.mem ∧ t.cores = s.cores ∧ t.dma = s.dma
  canonical : s.canonical = true → t.canonical = true
  pins : t.clusters[c].ain = s.clusters[c].ain
  errs : ∀ k, (t.cmpU c k).err = (s.cmpU c k).err ∧ (t.cmpU c k).from_ = (s.cmpU c k).from_
  regs : ∀ (q : PageId) o, ¬followWrites q.kind (o % 4096) → t.reg q o = s.reg q o
  unit : ∀ k, K k → t.cmpU c k = s.cmpU c k
  bits : s.canonical = true → ∀ k, K k → ∀ o ∈ [Reg.CMP_OUT, Reg.CMP_STARTMID], ∀ i : Nat, i % 16 = k.val →
    t.rbit (pgCmp c) o i = s.rbit (pgCmp c) o i

section
variable {c : Fin 8} {K : Fin 12 → Prop}

theorem State.CmpActs.refl (s : State) : State.CmpActs c K s s :=
  ⟨⟨rfl, rfl, rfl⟩, id, rfl, fun _ => ⟨rfl, rfl⟩, fun _ _ _ => rfl, fun _ _ => rfl, fun _ _ _ _ _ _ _ => rfl⟩

theorem State.CmpActs.trans {s t u : State} (h : State.CmpActs c K s t) (h' : State.CmpActs c K t u) : State.CmpActs c K s u := by
  obtain ⟨⟨hmem, hcores, hdma⟩, hcan, hpin, herr, hreg, hunit, hbits⟩ := h
  obtain ⟨⟨hmem', hcores', hdma'⟩, hcan', hpin', herr', hreg', hunit', hbits'⟩ := h'
  exact ⟨⟨hmem'.trans hmem, hcores'.trans hcores, hdma'.trans hdma⟩, fun hc => hcan' (hcan hc), hpin'.trans hpin,
    fun k => ⟨(herr' k).1.trans (herr k).1, (herr' k).2.trans (herr k).2⟩, fun q o ho => (hreg' q o ho).trans (hreg q o ho),
    fun k hk => (hunit' k hk).trans (hunit k hk), fun hc k hk o ho i hi => (hbits' (hcan hc) k hk o ho i hi).trans (hbits hc k hk o ho i hi)⟩

theorem State.CmpActs.alike {s t : State} (h : State.CmpActs c K s t) : State.CmpAlike c s t :=
  ⟨h.pins, h.errs, fun q o ho => h.regs q o (not_followWrites_of_settings ho)⟩

theorem State.CmpActs.ite {s t u : State} {p : Prop} [Decidable p] (ht : State.CmpActs c K s t) (hu : State.CmpActs c K s u) :
    State.CmpActs c K s (if p then t else u) := by
  split
  · exact ht
  · exact hu

theorem State.CmpActs.modCmp (s : State) {m : Fin 12} (hm : ¬K m) {f : CmpUnit → CmpUnit} (hf : ∀ u, (f u).err = u.err ∧ (f u).from_ = u.from_) :
    State.CmpActs c K s (s.modCmp c m f) := by
  refine ⟨⟨rfl, rfl, rfl⟩, id, s.ain_modCmp c m f, fun k => ?_, fun _ _ _ => rfl, fun k hk => ?_, fun _ _ _ _ _ _ _ => rfl⟩
  · by_cases h : k = m
    · subst h; rw [State.cmpU_modCmp]; exact hf _
    · rw [State.cmpU_modCmp_other s c m f h]; exact ⟨rfl, rfl⟩
  · exact State.cmpU_modCmp_other s c m f fun he => hm (he ▸ hk)

/-- A bit of a comparator changes. -/
theorem State.CmpActs.setBit (s : State) {off i : Nat} (hoff : off ∈ [Reg.CMP_OUT, Reg.CMP_STARTMID]) (hi : ∀ k, K k → i % 16 ≠ k.val) (b : Bool) :
    State.CmpActs c K s (s.setBit (pgCmp c) off i b) := by
  have hsmall : off = Reg.CMP_OUT ∨ off = Reg.CMP_STARTMID := by simpa using hoff
  have hmod : off % 4096 = off := by rcases hsmall with rfl | rfl <;> rfl
  refine ⟨⟨rfl, rfl, rfl⟩, fun hc => State.canonical_setBit hc _ _ _ _, rfl, fun _ => ⟨rfl, rfl⟩, fun q o ho => ?_, fun _ _ => rfl,
    fun hc k hk o ho j hj => ?_⟩
  · refine State.reg_setBit_other s _ q off o i b (regKey_ne_of_offset fun hk he => ho (.inr ⟨hk, ?_⟩))
    rw [he, hmod]
    rcases hsmall with h | h
    · exact .inr (.inl h)
    · exact .inr (.inr (.inl h))
  · have hne : j ≠ i := fun he => hi k hk (he ▸ hj)
    by_cases he : o = off
    · subst he; exact State.rbit_setBit_ne hc _ _ hne b
    · have ho' : o = Reg.CMP_OUT ∨ o = Reg.CMP_STARTMID := by simpa using ho
      refine State.rbit_congr (State.reg_setBit_other s _ _ _ _ _ _ (regKey_ne_of_off _ ?_)) j
      rw [hmod]
      rcases ho' with rfl | rfl <;> exact he

theorem State.CmpActs.raise (s : State) (b : Nat) : State.CmpActs c K s (s.raise (pgCmp c) b) := by
  refine ⟨⟨rfl, rfl, rfl⟩, fun hc => State.canonical_raise hc _ _, rfl, fun _ => ⟨rfl, rfl⟩, fun q o ho =>
    State.reg_raise_other s b (regKey_ne_of_offset fun hk he => ho (.inr ⟨hk, .inl he⟩)), fun _ _ => rfl, fun _ k _ o ho i _ => ?_⟩
  refine State.rbit_congr (State.reg_raise_other s b (regKey_ne_of_off _ ?_)) i
  have ho' : o = Reg.CMP_OUT ∨ o = Reg.CMP_STARTMID := by simpa using ho
  rcases ho' with rfl | rfl <;> decide

theorem State.CmpActs.outSee (s : State) {m : Fin 12} (hm : ¬K m) : State.CmpActs c K s (s.outSee c m) := by
  have hstay := State.InputsStay.outSee s c m
  obtain ⟨hdma, hain, hcmp, -⟩ := (State.FollowersAct.outSee s c m).frame c
  obtain ⟨hmem, hcores, -⟩ := hstay.units
  have hunit := State.cmpU_congr hcmp
  refine ⟨⟨hmem, hcores, hdma⟩, hstay.canonical, hain, fun k => by rw [hunit]; exact ⟨rfl, rfl⟩, fun q o ho => hstay.regs q o fun hw => ho ?_,
    fun k _ => hunit k, fun hc k hk o ho i hi => ?_⟩
  · refine hw.imp_right fun ⟨hq, hl⟩ => ⟨hq, .inr ?_⟩
    rcases hl with hl | hl
    · exact .inl hl
    · exact .inr (.inr ⟨m, hl⟩)
  · have hne : i ≠ m := fun he => by
      have hkm : k.val = m.val := by omega
      exact hm (Fin.ext hkm ▸ hk)
    have ho' : o = Reg.CMP_OUT ∨ o = Reg.CMP_STARTMID := by simpa using ho
    rcases s.outSee_cases c m with ⟨he, -⟩ | ⟨u, hu, hkept⟩
    · rw [he]
    · have hkm : k.val ≠ m.val := fun he => hm (Fin.ext he ▸ hk)
      have hset := State.CmpActs.setBit (c := c) (K := (· = k)) (i := m) s (off := Reg.CMP_OUT) (by simp)
        (fun j hj => by subst hj; omega) (s.liveOut c m)
      rw [hu] at hset
      refine (State.rbit_congr (hkept.regs _ _ ?_) i).trans (hset.bits hc k rfl o ho i hi)
      rcases ho' with rfl | rfl <;> simp [followerPage, pgCmp, Reg.CMP_OUT, Reg.CMP_STARTMID, Reg.CMP_XCNT] <;> omega

end

section
variable (s : State) (c : Fin 8) (m : Fin 12)

theorem State.canonical_outSee {s : State} (hc : s.canonical = true) (c : Fin 8) (m : Fin 12) : (s.outSee c m).canonical = true :=
  (State.InputsStay.outSee s c m).canonical hc

theorem State.cmpU_outSee (k : Fin 12) : (s.outSee c m).cmpU c k = s.cmpU c k := State.cmpU_congr ((State.FollowersAct.outSee s c m).frame c).2.2.1 k

/-- Of the registers of the comparators, an output that changes leaves all but its own and its counter. -/
theorem State.reg_outSee {o : Nat} (ho : o < 0x100) (hne : o ≠ Reg.CMP_OUT) : (s.outSee c m).reg (pgCmp c) o = s.reg (pgCmp c) o :=
  (State.InputsStay.outSee s c m).regs _ _ fun hw => by
    rw [Nat.mod_eq_of_lt (by omega)] at hw
    rcases hw with hf | ⟨-, ho' | ho'⟩
    · simp [followerPage, pgCmp] at hf
    · exact hne ho'
    · unfold Reg.CMP_XCNT at ho'; omega

end

/-- The states of a comparator that sees `x`. -/
def CmpUnit.follow (u : CmpUnit) (x : CmpView) : CmpUnit := { u with sth := x.high u.sth, stl := x.low u.stl }

/-- A midpoint decision, of the high or the low state, lasts while the input is in its band. -/
def State.midLasts (s : State) (c : Fin 8) (i : Nat) (inBand : Bool) : State := if inBand then s else s.setBit (pgCmp c) Reg.CMP_STARTMID i false

section
variable {s : State} (hc : s.canonical = true) (c : Fin 8) (i : Nat) (b : Bool)
include hc

theorem State.rbit_midLasts {j : Nat} (hi : i < 32) : (s.midLasts c i b).rbit (pgCmp c) Reg.CMP_STARTMID j
    = (s.rbit (pgCmp c) Reg.CMP_STARTMID j && (b || decide (j ≠ i))) := by
  unfold State.midLasts
  cases b with
  | true => simp
  | false =>
    by_cases hj : j = i
    · subst hj; simp [State.rbit_setBit_same hc _ _ hi]
    · simp [State.rbit_setBit_ne hc _ _ hj, hj]

end

section
variable {s : State} {c : Fin 8} {m : Fin 12}

theorem State.cmpFollow_idle (h : (s.cmpU c m).ready = false) : s.cmpFollow c m = s := if_pos (by simp [h])

theorem State.cmpFollow_ready (h : (s.cmpU c m).ready = true) : s.cmpFollow c m
    = (((s.modCmp c m (·.follow (s.cmpView c m))).midLasts c m (s.cmpView c m).inHigh).midLasts c (16 + m) (s.cmpView c m).inLow).outSee c m :=
  if_neg (by simp [h])

theorem State.CmpActs.midLasts {K : Fin 12 → Prop} (s : State) {i : Nat} (hi : ∀ k, K k → i % 16 ≠ k.val) (b : Bool) :
    State.CmpActs c K s (s.midLasts c i b) := .ite (.refl s) (.setBit s (by simp) hi false)

theorem State.CmpActs.cmpFollow {K : Fin 12 → Prop} (s : State) (hm : ¬K m) : State.CmpActs c K s (s.cmpFollow c m) := by
  have hne : ∀ k, K k → m.val ≠ k.val := fun k hk he => hm (Fin.ext he ▸ hk)
  cases h : (s.cmpU c m).ready with
  | false => rw [State.cmpFollow_idle h]; exact .refl s
  | true =>
    rw [State.cmpFollow_ready h]
    have hunit : State.CmpActs c K s (s.modCmp c m (·.follow (s.cmpView c m))) := .modCmp s hm fun _ => ⟨rfl, rfl⟩
    have hmid : ∀ (u : State) i, i % 16 = m.val → ∀ b, State.CmpActs c K u (u.midLasts c i b) := fun u i hi b =>
      .midLasts u (fun k hk => hi ▸ hne k hk) b
    exact ((hunit.trans (hmid _ _ (by omega) _)).trans (hmid _ _ (by omega) _)).trans (.outSee _ hm)

/-- A ready comparator follows its input. -/
theorem State.follows_cmpFollow (hc : s.canonical = true) (h : (s.cmpU c m).ready = true) : s.Follows (s.cmpFollow c m) c m := by
  have hview := (State.CmpActs.cmpFollow (c := c) (m := m) (K := fun _ => False) s id).alike.view m
  rw [State.cmpFollow_ready h] at hview ⊢
  generalize s.cmpView c m = x at hview ⊢
  have hu : State.CmpActs c (fun _ => False) s (s.modCmp c m (·.follow x)) := .modCmp s id fun _ => ⟨rfl, rfl⟩
  have hv := State.CmpActs.midLasts (c := c) (K := fun _ => False) (i := m) (s.modCmp c m (·.follow x)) (fun _ => False.elim) x.inHigh
  have hcv := hv.canonical (hu.canonical hc)
  have hw := State.CmpActs.midLasts (c := c) (K := fun _ => False) (i := 16 + m) ((s.modCmp c m (·.follow x)).midLasts c m x.inHigh)
    (fun _ => False.elim) x.inLow
  have hunit : ∀ (u : State) i b, (u.midLasts c i b).cmpU c m = u.cmpU c m := fun u i b => by unfold State.midLasts; split <;> rfl
  have hown : ((((s.modCmp c m (·.follow x)).midLasts c m x.inHigh).midLasts c (16 + m) x.inLow).outSee c m).cmpU c m = (s.cmpU c m).follow x := by
    rw [State.cmpU_outSee, hunit, hunit, State.cmpU_modCmp]
  have hmid : ∀ u : State, (u.outSee c m).reg (pgCmp c) Reg.CMP_STARTMID = u.reg (pgCmp c) Reg.CMP_STARTMID := fun u =>
    u.reg_outSee c m (by decide) (by decide)
  refine ⟨?_, ?_, State.out_outSee (hw.canonical hcv) c m, ?_, ?_⟩
  · rw [hview, hown]; rfl
  · rw [hview, hown]; rfl
  · rw [hview, State.rbit_congr (hmid _), State.rbit_midLasts hcv _ _ _ (by omega), State.rbit_midLasts (hu.canonical hc) _ _ _ (by omega)]
    simp [CmpView.inHigh, State.rbit]
  · rw [hview, State.rbit_congr (hmid _), State.rbit_midLasts hcv _ _ _ (by omega), State.rbit_midLasts (hu.canonical hc) _ _ _ (by omega)]
    simp [CmpView.inLow, State.rbit]

end

end Sys2Proof.Machine
end

section
/-! SUPPORT. The latches of the comparators, and a level that comparators follow together (R149, R152). -/

namespace Sys2Proof.Machine

/-! ## Latches (R152) -/

/-- What the latches write on the page of their comparators: themselves, and the event. -/
def latchWrites : List Nat := [Reg.CMP_LATH, Reg.CMP_LATL, Reg.PAGE_IRQ_STAT]

theorem latchWrites_mod {o : Nat} (h : o ∈ latchWrites) : o % 4096 = o := by
  simp only [latchWrites, List.mem_cons, List.not_mem_nil, or_false] at h
  rcases h with rfl | rfl | rfl <;> rfl

theorem not_latchWrites_of_settings {o : Nat} (h : 0x100 ≤ o) : o ∉ latchWrites := by
  simp [latchWrites, Reg.CMP_LATH, Reg.CMP_LATL, Reg.PAGE_IRQ_STAT]
  omega

/-- From `s` to `t` latches of a cluster's comparators have been set whose states are active. -/
structure State.Latched (c : Fin 8) (s t : State) : Prop where
  units : t.mem = s.mem ∧ t.cores = s.cores ∧ t.clusters = s.clusters
  canonical : s.canonical = true → t.canonical = true
  regs : ∀ (q : PageId) o, pageKindNo q.kind ≠ 0 → (q.kind = .cmp → o % 4096 ∉ latchWrites) → t.reg q o = s.reg q o
  stay : s.canonical = true → ∀ o ∈ latchWrites, ∀ b < 32, s.rbit (pgCmp c) o b = true → t.rbit (pgCmp c) o b = true
  clear : s.canonical = true → ∀ k : Fin 12, (s.cmpU c k).sth = false → t.rbit (pgCmp c) Reg.CMP_LATH k = s.rbit (pgCmp c) Reg.CMP_LATH k

section
variable {c : Fin 8}

theorem State.Latched.refl (s : State) : State.Latched c s s := ⟨⟨rfl, rfl, rfl⟩, id, fun _ _ _ _ => rfl, fun _ _ _ _ _ => id, fun _ _ _ => rfl⟩

theorem State.Latched.unit {s t : State} (h : State.Latched c s t) (k : Fin 12) : t.cmpU c k = s.cmpU c k :=
  State.cmpU_congr (by rw [h.units.2.2]) k

theorem State.Latched.trans {s t u : State} (h : State.Latched c s t) (h' : State.Latched c t u) : State.Latched c s u := by
  have hunit := h.unit
  obtain ⟨⟨hmem, hcores, hcl⟩, hcan, hreg, hstay, hclear⟩ := h
  obtain ⟨⟨hmem', hcores', hcl'⟩, hcan', hreg', hstay', hclear'⟩ := h'
  exact ⟨⟨hmem'.trans hmem, hcores'.trans hcores, hcl'.trans hcl⟩, fun hc => hcan' (hcan hc),
    fun q o hk ho => (hreg' q o hk ho).trans (hreg q o hk ho), fun hc o ho b hb hs => hstay' (hcan hc) o ho b hb (hstay hc o ho b hb hs),
    fun hc k hk => (hclear' (hcan hc) k (hunit k ▸ hk)).trans (hclear hc k hk)⟩

theorem State.Latched.advance (s : State) (t : Nat) : State.Latched c s (s.advance t) := by
  have hreg : ∀ o, (s.advance t).reg (pgCmp c) o = s.reg (pgCmp c) o := s.reg_advance t (by simp [pgCmp, pageKindNo])
  exact ⟨⟨s.advance_mem t, s.advance_cores t, s.advance_clusters t⟩, fun hc => State.canonical_advance hc t, fun q o hk _ => s.reg_advance t hk o,
    fun _ o _ b _ hs => (State.rbit_congr (hreg o) b).trans hs, fun _ k _ => State.rbit_congr (hreg _) k⟩

/-- A bit is set: the event, or a latch, that of a high state only where it is active. -/
theorem State.Latched.stick (s : State) {off i : Nat} (ho : off ∈ latchWrites) (hi : off = Reg.CMP_LATH → ∀ k, (s.cmpU c k).sth = false → k.val ≠ i) :
    State.Latched c s (s.stick (pgCmp c) off i) := by
  have hmod := latchWrites_mod ho
  refine ⟨⟨rfl, rfl, rfl⟩, fun hc => State.canonical_stick hc _ _ _, fun q o _ hk =>
    State.reg_stick_other s i (regKey_ne_of_offset fun hq he => hk hq (by rw [he, hmod]; exact ho)), fun hc o ho' b hb hs => ?_, fun hc k hk => ?_⟩
  · refine State.rbit_stick_stays hc _ off i hb ?_ hs
    rw [hmod, latchWrites_mod ho']
    exact em _
  · by_cases he : off = Reg.CMP_LATH
    · subst he; exact State.rbit_setBit_ne hc _ _ (hi rfl k hk) true
    · exact State.rbit_congr (State.reg_stick_other s i (regKey_ne_of_off _ (by rw [hmod]; exact fun h => he h.symm))) k

theorem State.Latched.ite {s t u : State} {p : Prop} [Decidable p] (ht : p → State.Latched c s t) (hu : State.Latched c s u) :
    State.Latched c s (if p then t else u) := by
  split
  · exact ht ‹_›
  · exact hu

theorem State.Latched.alike {s t : State} (h : State.Latched c s t) : State.CmpAlike c s t := by
  refine ⟨by rw [h.units.2.2], fun k => by rw [h.unit]; exact ⟨rfl, rfl⟩, fun q o ho => h.regs q o ?_ fun hq => ?_⟩
  · rcases ho with hq | hq | ⟨hq, -⟩ <;> rw [hq] <;> decide
  · rcases ho with hq' | hq' | ⟨-, hlo, -⟩
    · rw [hq] at hq'; cases hq'
    · rw [hq] at hq'; cases hq'
    · exact not_latchWrites_of_settings hlo

/-- A comparator that has followed its input has still done so where latches have been set. -/
theorem State.Latched.follows {r s t : State} (h : State.Latched c s t) {k : Fin 12} (hf : r.Follows s c k) : r.Follows t c k := by
  refine h.alike.follows k hf (h.unit k) fun o ho i _ => State.rbit_congr (h.regs _ _ (by simp [pgCmp, pageKindNo]) fun _ => ?_) i
  have ho' : o = Reg.CMP_OUT ∨ o = Reg.CMP_STARTMID := by simpa using ho
  rcases ho' with rfl | rfl <;> decide

/-- An output that shows the live window still does. -/
theorem State.Latched.out {s t : State} (h : State.Latched c s t) {k : Fin 12} (ho : s.rbit (pgCmp c) Reg.CMP_OUT k = s.liveOut c k) :
    t.rbit (pgCmp c) Reg.CMP_OUT k = t.liveOut c k := by
  have hkept : t.reg (pgCmp c) Reg.CMP_OUT = s.reg (pgCmp c) Reg.CMP_OUT := h.regs _ _ (by simp [pgCmp, pageKindNo]) fun _ => by decide
  rw [State.rbit_congr hkept, ho, h.alike.liveOut k (h.unit k)]

end

section
variable (s : State) (c : Fin 8) (m : Fin 12)

/-- The latches of low states that are to be set, and the event. -/
def State.latchLow (l : Bool) : State := (if l then s.stick (pgCmp c) Reg.CMP_LATL m else s).raise (pgCmp c) 0

/-- Latches that are to be set. -/
def State.latchBoth (h l : Bool) : State := (if h then s.stick (pgCmp c) Reg.CMP_LATH m else s).latchLow c m l

/-- The latches are set at the next clock edge. -/
theorem State.latchSee_eq {h l : Bool} (hh : ((s.cmpU c m).sth && !s.rbit (pgCmp c) Reg.CMP_LATH m) = h)
    (hl : ((s.cmpU c m).stl && !s.rbit (pgCmp c) Reg.CMP_LATL m) = l) :
    s.latchSee c m = if h = false ∧ l = false then s else (s.advance (pwmCeil s.now)).latchBoth c m h l := by
  unfold State.latchSee State.latchBoth State.latchLow
  simp only [hh, hl, Bool.and_eq_true, Bool.not_eq_true']

variable {s c m}

theorem State.Latched.latchLow (l : Bool) : State.Latched c s (s.latchLow c m l) := by
  refine .trans (t := if l then s.stick (pgCmp c) Reg.CMP_LATL m else s) (.ite (fun _ => .stick s ?_ fun he => absurd he (by decide)) (.refl s))
    (.stick _ ?_ fun he => absurd he (by decide)) <;> simp [latchWrites]

theorem State.Latched.latchHigh {h : Bool} (hh : h = true → (s.cmpU c m).sth = true) :
    State.Latched c s (if h then s.stick (pgCmp c) Reg.CMP_LATH m else s) :=
  .ite (fun hp => .stick s (by simp [latchWrites]) fun _ k hk he => by rw [Fin.ext he, hh hp] at hk; cases hk) (.refl s)

theorem State.latched_latchBoth (hc : s.canonical = true) {h : Bool} (hh : h = true → (s.cmpU c m).sth = true) (l : Bool) :
    (h = true → (s.latchBoth c m h l).rbit (pgCmp c) Reg.CMP_LATH m = true)
      ∧ (l = true → (s.latchBoth c m h l).rbit (pgCmp c) Reg.CMP_LATL m = true) := by
  have hhigh := State.Latched.latchHigh hh
  refine ⟨fun hp => ?_, fun hp => ?_⟩
  · refine (State.Latched.latchLow l).stay (hhigh.canonical hc) _ (by simp [latchWrites]) m (by omega) ?_
    rw [if_pos hp]
    exact State.rbit_stick_same hc _ _ (by omega)
  · unfold State.latchBoth State.latchLow
    rw [if_pos hp]
    have hcan := hhigh.canonical hc
    exact State.rbit_stick_stays (State.canonical_stick hcan _ _ _) _ _ 0 (by omega) (.inr (by decide)) (State.rbit_stick_same hcan _ _ (by omega))

theorem State.Latched.latchSee : State.Latched c s (s.latchSee c m) := by
  rw [State.latchSee_eq s c m rfl rfl]
  have hadv := State.Latched.advance (c := c) s (pwmCeil s.now)
  refine .ite (fun _ => .refl s) ((hadv.trans (.latchHigh fun h => ?_)).trans (.latchLow _))
  rw [hadv.unit]
  exact (Bool.and_eq_true_iff.1 h).1

/-- The latches of active states are set. -/
theorem State.latched_latchSee (hc : s.canonical = true) : ((s.cmpU c m).sth = true → (s.latchSee c m).rbit (pgCmp c) Reg.CMP_LATH m = true)
    ∧ ((s.cmpU c m).stl = true → (s.latchSee c m).rbit (pgCmp c) Reg.CMP_LATL m = true) := by
  have hstay := (State.Latched.latchSee (s := s) (c := c) (m := m)).stay hc
  have hadv := State.Latched.advance (c := c) s (pwmCeil s.now)
  have hboth := State.latched_latchBoth (c := c) (m := m) (hadv.canonical hc)
    (h := (s.cmpU c m).sth && !s.rbit (pgCmp c) Reg.CMP_LATH m) (fun h => by rw [hadv.unit]; exact (Bool.and_eq_true_iff.1 h).1)
    ((s.cmpU c m).stl && !s.rbit (pgCmp c) Reg.CMP_LATL m)
  refine ⟨fun hs => ?_, fun hs => ?_⟩
  · cases hset : s.rbit (pgCmp c) Reg.CMP_LATH m with
    | true => exact hstay _ (by simp [latchWrites]) m (by omega) hset
    | false =>
      rw [State.latchSee_eq s c m rfl rfl, if_neg (by simp [hs, hset])]
      exact hboth.1 (by simp [hs, hset])
  · cases hset : s.rbit (pgCmp c) Reg.CMP_LATL m with
    | true => exact hstay _ (by simp [latchWrites]) m (by omega) hset
    | false =>
      rw [State.latchSee_eq s c m rfl rfl, if_neg (by simp [hs, hset])]
      exact hboth.2 (by simp [hs, hset])

variable (s c) in
/-- All latches of the cluster follow. -/
theorem State.Latched.latchesSee : State.Latched c s (s.forCmp fun u k => u.latchSee c k) :=
  foldl_keeps (P := State.Latched c s) _ _ s (.refl s) fun _ _ ht => ht.trans .latchSee

theorem State.latched_latchesSee (hc : s.canonical = true) {t : State} (ht : s.forCmp (fun u k => u.latchSee c k) = t) (k : Fin 12) :
    ((t.cmpU c k).sth = true → t.rbit (pgCmp c) Reg.CMP_LATH k = true) ∧ ((t.cmpU c k).stl = true → t.rbit (pgCmp c) Reg.CMP_LATL k = true) := by
  obtain ⟨u, hu, hafter⟩ := foldl_visit (R := State.Latched c) .refl (fun _ _ _ => .trans) (f := fun u k => u.latchSee c k)
    (List.nodup_finRange 12) (List.mem_finRange k) (fun _ _ _ _ => .latchSee) s
  have hcu := hu.canonical hc
  obtain ⟨hhigh, hlow⟩ := State.latched_latchSee (c := c) (m := k) hcu
  have hsee : State.Latched c u (u.latchSee c k) := .latchSee
  have hunit : t.cmpU c k = u.cmpU c k := by rw [← ht]; exact (hafter.unit k).trans (hsee.unit k)
  have hstay := hafter.stay (hsee.canonical hcu)
  rw [hunit, ← ht]
  exact ⟨fun h => hstay _ (by simp [latchWrites]) k (by omega) (hhigh h), fun h => hstay _ (by simp [latchWrites]) k (by omega) (hlow h)⟩

end

end Sys2Proof.Machine
end

section
/-! SUPPORT. What happens at a comparator: its input's level, its readiness, its end, its settled DACs (R149, R150, R153 to R155). -/

namespace Sys2Proof.Machine

/-! ## The voltage at a pin -/

/-- The pin of comparator `m` is at `v`, and the comparator errs by `err`. -/
def State.atPin (s : State) (c : Fin 8) (m : Fin 12) (v : Int) (err : CmpErr) : State :=
  (s.modC c (fun cl => { cl with ain := cl.ain.set (Fin.ofNat 32 (s.fld (pgCmp c) (Reg.CMP_CTL m) 5 1)) v })).modCmp c m
    (fun u => { u with err := err })

section
variable (s : State) (c : Fin 8) (m : Fin 12) (v : Int) (err : CmpErr)

theorem State.canonical_atPin {s : State} (h : s.canonical = true) : (s.atPin c m v err).canonical = true := h

theorem State.cmpU_atPin : (s.atPin c m v err).cmpU c m = { s.cmpU c m with err := err } := by
  unfold State.atPin
  rw [State.cmpU_modCmp, State.cmpU_congr]
  rw [State.modC_clusters_get]

/-- No comparator's states change yet. -/
theorem State.states_atPin (k : Fin 12) : ((s.atPin c m v err).cmpU c k).sth = (s.cmpU c k).sth
    ∧ ((s.atPin c m v err).cmpU c k).stl = (s.cmpU c k).stl ∧ ((s.atPin c m v err).cmpU c k).ready = (s.cmpU c k).ready := by
  by_cases h : k = m
  · subst h; rw [State.cmpU_atPin]; exact ⟨rfl, rfl, rfl⟩
  · have hu : (s.atPin c m v err).cmpU c k = s.cmpU c k := by
      unfold State.atPin
      rw [State.cmpU_modCmp_other _ c m _ h, State.cmpU_congr]
      rw [State.modC_clusters_get]
    rw [hu]; exact ⟨rfl, rfl, rfl⟩

/-- The comparator decides on the pin's voltage. -/
theorem State.view_atPin : ((s.atPin c m v err).cmpView c m).v = v := by
  have hpin : (s.atPin c m v err).clusters[c].ain = s.clusters[c].ain.set (Fin.ofNat 32 (s.fld (pgCmp c) (Reg.CMP_CTL m) 5 1)) v := by
    unfold State.atPin
    rw [State.ain_modCmp, State.modC_clusters_get]
  show (s.atPin c m v err).clusters[c].ain[Fin.ofNat 32 (s.fld (pgCmp c) (Reg.CMP_CTL m) 5 1)] = v
  rw [hpin]
  simp

end

/-- A converter that is settled holds its setting to within the errors of R161. -/
theorem State.hi_settled {s : State} {c : Fin 8} {m : Fin 12} (h : s.rbit (pgCmp c) (Reg.CMP_ST m) 7 = false) :
    (s.cmpView c m).hi ≤ s.fld (pgCmp c) (Reg.CMP_THR_ACT m) 11 0 * 390625 + thrErr
      ∧ s.fld (pgCmp c) (Reg.CMP_THR_ACT m) 11 0 * 390625 - thrErr ≤ (s.cmpView c m).hi := by
  have hspan : s.dacSpan c m false =
      ((s.fld (pgCmp c) (Reg.CMP_THR_ACT m) 11 0 * 390625 : Int), (s.fld (pgCmp c) (Reg.CMP_THR_ACT m) 11 0 * 390625 : Int)) := by
    unfold State.dacSpan
    rw [h]
    rfl
  have herr : 0 ≤ thrErr := by decide
  show s.thrAt c m false _ ≤ _ ∧ _ ≤ s.thrAt c m false _
  unfold State.thrAt
  rw [hspan]
  exact ⟨clampInt_le_hi (by omega) _, le_clampInt (by omega) _⟩

/-! ## Comparators on one pin follow (R149, R152) -/

theorem State.Follows.of_states {r s t : State} {c : Fin 8} {k : Fin 12} (h : r.Follows t c k)
    (hh : (r.cmpU c k).sth = (s.cmpU c k).sth) (hl : (r.cmpU c k).stl = (s.cmpU c k).stl)
    (hmid : ∀ i : Nat, i % 16 = k.val → r.rbit (pgCmp c) Reg.CMP_STARTMID i = s.rbit (pgCmp c) Reg.CMP_STARTMID i) : s.Follows t c k := by
  obtain ⟨hhigh, hlow, hout, hband, hband'⟩ := h
  rw [hh] at hhigh
  rw [hl] at hlow
  rw [hmid k (by omega)] at hband
  rw [hmid (16 + k) (by omega)] at hband'
  exact ⟨hhigh, hlow, hout, hband, hband'⟩

/-- The comparator follows where it is on pin `pin`. -/
def State.pinFollow (s : State) (c : Fin 8) (pin : Nat) (k : Fin 12) : State :=
  if s.fld (pgCmp c) (Reg.CMP_CTL k) 5 1 = pin then s.cmpFollow c k else s

/-- Every comparator on pin `pin` follows. -/
def State.pinsFollow (s : State) (c : Fin 8) (pin : Nat) : State := s.forCmp fun u k => u.pinFollow c pin k

section
variable {s : State} {c : Fin 8} {pin : Nat}

theorem State.CmpActs.pinFollow {K : Fin 12 → Prop} (s : State) {k : Fin 12} (hk : ¬K k) : State.CmpActs c K s (s.pinFollow c pin k) :=
  .ite (.cmpFollow s hk) (.refl s)

variable (s c pin) in
theorem State.CmpActs.pinsFollow : State.CmpActs c (fun _ => False) s (s.pinsFollow c pin) :=
  foldl_keeps (P := State.CmpActs c (fun _ => False) s) _ _ s (.refl s) fun t _ ht => ht.trans (.pinFollow t id)

variable (s c pin) in
/-- Each comparator has its turn; the others' leave it alone. -/
theorem State.pinsFollow_visit (k : Fin 12) :
    ∃ u, State.CmpActs c (· = k) s u ∧ State.CmpActs c (· = k) (u.pinFollow c pin k) (s.pinsFollow c pin) :=
  foldl_visit (R := State.CmpActs c (· = k)) .refl (fun _ _ _ => .trans) (List.nodup_finRange 12) (List.mem_finRange k)
    (fun u _ _ hne => .pinFollow u hne) s

/-- One on the pin that is ready follows. -/
theorem State.follows_pinsFollow (hc : s.canonical = true) {k : Fin 12} (hpin : s.fld (pgCmp c) (Reg.CMP_CTL k) 5 1 = pin)
    (hr : (s.cmpU c k).ready = true) : s.Follows (s.pinsFollow c pin) c k := by
  obtain ⟨u, hu, hafter⟩ := s.pinsFollow_visit c pin k
  have hunit := hu.unit k rfl
  have hturn : u.pinFollow c pin k = u.cmpFollow c k := if_pos (by unfold State.fld; rw [hu.alike.ctl]; exact hpin)
  have hcu := hu.canonical hc
  have hfollow := State.follows_cmpFollow (c := c) (m := k) hcu (by rw [hunit]; exact hr)
  have hact : State.CmpActs c (fun _ => False) u (u.cmpFollow c k) := .cmpFollow u id
  rw [hturn] at hafter
  refine (hafter.alike.follows k hfollow (hafter.unit k rfl) (hafter.bits (hact.canonical hcu) k rfl)).of_states ?_ ?_
    fun i hi => hu.bits hc k rfl _ (by simp) i hi
  · rw [hunit]
  · rw [hunit]

/-- Another one stays. -/
theorem State.unit_pinsFollow {k : Fin 12} (h : s.fld (pgCmp c) (Reg.CMP_CTL k) 5 1 ≠ pin ∨ (s.cmpU c k).ready = false) :
    (s.pinsFollow c pin).cmpU c k = s.cmpU c k := by
  obtain ⟨u, hu, hafter⟩ := s.pinsFollow_visit c pin k
  have hunit := hu.unit k rfl
  have hturn : u.pinFollow c pin k = u := by
    unfold State.pinFollow
    split
    · rename_i hpin
      have hpin' : s.fld (pgCmp c) (Reg.CMP_CTL k) 5 1 = pin := (congrArg (bitsOf · 5 1) (hu.alike.ctl k)).symm.trans hpin
      exact State.cmpFollow_idle (by rw [hunit]; exact h.resolve_left fun hne => hne hpin')
    · rfl
  rw [hturn] at hafter
  rw [hafter.unit k rfl, hunit]

end

section
variable {s : State} (hc : s.canonical = true) {c : Fin 8} {m : Fin 12} {v : Int} {err : CmpErr} {brief : Bool} {t : State}
  (ht : s.cmpLevel c m v err brief = t)
include ht

/-- The pin takes its level, the comparators on it follow, then the latches where the crossing lasts. -/
theorem State.cmpLevel_stages : State.CmpActs c (fun _ => False) (s.atPin c m v err)
      ((s.atPin c m v err).pinsFollow c (s.fld (pgCmp c) (Reg.CMP_CTL m) 5 1))
    ∧ State.Latched c ((s.atPin c m v err).pinsFollow c (s.fld (pgCmp c) (Reg.CMP_CTL m) 5 1)) t
    ∧ (brief = true → t = (s.atPin c m v err).pinsFollow c (s.fld (pgCmp c) (Reg.CMP_CTL m) 5 1))
    ∧ (brief = false → ((s.atPin c m v err).pinsFollow c (s.fld (pgCmp c) (Reg.CMP_CTL m) 5 1)).forCmp (fun u k => u.latchSee c k) = t) := by
  have he : t = if brief then (s.atPin c m v err).pinsFollow c (s.fld (pgCmp c) (Reg.CMP_CTL m) 5 1)
      else ((s.atPin c m v err).pinsFollow c (s.fld (pgCmp c) (Reg.CMP_CTL m) 5 1)).forCmp fun u k => u.latchSee c k := ht.symm
  refine ⟨.pinsFollow _ c _, ?_, fun hb => by rw [he, if_pos hb], fun hb => by rw [he, if_neg (by simp [hb])]⟩
  rw [he]
  exact .ite (fun _ => .refl _) (.latchesSee _ c)

theorem State.cmpLevel_units : t.mem = s.mem ∧ t.cores = s.cores := by
  obtain ⟨hact, hlatch, -⟩ := State.cmpLevel_stages ht
  obtain ⟨hmem, hcores, -⟩ := hact.units
  obtain ⟨hmem', hcores', -⟩ := hlatch.units
  exact ⟨hmem'.trans hmem, hcores'.trans hcores⟩

theorem State.cmpLevel_alike : State.CmpAlike c (s.atPin c m v err) t := by
  obtain ⟨hact, hlatch, -⟩ := State.cmpLevel_stages ht
  exact hact.alike.trans hlatch.alike

theorem State.cmpLevel_view : (t.cmpView c m).v = v := by
  rw [(State.cmpLevel_alike ht).view m, State.view_atPin]

theorem State.cmpLevel_err : (t.cmpU c m).err = err := by
  rw [((State.cmpLevel_alike ht).errs m).1, State.cmpU_atPin]

theorem State.cmpLevel_hi (hs : s.rbit (pgCmp c) (Reg.CMP_ST m) 7 = false) :
    (t.cmpView c m).hi ≤ s.fld (pgCmp c) (Reg.CMP_THR_ACT m) 11 0 * 390625 + thrErr
      ∧ s.fld (pgCmp c) (Reg.CMP_THR_ACT m) 11 0 * 390625 - thrErr ≤ (t.cmpView c m).hi := by
  rw [(State.cmpLevel_alike ht).view m]
  exact State.hi_settled (s := s.atPin c m v err) hs

theorem State.cmpLevel_unit (k : Fin 12) (h : s.fld (pgCmp c) (Reg.CMP_CTL k) 5 1 ≠ s.fld (pgCmp c) (Reg.CMP_CTL m) 5 1 ∨ (s.cmpU c k).ready = false) :
    (t.cmpU c k).sth = (s.cmpU c k).sth ∧ (t.cmpU c k).stl = (s.cmpU c k).stl := by
  obtain ⟨-, hlatch, -⟩ := State.cmpLevel_stages ht
  obtain ⟨hh, hl, hr⟩ := s.states_atPin c m v err k
  rw [hlatch.unit k, State.unit_pinsFollow (h.imp_right hr.trans)]
  exact ⟨hh, hl⟩

include hc

theorem State.cmpLevel_follows (k : Fin 12) (hpin : s.fld (pgCmp c) (Reg.CMP_CTL k) 5 1 = s.fld (pgCmp c) (Reg.CMP_CTL m) 5 1)
    (hr : (s.cmpU c k).ready = true) : s.Follows t c k := by
  obtain ⟨-, hlatch, -⟩ := State.cmpLevel_stages ht
  obtain ⟨hh, hl, hready⟩ := s.states_atPin c m v err k
  exact (hlatch.follows (State.follows_pinsFollow (State.canonical_atPin c m v err hc) hpin (hready.trans hr))).of_states hh hl fun _ _ => rfl

theorem State.cmpLevel_latched (hb : brief = false) (k : Fin 12) :
    ((t.cmpU c k).sth = true → t.rbit (pgCmp c) Reg.CMP_LATH k = true) ∧ ((t.cmpU c k).stl = true → t.rbit (pgCmp c) Reg.CMP_LATL k = true) := by
  obtain ⟨hact, -, -, hlasts⟩ := State.cmpLevel_stages ht
  exact State.latched_latchesSee (hact.canonical (State.canonical_atPin c m v err hc)) (hlasts hb) k

/-- A brief crossing, or a state that is not active, leaves the latch. -/
theorem State.cmpLevel_unlatched (k : Fin 12) (h : brief = true ∨ (t.cmpU c k).sth = false) :
    t.rbit (pgCmp c) Reg.CMP_LATH k = s.rbit (pgCmp c) Reg.CMP_LATH k := by
  obtain ⟨hact, hlatch, hbrief, -⟩ := State.cmpLevel_stages ht
  have hsame := State.rbit_congr (hact.regs (pgCmp c) Reg.CMP_LATH (by
    simp [followWrites, followerPage, pgCmp, Reg.CMP_LATH, Reg.PAGE_IRQ_STAT, Reg.CMP_OUT, Reg.CMP_STARTMID, Reg.CMP_XCNT]
    omega)) k
  rcases h with hb | hs
  · rw [hbrief hb]; exact hsame
  · exact (hlatch.clear (hact.canonical (State.canonical_atPin c m v err hc)) k (by rw [← hlatch.unit]; exact hs)).trans hsame

end

end Sys2Proof.Machine
end

section
/-! SUPPORT. A comparator that becomes ready, is disabled, or compares against DACs that have settled (R153 to R155). -/

namespace Sys2Proof.Machine

/-! ## Midpoint decisions (R153) -/

/-- The states of a comparator that becomes ready and sees `x`. -/
def CmpUnit.midpoint (u : CmpUnit) (x : CmpView) : CmpUnit :=
  { u with ready := true, sth := decide (2 * x.hi - x.hyst < 2 * x.v), stl := decide (2 * x.v < 2 * x.lo + x.hyst) }

/-- The midpoint decisions of a comparator are shown. -/
def State.showMid (s : State) (c : Fin 8) (m : Fin 12) (high low : Bool) : State :=
  (s.setBit (pgCmp c) Reg.CMP_STARTMID m high).setBit (pgCmp c) Reg.CMP_STARTMID (16 + m) low

section
variable {s : State} {c : Fin 8} {m : Fin 12}

theorem State.CmpActs.showMid (s : State) (high low : Bool) : State.CmpActs c (fun _ => False) s (s.showMid c m high low) :=
  (State.CmpActs.setBit s (off := Reg.CMP_STARTMID) (i := m) (by simp) (fun _ => False.elim) high).trans
    (.setBit _ (off := Reg.CMP_STARTMID) (by simp) (fun _ => False.elim) low)

theorem State.rbit_showMid (hc : s.canonical = true) (high low : Bool) :
    (s.showMid c m high low).rbit (pgCmp c) Reg.CMP_STARTMID m = high ∧ (s.showMid c m high low).rbit (pgCmp c) Reg.CMP_STARTMID (16 + m) = low := by
  have hcan := State.canonical_setBit hc (pgCmp c) Reg.CMP_STARTMID m high
  exact ⟨(State.rbit_setBit_ne hcan _ _ (by omega) low).trans (State.rbit_setBit_same hc _ _ (by omega) high),
    State.rbit_setBit_same hcan _ _ (by omega) low⟩

/-- Without an enabled comparator that waits for its readiness nothing happens. -/
theorem State.cmpReady_idle {v : Int} {err : CmpErr} (h : s.rbit (pgCmp c) (Reg.CMP_CTL m) 0 = false ∨ (s.cmpU c m).ready = true
    ∨ s.domOn (67 + 5 * c.val) = false) : s.cmpReady c m v err = s := by
  unfold State.cmpReady
  refine if_pos ?_
  rcases h with h | h | h <;> simp [h]

/-- The comparator, ready, with its decisions shown and its event raised. -/
def State.readyUp (s : State) (c : Fin 8) (m : Fin 12) (x : CmpView) (hyst : Bool) : State :=
  ((s.modCmp c m (·.midpoint x)).showMid c m (x.inHigh && hyst) (x.inLow && hyst)).raise (pgCmp c) 1

theorem State.CmpActs.readyUp (s : State) (x : CmpView) (hyst : Bool) : State.CmpActs c (fun _ => False) s (s.readyUp c m x hyst) := by
  have hunit : State.CmpActs c (fun _ => False) s (s.modCmp c m (·.midpoint x)) := .modCmp s id fun _ => ⟨rfl, rfl⟩
  exact (hunit.trans (.showMid _ (x.inHigh && hyst) (x.inLow && hyst))).trans (.raise _ 1)

theorem State.cmpU_readyUp (x : CmpView) (hyst : Bool) : (s.readyUp c m x hyst).cmpU c m = (s.cmpU c m).midpoint x := by
  have hkept : (s.readyUp c m x hyst).clusters = (s.modCmp c m (·.midpoint x)).clusters := rfl
  rw [State.cmpU_congr (congrArg (fun v : Vector Cluster 8 => v[c].cmp) hkept), State.cmpU_modCmp]

theorem State.rbit_readyUp (hc : s.canonical = true) (x : CmpView) (hyst : Bool) :
    (s.readyUp c m x hyst).rbit (pgCmp c) Reg.PAGE_IRQ_STAT 1 = true
      ∧ (s.readyUp c m x hyst).rbit (pgCmp c) Reg.CMP_STARTMID m = (x.inHigh && hyst)
      ∧ (s.readyUp c m x hyst).rbit (pgCmp c) Reg.CMP_STARTMID (16 + m) = (x.inLow && hyst) := by
  have hcu : (s.modCmp c m (·.midpoint x)).canonical = true := hc
  obtain ⟨hhigh, hlow⟩ := State.rbit_showMid (c := c) (m := m) hcu (x.inHigh && hyst) (x.inLow && hyst)
  have hmid : ∀ u : State, (u.raise (pgCmp c) 1).reg (pgCmp c) Reg.CMP_STARTMID = u.reg (pgCmp c) Reg.CMP_STARTMID := fun u =>
    u.reg_raise_other 1 (regKey_ne_of_off _ (by decide))
  exact ⟨State.rbit_raise_same ((State.CmpActs.showMid _ _ _).canonical hcu) _ (by decide), (State.rbit_congr (hmid _) m).trans hhigh,
    (State.rbit_congr (hmid _) (16 + m)).trans hlow⟩

/-- A comparator becomes ready: it takes its midpoint decision, and its output and latches follow. -/
theorem State.cmpReady_effect (hc : s.canonical = true) (hen : s.rbit (pgCmp c) (Reg.CMP_CTL m) 0 = true) (hr : (s.cmpU c m).ready = false)
    (hdom : s.domOn (67 + 5 * c.val) = true) {v : Int} {err : CmpErr} {t : State} (ht : s.cmpReady c m v err = t) :
    t.mem = s.mem ∧ t.cores = s.cores ∧ t.rbit (pgCmp c) Reg.PAGE_IRQ_STAT 1 = true
      ∧ (t.cmpU c m = ({ s.cmpU c m with err := err } : CmpUnit).midpoint (t.cmpView c m) ∧ (t.cmpView c m).v = v
        ∧ t.rbit (pgCmp c) Reg.CMP_STARTMID m = ((t.cmpView c m).inHigh && s.fld (pgCmp c) (Reg.CMP_CTL m) 7 6 != 0)
        ∧ t.rbit (pgCmp c) Reg.CMP_STARTMID (16 + m) = ((t.cmpView c m).inLow && s.fld (pgCmp c) (Reg.CMP_CTL m) 7 6 != 0))
      ∧ t.rbit (pgCmp c) Reg.CMP_OUT m = t.liveOut c m := by
  obtain ⟨hyst, hhyst⟩ : ∃ b, (s.fld (pgCmp c) (Reg.CMP_CTL m) 7 6 != 0) = b := ⟨_, rfl⟩
  have he : s.cmpReady c m v err
      = (((s.atPin c m v err).readyUp c m ((s.atPin c m v err).cmpView c m) hyst).outSee c m).latchSee c m := by
    rw [← hhyst]
    exact if_neg (by simp [hen, hr, hdom])
  rw [he] at ht
  rw [hhyst]
  have hcs := State.canonical_atPin c m v err hc
  obtain ⟨x, hx⟩ : ∃ x, (s.atPin c m v err).cmpView c m = x := ⟨_, rfl⟩
  rw [hx] at ht
  obtain ⟨u, hu⟩ : ∃ u, (s.atPin c m v err).readyUp c m x hyst = u := ⟨_, rfl⟩
  have hact : State.CmpActs c (fun _ => False) (s.atPin c m v err) u := hu ▸ .readyUp _ x hyst
  obtain ⟨hirq, hmidh, hmidl⟩ := hu ▸ State.rbit_readyUp (c := c) (m := m) hcs x hyst
  have hunit : u.cmpU c m = ({ s.cmpU c m with err := err } : CmpUnit).midpoint x := by rw [← hu, State.cmpU_readyUp, State.cmpU_atPin]
  rw [hu] at ht
  have hcu := hact.canonical hcs
  have hout := hact.trans (.outSee u (m := m) id)
  have hlatch : State.Latched c (u.outSee c m) t := ht ▸ .latchSee
  have hco := State.canonical_outSee hcu c m
  have hview : t.cmpView c m = x := by rw [hlatch.alike.view m, hout.alike.view m, hx]
  have hstart : t.reg (pgCmp c) Reg.CMP_STARTMID = u.reg (pgCmp c) Reg.CMP_STARTMID :=
    (hlatch.regs _ _ (by simp [pgCmp, pageKindNo]) fun _ => by decide).trans (u.reg_outSee c m (by decide) (by decide))
  obtain ⟨hmem, hcores, -⟩ := hlatch.units
  obtain ⟨hmem', hcores', -⟩ := hout.units
  refine ⟨hmem.trans hmem', hcores.trans hcores', ?_, ⟨?_, ?_, ?_, ?_⟩, hlatch.out (State.out_outSee hcu c m)⟩
  · refine hlatch.stay hco _ (by simp [latchWrites]) 1 (by decide) ?_
    rw [State.rbit_congr (u.reg_outSee c m (by decide) (by decide)), hirq]
  · rw [hview, hlatch.unit, State.cmpU_outSee, hunit]
  · rw [hview, ← hx, State.view_atPin]
  · rw [hview, State.rbit_congr hstart, hmidh]
  · rw [hview, State.rbit_congr hstart, hmidl]

/-! ## A comparator that is disabled (R154) -/

/-- All of it clears, and its output follows. -/
theorem State.cmpOff_effect (hc : s.canonical = true) {t : State} (ht : s.cmpOff c m = t) :
    (t.mem = s.mem ∧ t.cores = s.cores ∧ t.dma = s.dma)
      ∧ ((t.cmpU c m).ready = false ∧ (t.cmpU c m).sth = false ∧ (t.cmpU c m).stl = false)
      ∧ t.rbit (pgCmp c) Reg.CMP_STARTMID m = false ∧ t.rbit (pgCmp c) Reg.CMP_OUT m = t.liveOut c m := by
  obtain ⟨u, hu⟩ : ∃ u, s.modCmp c m (fun u => { u with sth := false, stl := false, ready := false }) = u := ⟨_, rfl⟩
  have hact : State.CmpActs c (fun _ => False) s u := hu ▸ .modCmp s id fun _ => ⟨rfl, rfl⟩
  have hcu := hact.canonical hc
  have hmid : State.CmpActs c (fun _ => False) u (u.showMid c m false false) := .showMid u _ _
  have he : (u.showMid c m false false).outSee c m = t := by rw [← hu]; exact ht
  have hunit : t.cmpU c m = { s.cmpU c m with sth := false, stl := false, ready := false } := by
    rw [← he, State.cmpU_outSee]
    exact (congrArg (fun v : State => v.cmpU c m) hu).symm.trans (s.cmpU_modCmp c m _)
  refine ⟨?_, by rw [hunit]; exact ⟨rfl, rfl, rfl⟩, ?_, ?_⟩
  · rw [← he]; exact ((hact.trans hmid).trans (.outSee _ id)).units
  · rw [← he, State.rbit_congr (State.reg_outSee _ c m (by decide) (by decide))]
    exact (State.rbit_showMid hcu false false).1
  · rw [← he]; exact State.out_outSee (hmid.canonical hcu) c m

/-! ## DACs that have settled (R155) -/

/-- The DACs of the comparator stand at their setting. -/
def State.dacStands (s : State) (c : Fin 8) (m : Fin 12) : State :=
  (s.setBit (pgCmp c) (Reg.CMP_ST m) 7 false).modCmp c m (fun u => { u with from_ := [] })

theorem State.cmpU_dacStands : (s.dacStands c m).cmpU c m = { s.cmpU c m with from_ := [] } := State.cmpU_modCmp _ c m _

theorem State.dacSettled_idle (hr : (s.cmpU c m).ready = false) (hh : (s.cmpU c m).sth = false) (hl : (s.cmpU c m).stl = false) :
    s.dacSettled c m = s.dacStands c m := by
  have hunit := State.cmpU_dacStands (s := s) (c := c) (m := m)
  show ((s.dacStands c m).cmpFollow c m).latchSee c m = _
  rw [State.cmpFollow_idle (by rw [hunit]; exact hr), State.latchSee_eq _ c m (h := false) (l := false)]
  · exact if_pos ⟨rfl, rfl⟩
  · rw [hunit, hh]; rfl
  · rw [hunit, hl]; rfl

theorem State.dacSettled_effect (hc : s.canonical = true) {t : State} (ht : s.dacSettled c m = t) :
    t.rbit (pgCmp c) (Reg.CMP_ST m) 7 = false ∧ (t.cmpU c m).from_ = [] ∧ t.mem = s.mem ∧ t.cores = s.cores
      ∧ ((s.cmpU c m).ready = true → s.Follows t c m) := by
  have hunit := State.cmpU_dacStands (s := s) (c := c) (m := m)
  have hst : (s.dacStands c m).rbit (pgCmp c) (Reg.CMP_ST m) 7 = false := State.rbit_setBit_same hc _ _ (by decide) false
  have hmid : (s.dacStands c m).reg (pgCmp c) Reg.CMP_STARTMID = s.reg (pgCmp c) Reg.CMP_STARTMID :=
    s.reg_setBit_other _ _ _ _ 7 false (regKey_ne_of_off _ (by simp [Reg.CMP_STARTMID, Reg.CMP_ST]; omega))
  have hcu : (s.dacStands c m).canonical = true := State.canonical_setBit hc _ _ _ _
  have hfollow : State.CmpActs c (fun _ => False) (s.dacStands c m) ((s.dacStands c m).cmpFollow c m) := .cmpFollow _ id
  have hlatch : State.Latched c ((s.dacStands c m).cmpFollow c m) t := ht ▸ .latchSee
  have halike := hfollow.alike.trans hlatch.alike
  obtain ⟨-, -, hown⟩ := cmpSettings_own m
  obtain ⟨hmem, hcores, -⟩ := hlatch.units
  obtain ⟨hmem', hcores', -⟩ := hfollow.units
  refine ⟨?_, ?_, hmem.trans hmem', hcores.trans hcores', fun hr => ?_⟩
  · rw [State.rbit_congr (halike.regs (pgCmp c) _ hown), hst]
  · rw [(halike.errs m).2, hunit]
  · refine (hlatch.follows (State.follows_cmpFollow hcu (by rw [hunit]; exact hr))).of_states ?_ ?_ fun i _ => State.rbit_congr hmid i
    · rw [hunit]
    · rw [hunit]

end

end Sys2Proof.Machine
end

section
/-! SUPPORT. Accesses to the page of a cluster's comparators: their settings, their thresholds and the readback's requests (R153 to R155, R157 to R159). -/

namespace Sys2Proof.Machine

/-! ## The page -/

section
variable {s : State} {x : Access} {c : Fin 8}

/-- A write that reaches the page of the comparators, past its header, is what the block does with it while their domain is on. -/
theorem State.cmpWrite_reaches {s1 : State} (h : s.Reaches x (pgCmp c) s1) (hp : s1.pagePowered (pgCmp c) = true) {off : Nat}
    (ho : off / 4 * 4 = off) (hb : 0x40 ≤ off) {v mask : Word} {t : State} (ht : s1.cmpWriteReg c off v mask = t) (hd : t.dma = s1.dma) :
    s.regWrite x.by_ x.m (pgCmp c) off v mask = t.wrote := by
  have hw : s1.pageWrite x.by_ x.m (pgCmp c) off v mask = t := by
    unfold State.pageWrite
    simp only [ho]
    rw [if_neg (by rw [hp]; simp [pgCmp]), if_neg (by simp; omega)]
    show s1.cmpWriteReg (clu c.val) off v mask = t
    rw [clu_val]
    exact ht
  rw [State.regWrite_reaches h off v mask (by rw [hw, hd]), hw]

/-- The page is powered as the comparators' domain is (R157). -/
theorem State.pagePowered_cmp (s : State) (c : Fin 8) : s.pagePowered (pgCmp c) = s.domOn (67 + 5 * c.val) := by
  show s.domOn (67 + 5 * (c.val % 8)) = _
  rw [Nat.mod_eq_of_lt c.isLt]

theorem arrIdx_cmpCtl (m : Fin 12) : arrIdx 0x100 0x20 12 (Reg.CMP_CTL m) = some m := by
  revert m; decide

theorem arrIdx_cmpThr (m : Fin 12) : arrIdx 0x100 0x20 12 (Reg.CMP_THR m) = none ∧ arrIdx 0x104 0x20 12 (Reg.CMP_THR m) = some m := by
  revert m; decide

theorem cmpReg_plain {off : Nat} (h : 0x100 ≤ off) : ¬(off = Reg.CMP_LATH ∨ off = Reg.CMP_LATL) ∧ off ≠ Reg.CMP_RB_CMD := by
  simp only [Reg.CMP_LATH, Reg.CMP_LATL, Reg.CMP_RB_CMD]
  omega

theorem State.cmpWriteReg_ctl (hp : s.pagePowered (pgCmp c) = true) (m : Fin 12) (v mask : Word) :
    s.cmpWriteReg c (Reg.CMP_CTL m) v mask = s.cmpCtlWrite c m v mask := by
  have hdom := s.pagePowered_cmp c ▸ hp
  obtain ⟨hlat, hcmd⟩ := cmpReg_plain (off := Reg.CMP_CTL m) (Nat.le_add_right _ _)
  unfold State.cmpWriteReg
  simp only
  rw [if_neg (by simp [hdom]), if_neg hlat, if_neg hcmd, arrIdx_cmpCtl]

theorem State.cmpWriteReg_thr (hp : s.pagePowered (pgCmp c) = true) (m : Fin 12) (v mask : Word) :
    s.cmpWriteReg c (Reg.CMP_THR m) v mask = s.cmpThrWrite c m v mask := by
  have hdom := s.pagePowered_cmp c ▸ hp
  obtain ⟨hlat, hcmd⟩ := cmpReg_plain (off := Reg.CMP_THR m) (by unfold Reg.CMP_THR; omega)
  obtain ⟨hnot, hidx⟩ := arrIdx_cmpThr m
  unfold State.cmpWriteReg
  simp only
  rw [if_neg (by simp [hdom]), if_neg hlat, if_neg hcmd, hnot]
  simp only
  rw [hidx]

theorem rbCmd_bits (d : Fin 24) : bitOf (w32 (256 + d)) 8 = true ∧ bitsOf (w32 (256 + d)) 4 0 = d := by
  revert d; decide

theorem State.cmpWriteReg_rbCmd (hp : s.pagePowered (pgCmp c) = true) (d : Fin 24) :
    s.cmpWriteReg c Reg.CMP_RB_CMD (w32 (256 + d)) 0xFFFFFFFF = s.rbRequest c d := by
  have hdom := s.pagePowered_cmp c ▸ hp
  obtain ⟨hbit, hbits⟩ := rbCmd_bits d
  unfold State.cmpWriteReg
  simp only
  rw [if_neg (by simp [hdom]), if_neg (by decide), if_pos trivial]
  simp only [and_allLanes]
  rw [dif_pos ⟨hbit, by omega⟩]
  exact congrArg (s.rbRequest c) (Fin.ext hbits)

end

/-! ## The settings of a comparator (R154) -/

section
variable {s : State} {c : Fin 8} {m : Fin 12} {v mask : Word}

/-- A write changes the fields of an open register under the lanes. -/
theorem State.busReg_cmpCtl (ho : s.Open (pgCmp c)) : s.busReg (pgCmp c) (Reg.CMP_CTL m) v mask
    = s.setReg (pgCmp c) (Reg.CMP_CTL m) ((s.reg (pgCmp c) (Reg.CMP_CTL m) &&& ~~~(mask &&& 0xFFF)) ||| (v &&& mask &&& 0xFFF)) :=
  State.busReg_plain (d := ⟨Reg.CMP_CTL 0, 32, 12, 0x0, [⟨0, 0, .rwl⟩, ⟨5, 1, .rwl⟩, ⟨7, 6, .rwl⟩, ⟨9, 8, .rwl⟩, ⟨10, 10, .rwl⟩, ⟨11, 11, .rwl⟩]⟩)
    (by fin_cases m <;> rfl) (by simp [Field.plain]) ho v mask

theorem State.busReg_cmpThr (ho : s.Open (pgCmp c)) : s.busReg (pgCmp c) (Reg.CMP_THR m) v mask
    = s.setReg (pgCmp c) (Reg.CMP_THR m) ((s.reg (pgCmp c) (Reg.CMP_THR m) &&& ~~~(mask &&& 0x0FFF0FFF)) ||| (v &&& mask &&& 0x0FFF0FFF)) :=
  State.busReg_plain (d := ⟨Reg.CMP_THR 0, 32, 12, 0xFFF, [⟨11, 0, .rwl⟩, ⟨27, 16, .rwl⟩]⟩) (by fin_cases m <;> rfl) (by simp [Field.plain]) ho v mask

/-- The settings of a comparator that is enabled with `old` become `n`, but its selection stays, and the attempt is told. -/
def State.ctlKept (s : State) (c : Fin 8) (m : Fin 12) (old n : Word) : State :=
  if bitsOf n 9 1 = bitsOf old 9 1 then s.setReg (pgCmp c) (Reg.CMP_CTL m) n
  else (s.setReg (pgCmp c) (Reg.CMP_CTL m) (putBits n 9 1 (bitsOf old 9 1))).raise (pgCmp c) 2

theorem State.ctlKept_units (old n : Word) : (s.ctlKept c m old n).mem = s.mem ∧ (s.ctlKept c m old n).cores = s.cores
    ∧ (s.ctlKept c m old n).dma = s.dma := by
  unfold State.ctlKept
  split <;> exact ⟨rfl, rfl, rfl⟩

theorem State.canonical_ctlKept (hc : s.canonical = true) (old n : Word) : (s.ctlKept c m old n).canonical = true := by
  unfold State.ctlKept
  split
  · exact State.canonical_setReg hc _ _ _
  · exact State.canonical_raise (State.canonical_setReg hc _ _ _) _ _

theorem State.rbit_ctlKept (hc : s.canonical = true) (old n : Word) : (s.ctlKept c m old n).rbit (pgCmp c) (Reg.CMP_CTL m) 0 = bitOf n 0 := by
  have hset : ∀ w, (s.setReg (pgCmp c) (Reg.CMP_CTL m) w).rbit (pgCmp c) (Reg.CMP_CTL m) 0 = bitOf w 0 := fun w => by
    unfold State.rbit; rw [State.reg_setReg_same hc]
  unfold State.ctlKept
  split
  · exact hset n
  · have hother : regKey (pgCmp c) (Reg.CMP_CTL m) ≠ regKey (pgCmp c) Reg.PAGE_IRQ_STAT := regKey_ne_of_off _ (by
      simp [Reg.CMP_CTL, Reg.PAGE_IRQ_STAT]; omega)
    rw [State.rbit_congr (State.reg_raise_other _ 2 hother), hset]
    exact bitOf_putBits_other n (by omega) _

variable (hc : s.canonical = true) {old n : Word} (hold : s.reg (pgCmp c) (Reg.CMP_CTL m) = old)
  (hbus : s.busReg (pgCmp c) (Reg.CMP_CTL m) v mask = s.setReg (pgCmp c) (Reg.CMP_CTL m) n)
include hold hbus

theorem State.cmpCtlWrite_off (h : bitOf old 0 = false) : s.cmpCtlWrite c m v mask = s.setReg (pgCmp c) (Reg.CMP_CTL m) n := by
  unfold State.cmpCtlWrite
  simp only [hbus, hold, h, Bool.false_and, Bool.false_eq_true, if_false]

include hc

/-- A write to an enabled comparator leaves its selection, and may disable it. -/
theorem State.cmpCtlWrite_on (h : bitOf old 0 = true) :
    s.cmpCtlWrite c m v mask = if bitOf n 0 then s.ctlKept c m old n else (s.ctlKept c m old n).cmpOff c m := by
  have hkept : (if (bitOf old 0 && (s.setReg (pgCmp c) (Reg.CMP_CTL m) n).fld (pgCmp c) (Reg.CMP_CTL m) 9 1 != bitsOf old 9 1) = true
      then ((s.setReg (pgCmp c) (Reg.CMP_CTL m) n).setFld (pgCmp c) (Reg.CMP_CTL m) 9 1 (bitsOf old 9 1)).raise (pgCmp c) 2
      else s.setReg (pgCmp c) (Reg.CMP_CTL m) n) = s.ctlKept c m old n := by
    rw [State.fld_setReg_same hc, State.setFld_setReg hc, h]
    unfold State.ctlKept
    by_cases he : bitsOf n 9 1 = bitsOf old 9 1 <;> simp [he]
  unfold State.cmpCtlWrite
  simp only [hbus, hold, hkept, State.rbit_ctlKept hc]
  rw [h]
  cases bitOf n 0 <;> rfl

end

/-! ## The thresholds (R155) -/

section
variable {s : State} (hc : s.canonical = true) {c : Fin 8} {m : Fin 12} {v mask th act : Word}
  (hbus : s.busReg (pgCmp c) (Reg.CMP_THR m) v mask = s.setReg (pgCmp c) (Reg.CMP_THR m) th)
include hbus

/-- While the carrier counts, a threshold may wait for the valley. -/
theorem State.cmpThrWrite_waits (hv : s.rbit (pgCmp c) (Reg.CMP_CTL m) 11 = true) (hcar : s.counting c = true) :
    s.cmpThrWrite c m v mask = (s.setReg (pgCmp c) (Reg.CMP_THR m) th).modCmp c m (fun u => { u with thrPend := some (s.time.clk / 8) }) := by
  unfold State.cmpThrWrite
  simp only [hbus]
  exact if_pos (by simp [hv, hcar])

include hc

/-- Else it passes at once, and moves the DACs where it is another. -/
theorem State.cmpThrWrite_passes (h : s.rbit (pgCmp c) (Reg.CMP_CTL m) 11 = false ∨ s.counting c = false)
    (hact : s.reg (pgCmp c) (Reg.CMP_THR_ACT m) = act) {u : State}
    (hu : (s.setReg (pgCmp c) (Reg.CMP_THR m) th).modCmp c m (fun u => { u with thrPend := none }) = u) :
    s.cmpThrWrite c m v mask = if th = act then u
      else ((u.modCmp c m (·.leave act (s.rbit (pgCmp c) (Reg.CMP_ST m) 7))).setReg (pgCmp c) (Reg.CMP_THR_ACT m) th).setBit (pgCmp c) (Reg.CMP_ST m) 7 true := by
  have hother : ∀ o, o % 4096 ≠ Reg.CMP_THR m % 4096 → (s.setReg (pgCmp c) (Reg.CMP_THR m) th).reg (pgCmp c) o = s.reg (pgCmp c) o := fun o ho =>
    State.reg_setReg_other s _ _ _ _ th (regKey_ne_of_off _ ho)
  have hst : (s.setReg (pgCmp c) (Reg.CMP_THR m) th).rbit (pgCmp c) (Reg.CMP_ST m) 7 = s.rbit (pgCmp c) (Reg.CMP_ST m) 7 :=
    State.rbit_congr (hother _ (by unfold Reg.CMP_ST Reg.CMP_THR; omega)) 7
  have hkept : (s.setReg (pgCmp c) (Reg.CMP_THR m) th).reg (pgCmp c) (Reg.CMP_THR_ACT m) = act :=
    (hother _ (by unfold Reg.CMP_THR_ACT Reg.CMP_THR; omega)).trans hact
  unfold State.cmpThrWrite
  simp only [hbus]
  rw [if_neg (by rcases h with h | h <;> simp [h])]
  unfold State.dacMove
  simp only [State.reg_setReg_same hc, hkept, hst, hu]

end

/-! ## Requests for a readback (R158, R159) -/

section
variable {s : State} {c : Fin 8} (d : Fin 24)

theorem State.rbRequest_free (hp : (s.rb c).pend = none) (hr : (s.rb c).running = false) :
    s.rbRequest c d = s.modRb c (fun r => { r with pend := some d, byWalk := false, ticks := 0, starved := false }) :=
  if_neg (by simp [hp, hr])

theorem State.rbRequest_busy (h : (s.rb c).pend.isSome = true ∨ (s.rb c).running = true) :
    s.rbRequest c d = if (s.rb c).byWalk && (s.rb c).manual.isNone then s.modRb c (fun r => { r with manual := some (d, 0, false) }) else s :=
  if_pos (by simpa using h)

end

end Sys2Proof.Machine
end

section
/-! SUPPORT. The readback unit: a conversion that is checked, the walk, requests that starve (R158 to R160). -/

namespace Sys2Proof.Machine

section
variable (s : State) (c : Fin 8)

theorem State.modRb_congr {f g : Readback → Readback} (h : f (s.rb c) = g (s.rb c)) : s.modRb c f = s.modRb c g :=
  congrArg (fun r => { s with clusters := s.clusters.set c { s.clusters[c] with rb := r } }) h

theorem State.modRb_modRb (f g : Readback → Readback) : (s.modRb c f).modRb c g = s.modRb c (fun r => g (f r)) := by
  simp [State.modRb, State.modC]

theorem State.modRb_self {s : State} {c : Fin 8} {f : Readback → Readback} (h : f (s.rb c) = s.rb c) : s.modRb c f = s :=
  State.modC_self (congrArg (fun r => { s.clusters[c] with rb := r }) h)

@[simp] theorem State.rb_modRb (f : Readback → Readback) : (s.modRb c f).rb c = f (s.rb c) := by
  simp only [State.rb, State.modRb, State.modC_clusters_get]

@[simp] theorem State.adc_modRb (j : Fin 8) (f : Readback → Readback) : (s.modRb c f).adc c j = s.adc c j := by
  simp only [State.adc, State.modRb, State.modC_clusters_get]

@[simp] theorem State.rb_modAdc (j : Fin 8) (f : AdcCore → AdcCore) : (s.modAdc c j f).rb c = s.rb c := by
  simp only [State.rb, State.modAdc, State.modC_clusters_get]

end

theorem State.rb_congr {s t : State} (h : t.clusters = s.clusters) (c : Fin 8) : t.rb c = s.rb c := by
  unfold State.rb; rw [h]

/-! ## A readback completes (R158) -/

/-- The unit after a readback: a manual request that waited is the pending one. -/
def Readback.over (r : Readback) : Readback :=
  { r with
    pend := r.manual.map (fun q => q.1), manual := none, byWalk := false, running := false
    ticks := match r.manual with | some q => q.2.1 | none => 0, starved := match r.manual with | some q => q.2.2 | none => false }

/-- Core `j`'s conversion is over, and its code and what it says of DAC `d` stand in their registers. -/
def State.rbCoded (s : State) (c j : Fin 8) (d : Fin 24) (code : Nat) (fail : Bool) : State :=
  ((s.draw.modAdc c j (fun a => { a with conv := none })).setReg (pgAdc c j) Reg.ADC_LAST (w32 (code + 2 ^ 22))).setReg (pgCmp c) Reg.CMP_RB_RES
    (w32 (code + d.val * 2 ^ 16 + b2n fail * 2 ^ 21 + 2 ^ 22))

/-- A readback of DAC `d` is told, and that it failed. -/
def State.rbTold (s : State) (c : Fin 8) (d : Fin 24) (fail : Bool) : State :=
  let s3 := s.raise (pgCmp c) 3
  if fail then (s3.stick (pgCmp c) Reg.CMP_RB_FAILSEEN d).raise (pgCmp c) 4 else s3

section
variable {s : State} {c : Fin 8} {d : Fin 24} {fail : Bool}

theorem State.rbTold_units : (s.rbTold c d fail).time = s.time ∧ (s.rbTold c d fail).mem = s.mem ∧ (s.rbTold c d fail).cores = s.cores
    ∧ (s.rbTold c d fail).clusters = s.clusters := by
  cases fail <;> simp [State.rbTold]

theorem State.reg_rbTold : (s.rbTold c d fail).reg (pgCmp c) Reg.CMP_RB_RES = s.reg (pgCmp c) Reg.CMP_RB_RES := by
  have hirq : ∀ (u : State) b, (u.raise (pgCmp c) b).reg (pgCmp c) Reg.CMP_RB_RES = u.reg (pgCmp c) Reg.CMP_RB_RES := fun u b =>
    u.reg_raise_other b (regKey_ne_of_off _ (by decide))
  cases fail with
  | false => exact hirq s 3
  | true => exact (hirq _ 4).trans ((State.reg_stick_other _ d (regKey_ne_of_off _ (by decide))).trans (hirq s 3))

theorem State.rbit_rbTold (hc : s.canonical = true) : (s.rbTold c d fail).rbit (pgCmp c) Reg.PAGE_IRQ_STAT 3 = true
    ∧ (fail = true → (s.rbTold c d fail).rbit (pgCmp c) Reg.CMP_RB_FAILSEEN d = true ∧ (s.rbTold c d fail).rbit (pgCmp c) Reg.PAGE_IRQ_STAT 4 = true) := by
  have hdone := State.rbit_raise_same hc (pgCmp c) (b := 3) (by decide)
  have hc3 := State.canonical_raise hc (pgCmp c) 3
  have hc4 := State.canonical_stick hc3 (pgCmp c) Reg.CMP_RB_FAILSEEN d
  cases fail with
  | false => exact ⟨hdone, nofun⟩
  | true =>
    have hfailed := State.rbit_stick_same hc3 (pgCmp c) Reg.CMP_RB_FAILSEEN (i := d) (by omega)
    have hseen := State.rbit_stick_stays hc3 (pgCmp c) Reg.CMP_RB_FAILSEEN d (by decide : 3 < 32) (.inr (by decide)) hdone
    exact ⟨State.rbit_stick_stays hc4 (pgCmp c) Reg.PAGE_IRQ_STAT 4 (by decide) (.inl rfl) hseen, fun _ =>
      ⟨State.rbit_stick_stays hc4 (pgCmp c) Reg.PAGE_IRQ_STAT 4 (by omega) (.inr (by decide)) hfailed, State.rbit_raise_same hc4 _ (by decide)⟩⟩

theorem State.rbCoded_units (j : Fin 8) (code : Nat) : (s.rbCoded c j d code fail).time = s.time ∧ (s.rbCoded c j d code fail).mem = s.mem
    ∧ (s.rbCoded c j d code fail).cores = s.cores
    ∧ (s.rbCoded c j d code fail).clusters = (s.draw.modAdc c j (fun a => { a with conv := none })).clusters := ⟨rfl, rfl, rfl, rfl⟩

theorem State.canonical_rbCoded (hc : s.canonical = true) (j : Fin 8) (code : Nat) : (s.rbCoded c j d code fail).canonical = true :=
  State.canonical_setReg (State.canonical_setReg (State.canonical_modAdc (s := s.draw) hc c j (fun a => { a with conv := none })) _ _ _) _ _ _

theorem State.reg_rbCoded (hc : s.canonical = true) (j : Fin 8) (code : Nat) : (s.rbCoded c j d code fail).reg (pgCmp c) Reg.CMP_RB_RES
    = w32 (code + d.val * 2 ^ 16 + b2n fail * 2 ^ 21 + 2 ^ 22) :=
  State.reg_setReg_same (State.canonical_setReg (State.canonical_modAdc (s := s.draw) hc c j (fun a => { a with conv := none })) _ _ _) _ _ _

theorem State.rbDone_idle (h : s.rbCore c = none) : s.rbDone c = s := by
  unfold State.rbDone; rw [h]

/-- The conversion is over at its end, and its code and what it says of the DAC are told. -/
theorem State.rbDone_effect {j : Fin 8} {w : Conv} {e : Fin 24} (h : s.rbCore c = some (j, w, e)) (hc : s.canonical = true)
    {code : Nat} (hcode : s.adcCode c j w.nominal w.tS = code) {fail : Bool}
    (hfail : decide (s.fld (pgCmp c) Reg.CMP_RB_CTL 15 4 < (if code < 16 * s.dacSetting c e then 16 * s.dacSetting c e - code
      else code - 16 * s.dacSetting c e)) = fail) {t : State} (ht : s.rbDone c = t) :
    (t.adc c j).conv = none ∧ t.rb c = (s.rb c).over
      ∧ t.reg (pgCmp c) Reg.CMP_RB_RES = w32 (code + e.val * 2 ^ 16 + b2n fail * 2 ^ 21 + 2 ^ 22) ∧ t.rbit (pgCmp c) Reg.PAGE_IRQ_STAT 3 = true
      ∧ (fail = true → t.rbit (pgCmp c) Reg.CMP_RB_FAILSEEN e = true ∧ t.rbit (pgCmp c) Reg.PAGE_IRQ_STAT 4 = true)
      ∧ t.time.clk = max s.time.clk (w.endAt / 16) ∧ t.mem = s.mem ∧ t.cores = s.cores := by
  obtain ⟨v, hv, hclk, hmem, hcores, hcl⟩ := s.advance_units w.endAt
  have hcv : v.canonical = true := hv ▸ State.canonical_advance hc w.endAt
  have hcv : v.canonical = true := hv ▸ State.canonical_advance hc w.endAt
  have he : t = ((v.rbCoded c j e code fail).rbTold c e fail).modRb c Readback.over := by
    rw [← ht, ← hv, ← hcode, ← hfail, ← hcode]
    unfold State.rbDone
    rw [h]
    rfl
  obtain ⟨htime, hmem', hcores', hcl'⟩ := State.rbCoded_units (s := v) (c := c) (d := e) (fail := fail) j code
  have hcu := State.canonical_rbCoded (c := c) (d := e) (fail := fail) hcv j code
  have hres := State.reg_rbCoded (c := c) (d := e) (fail := fail) hcv j code
  obtain ⟨u, hu⟩ : ∃ u, v.rbCoded c j e code fail = u := ⟨_, rfl⟩
  rw [hu] at he htime hmem' hcores' hcl' hcu hres
  obtain ⟨htoldTime, htoldMem, htoldCores, htoldCl⟩ := State.rbTold_units (s := u) (c := c) (d := e) (fail := fail)
  obtain ⟨hdone, hfailed⟩ := State.rbit_rbTold (c := c) (d := e) (fail := fail) hcu
  subst he
  refine ⟨?_, ?_, State.reg_rbTold.trans hres, hdone, hfailed, ?_, ?_, ?_⟩
  · rw [State.adc_modRb, State.adc_congr (htoldCl.trans hcl'), State.adc_modAdc]
  · rw [State.rb_modRb, State.rb_congr (htoldCl.trans hcl'), State.rb_modAdc]
    exact congrArg Readback.over (State.rb_congr (t := v.draw) hcl c)
  · exact (congrArg TimeBase.clk (htoldTime.trans htime)).trans hclk
  · exact htoldMem.trans (hmem'.trans hmem)
  · exact htoldCores.trans (hcores'.trans hcores)

end

/-! ## The walk (R159) -/

section
variable {s : State} {c : Fin 8}

/-- No time that passes is no change. -/
theorem State.advance_now (s : State) : s.advance s.now = s := by
  have hn : s.now / Config.stepsPerClk - s.time.clk = 0 := by
    unfold State.now Config.stepsPerClk; omega
  have htime : s.time.setDtb s.dtb = s.time := by
    have hns : s.dtb / 2 ^ 32 = s.time.ns.toNat := by
      have := s.time.frac.isLt
      unfold State.dtb; omega
    have hfrac : BitVec.ofNat 32 s.dtb = s.time.frac := BitVec.eq_of_toNat_eq (by
      have := s.time.frac.isLt
      rw [BitVec.toNat_ofNat]
      unfold State.dtb; omega)
    unfold TimeBase.setDtb
    rw [hns, hfrac, BitVec.ofNat_toNat, BitVec.setWidth_eq]
  unfold State.advance
  rw [hn, State.edges_eq]
  have hwrap : decide (2 ^ 96 ≤ s.dtb + 0 * s.inc) = false := decide_eq_false (by have := s.dtb_lt; omega)
  rw [hwrap]
  show s.counted 0 = s
  unfold State.counted
  rw [Nat.zero_mul, Nat.add_zero, htime]
  rfl

theorem State.rbWalk_idle (h : s.rbit (pgCmp c) Reg.CMP_RB_CTL 0 = false ∨ s.domOn (67 + 5 * c.val) = false ∨ s.walkDue c = none) :
    s.rbWalk c = s := by
  unfold State.rbWalk
  cases hd : s.walkDue c with
  | none => rfl
  | some t => exact if_pos (by rcases h with h | h | h <;> simp_all)

/-- The first element of a search that starts at it. -/
theorem find?_finRange_of_le {n : Nat} {ok : Fin n → Bool} {d : Fin n} (h : ok d = true) :
    (List.finRange n).find? (fun e => decide (d.val ≤ e.val) && ok e) = some d := by
  rw [List.find?_eq_some_iff_getElem]
  refine ⟨by simp [h], d, by simp, by simp, fun j hj => ?_⟩
  have hlt : j < d.val := hj
  simp
  omega

/-- A step of the walk that falls due at `τ` requests the next DAC. -/
theorem State.rbWalk_step {d : Fin 24} {τ : Nat} (hτ : s.walkDue c = some τ) (hen : s.rbit (pgCmp c) Reg.CMP_RB_CTL 0 = true)
    (hdom : s.domOn (67 + 5 * c.val) = true) (hp : (s.rb c).pend = none) (hr : (s.rb c).running = false) (hd : (s.rb c).next = d)
    (hok : s.rbit (pgCmp c) (Reg.CMP_CTL (cmpOfDac d)) 0 = true) :
    s.rbWalk c = (s.advance τ).modRb c (fun r =>
      { r with walk := 0, walkAt := max τ s.now, pend := some d, byWalk := true, ticks := 0, starved := false, next := d.val + 1 }) := by
  have hfind := find?_finRange_of_le (ok := fun e => s.rbit (pgCmp c) (Reg.CMP_CTL (cmpOfDac e)) 0) hok
  unfold State.rbWalk
  simp only [hτ, hd, hfind, hp, hr]
  rw [if_neg (by simp [hen, hdom]), if_neg (by simp), State.modRb_modRb]

theorem State.walkDue_ticking (h : s.ticking c = true) (hw : max 1 (s.fld (pgCmp c) Reg.CMP_RB_CTL 31 16) ≤ (s.rb c).walk) :
    s.walkDue c = some s.now := by
  unfold State.walkDue
  simp only [h, if_true, if_pos hw]

theorem State.walkDue_still (h : s.ticking c = false) :
    s.walkDue c = some ((s.rb c).walkAt + max 1 (s.fld (pgCmp c) Reg.CMP_RB_CTL 31 16) * 25600) := by
  unfold State.walkDue
  simp only [h, Bool.false_eq_true, if_false]
  rfl

end

/-! ## Requests that starve (R160) -/

/-- A request that starves is counted and told. -/
def State.starveTold (s : State) (c : Fin 8) (b : Bool) : State :=
  if b then (s.count (pgCmp c) Reg.CMP_RB_STARV_CNT 15 0).raise (pgCmp c) 5 else s

/-- The pending request, and the manual one that waits, are marked as they starve. -/
def Readback.starve (r : Readback) (one two : Bool) : Readback :=
  { r with starved := r.starved || one, manual := r.manual.map (fun q => (q.1, q.2.1, q.2.2 || two)) }

/-- The pending request starves now. -/
def Readback.starves (r : Readback) : Bool := r.pend.isSome && !r.running && decide (64 ≤ r.ticks) && !r.starved

/-- The manual request that waits starves now. -/
def Readback.waitStarves (r : Readback) : Bool := match r.manual with | some q => decide (64 ≤ q.2.1) && !q.2.2 | none => false

section
variable {s : State} {c : Fin 8}

theorem State.rbStarved_eq {one two : Bool} (h1 : (s.rb c).starves = one) (h2 : (s.rb c).waitStarves = two) :
    s.rbStarved c = ((s.modRb c (·.starve one two)).starveTold c one).starveTold c two := by
  subst h1 h2; rfl

theorem State.rbStarved_pending (hm : (s.rb c).manual = none) (hp : (s.rb c).pend.isSome = true) (hr : (s.rb c).running = false)
    (ht : 64 ≤ (s.rb c).ticks) (hs : (s.rb c).starved = false) :
    s.rbStarved c = ((s.modRb c (fun r => { r with starved := true })).count (pgCmp c) Reg.CMP_RB_STARV_CNT 15 0).raise (pgCmp c) 5 := by
  have hmod : s.modRb c (·.starve true false) = s.modRb c (fun r => { r with starved := true }) := s.modRb_congr c (by
    simp [Readback.starve, hm])
  rw [State.rbStarved_eq (one := true) (two := false) (by simp [Readback.starves, hp, hr, ht, hs]) (by simp [Readback.waitStarves, hm]), hmod]
  rfl

theorem State.rbStarved_idle (hm : (s.rb c).manual = none)
    (h : (s.rb c).pend = none ∨ (s.rb c).running = true ∨ (s.rb c).ticks < 64 ∨ (s.rb c).starved = true) : s.rbStarved c = s := by
  have hno : (s.rb c).starves = false := by
    unfold Readback.starves
    rcases h with h | h | h | h <;> simp [h]
  have hmod : s.modRb c (·.starve false false) = s := State.modRb_self (by
    unfold Readback.starve
    rw [hm, Bool.or_false]
    simp [← hm])
  rw [State.rbStarved_eq hno (two := false) (by simp [Readback.waitStarves, hm]), hmod]
  rfl

theorem State.rbStarved_manual {e : Fin 24} {n : Nat} (hm : (s.rb c).manual = some (e, n, false)) (hn : 64 ≤ n) (hr : (s.rb c).running = true) :
    s.rbStarved c = ((s.modRb c (fun r => { r with manual := some (e, n, true) })).count (pgCmp c) Reg.CMP_RB_STARV_CNT 15 0).raise (pgCmp c) 5 := by
  have hmod : s.modRb c (·.starve false true) = s.modRb c (fun r => { r with manual := some (e, n, true) }) := s.modRb_congr c (by
    simp [Readback.starve, hm])
  rw [State.rbStarved_eq (one := false) (two := true) (by simp [Readback.starves, hr]) (by simp [Readback.waitStarves, hm, hn]), hmod]
  rfl

end

end Sys2Proof.Machine
end

section
/-! THE SETTLEMENT of the statement on comparators. -/

namespace Sys2Proof.Machine

theorem exec_cmpStateChange (c : Fin 8) (m : Fin 12) (l : PinLevel) (h lo y : Int) (s : State) :
    exec (.cmpStateChange c m l h lo y) s = .next (s.cmpLevel c m l.nV ⟨h, lo, y⟩ l.brief) := rfl
theorem exec_cmpReady (c : Fin 8) (m : Fin 12) (v h l y : Int) (s : State) :
    exec (.cmpReady c m v h l y) s = .next (s.cmpReady c m v ⟨h, l, y⟩) := rfl
theorem exec_dacSettled (c : Fin 8) (m : Fin 12) (s : State) : exec (.dacSettled c m) s = .next (s.dacSettled c m) := rfl
theorem exec_rbDone (c : Fin 8) (s : State) : exec (.rbDone c) s = .next (s.rbDone c) := rfl
theorem exec_rbWalkStep (c : Fin 8) (s : State) : exec (.rbWalkStep c) s = .next (s.rbWalk c) := rfl
theorem exec_rbStarved (c : Fin 8) (s : State) : exec (.rbStarved c) s = .next (s.rbStarved c) := rfl

section
variable {s s1 : State} {x : Access} {c : Fin 8} (h : s.Reaches x (pgCmp c) s1) (hp : s1.pagePowered (pgCmp c) = true) {t : State}
include h hp

/-- Each access that reaches the powered page is what the block does with it. -/
theorem State.exec_cmpCtlWrite {m : Fin 12} {v mask : Word} (ht : s1.cmpCtlWrite c m v mask = t) (hd : t.dma = s1.dma) :
    exec (.cmpCtlWrite x c m v mask) s = .next t.wrote :=
  congrArg Host.Outcome.next (State.cmpWrite_reaches h hp (by unfold Reg.CMP_CTL; omega) (by unfold Reg.CMP_CTL; omega)
    ((State.cmpWriteReg_ctl hp m v mask).trans ht) hd)
theorem State.exec_cmpThrWrite {m : Fin 12} {v mask : Word} (ht : s1.cmpThrWrite c m v mask = t) (hd : t.dma = s1.dma) :
    exec (.cmpThrWrite x c m v mask) s = .next t.wrote :=
  congrArg Host.Outcome.next (State.cmpWrite_reaches h hp (by unfold Reg.CMP_THR; omega) (by unfold Reg.CMP_THR; omega)
    ((State.cmpWriteReg_thr hp m v mask).trans ht) hd)
theorem State.exec_cmpRbCmdReq {d : Fin 24} (ht : s1.rbRequest c d = t) (hd : t.dma = s1.dma) : exec (.cmpRbCmdReq x c d) s = .next t.wrote :=
  congrArg Host.Outcome.next (State.cmpWrite_reaches h hp rfl (by decide) ((State.cmpWriteReg_rbCmd hp d).trans ht) hd)

end

/-- Settles O43: the pin's comparators follow one by one, then their latches; a comparator becomes ready or not; the accesses to an open page;
settled DACs; the readback's end, its walk and its starved requests. -/
theorem comparators : Obligations.Comparators := by
  intro x c m d s s1 v mask level h l y brief
  simp only [exec_cmpStateChange, exec_cmpReady, exec_dacSettled, exec_rbDone, exec_rbWalkStep, exec_rbStarved, Host.Outcome.next.injEq]
  refine ⟨fun hc => ?_, State.cmpReady_idle, fun hen hr hdom hc => ⟨_, rfl, State.cmpReady_effect hc hen hr hdom rfl⟩, fun hreach hp ho => ?_,
    ⟨State.dacSettled_idle, fun hc => ⟨_, rfl, State.dacSettled_effect hc rfl⟩⟩, State.rbDone_idle, fun j w e hcore hc hraw => ?_,
    State.rbWalk_idle, fun hen hdom hpend hrun hnext hok => ?_, fun hm => ?_, fun e n hm hn hr => State.rbStarved_manual hm hn hr⟩
  · obtain ⟨t, ht⟩ : ∃ t, s.cmpLevel c m level ⟨h, l, y⟩ brief = t := ⟨_, rfl⟩
    obtain ⟨hmem, hcores⟩ := State.cmpLevel_units ht
    exact ⟨t, ht, hmem, hcores, State.cmpLevel_view ht, State.cmpLevel_err ht, State.cmpLevel_hi ht,
      fun k hpin hr => ⟨State.cmpLevel_follows hc ht k hpin hr, fun hb => State.cmpLevel_latched hc ht hb k⟩, State.cmpLevel_unit ht,
      State.cmpLevel_unlatched hc ht⟩
  · obtain ⟨-, -, -, hc⟩ := id hreach
    refine ⟨fun hoff => State.exec_cmpCtlWrite hreach hp (State.cmpCtlWrite_off rfl (State.busReg_cmpCtl ho) hoff) rfl,
      fun hon hstays => ?_, fun hon hends => ?_,
      fun hv hcar => State.exec_cmpThrWrite hreach hp (State.cmpThrWrite_waits (State.busReg_cmpThr ho) hv hcar) rfl,
      fun hnow => ?_, fun hpend hrun => State.exec_cmpRbCmdReq hreach hp (State.rbRequest_free d hpend hrun) rfl,
      fun hbusy => ⟨fun hno => ?_, fun hwalk hman => ?_⟩⟩
    · have hwrite := State.cmpCtlWrite_on hc rfl (State.busReg_cmpCtl (m := m) (v := v) (mask := mask) ho) hon
      rw [if_pos hstays] at hwrite
      exact State.exec_cmpCtlWrite hreach hp hwrite (State.ctlKept_units _ _).2.2
    · have hwrite := State.cmpCtlWrite_on hc rfl (State.busReg_cmpCtl (m := m) (v := v) (mask := mask) ho) hon
      rw [if_neg (by rw [hends]; decide)] at hwrite
      obtain ⟨hmem, hcores, hdma⟩ := State.ctlKept_units (s := s1) (c := c) (m := m) (s1.reg (pgCmp c) (Reg.CMP_CTL m))
        ((s1.reg (pgCmp c) (Reg.CMP_CTL m) &&& ~~~(mask &&& 0xFFF)) ||| (v &&& mask &&& 0xFFF))
      obtain ⟨⟨hmem', hcores', hdma'⟩, ⟨hr, hh, hl⟩, hmid, hout⟩ := State.cmpOff_effect (m := m) (State.canonical_ctlKept hc _ _) hwrite.symm
      exact ⟨_, State.exec_cmpCtlWrite hreach hp rfl (hdma'.trans hdma), hmem'.trans hmem, hcores'.trans hcores, hr, hh, hl, hmid, hout⟩
    · have hwrite := State.cmpThrWrite_passes hc (State.busReg_cmpThr (m := m) (v := v) (mask := mask) ho) hnow rfl rfl
      refine State.exec_cmpThrWrite hreach hp hwrite ?_
      split <;> rfl
    · refine State.exec_cmpRbCmdReq hreach hp ((State.rbRequest_busy d hbusy).trans (if_neg ?_)) rfl
      rcases hno with hno | hno <;> simp [hno, ← Option.not_isSome]
    · exact State.exec_cmpRbCmdReq hreach hp ((State.rbRequest_busy d hbusy).trans (if_pos (by simp [hwalk, hman]))) rfl
  · obtain ⟨hconv, hrb, hres, hdone, hfailed, hclk, hmem, hcores⟩ := State.rbDone_effect hcore hc (State.adcCode_raw hraw _ _) rfl rfl
    refine ⟨_, rfl, hconv, ?_, ?_, ?_, ?_, hres, hdone, hfailed, hclk, hmem, hcores⟩
    all_goals rw [hrb]; simp only [Readback.over]
    cases (s.rb c).manual <;> rfl
  · refine ⟨fun htick hw => ?_, fun hstill => ?_⟩
    · rw [State.rbWalk_step (State.walkDue_ticking htick hw) hen hdom hpend hrun hnext hok, State.advance_now, Nat.max_self]
    · exact State.rbWalk_step (State.walkDue_still hstill) hen hdom hpend hrun hnext hok
  · exact ⟨State.rbStarved_pending hm, State.rbStarved_idle hm⟩

end Sys2Proof.Machine
end
